-- ==== Sys2Proof/Word.lean ====
section
/-!
DEFINITION. Sys2Proof/Word.lean: the word types of the ZV8640 and their plainest arithmetic (spec/00_scope.md R9, R10).
-/
namespace Sys2Proof

/-- A byte of any memory (R9). -/
abbrev Byte := BitVec 8

/-- A 32-bit register or thread register. -/
abbrev Word32 := BitVec 32

/-- A 64-bit memory word: the unit of AM, PM, WM, IM and CM (R37). -/
abbrev Word64 := BitVec 64

/-- Add `n` to a counter that holds at `max` (every counter the spec calls saturating). -/
def satAdd (max v n : Nat) : Nat := if v + n < max then v + n else max

/-- Bits `[lo + w - 1 : lo]` of a number (R9: bit 0 is the least significant). -/
def bits (x lo w : Nat) : Nat := x / 2 ^ lo % 2 ^ w

/-- Bit `i` of a number. -/
def bit (x i : Nat) : Bool := x / 2 ^ i % 2 == 1

/-- 1 for true, 0 for false. -/
def b2n (b : Bool) : Nat := if b then 1 else 0

/-- `x` with bit `i` set. -/
def setBit (x i : Nat) : Nat := if bit x i then x else x + 2 ^ i

/-- `x` with bit `i` clear. -/
def clearBit (x i : Nat) : Nat := if bit x i then x - 2 ^ i else x

/-- The rounded-up quotient. -/
def ceilDiv (a b : Nat) : Nat := (a + b - 1) / b

end Sys2Proof
end

