-- ==== Sys2Proof/Syntax.lean ====
section
/-!
DEFINITION. Sys2Proof/Syntax.lean: the commands of the ZV8640 with their operands: one constructor of `Instr` per row of
spec/opcode_table.json. The table gives the rows no fields; the operands are those the cited rules name, and what the
rules leave to the outside world (an error-correction outcome, a power or temperature sample, a logit, the verdict of a
signature check) is an operand too.
-/
namespace Sys2Proof

/-- A hardware thread of a core of a physical cluster (R30). -/
structure ThreadId where
  cluster : Fin 34
  core : Fin 64
  thread : Fin 8
deriving DecidableEq, Repr

/-- The outcome of a SECDED check (R41): clean, corrected, or uncorrectable. -/
inductive Ecc where
  | clean | corrected | uncorrectable
deriving DecidableEq, Repr

/-- A stored bit error in a word of a memory of the cluster a command acts on (R41): memory 0 WM, 1 AM, 2 PM, 3 IM of
`core`, 4 CM; one bit (a read corrects it) or two (a read detects it). -/
structure WordErr where
  mem : Fin 5
  core : Fin 64
  word : Nat
  ue : Bool
deriving DecidableEq, Repr

/-- The four memories of a core (R37). -/
inductive CoreMem where
  | wm | am | pm | im
deriving DecidableEq, Repr

/-- A bank of a memory of a cluster (R37, R44): memory 0 WM, 1 AM, 2 PM, 3 IM of `core`, or 4 CM. -/
structure BankId where
  cluster : Fin 34
  mem : Fin 5
  core : Fin 64
  bank : Fin 32
deriving DecidableEq, Repr

/-- What a scalar or control instruction does (R31; the spec gives no encoding of this class, so the operand is the
instruction's effect): write a register, branch, or be an undefined instruction (R36). -/
inductive ScalarCmd where
  | set (rd : Fin 32) (value : BitVec 32)
  | branch (target : BitVec 14)
  | undefined
deriving DecidableEq, Repr

/-- A region of AM of the issuing core, or of CM of its cluster, by byte offset (R115, R136). -/
structure Region where
  inCm : Bool
  offset : Nat
deriving DecidableEq, Repr

/-- What a vector instruction computes, element by element over FP32 (R33, R47, R108; the spec gives the class no
encoding): a sum, product, maximum or fused multiply-add by RNE, a conversion of INT32 or FP32 elements through an output scale set
(`ofmt` codes of R62, 8 for an FP32 output), or an operation whose result the spec does not state (exp, reciprocal, rsqrt,
softmax, layer-norm). -/
inductive VecKind where
  | add | mul | max | fma
  | convert (int : Bool) (ofmt : Fin 16) (qset : Fin 64)
  | unstated
  | undefined
deriving DecidableEq, Repr

/-- A vector instruction: its kind, up to three sources, destination, element count and tag. -/
structure VecCmd where
  kind : VecKind
  a : Region
  b : Region
  c : Region
  dst : Region
  count : Nat
  tag : Fin 8
deriving DecidableEq, Repr

/-- A pixel as three components: R, G, B, or Y, Cb, Cr (R172). -/
structure Pixel where
  a : Nat
  b : Nat
  c : Nat
deriving DecidableEq, Repr

/-- Colorimetry of a received row: RGB, or YCbCr by BT.709 or BT.2020 (R149). -/
inductive Colour where
  | rgb | bt709 | bt2020
deriving DecidableEq, Repr

/-- Chroma sampling of a received row (R149); a 4:2:2 row has chroma in its even columns, a 4:2:0 picture in the even columns of
its even rows. -/
inductive Sampling where
  | s444 | s422 | s420
deriving DecidableEq, Repr

/-- How the components of a received row read (R149, R172). -/
structure PixelKind where
  colour : Colour
  sampling : Sampling
deriving DecidableEq, Repr

/-- Pixels the display DMA takes from the input for a MOVE entry (R164, R172): of frame n_j, or of n_j + 1 (`later`), from a column
of a row on. -/
structure Feed where
  later : Bool
  row : Nat
  col : Nat
deriving DecidableEq, Repr

/-- The DISPLAY_CONFIG structure (R415); `coef`: 64 phases of 8 taps, none when COEF = 0. -/
structure DisplayCfg where
  enable : Bool
  interp : Bool
  dualIn : Bool
  coef : Option (List Int)
  txLanes : Nat
  txRate : Nat
  rxRate : Nat
  hActive : Nat
  vActive : Nat
  hTotal : Nat
  vTotal : Nat
  pixKhz : Nat
  dscBpp : Nat
  dscSlices : Nat
  links : Nat
  depth : Nat
  edp : Bool
  rxLanes : Nat
  iw : Nat
  ih : Nat
  inFrameNs : Nat
  fill : Nat
deriving DecidableEq, Repr

/-- The parameters of DISPLAY_MODE (R414). -/
structure DisplayMode where
  neural : Bool
  force : Bool
  swap : Bool
  p : Nat
  q : Nat
  phi0 : Nat
deriving DecidableEq, Repr


/-- The parameters of STREAM_OPEN (R203, R414). -/
structure StreamOpen where
  ctx : Nat
  port : Nat
  phy : Nat
  lanes : Nat
  rate : Nat
  vc : Nat
  dt : Nat
  w : Nat
  h : Nat
  period : Nat
  ring : Nat
  dropDamaged : Bool
deriving DecidableEq, Repr

/-- The parameters of STREAM_BIND (R204, R414). -/
structure StreamBind where
  ctx : Nat
  handle : Nat
  entry : Nat
  d : Nat
  ring : Nat
  scale : Nat
  pipe : Nat
deriving DecidableEq, Repr

/-- What the memory system found while a segment of a move was read (R41, R43, R262, R293): nothing; an error in a word of
a cluster memory, corrected or not; at a T2 offset a link ECC correction, an uncorrectable read that passed on its retry,
or one that failed it (the word is delivered poisoned); or a poisoned word of flash. -/
inductive SegEvent where
  | ok
  | sram (bank : BankId) (word : Nat) (ue : Bool)
  | linkCorrected (off : Nat)
  | retryPassed (off : Nat)
  | retryFailed (off : Nat)
  | flashPoison
deriving DecidableEq, Repr

/-- A tensor descriptor (R252), field by field. -/
structure Desc where
  src : Nat
  dst : Nat
  srcTier : Nat
  dstTier : Nat
  xform : Nat
  comp : Nat
  flags : Nat
  creditN : Nat
  rsvd : Nat
  e0 : Nat
  e1 : Nat
  e2 : Nat
  e3 : Nat
  s1 : Nat
  s2 : Nat
  s3 : Nat
  d1 : Nat
  d2 : Nat
  d3 : Nat
  arg : Nat
deriving DecidableEq, Repr

/-- What a page read of the weight flash found (R293, R301, R310): corrections of its worst codeword, codewords with more
than 40, the highest retry level used (0: none, at most 8), whether every level failed, whether the page's CRC-32C agrees,
and the logical block and page. -/
structure PageRead where
  worst : Nat
  high : Nat
  level : Fin 9
  ue : Bool
  crcOk : Bool
  lblk : Nat
  page : Fin 256
deriving DecidableEq, Repr

/-- A section of a maquette (R322): its table entry, and whether its tensor is a narrow one with the header of R100. -/
structure Sect where
  ty : Nat
  off : Nat
  narrow : Bool
  comp : Bool
  wm : Bool
  layer : Nat
  len : Nat
  rawLen : Nat
  digest : Nat
deriving DecidableEq, Repr

/-- An entry of an Armature's tick program (R327). -/
inductive ArmEntry where
  | dispatch (cluster core thread im : Nat) (param : BitVec 32)
  | move (desc : Nat)
  | credit (cluster core : Nat) (outSpace : Bool) (count : Nat)
  | segment (line k : Nat) (two : Bool)
  | frame (offset : Nat)
deriving DecidableEq, Repr

/-- An ARMATURE section (R326, R327): header, tick maps (a program number per tick, none for 0xFFFF), tick programs and
tensor descriptors; `formatOk`: nothing in its bytes breaks R326 or R327. -/
structure Armature where
  armId : Nat
  modeIdx : Nat
  clusters : Nat
  haloIn : Nat
  direct : Bool
  rshift : Nat
  inFmt : Nat
  segs : Nat
  hActive : Nat
  vActive : Nat
  hTotal : Nat
  vTotal : Nat
  pixKhz : Nat
  links : Nat
  depth : Nat
  dscBpp : Nat
  dscSlices : Nat
  edp : Bool
  iw : Nat
  ih : Nat
  inPeriod : Nat
  p : Nat
  q : Nat
  proofOp : Nat
  proofUtil : Nat
  proofTick : Nat
  proofCore : Nat
  dramBudget : Nat
  ntick : Nat
  ticks : List Nat
  pzTicks : List Nat
  progs : List (List ArmEntry)
  descs : List Desc
  binding : Nat
  formatOk : Bool
deriving DecidableEq, Repr

/-- A layer's attention settings in the CONFIG section (R225, R226, R233-R235): its window (none: DENSE), KV heads, D, query heads
per KV head, format (BF16, else E4M3), and for E4M3 the FP32 KSCALE and VSCALE of each KV head. -/
structure AttnLayer where
  window : Option Nat
  heads : Nat
  dim : Nat
  group : Nat
  bf16 : Bool
  kscale : List Nat
  vscale : List Nat
deriving DecidableEq, Repr

/-- A maquette's manifest (R321-R325): its header fields, sections, residency order (layer numbers by rank), layer sizes,
entry roles and Armatures, CHUNK, per layer its attention settings, vocabulary size, sum of K + N over the adapted projections (R118); `maqDigest` and `content` are the manifest and the content digest; `keyId` names the signing
key. -/
structure Manifest where
  totalLen : Nat
  kind : Nat
  train : Bool
  shapeCl : Nat
  clBase : Nat
  nmode : Nat
  stripe : Nat
  versionNo : Nat
  maqId : Nat
  castClass : Nat
  keyId : Nat
  maqDigest : Nat
  content : Nat
  sects : List Sect
  order : List Nat
  layers : List Nat
  roles : List Nat
  arms : List Armature
  chunk : Nat
  attention : List AttnLayer
  vocab : Nat
  adaptDims : Nat
deriving DecidableEq, Repr

/-- What the checks of a section or container find: nothing, or the status of R332, R334 or R342 it fails with. -/
inductive Verdict where
  | ok
  | fails (status : Nat)
deriving DecidableEq, Repr

/-- An entry of the publisher key list (R328). -/
structure PubKey where
  keyId : Nat
  admin : Bool
  revoked : Bool
  qx : Nat
  qy : Nat
deriving DecidableEq, Repr


/-- What a layer of a step gives for one position of a row (R224): the FP32 keys and values of every KV head, head by head. `pos`
counts the row's positions of the step. -/
structure KvRow where
  row : Nat
  layer : Nat
  pos : Nat
  k : List (BitVec 32)
  v : List (BitVec 32)
deriving DecidableEq, Repr

/-- One query of a step (R233): its row, layer, query head and position in the step, its FP32 elements and QSCALE, the positions the
program masks, and the logical cluster and CM byte offset where its merged output goes. -/
structure AttnRow where
  row : Nat
  layer : Nat
  head : Nat
  pos : Nat
  q : List (BitVec 32)
  qscale : BitVec 32
  masked : List Nat
  cl : Nat
  off : Nat
deriving DecidableEq, Repr

/-- The PART_CREATE structure (R346, R407); `part` 0xFF asks for the lowest free number. -/
structure PartParams where
  part : Nat
  owner : Nat
  clusters : Nat
  q2 : Nat
  wres : Nat
  q3 : Nat
  q4 : Nat
  areas : List (Nat × Nat)
  ringFirst : Nat
  ringCount : Nat
  keySlot : Nat
  minRate : Nat
deriving DecidableEq, Repr

/-- The changes of a PART_RESIZE (R350, R407); `zeroOk`: the fields R407 requires to be 0 are 0. -/
structure ResizeParams where
  clusters : Option Nat
  q2 : Option Nat
  wres : Option Nat
  q3 : Option Nat
  q4 : Option (Nat × List (Nat × Nat))
  minRate : Option Nat
  zeroOk : Bool
deriving DecidableEq, Repr

/-- The header of a BATCH_SUBMIT that starts a batch (R358, R410). -/
structure BatchHead where
  handle : Nat
  entry : Nat
  mode : Nat
  steps : Nat
  prio : Nat
  mask : Nat
  out : Nat
  outLen : Nat
  tokLen : Nat
deriving DecidableEq, Repr

/-- A row of a BATCH_SUBMIT with its lists (R358, R410): kind 0 NEW, 1 CONTINUE, 2 PAD. -/
structure RowParams where
  kind : Fin 3
  pageLog2 : Nat
  k : Nat
  tag : Nat
  promptLen : Nat
  maxNew : Nat
  req : Nat
  globals : List Nat
  bias : List (Nat × Nat)
  stops : List Nat
deriving DecidableEq, Repr

/-- The parameters of a TRAIN_STEP that the device's state shows the effect of (R118, R419). -/
structure TrainParams where
  handle : Nat
  entry : Nat
  adapter : Nat
  rank : Nat
  apply : Bool
  init : Bool
  rows : Nat
  tokLen : Nat
  seed : Nat
  lr : Nat
  beta1 : Nat
  beta2 : Nat
  eps : Nat
  wd : Nat
  stepNo : Nat
  clip : Nat
  tokens : Nat
  mask : Nat
  targets : Nat
  initAddr : Nat
deriving DecidableEq, Repr

/-- A phase of a training step (R121). -/
inductive TrainPhase where
  | forward | backward | accumulate | update
deriving DecidableEq, Repr

/-- The end of a training step: its request-table entry and what its program computed (R121-R123): the loss, the gradient norm
and the gradients of the adapter's parameters in order, all FP32 codes. -/
structure TrainEnd where
  entry : Nat
  loss : Nat
  norm : Nat
  grads : List Nat
deriving DecidableEq, Repr

/-- What a work unit that starts belongs to (R357); a training step's unit runs one of its phases (R121). -/
inductive StartKind where
  | frame (ctx no : Nat)
  | batch (id : Nat)
  | train (entry : Nat) (phase : TrainPhase)
  | other
deriving DecidableEq, Repr

/-- A work unit ready to start at a quantum boundary (R36, R357): partition, what it belongs to, its threads (logical
cluster, core, thread, IM address), whether it is the last unit of its frame. -/
structure WorkStart where
  part : Nat
  kind : StartKind
  threads : List (Nat × Nat × Nat × Nat)
  last : Bool
deriving DecidableEq, Repr


/-- The header of a Ferar packet at the head of a ring's SQ (R399, R400): the issuing function and ring, VER, FLAGS, PART
(0xFF: none), TAG, where a reply goes (an F1 packet: its parameter block, R402), and whether every rsvd bit is 0 and R401 is
kept. -/
structure Pkt where
  fn : Fin 16
  ring : Fin 1024
  ver : Nat
  fence : Bool
  noIrq : Bool
  part : Nat
  tag : BitVec 32
  replyAddr : BitVec 64
  replyLen : Nat
  formOk : Bool
deriving DecidableEq, Repr

/-- The header of a flit received with a good CRC (R536): RELAY, SRC, DST, SEQ and ACK. -/
structure FlitHead where
  relay : Bool
  src : Fin 16
  dst : Fin 16
  seq : Fin 65536
  ack : Fin 65536
deriving DecidableEq, Repr

/-- What one quantum measured and foresees (R446, R450, R461): the 1 ms average and peak of package power in mW, the average
VDD_ARR and VDD_SRAM power and the other rails' 1 ms average in uW, the phases that ran (partition, handle, step ID, array
cycles issued), the phase each partition runs next (partition, handle, step ID), the least slack in ps and its monitor. -/
structure Quantum where
  starts : List WorkStart
  ends : List TrainEnd
  avg : Nat
  peak : Nat
  array : Nat
  uncore : Nat
  ran : List (Nat × Nat × Nat × Nat)
  next : List (Nat × Nat × Nat)
  slack : Nat
  monitor : Nat
deriving DecidableEq, Repr

/-- A DRAM configuration and the other fields of a board record (R567); `ok`: the rsvd bytes are 0 and BOARD_LEN is in range. -/
structure BoardRec where
  ver : Nat
  dramType : Nat
  dramRate : Nat
  dramDens : Nat
  dramRanks : Nat
  cap : Nat
  div : Nat
  vmin : Nat
  eBoard : Nat
  p0Clusters : Nat
  maxOp : Nat
  p0Q2 : Nat
  p0Q3 : Nat
  limit : Nat
  vreg : Nat
  i3c : Nat
  ok : Bool
deriving DecidableEq, Repr

/-- A firmware image (R566): header fields, its length in the slot, whether MAGIC matches, whether SHA-384 of PUBKEY is the
fused digest KEY_IDX names, whether the signature verifies, the SHA-384 of image and of board record, the board record. -/
structure FwImage where
  magicOk : Bool
  imageLen : Nat
  version : Nat
  svn : Nat
  keyIdx : Nat
  hoVer : Nat
  hoMin : Nat
  hoMax : Nat
  raiseSvn : Bool
  keyOk : Bool
  sigOk : Bool
  digest : Nat
  boardDigest : Nat
  board : BoardRec
deriving DecidableEq, Repr

/-- A BOOT_CTL copy whose MAGIC and CRC hold (R565); TRIAL 0xFF: none. -/
structure BootCtl where
  seq : Nat
  active : Nat
  trial : Nat
  reverted : Bool
  activeVer : Nat
deriving DecidableEq, Repr

/-- The boot flash (R563, R564): the two BOOT_CTL copies (none: invalid), the two slots (none: no readable image), whether
the SFDP table advertises the xSPI Profile 1.0 8D-8D-8D read. -/
structure BootFlash where
  ctl0 : Option BootCtl := none
  ctl1 : Option BootCtl := none
  slotA : Option FwImage := none
  slotB : Option FwImage := none
  octal : Bool := false
deriving DecidableEq, Repr


/-- The commands of the ZV8640: one constructor per row of the table of operations and events. -/
inductive Instr where
  /-- MATMUL (R66). -/
  | matmul (t : ThreadId) (word : BitVec 120)
  /-- CONV (R130). -/
  | conv (t : ThreadId) (word : BitVec 120) (errs : List WordErr)
  /-- STREAM (R70). -/
  | stream (t : ThreadId) (word : BitVec 120) (errs : List WordErr)
  /-- MOVE (R252). -/
  | moveOp (t : ThreadId) (desc : Desc) (tag : Fin 8)
  /-- VECTOR_OP (R33). -/
  | vectorOp (t : ThreadId) (op : VecCmd)
  /-- SCALAR_OP (R31). -/
  | scalarOp (t : ThreadId) (op : ScalarCmd)
  /-- THREAD_LOAD (R43). -/
  | threadLoad (t : ThreadId) (m : CoreMem) (addr len : Nat) (rd : Fin 32) (ecc : Ecc)
  /-- THREAD_STORE (R42). -/
  | threadStore (t : ThreadId) (m : CoreMem) (addr len : Nat) (rs : Fin 32) (ecc : Ecc)
  /-- WAIT (R34). -/
  | wait (t : ThreadId) (tag : Fin 8)
  /-- CORE_BARRIER (R35). -/
  | coreBarrier (t : ThreadId)
  /-- CLUSTER_BARRIER (R35). -/
  | clusterBarrier (t : ThreadId) (counter : Fin 16) (cores : Nat)
  /-- END (R30). -/
  | threadEnd (t : ThreadId)
  /-- SETQ (R107). -/
  | setq (t : ThreadId) (entry : Fin 64) (addr : Fin 4096) (ecc : Ecc)
  /-- ARR_CREDIT (R71). -/
  | arrCredit (t : ThreadId) (output : Bool) (n : Nat) (errs : List WordErr)
  /-- CNT_RD (R113). -/
  | cntRd (t : ThreadId) (which : Fin 3) (vector : Bool) (rd : Fin 32)
  /-- ENG (R137). -/
  | eng (t : ThreadId) (addr : Nat) (tag : Fin 8)
  /-- STAT_ACQ (R115). -/
  | statAcq (t : ThreadId) (perChannel : Bool) (channels : Nat) (decay : BitVec 8)
  /-- STAT_FEED (R115). -/
  | statFeed (t : ThreadId) (collector : Fin 8) (fmt : Fin 16) (src : Region) (count : Nat) (tag : Fin 8)
  /-- STAT_COMMIT (R116). -/
  | statCommit (t : ThreadId) (collector : Fin 8)
  /-- STAT_READ (R116). -/
  | statRead (t : ThreadId) (collector : Fin 8) (dst : Region)
  /-- STAT_FREE (R117). -/
  | statFree (t : ThreadId) (collector : Fin 8)
  /-- ARRAY_INSTRUCTION_COMPLETE (R65). -/
  | arrayInstructionComplete (cluster : Fin 34) (core : Fin 64) (errs : List WordErr)
  /-- STREAM_END (R72). -/
  | streamEnd (cluster : Fin 34) (core : Fin 64) (stopped : Bool) (errs : List WordErr)
  /-- ARRAY_STALL (R74). -/
  | arrayStall (cluster : Fin 34) (core : Fin 64) (links : List (Fin 16))
  /-- FREEZE_END (R76). -/
  | freezeEnd (cluster : Fin 34) (core : Fin 64)
  /-- GAP_LIMIT_REACHED (R80). -/
  | gapLimitReached (cluster : Fin 34) (core : Fin 64)
  /-- VECTOR_COMPLETE (R33). -/
  | vectorComplete (cluster : Fin 34) (core : Fin 64) (errs : List WordErr)
  /-- ENGINE_OP_START (R138). -/
  | engineOpStart (cluster : Fin 34) (core : Fin 64) (errs : List WordErr)
  /-- ENGINE_OP_COMPLETE (R137). -/
  | engineOpComplete (cluster : Fin 34) (errs : List WordErr)
  /-- DMA_SEGMENT_DONE (R48). -/
  | dmaSegmentDone (cluster : Fin 34) (queue : Fin 68) (ev : SegEvent)
  /-- MOVE_COMPLETE (R254). -/
  | moveComplete (cluster : Fin 34) (queue : Fin 68)
  /-- MOVE_TIMEOUT (R479). -/
  | moveTimeout (cluster : Fin 34) (queue : Fin 68)
  /-- SCRUB_READ (R44). -/
  | scrubRead (bank : BankId) (ecc : Ecc)
  /-- FORCED_SCRUB_SLOT (R44). -/
  | forcedScrubSlot (bank : BankId) (ecc : Ecc)
  /-- SCRUB_WRITE_BACK (R45). -/
  | scrubWriteBack (bank : BankId)
  /-- CLUSTER_INIT_DONE (R27). -/
  | clusterInitDone (cluster : Fin 34) (passed : Bool)
  /-- QUIESCE_TIMEOUT (R27). -/
  | quiesceTimeout (cluster : Fin 34)
  /-- CLU_MAP_WRITE (R50). -/
  | cluMapWrite (cluster : Fin 34) (value : BitVec 32)
  /-- CLU_CTRL_POWER (R51). -/
  | cluCtrlPower (cluster : Fin 34) (on : Bool)
  /-- CLU_CTRL_INIT (R27). -/
  | cluCtrlInit (cluster : Fin 34)
  /-- CLU_CTRL_QUIESCE (R27). -/
  | cluCtrlQuiesce (cluster : Fin 34)
  /-- CLU_CTRL_RETIRE (R51). -/
  | cluCtrlRetire (cluster : Fin 34)
  /-- CLU_ECC_CNT_READ (R52). -/
  | cluEccCntRead (cluster : Fin 34) (m : Fin 5)
  /-- CLU_DMA_STAT_READ (R10). -/
  | cluDmaStatRead (cluster : Fin 34)
  /-- REGISTER_WRITE (R10). -/
  | registerWrite (addr : BitVec 40) (value : BitVec 32) (debug : Bool)
  /-- QUANTUM_BOUNDARY (R357). -/
  | quantumBoundary (q : Quantum)
  /-- STEP_BOUNDARY (R356). -/
  | stepBoundary (batch : BitVec 32) (logits : List (List (BitVec 32))) (fails : List (Nat × Nat)) (kv : List KvRow)
    (attn : List AttnRow)
  /-- CAST_START (R339). -/
  | castStart (part : Fin 16) (v : Verdict)
  /-- CAST_LAYER_READY (R338). -/
  | castLayerReady (part : Fin 16) (v : Verdict)
  /-- LAYER_SWAP (R340). -/
  | layerSwap (part : Fin 16)
  /-- LAYER_SWAP_BACK (R342). -/
  | layerSwapBack (part : Fin 16)
  /-- EVICT_RELEASE (R343). -/
  | evictRelease (handle : Fin 256)
  /-- TTL_EXPIRY (R368). -/
  | ttlExpiry (entry : Fin 4096)
  /-- PAUSE_SPILL_DONE (R367). -/
  | pauseSpillDone (entry : Fin 4096)
  /-- RESUME_COPY_DONE (R369). -/
  | resumeCopyDone (entry : Fin 4096)
  /-- LINE_TICK (R182). -/
  | lineTick (dramLate : Bool) (ev : SegEvent) (fine : Fin 10)
  /-- DISPATCH (R166). -/
  | dispatch
  /-- MOVE_ENTRY (R164). -/
  | moveEntry (feed : Option Feed)
  /-- CREDIT_ENTRY (R164). -/
  | creditEntry
  /-- SEGMENT (R182). -/
  | segment (wrote : Bool)
  /-- FRAME (R165). -/
  | frame
  /-- OUTPUT_FRAME_BOUNDARY (R184). -/
  | outputFrameBoundary (base : Nat) (peak mean : BitVec 16) (sust : Fin 7) (errs0 errs1 : Nat)
  /-- LATE_RETRY (R186). -/
  | lateRetry
  /-- INPUT_FRAME_START (R157). -/
  | inputFrameStart (rx : Fin 2) (start linePeriod errs : Nat) (dsc : Bool)
  /-- INPUT_ROW_RECEIVED (R540). -/
  | inputRowReceived (rx : Fin 2) (row : Fin 16384) (kind : PixelKind) (depth : Nat) (pixels : List Pixel)
  /-- INPUT_LOST (R158). -/
  | inputLost (rx : Fin 2)
  /-- INPUT_UNLOCKED (R158). -/
  | inputUnlocked
  /-- MOTION_FIELD_DONE (R177). -/
  | motionFieldDone (field : List (BitVec 54))
  /-- TX_LINK_LOST (R194). -/
  | txLinkLost (n : Fin 2)
  /-- RX_LINK_RETRAIN (R149). -/
  | rxLinkRetrain (n : Fin 2) (rate : Fin 8) (lanes : Fin 4)
  /-- DSP_ENABLE (R156). -/
  | dspEnable (on : Bool)
  /-- RETRY_NOW (R186). -/
  | retryNow
  /-- DSP_CNT_CLR (R197). -/
  | dspCntClr
  /-- FRAME_START_PACKET (R209). -/
  | frameStartPacket (port : Fin 4) (vc : Fin 16) (header : Ecc)
  /-- FRAME_END_PACKET (R212). -/
  | frameEndPacket (port : Fin 4) (vc : Fin 16) (header : Ecc)
  /-- LONG_PACKET (R201). -/
  | longPacket (port : Fin 4) (vc : Fin 16) (dt : Fin 64) (header : Ecc) (crcOk overflow : Bool) (payload : List (BitVec 8))
  /-- DESKEW (R198). -/
  | deskew (port : Fin 4)
  /-- SOURCE_LOST (R209). -/
  | sourceLost (ctx : Fin 48)
  /-- SYNTHETIC_TICK (R209). -/
  | syntheticTick (ctx : Fin 48)
  /-- HOST_PUSHED_TICK (R216). -/
  | hostPushedTick (ctx : Fin 48)
  /-- PIPE_FRAME_RELEASE (R207). -/
  | pipeFrameRelease (ctx : Fin 48)
  /-- PUSHED_FRAME_COPIED (R210). -/
  | pushedFrameCopied (ctx : Fin 48)
  /-- TAP_FRAME_WRITTEN (R218). -/
  | tapFrameWritten (ctx : Fin 48)
  /-- CAM_PORT_STAT_READ (R221). -/
  | camPortStatRead (port : Fin 4)
  /-- CAM_PIPE_STAT_READ (R221). -/
  | camPipeStatRead (pipe : Fin 4)
  /-- MEM_CFG_START (R284). -/
  | memCfgStart (value : BitVec 32)
  /-- DRAM_TRAINING_DONE (R261). -/
  | dramTrainingDone (trained : BitVec 16)
  /-- MEM_GTAB_DATA_WRITE (R286). -/
  | memGtabDataWrite (value : BitVec 32)
  /-- ZERO_FILL_DONE (R251). -/
  | zeroFillDone
  /-- MEM_LECC_CNT_READ (R287). -/
  | memLeccCntRead
  /-- MEM_CH_STAT_READ (R287). -/
  | memChStatRead (ch : Fin 16)
  /-- FLASH_OP_START (R294). -/
  | flashOpStart (ch : Fin 32) (code : Fin 1024)
  /-- FLASH_READ_DONE (R293). -/
  | flashReadDone (ch : Fin 32) (r : PageRead) (waited : Nat)
  /-- FLASH_PROGRAM_DONE (R301). -/
  | flashProgramDone (ch : Fin 32) (ok : Bool) (plane : Fin 4)
  /-- FLASH_ERASE_DONE (R307). -/
  | flashEraseDone (ch : Fin 32) (ok : Bool) (plane : Fin 4)
  /-- FLASH_SUSPEND (R295). -/
  | flashSuspend (ch : Fin 32)
  /-- FLASH_RESUME (R295). -/
  | flashResume (ch : Fin 32)
  /-- HOLDUP_RETRY_TIMEOUT (R302). -/
  | holdupRetryTimeout
  /-- PATROL_READ (R310). -/
  | patrolRead (ch : Fin 32) (r : PageRead)
  /-- STORE_COMMIT (R300). -/
  | storeCommit (ok : Bool)
  /-- ERASE_DONE (R303). -/
  | eraseDone (ok : Bool)
  /-- WFL_ENABLE (R306). -/
  | wflEnable
  /-- WFL_STOP (R304). -/
  | wflStop
  /-- WFL_HOLDUP_CFG_WRITE (R318). -/
  | wflHoldupCfgWrite (ext : Bool) (value : BitVec 32)
  /-- WFL_ECC_CNT_READ (R319). -/
  | wflEccCntRead
  /-- WFL_SUSP_CNT_READ (R319). -/
  | wflSuspCntRead
  /-- NOP (R406). -/
  | nop (h : Pkt)
  /-- QUERY (R416). -/
  | query (h : Pkt) (scope : Fin 256) (first : BitVec 16)
  /-- PART_CREATE (R347). -/
  | partCreate (h : Pkt) (p : PartParams)
  /-- PART_RESIZE (R350). -/
  | partResize (h : Pkt) (p : ResizeParams)
  /-- PART_DESTROY (R351). -/
  | partDestroy (h : Pkt)
  /-- PART_FENCE (R480). -/
  | partFence (h : Pkt)
  /-- PART_RESET (R483). -/
  | partReset (h : Pkt)
  /-- DRAIN_END (R481). -/
  | drainEnd (part : Fin 16)
  /-- PART_RESET_TIMEOUT (R484). -/
  | partResetTimeout (part : Fin 16)
  /-- MAQ_STAGE (R332). -/
  | maqStage (h : Pkt) (addr len : Nat) (man : Manifest) (format : Verdict) (sigOk digestsOk : Bool)
  /-- MAQ_STAGE_SLOT (R333). -/
  | maqStageSlot (h : Pkt) (slot : Fin 256) (manOk sigOk : Bool)
  /-- MAQ_VERIFY (R334). -/
  | maqVerify (h : Pkt) (handle : Fin 256) (v : Verdict)
  /-- MAQ_CAST (R335). -/
  | maqCast (h : Pkt) (handle replace : Fin 256) (drain activate : Bool)
  /-- MAQ_EVICT (R343). -/
  | maqEvict (h : Pkt) (handle : Fin 256) (force : Bool)
  /-- MAQ_STORE (R300). -/
  | maqStore (h : Pkt) (handle slot : Fin 256) (set : BitVec 32)
  /-- MAQ_ERASE (R303). -/
  | maqErase (h : Pkt) (slot : Fin 256)
  /-- PUB_ADD (R329). -/
  | pubAdd (h : Pkt) (listSeq : BitVec 64) (entry : PubKey) (authKey : Nat) (sigOk : Bool)
  /-- PUB_REVOKE (R329). -/
  | pubRevoke (h : Pkt) (listSeq : BitVec 64) (keyId authKey : Nat) (sigOk : Bool)
  /-- PUB_CLEAR (R329). -/
  | pubClear (h : Pkt) (listSeq : BitVec 64)
  /-- BATCH_SUBMIT (R360). -/
  | batchSubmit (h : Pkt) (b : BatchHead) (rows : List RowParams) (listsOk : Bool)
  /-- BATCH_SUBMIT_CONTINUE (R243). -/
  | batchSubmitContinue (h : Pkt) (batch : BitVec 32) (out outLen : Nat)
  /-- REQ_CANCEL (R365). -/
  | reqCancel (h : Pkt) (req : BitVec 32)
  /-- REQ_PAUSE (R367). -/
  | reqPause (h : Pkt) (req ttl : BitVec 32) (place : Fin 256)
  /-- REQ_RESUME (R369). -/
  | reqResume (h : Pkt) (req : BitVec 32)
  /-- REQ_RELEASE (R366). -/
  | reqRelease (h : Pkt) (req : BitVec 32)
  /-- TENSOR_MOVE (R412). -/
  | tensorMove (h : Pkt) (desc : Desc)
  /-- TENSOR_FILL (R412). -/
  | tensorFill (h : Pkt) (desc : Desc)
  /-- STREAM_OPEN (R203). -/
  | streamOpen (h : Pkt) (p : StreamOpen)
  /-- STREAM_CLOSE (R205). -/
  | streamClose (h : Pkt) (ctx : Fin 256)
  /-- STREAM_BIND (R204). -/
  | streamBind (h : Pkt) (p : StreamBind)
  /-- DISPLAY_CONFIG (R153). -/
  | displayConfig (h : Pkt) (c : DisplayCfg)
  /-- DISPLAY_SCHEDULE (R168). -/
  | displaySchedule (h : Pkt) (handle modeIdx : Fin 256)
  /-- DISPLAY_MODE (R192). -/
  | displayMode (h : Pkt) (m : DisplayMode)
  /-- POWER_POLICY (R470). -/
  | powerPolicy (h : Pkt) (limit : BitVec 16) (maxOp : Fin 256)
  /-- POWER_POLICY_PARTITION (R84). -/
  | powerPolicyPartition (h : Pkt) (fill gap rampDown rampUp : Fin 256)
  /-- POWER_QUERY (R417). -/
  | powerQuery (h : Pkt)
  /-- ATTEST_REPORT (R516). -/
  | attestReport (h : Pkt) (nonce : BitVec 256)
  /-- LOG_CONFIG (R500). -/
  | logConfig (h : Pkt) (level : Fin 256) (addr len : BitVec 64)
  /-- TRACE_CONFIG (R499). -/
  | traceConfig (h : Pkt) (mask addr len : BitVec 64)
  /-- FW_STAGE (R570). -/
  | fwStage (h : Pkt) (len : BitVec 32) (slot : Fin 256) (image : FwImage)
  /-- FW_ACTIVATE (R571). -/
  | fwActivate (h : Pkt)
  /-- ACTIVATION_RESTART (R571). -/
  | activationRestart
  /-- SPAN_CONFIG (R534). -/
  | spanConfig (h : Pkt) (role position count ports : Fin 256)
  /-- PACE_SWEEP (R547). -/
  | paceSweep (h : Pkt) (period : BitVec 32)
  /-- TRAIN_STEP (R121). -/
  | trainStep (h : Pkt) (p : TrainParams)
  /-- SQ_DOORBELL (R389). -/
  | sqDoorbell (fn : Fin 16) (ring : Fin 1024) (value : BitVec 31)
  /-- CQ_DOORBELL (R389). -/
  | cqDoorbell (fn : Fin 16) (ring : Fin 1024) (value : BitVec 31)
  /-- BAR0_WRITE (R384). -/
  | bar0Write (fn : Fin 16) (word : Fin 16384) (value : BitVec 32)
  /-- WINDOW_WRITE_APPLY (R384). -/
  | windowWriteApply (fn : Fin 16)
  /-- WINDOW_PUBLISH (R382). -/
  | windowPublish (fn : Fin 16)
  /-- BAR_UNSUPPORTED_ACCESS (R381). -/
  | barUnsupportedAccess (fn : Fin 16) (read : Option (Fin 64))
  /-- RING_ENABLE (R426). -/
  | ringEnable (fn : Fin 16)
  /-- RING_DISABLE (R393). -/
  | ringDisable (fn : Fin 16)
  /-- COAL_TIMEOUT (R422). -/
  | coalTimeout (fn : Fin 16) (ring : Fin 1024)
  /-- MSIX_UNMASK (R421). -/
  | msixUnmask (fn : Fin 16) (vec : Fin 64)
  /-- FUNCTION_LEVEL_RESET (R423). -/
  | functionLevelReset (fn : Fin 16)
  /-- VF_ENABLE_CLEAR (R423). -/
  | vfEnableClear
  /-- PCIE_REFCLK_LOSS (R599). -/
  | pcieRefclkLoss
  /-- EVENT_SENSE (R430). -/
  | eventSense (src : Fin 2048) (gpio : Bool)
  /-- MODERATION_HOLD_END (R436). -/
  | moderationHoldEnd (timer : Fin 32)
  /-- EVC_SW_SET (R428). -/
  | evcSwSet (src : Fin 2048)
  /-- EVC_CNT_CLR (R431). -/
  | evcCntClr (all : Bool) (src : Fin 2048)
  /-- EVC_ROUTE_WRITE (R433). -/
  | evcRouteWrite (src : Fin 2048) (value : BitVec 32)
  /-- OP_TRANSITION_DONE (R445). -/
  | opTransitionDone
  /-- POWER_FLOOR_RETURN (R454). -/
  | powerFloorReturn
  /-- FORECAST_CORRECTION (R451). -/
  | forecastCorrection
  /-- LIMITER_ENGAGE (R457). -/
  | limiterEngage (limit ceiling arr sram : Bool)
  /-- LIMITER_HALVE (R457). -/
  | limiterHalve
  /-- LIMITER_STEP (R457). -/
  | limiterStep
  /-- LIMITER_FLOOR (R457). -/
  | limiterFloor
  /-- LIMITER_RELEASE (R457). -/
  | limiterRelease
  /-- RAIL_OC (R456). -/
  | railOc (rail : Fin 11)
  /-- THERMAL_SAMPLE (R459). -/
  | thermalSample (temps : List (Option Int))
  /-- THERMAL_STATE_EXIT (R459). -/
  | thermalStateExit (st : Fin 5)
  /-- THERMAL_TRIP (R460). -/
  | thermalTrip
  /-- DROOP (R462). -/
  | droop (south : Bool)
  /-- PATINA_LOWER (R461). -/
  | patinaLower (op : Fin 7)
  /-- PATINA_RECORD (R463). -/
  | patinaRecord
  /-- PWR_HWLIM_STAT_READ (R470). -/
  | pwrHwlimStatRead
  /-- PWR_CPM_STAT_READ (R470). -/
  | pwrCpmStatRead
  /-- FAULT_RECORD_PUBLISH (R474). -/
  | faultRecordPublish (domain : Fin 128)
  /-- FAULT_RECORD_CONSUME (R477). -/
  | faultRecordConsume (level : Fin 8)
  /-- LOG_COPY (R500). -/
  | logCopy
  /-- LOCKSTEP_MISMATCH (R487). -/
  | lockstepMismatch (b : Bool)
  /-- CHECKER_SELF_TEST (R488). -/
  | checkerSelfTest (b flagged : Bool)
  /-- PAIR_RESTART_DONE (R487). -/
  | pairRestartDone (b passed : Bool)
  /-- PLINTH_WDOG_KICK (R491). -/
  | plinthWdogKick (b : Bool)
  /-- WDOG_CONFIRM (R492). -/
  | wdogConfirm
  /-- PLINTH_WDOG_EXPIRY (R492). -/
  | plinthWdogExpiry
  /-- CONFIRM_TIMEOUT (R493). -/
  | confirmTimeout
  /-- DEVICE_WDOG_KICK (R494). -/
  | deviceWdogKick
  /-- DEVICE_WDOG_CLR (R494). -/
  | deviceWdogClr
  /-- DEVICE_WDOG_EXPIRY (R494). -/
  | deviceWdogExpiry
  /-- FLT_REC_LOST_READ (R504). -/
  | fltRecLostRead
  /-- FLT_SELFTEST_READ (R504). -/
  | fltSelftestRead
  /-- FLT_LOG_STAT_READ (R504). -/
  | fltLogStatRead
  /-- FLT_LOG_TRACE_READ (R504). -/
  | fltLogTraceRead
  /-- FLT_PROG_READ (R504). -/
  | fltProgRead (p : Fin 16)
  /-- FLT_DOM_CNT_READ (R504). -/
  | fltDomCntRead (d : Fin 128)
  /-- GET_VERSION (R510). -/
  | getVersion (fn : Fin 16)
  /-- GET_CAPABILITIES (R510). -/
  | getCapabilities (fn : Fin 16)
  /-- NEGOTIATE_ALGORITHMS (R510). -/
  | negotiateAlgorithms (fn : Fin 16) (common : Bool)
  /-- GET_DIGESTS (R510). -/
  | getDigests (fn : Fin 16)
  /-- GET_CERTIFICATE (R510). -/
  | getCertificate (fn : Fin 16) (slot : Fin 16) (off len : BitVec 16)
  /-- CHALLENGE (R510). -/
  | challenge (fn : Fin 16) (slot : Fin 16)
  /-- GET_MEASUREMENTS (R512). -/
  | getMeasurements (fn : Fin 16) (index : Fin 256)
  /-- KEY_EXCHANGE (R511). -/
  | keyExchange (fn : Fin 16)
  /-- FINISH (R510). -/
  | finish (fn : Fin 16) (session : Nat) (ok : Bool)
  /-- END_SESSION (R511). -/
  | endSession (fn : Fin 16) (session : Nat)
  /-- KEY_UPDATE (R510). -/
  | keyUpdate (fn : Fin 16) (session : Nat)
  /-- KEY_SET (R514). -/
  | keySet (fn : Fin 16) (session : Nat) (slot : Fin 256) (dataKey tweakKey : BitVec 256) (rsvdOk : Bool)
  /-- KEY_ERASE (R514). -/
  | keyErase (fn : Fin 16) (session : Nat) (slot : Fin 256) (rsvdOk : Bool)
  /-- KEY_STATUS (R514). -/
  | keyStatus (fn : Fin 16) (session : Nat) (slot : Fin 256) (rsvdOk : Bool)
  /-- PEEK_READ (R521). -/
  | peekRead (off : BitVec 23) (wide : Bool) (ecc : Ecc)
  /-- PEEK_WRITE (R521). -/
  | peekWrite (off : BitVec 23) (wide : Bool) (value : BitVec 64)
  /-- DEBUG_SESSION_END (R524). -/
  | debugSessionEnd
  /-- DEBUG_SESSION_IDLE_TIMEOUT (R524). -/
  | debugSessionIdleTimeout
  /-- PAIR_HALT (R526). -/
  | pairHalt (b : Bool)
  /-- PAIR_RESUME (R526). -/
  | pairResume (b : Bool)
  /-- THREAD_HALT (R528). -/
  | threadHalt (cl : Fin 64) (c : Fin 64) (threads : BitVec 8)
  /-- THREAD_RESUME (R528). -/
  | threadResume (cl : Fin 64) (c : Fin 64) (threads : BitVec 8)
  /-- SEM_ACQUIRE (R527). -/
  | semAcquire (n : Fin 32) (who : Fin 3)
  /-- SEM_RELEASE (R527). -/
  | semRelease (n : Fin 32) (who : Fin 3)
  /-- SEM_HOLD_TIMEOUT (R527). -/
  | semHoldTimeout (n : Fin 32)
  /-- DBG_ACCESS (R523). -/
  | dbgAccess (addr : BitVec 40) (wide : Bool) (write : Option (BitVec 64)) (ecc : Ecc)
  /-- DBG_PEEK (R523). -/
  | dbgPeek (addr : BitVec 40) (wide : Bool) (write : Option (BitVec 64)) (ecc : Ecc)
  /-- BYPASS (R523). -/
  | bypass
  /-- IDCODE (R523). -/
  | idcode
  /-- SAMPLE_PRELOAD (R523). -/
  | samplePreload (preload : Option (List Bool))
  /-- EXTEST (R523). -/
  | extest
  /-- CLAMP (R523). -/
  | clamp
  /-- HIGHZ (R523). -/
  | highz
  /-- TRST_N (R557). -/
  | trstN
  /-- SPAN_TRAINING_DONE (R535). -/
  | spanTrainingDone (port : Fin 2) (width : Fin 4) (reversed : Bool)
  /-- SPAN_TRAIN_RETRY (R535). -/
  | spanTrainRetry (port : Fin 2)
  /-- IDLE (R537). -/
  | idleFlit (port : Fin 2) (hd : FlitHead)
  /-- NAK (R537). -/
  | nak (port : Fin 2) (hd : FlitHead) (expected : Fin 65536)
  /-- HELLO (R535). -/
  | hello (port : Fin 2) (hd : FlitHead) (role position count haloIn : Fin 256) (ntick : Fin 65536)
  /-- HALO (R540). -/
  | halo (port : Fin 2) (hd : FlitHead) (frame : BitVec 32) (row : Fin 65536) (edge : Fin 2) (pixels : List Pixel)
  /-- DELAY_REQ (R543). -/
  | delayReq (port : Fin 2) (hd : FlitHead) (t1 : BitVec 64) (fine : Fin 10)
  /-- DELAY_RESP (R543). -/
  | delayResp (port : Fin 2) (hd : FlitHead) (t1 t2 t3 : BitVec 64) (fine : Fin 10)
  /-- TICK_SYNC (R544). -/
  | tickSync (port : Fin 2) (hd : FlitHead) (frame : BitVec 32) (line : Fin 65536) (timeNs : BitVec 64) (corr : BitVec 32) (fine : Fin 10) (residence : BitVec 32)
  /-- PACE_REQ (R545). -/
  | paceReq (port : Fin 2) (hd : FlitHead) (sweep : BitVec 32) (sust : Fin 7)
  /-- PACE_REPORT (R545). -/
  | paceReport (port : Fin 2) (hd : FlitHead) (sweep : BitVec 32) (position op : Fin 256) (own : Fin 7)
  /-- PACE_COMMIT (R545). -/
  | paceCommit (port : Fin 2) (hd : FlitHead) (sweep : BitVec 32) (pace : Fin 256) (applyAt : BitVec 64)
  /-- PACE_ABORT (R546). -/
  | paceAbort (port : Fin 2) (hd : FlitHead) (sweep : BitVec 32)
  /-- SPAN_ACK_TIMEOUT (R538). -/
  | spanAckTimeout (port : Fin 2)
  /-- BLOCK_LOCK_LOST (R538). -/
  | blockLockLost (port : Fin 2)
  /-- DELAY_MEASUREMENT (R543). -/
  | delayMeasurement (fine : Fin 10)
  /-- HALO_DEADLINE (R541). -/
  | haloDeadline (port : Fin 2) (row : Fin 65536)
  /-- PACE_REPORT_TIMEOUT (R546). -/
  | paceReportTimeout
  /-- PACE_APPLY (R545). -/
  | paceApply
  /-- SPN_PORT_STAT_READ (R552). -/
  | spnPortStatRead (port : Fin 2)
  /-- SPN_PORT_ERR_READ (R552). -/
  | spnPortErrRead (port : Fin 2)
  /-- SPN_HALO_READ (R552). -/
  | spnHaloRead (port : Fin 2)
  /-- POWER_ON (R556). -/
  | powerOn
  /-- RAIL_FAIL (R555). -/
  | railFail (rails : BitVec 11)
  /-- RESET_RELEASE (R555). -/
  | resetRelease
  /-- PERST_N_ASSERT (R558). -/
  | perstNAssert
  /-- PERST_N_RELEASE (R558). -/
  | perstNRelease
  /-- PWR_FAIL_N_ASSERT (R559). -/
  | pwrFailNAssert
  /-- POWERED_DOWN_REACHED (R560). -/
  | poweredDownReached (torn : Bool)
  /-- PWR_FAIL_N_RELEASE (R561). -/
  | pwrFailNRelease
  /-- BMC_PWR_DOWN (R559). -/
  | bmcPwrDown
  /-- BMC_RESTART (R561). -/
  | bmcRestart
  /-- REFCLK_LOSS (R595). -/
  | refclkLoss
  /-- REFCLK_RETURN (R595). -/
  | refclkReturn
  /-- ENTDAA (R577). -/
  | entdaa (addr : BitVec 7)
  /-- BOOT_ROM (R568). -/
  | bootRom (board : Option BootFlash) (selftest : Bool)
  /-- FIRMWARE_INIT (R569). -/
  | firmwareInit (trained : BitVec 16) (failed : List (Fin 34)) (replayOk : Bool)
  /-- TRIAL_CONFIRM (R573). -/
  | trialConfirm (accepted : Bool)
  /-- TRIAL_TIMEOUT (R574). -/
  | trialTimeout
  /-- CLUSTER_POWER_GOOD (R27). -/
  | clusterPowerGood (cluster : Fin 34)
  /-- TX_LINK_TRAINED (R194). -/
  | txLinkTrained (n : Fin 2)
  /-- MR4_REFRESH_RATE_CHANGE (R262). -/
  | mr4RefreshRateChange (ch : Fin 16) (rate : BitVec 3)
  /-- BOOT_FLASH_OP_DONE (R570). -/
  | bootFlashOpDone (ok same : Bool)
  /-- PCIE_REFCLK_RETURN (R599). -/
  | pcieRefclkReturn
  /-- VF_ENABLE_SET (R379). -/
  | vfEnableSet (numVfs : Fin 16)
  /-- D3HOT_TRANSITION (R597). -/
  | d3hotTransition (fn : Fin 16) (enter : Bool)
  /-- DOE_DISCOVERY (R510). -/
  | doeDiscovery (fn : Fin 16) (index : Fin 256)
  /-- FLIT_CRC_ERROR (R537). -/
  | flitCrcError (port : Fin 2) (sequenced : Bool)
  /-- COMPLETION_TIMEOUT (R472). -/
  | completionTimeout (fn : Fin 16)
  /-- DEBUG_NORMAL_READ (R522). -/
  | debugNormalRead (off : BitVec 23) (wide : Bool) (ecc : Ecc)
deriving DecidableEq, Repr

end Sys2Proof
end

