-- ==== Sys2Proof/Config.lean ====
section
/-!
DEFINITION. Sys2Proof/Config.lean: what one part fixes (ordering code, fused values, identity) and the free values: what
the spec leaves open is an uninterpreted constant, so no proof can use a number for it.
-/
namespace Sys2Proof

/-- The free value of number `n`: every value the spec leaves open (a destination that is undefined after an error, the
result of an operation whose result the spec does not state) is this constant applied to the counter `State.free`, which
the step that reads it advances (log entry 1). Nothing constrains it. -/
opaque Config.freeNat : Nat → Nat

/-- Ordering code of the part (R1): 0 ZV8640-F128-C, 1 ZV8640-F64-C, 2 ZV8640-F128-X; there is no other combination. -/
opaque Config.orderCode : Fin 3

/-- Temperature grade of the part: 0 -C, 1 -X (R1, R3). -/
def Config.grade : Nat := if Config.orderCode = 2 then 1 else 0

/-- Raw weight flash of the part in GiB: 64 or 128 (R1, R3). -/
def Config.flashGib : Nat := if Config.orderCode = 1 then 64 else 128

/-- Fused security version (SEC_BOOT.FUSED_SVN, "by part"). -/
opaque Config.fusedSvn : Nat

/-- Revoked firmware keys (SEC_BOOT.FWKEY_REV, "by part"). -/
opaque Config.fwKeyRev : Nat

/-- Word `n` of the identity KEY_ID (SEC_IDENT_ID_n, "by part"). -/
opaque Config.identId : Nat → Nat

/-- AES-256-XTS as the DRAM controller applies it (R266): the byte an access under key `access` reads at T2 address `addr`
from a 16-byte block whose plaintext under key `stored` is `plain`; 0 names no key. The model leaves the cipher
uninterpreted (log entry 7). -/
opaque Config.xts : (stored access addr plain : Nat) → Nat

/-- Byte `off` of WM of the core `core` (cluster index * 64 + core) in the WM image of the maquette whose manifest digest is
`digest` (R337: which bytes of its sections a core takes is compiled into them and not stated; log entry 151). -/
opaque Config.wmByte : (digest core off : Nat) → Nat

/-- `b ^ n` of two FP32 operands as the training program computes it for R122, an FP32 code (its rounding is not stated; log
entry 152). -/
opaque Config.fpow : (b n : Nat) → Nat

/-- Byte `off` of the maquette whose manifest digest is `digest` (R325: the signature vouches for every byte; log entry 8). -/
opaque Config.maqByte : (digest off : Nat) → Nat

/-- The first block map of a part (R289): physical block behind logical block `l` of channel `ch` (by part). -/
opaque Config.blockMap : (ch l : Nat) → Nat

/-- Spare `i` of plane `p` of channel `ch` (R288; by part). -/
opaque Config.spareBlock : (ch p i : Nat) → Nat

/-- Block `i` of the record area of channel `ch`, and surplus good block `i` (R288, R289; by part). -/
opaque Config.recordBlock : (ch i : Nat) → Nat
opaque Config.surplusBlock : (ch i : Nat) → Nat

/-- Factory-bad blocks of channel `ch` (R288; by part). -/
opaque Config.factoryBad : (ch : Nat) → Nat

/-- Coefficient `tap` of phase `phase` of the fallback scaler's built-in windowed-sinc set (R180; the spec gives no values beside
their range and sums, which `Machine.builtinCoef` holds it to). -/
opaque Config.sinc : (phase tap : Nat) → Int

/-- A YCbCr pixel at 12 bits, its chroma in quarters of a code, as RGB at 12 bits each, R lowest (R172: the matrix is BT.709's or
BT.2020's, its arithmetic not stated; log entry 50). -/
opaque Config.yccRgb : (bt2020 : Bool) → (y cb cr : Nat) → Nat

/-- Chroma, in quarters of a code, of a sample that has no co-sited sample on one side, from its neighbour's (R172 states
interpolation between co-sited samples alone; log entry 50). -/
opaque Config.edgeChroma : Nat → Nat

/-- AES-256-XTS over a 64-byte data unit of a spilled KV page (R268), as a little-endian number, under a key and a tweak; the model
leaves the cipher uninterpreted (log entry 7). -/
opaque Config.xtsEnc : (key tweak plain : Nat) → Nat

/-- The decryption of a 64-byte data unit of a spilled KV page (R268; log entry 7). -/
opaque Config.xtsDec : (key tweak cipher : Nat) → Nat

/-- SHA-384 of a message given as its bytes (R316-R330, R506-R518); the model leaves the hash uninterpreted (log entry 7). -/
opaque Config.sha384 : List Nat → Nat

/-- SHA-384 of the boot ROM, fixed for stepping B0 (R507; the spec gives no value). -/
opaque Config.romDigest : Nat

/-- Length of the identity certificate chain (R505: up to 8 KiB; by part). -/
opaque Config.certLen : Nat

/-- Byte `i` of the identity certificate chain (R505; by part). -/
opaque Config.certByte : (i : Nat) → Nat

/-- The device's PCI vendor identifier (R513; the spec gives no value). -/
opaque Config.vendorId : Nat

/-- Manufacturer identity of IDCODE, bits [11:0] (R523: given in the device's BSDL file). -/
opaque Config.jtagMaker : Nat

/-- Bytes of the firmware image and board record are carried as their digests; byte `i` of Plinth SRAM as the boot ROM leaves
it after it has loaded the image with this digest (R568). -/
opaque Config.sramByte : (digest i : Nat) → Nat

/-- Byte `i` of the boot ROM (R601; the spec gives no value). -/
opaque Config.romByte : (i : Nat) → Nat

/-- First ring of P0's ring set (R345, R388: the spec gives P0 no ring set). -/
opaque Config.p0RingFirst : Nat

/-- Rings of P0's ring set (R345, R388). -/
opaque Config.p0RingCount : Nat

/-- Blocks per channel of the weight flash (R1, R2: 1,024 on 128 GiB, 512 on 64 GiB). -/
def Config.blocks : Nat := if Config.flashGib = 128 then 1024 else 512

end Sys2Proof
end

