-- ==== Sys2Proof/Machine/Regs.lean ====
section
/-!
DEFINITION. Sys2Proof/Machine/Regs.lean: the registers of the ZV8640, field by field, from the register tables of spec/
(R10 access codes, R11 reserved bits). A field is its register's internal address, its lowest bit, its width, its access
code and its reset value; one table of register templates serves the generic register read and write.
-/
namespace Sys2Proof.Machine

/-- Access codes (R10). -/
inductive Acc where
  | rw | ro | wo | w1c | w1s | rc
deriving DecidableEq, Repr

/-- One field of one register. -/
structure RegField where
  addr  : Nat
  lo    : Nat
  width : Nat
  acc   : Acc
  reset : Nat
deriving DecidableEq, Repr

/-- A register or an array of registers (two strides), with its fields `(lo, width, access, reset)`. -/
structure RegTemplate where
  base   : Nat
  stride : Nat
  count  : Nat
  inner  : Nat
  icount : Nat
  fields : List (Nat × Nat × Acc × Nat)
deriving DecidableEq, Repr

namespace Reg

/-- CLU_ID_n.HALF (R49): 0 north, 1 south -/
def CLU_ID_HALF (n : Nat) : RegField := ⟨0x40000000 + 0x1000000 * n, 7, 1, .ro, (if n ≤ 16 then 0 else 1)⟩
/-- CLU_ID_n.PHYS (R49): physical cluster number, 0–33 -/
def CLU_ID_PHYS (n : Nat) : RegField := ⟨0x40000000 + 0x1000000 * n, 0, 6, .ro, n⟩
/-- CLU_MAP_n.PART (R49): owning partition, P0–P15; meaningful when MAPPED = 1 -/
def CLU_MAP_PART (n : Nat) : RegField := ⟨0x40000004 + 0x1000000 * n, 16, 4, .rw, 0⟩
/-- CLU_MAP_n.MAPPED (R49): 1: the cluster carries the logical number in LOGICAL -/
def CLU_MAP_MAPPED (n : Nat) : RegField := ⟨0x40000004 + 0x1000000 * n, 8, 1, .rw, 0⟩
/-- CLU_MAP_n.LOGICAL (R49): logical cluster number, 0–31 -/
def CLU_MAP_LOGICAL (n : Nat) : RegField := ⟨0x40000004 + 0x1000000 * n, 0, 5, .rw, 0⟩
/-- CLU_CTRL_n.RETIRE (R49): 1: retire the cluster (state RETIRED, power-gated); cleared only by chip reset -/
def CLU_CTRL_RETIRE (n : Nat) : RegField := ⟨0x40000008 + 0x1000000 * n, 3, 1, .w1s, 0⟩
/-- CLU_CTRL_n.QUIESCE (R49): 1: stop accepting work units; reads 1 until STATE leaves QUIESCING -/
def CLU_CTRL_QUIESCE (n : Nat) : RegField := ⟨0x40000008 + 0x1000000 * n, 2, 1, .w1s, 0⟩
/-- CLU_CTRL_n.INIT (R49): 1: initialise every memory word; reads 1 until STATE leaves INIT -/
def CLU_CTRL_INIT (n : Nat) : RegField := ⟨0x40000008 + 0x1000000 * n, 1, 1, .w1s, 0⟩
/-- CLU_CTRL_n.POWER (R49): 1: ungate the cluster; 0: gate it (accepted in OFF and IDLE only) -/
def CLU_CTRL_POWER (n : Nat) : RegField := ⟨0x40000008 + 0x1000000 * n, 0, 1, .rw, 0⟩
/-- CLU_STAT_n.UE_PEND (R49): 1: an uncorrectable error was reported since this bit was last cleared -/
def CLU_STAT_UE_PEND (n : Nat) : RegField := ⟨0x4000000C + 0x1000000 * n, 7, 1, .w1c, 0⟩
/-- CLU_STAT_n.MAP_REJ (R49): 1: a CLU_MAP write was ignored (R50) -/
def CLU_STAT_MAP_REJ (n : Nat) : RegField := ⟨0x4000000C + 0x1000000 * n, 6, 1, .w1c, 0⟩
/-- CLU_STAT_n.CTRL_REJ (R49): 1: a CLU_CTRL write was ignored (R51) -/
def CLU_STAT_CTRL_REJ (n : Nat) : RegField := ⟨0x4000000C + 0x1000000 * n, 5, 1, .w1c, 0⟩
/-- CLU_STAT_n.STATE (R49): state code of R27; 6 and 7 do not occur -/
def CLU_STAT_STATE (n : Nat) : RegField := ⟨0x4000000C + 0x1000000 * n, 0, 3, .ro, 0⟩
/-- CLU_ECC_CNT_n_m.UE (R49): uncorrectable errors in memory n, from reads and scrubs; saturates at 255 -/
def CLU_ECC_CNT_UE (n : Nat) (m : Nat) : RegField := ⟨0x40000010 + 0x1000000 * n + 0x4 * m, 16, 8, .rc, 0⟩
/-- CLU_ECC_CNT_n_m.CE (R49): corrected errors in memory n, from reads and scrubs; saturates at 65,535 -/
def CLU_ECC_CNT_CE (n : Nat) (m : Nat) : RegField := ⟨0x40000010 + 0x1000000 * n + 0x4 * m, 0, 16, .rc, 0⟩
/-- CLU_ECC_LAST_n.VALID (R49): 1: the other fields and CLU_ECC_TIME hold a capture -/
def CLU_ECC_LAST_VALID (n : Nat) : RegField := ⟨0x40000030 + 0x1000000 * n, 31, 1, .w1c, 0⟩
/-- CLU_ECC_LAST_n.UE (R49): 1: uncorrectable; 0: corrected -/
def CLU_ECC_LAST_UE (n : Nat) : RegField := ⟨0x40000030 + 0x1000000 * n, 30, 1, .ro, 0⟩
/-- CLU_ECC_LAST_n.MEM (R49): memory: 0 WM, 1 AM, 2 PM, 3 IM, 4 CM -/
def CLU_ECC_LAST_MEM (n : Nat) : RegField := ⟨0x40000030 + 0x1000000 * n, 27, 3, .ro, 0⟩
/-- CLU_ECC_LAST_n.CORE (R49): core c0–c63; 0 when MEM = 4 -/
def CLU_ECC_LAST_CORE (n : Nat) : RegField := ⟨0x40000030 + 0x1000000 * n, 21, 6, .ro, 0⟩
/-- CLU_ECC_LAST_n.BANK (R49): bank within the memory -/
def CLU_ECC_LAST_BANK (n : Nat) : RegField := ⟨0x40000030 + 0x1000000 * n, 16, 5, .ro, 0⟩
/-- CLU_ECC_LAST_n.WORD (R49): word index within the bank -/
def CLU_ECC_LAST_WORD (n : Nat) : RegField := ⟨0x40000030 + 0x1000000 * n, 0, 16, .ro, 0⟩
/-- CLU_ECC_TIME_n.TIME (R49): device time base bits [31:0] at capture; wraps every 42.9 s -/
def CLU_ECC_TIME_TIME (n : Nat) : RegField := ⟨0x40000034 + 0x1000000 * n, 0, 32, .ro, 0⟩
/-- CLU_SCRUB_CFG_n.FORCE_INT (R49): forced-slot interval in units of 100 µs, 1–10; 0 and 11–15 act as 10 -/
def CLU_SCRUB_CFG_FORCE_INT (n : Nat) : RegField := ⟨0x40000040 + 0x1000000 * n, 0, 4, .rw, 10⟩
/-- CLU_SCRUB_STAT_n.MAX_SWEEP (R49): longest sweep since reset, in units of 10 ms; saturates at 0xFFFF -/
def CLU_SCRUB_STAT_MAX_SWEEP (n : Nat) : RegField := ⟨0x40000044 + 0x1000000 * n, 16, 16, .ro, 0⟩
/-- CLU_SCRUB_STAT_n.SWEEPS (R49): sweeps completed since reset; wraps at 65,536 -/
def CLU_SCRUB_STAT_SWEEPS (n : Nat) : RegField := ⟨0x40000044 + 0x1000000 * n, 0, 16, .ro, 0⟩
/-- CLU_DMA_STAT_n.ACTIVE_Q (R49): number of non-empty queues, 0–68 -/
def CLU_DMA_STAT_ACTIVE_Q (n : Nat) : RegField := ⟨0x40000050 + 0x1000000 * n, 16, 7, .ro, 0⟩
/-- CLU_DMA_STAT_n.ERR_CNT (R49): moves ended in error; saturates at 255 -/
def CLU_DMA_STAT_ERR_CNT (n : Nat) : RegField := ⟨0x40000050 + 0x1000000 * n, 8, 8, .rc, 0⟩
/-- CLU_DMA_STAT_n.BUSY (R49): 1: at least one move in progress -/
def CLU_DMA_STAT_BUSY (n : Nat) : RegField := ⟨0x40000050 + 0x1000000 * n, 0, 1, .ro, 0⟩
/-- CLU_THR_STAT_n_m.THR_7 (R49): state of t7, codes of R30 -/
def CLU_THR_STAT_THR_7 (n : Nat) (m : Nat) : RegField := ⟨0x40000100 + 0x1000000 * n + 0x4 * m, 21, 3, .ro, 0⟩
/-- CLU_THR_STAT_n_m.THR_6 (R49): state of t6 -/
def CLU_THR_STAT_THR_6 (n : Nat) (m : Nat) : RegField := ⟨0x40000100 + 0x1000000 * n + 0x4 * m, 18, 3, .ro, 0⟩
/-- CLU_THR_STAT_n_m.THR_5 (R49): state of t5 -/
def CLU_THR_STAT_THR_5 (n : Nat) (m : Nat) : RegField := ⟨0x40000100 + 0x1000000 * n + 0x4 * m, 15, 3, .ro, 0⟩
/-- CLU_THR_STAT_n_m.THR_4 (R49): state of t4 -/
def CLU_THR_STAT_THR_4 (n : Nat) (m : Nat) : RegField := ⟨0x40000100 + 0x1000000 * n + 0x4 * m, 12, 3, .ro, 0⟩
/-- CLU_THR_STAT_n_m.THR_3 (R49): state of t3 -/
def CLU_THR_STAT_THR_3 (n : Nat) (m : Nat) : RegField := ⟨0x40000100 + 0x1000000 * n + 0x4 * m, 9, 3, .ro, 0⟩
/-- CLU_THR_STAT_n_m.THR_2 (R49): state of t2 -/
def CLU_THR_STAT_THR_2 (n : Nat) (m : Nat) : RegField := ⟨0x40000100 + 0x1000000 * n + 0x4 * m, 6, 3, .ro, 0⟩
/-- CLU_THR_STAT_n_m.THR_1 (R49): state of t1 -/
def CLU_THR_STAT_THR_1 (n : Nat) (m : Nat) : RegField := ⟨0x40000100 + 0x1000000 * n + 0x4 * m, 3, 3, .ro, 0⟩
/-- CLU_THR_STAT_n_m.THR_0 (R49): state of t0 -/
def CLU_THR_STAT_THR_0 (n : Nat) (m : Nat) : RegField := ⟨0x40000100 + 0x1000000 * n + 0x4 * m, 0, 3, .ro, 0⟩
/-- CLU_CORE_FAULT_n_m.FAULT (R49): bit i = 1: a thread of core c(i) faulted (LO) or of core c(i + 32) faulted (HI) since the  -/
def CLU_CORE_FAULT_FAULT (n : Nat) (m : Nat) : RegField := ⟨0x40000200 + 0x1000000 * n + 0x4 * m, 0, 32, .w1c, 0⟩
/-- DSP_CTRL.AUTO_RETRY (R197): frames before a retry after LATE takeover, in units of 16; 0: no automatic retry -/
def DSP_CTRL_AUTO_RETRY : RegField := ⟨0x31000000, 16, 8, .rw, 9⟩
/-- DSP_CTRL.RETRY_NOW (R197): 1: retry the neural path at the next frame boundary; reads 1 until then -/
def DSP_CTRL_RETRY_NOW : RegField := ⟨0x31000000, 3, 1, .w1s, 0⟩
/-- DSP_CTRL.FORCE_FALLBACK (R197): 1: the fallback scaler carries the picture by choice (R183) -/
def DSP_CTRL_FORCE_FALLBACK : RegField := ⟨0x31000000, 2, 1, .rw, 0⟩
/-- DSP_CTRL.NEURAL_EN (R197): 1: the neural path is the source when no cause remains -/
def DSP_CTRL_NEURAL_EN : RegField := ⟨0x31000000, 1, 1, .rw, 0⟩
/-- DSP_CTRL.ENABLE (R197): 1: the output timing runs and lines are sent -/
def DSP_CTRL_ENABLE : RegField := ⟨0x31000000, 0, 1, .rw, 0⟩
/-- DSP_STAT.FIRST_CAUSE (R197): first cause of the current takeover, codes of R186; 0 none -/
def DSP_STAT_FIRST_CAUSE : RegField := ⟨0x31000004, 28, 4, .ro, 0⟩
/-- DSP_STAT.SOURCE (R197): 0 FILL, 1 FALLBACK, 2 NEURAL -/
def DSP_STAT_SOURCE : RegField := ⟨0x31000004, 24, 2, .ro, 0⟩
/-- DSP_STAT.LOCK (R197): 0 FREE_RUN, 1 LOCKING, 2 LOCKED -/
def DSP_STAT_LOCK : RegField := ⟨0x31000004, 22, 2, .ro, 0⟩
/-- DSP_STAT.ARM_BANK (R197): active bank -/
def DSP_STAT_ARM_BANK : RegField := ⟨0x31000004, 21, 1, .ro, 0⟩
/-- DSP_STAT.ARM_PEND (R197): 1: a swap waits for the next boundary -/
def DSP_STAT_ARM_PEND : RegField := ⟨0x31000004, 20, 1, .ro, 0⟩
/-- DSP_STAT.IN_OK_1 (R197): 1: video present on RX1 -/
def DSP_STAT_IN_OK_1 : RegField := ⟨0x31000004, 19, 1, .ro, 0⟩
/-- DSP_STAT.IN_OK_0 (R197): 1: video present on RX0 -/
def DSP_STAT_IN_OK_0 : RegField := ⟨0x31000004, 18, 1, .ro, 0⟩
/-- DSP_STAT.TX_UP_1 (R197): 1: TX1 trained -/
def DSP_STAT_TX_UP_1 : RegField := ⟨0x31000004, 17, 1, .ro, 0⟩
/-- DSP_STAT.TX_UP_0 (R197): 1: TX0 trained -/
def DSP_STAT_TX_UP_0 : RegField := ⟨0x31000004, 16, 1, .ro, 0⟩
/-- DSP_STAT.CAUSE_SET (R197): bit 7 + c set while cause c of R186 is active -/
def DSP_STAT_CAUSE_SET : RegField := ⟨0x31000004, 8, 7, .ro, 0⟩
/-- DSP_STAT.LINE_LOCKED (R197): 1: P0 line-locked (R161) -/
def DSP_STAT_LINE_LOCKED : RegField := ⟨0x31000004, 7, 1, .ro, 0⟩
/-- DSP_EVT_STAT.DRAM_LATE (R197): a display DRAM read missed its line -/
def DSP_EVT_STAT_DRAM_LATE : RegField := ⟨0x31000008, 10, 1, .w1c, 0⟩
/-- DSP_EVT_STAT.RX_RETRAIN (R197): a receive link retrained -/
def DSP_EVT_STAT_RX_RETRAIN : RegField := ⟨0x31000008, 9, 1, .w1c, 0⟩
/-- DSP_EVT_STAT.TX_RETRAIN (R197): a transmit link retrained (R194) -/
def DSP_EVT_STAT_TX_RETRAIN : RegField := ⟨0x31000008, 8, 1, .w1c, 0⟩
/-- DSP_EVT_STAT.OVERRUN (R197): DSP_OVERRUN_CNT incremented -/
def DSP_EVT_STAT_OVERRUN : RegField := ⟨0x31000008, 7, 1, .w1c, 0⟩
/-- DSP_EVT_STAT.ARM_SWAPPED (R197): a bank swap took effect -/
def DSP_EVT_STAT_ARM_SWAPPED : RegField := ⟨0x31000008, 6, 1, .w1c, 0⟩
/-- DSP_EVT_STAT.LOCKED (R197): lock achieved -/
def DSP_EVT_STAT_LOCKED : RegField := ⟨0x31000008, 5, 1, .w1c, 0⟩
/-- DSP_EVT_STAT.INPUT_UNLOCKED (R197): input outside the tracking range -/
def DSP_EVT_STAT_INPUT_UNLOCKED : RegField := ⟨0x31000008, 4, 1, .w1c, 0⟩
/-- DSP_EVT_STAT.INPUT_LOST (R197): input video stopped -/
def DSP_EVT_STAT_INPUT_LOST : RegField := ⟨0x31000008, 3, 1, .w1c, 0⟩
/-- DSP_EVT_STAT.NEURAL_RETURN (R197): the neural path returned -/
def DSP_EVT_STAT_NEURAL_RETURN : RegField := ⟨0x31000008, 2, 1, .w1c, 0⟩
/-- DSP_EVT_STAT.TAKEOVER (R197): a full takeover began -/
def DSP_EVT_STAT_TAKEOVER : RegField := ⟨0x31000008, 1, 1, .w1c, 0⟩
/-- DSP_EVT_STAT.SUBST_WARN (R197): a frame reached WARN (R184) -/
def DSP_EVT_STAT_SUBST_WARN : RegField := ⟨0x31000008, 0, 1, .w1c, 0⟩
/-- DSP_SUBST_THR.TAKEOVER (R197): LATE lines per frame that, in 2 consecutive frames, start a takeover; 0: never -/
def DSP_SUBST_THR_TAKEOVER : RegField := ⟨0x3100000C, 16, 16, .rw, 432⟩
/-- DSP_SUBST_THR.WARN (R197): substituted lines per frame that set SUBST_WARN; 0: never -/
def DSP_SUBST_THR_WARN : RegField := ⟨0x3100000C, 0, 16, .rw, 8⟩
/-- DSP_SUBST_FRAME.TAKEOVER_LINES (R197): takeover substitutions in the last completed frame -/
def DSP_SUBST_FRAME_TAKEOVER_LINES : RegField := ⟨0x31000010, 16, 16, .ro, 0⟩
/-- DSP_SUBST_FRAME.LATE_LINES (R197): LATE substitutions in the last completed frame -/
def DSP_SUBST_FRAME_LATE_LINES : RegField := ⟨0x31000010, 0, 16, .ro, 0⟩
/-- DSP_SUBST_TOTAL.LINES (R197): substituted lines of every cause; saturates at 0xFFFF_FFFF -/
def DSP_SUBST_TOTAL_LINES : RegField := ⟨0x31000014, 0, 32, .ro, 0⟩
/-- DSP_SUBST_MAX.MAX (R197): largest LATE + takeover count in one frame -/
def DSP_SUBST_MAX_MAX : RegField := ⟨0x31000018, 0, 16, .ro, 0⟩
/-- DSP_TAKEOVER_CNT.COUNT (R197): takeovers begun, of every cause; saturates at 65,535 -/
def DSP_TAKEOVER_CNT_COUNT : RegField := ⟨0x3100001C, 0, 16, .ro, 0⟩
/-- DSP_NOSRC_LINES.LINES (R197): lines sent as fill colour or as a repeat (R185); saturates at 0xFFFF_FFFF -/
def DSP_NOSRC_LINES_LINES : RegField := ⟨0x31000020, 0, 32, .ro, 0⟩
/-- DSP_LINK_LOST_LINES.LINES (R197): active line ticks × links not trained while ENABLE = 1; saturates at 0xFFFF_FFFF -/
def DSP_LINK_LOST_LINES_LINES : RegField := ⟨0x31000024, 0, 32, .ro, 0⟩
/-- DSP_OVERRUN_CNT.COUNT (R197): abandoned or dropped dispatches, and discarded early segments (R166, R182); saturates at 6 -/
def DSP_OVERRUN_CNT_COUNT : RegField := ⟨0x31000028, 0, 16, .ro, 0⟩
/-- DSP_FRAME_CNT.FRAMES (R197): output frames started since ENABLE last went to 1; wraps; not cleared by DSP_CNT_CLR -/
def DSP_FRAME_CNT_FRAMES : RegField := ⟨0x3100002C, 0, 32, .ro, 0⟩
/-- DSP_CNT_CLR.CLR (R197): 1: clear the counters of R197 at the next frame boundary; reads 1 until done -/
def DSP_CNT_CLR_CLR : RegField := ⟨0x31000030, 0, 1, .w1s, 0⟩
/-- DSP_ARM_ID.ID (R197): identifier of the active bank's Armature; 0 none -/
def DSP_ARM_ID_ID : RegField := ⟨0x31000034, 0, 32, .ro, 0⟩
/-- DSP_FILL.RED (R197): fill red, 10 bits -/
def DSP_FILL_RED : RegField := ⟨0x31000038, 20, 10, .rw, 0⟩
/-- DSP_FILL.GREEN (R197): fill green -/
def DSP_FILL_GREEN : RegField := ⟨0x31000038, 10, 10, .rw, 0⟩
/-- DSP_FILL.BLUE (R197): fill blue -/
def DSP_FILL_BLUE : RegField := ⟨0x31000038, 0, 10, .rw, 0⟩
/-- DSP_PHASE.PHASE (R197): φ_j of the current output frame, in 1/65,536 (R174) -/
def DSP_PHASE_PHASE : RegField := ⟨0x3100003C, 0, 16, .ro, 0⟩
/-- DSP_LOCK_ERR.PHASE_ERR (R197): last measured B(j) error in 1/256 line tick, two's complement -/
def DSP_LOCK_ERR_PHASE_ERR : RegField := ⟨0x31000040, 0, 16, .ro, 0⟩
/-- DSP_DRAM_USE.PEAK (R197): highest use over any line tick of the last frame, in 0.01 GB/s -/
def DSP_DRAM_USE_PEAK : RegField := ⟨0x31000044, 16, 16, .ro, 0⟩
/-- DSP_DRAM_USE.MEAN (R197): mean use over the last frame, in 0.01 GB/s -/
def DSP_DRAM_USE_MEAN : RegField := ⟨0x31000044, 0, 16, .ro, 0⟩
/-- DSP_RX_STAT_n.ERR_CNT (R197): symbol and FEC errors; saturates at 255; cleared by DSP_CNT_CLR and on training -/
def DSP_RX_STAT_ERR_CNT (n : Nat) : RegField := ⟨0x31000080 + 0x4 * n, 24, 8, .ro, 0⟩
/-- DSP_RX_STAT_n.RATE (R197): 0 untrained; 1 1.62; 2 2.7; 3 5.4; 4 8.1; 5 10; 6 13.5; 7 20 Gbit/s; 8 2.16; 9 2.43; 10 3. -/
def DSP_RX_STAT_RATE (n : Nat) : RegField := ⟨0x31000080 + 0x4 * n, 16, 4, .ro, 0⟩
/-- DSP_RX_STAT_n.LANES (R197): 0 none; 1 one; 2 two; 3 four -/
def DSP_RX_STAT_LANES (n : Nat) : RegField := ⟨0x31000080 + 0x4 * n, 12, 2, .ro, 0⟩
/-- DSP_RX_STAT_n.DSC (R197): 1: DSC active -/
def DSP_RX_STAT_DSC (n : Nat) : RegField := ⟨0x31000080 + 0x4 * n, 11, 1, .ro, 0⟩
/-- DSP_RX_STAT_n.VIDEO (R197): 1: a video stream is present -/
def DSP_RX_STAT_VIDEO (n : Nat) : RegField := ⟨0x31000080 + 0x4 * n, 10, 1, .ro, 0⟩
/-- DSP_RX_STAT_n.TRAINED (R197): 1: the link is trained -/
def DSP_RX_STAT_TRAINED (n : Nat) : RegField := ⟨0x31000080 + 0x4 * n, 9, 1, .ro, 0⟩
/-- DSP_RX_STAT_n.EDP (R197): 1: eDP panel mode (TX only; 0 for RX) -/
def DSP_RX_STAT_EDP (n : Nat) : RegField := ⟨0x31000080 + 0x4 * n, 8, 1, .ro, 0⟩
/-- DSP_TX_STAT_n.ERR_CNT (R197): symbol and FEC errors; saturates at 255; cleared by DSP_CNT_CLR and on training -/
def DSP_TX_STAT_ERR_CNT (n : Nat) : RegField := ⟨0x31000090 + 0x4 * n, 24, 8, .ro, 0⟩
/-- DSP_TX_STAT_n.RATE (R197): 0 untrained; 1 1.62; 2 2.7; 3 5.4; 4 8.1; 5 10; 6 13.5; 7 20 Gbit/s; 8 2.16; 9 2.43; 10 3. -/
def DSP_TX_STAT_RATE (n : Nat) : RegField := ⟨0x31000090 + 0x4 * n, 16, 4, .ro, 0⟩
/-- DSP_TX_STAT_n.LANES (R197): 0 none; 1 one; 2 two; 3 four -/
def DSP_TX_STAT_LANES (n : Nat) : RegField := ⟨0x31000090 + 0x4 * n, 12, 2, .ro, 0⟩
/-- DSP_TX_STAT_n.DSC (R197): 1: DSC active -/
def DSP_TX_STAT_DSC (n : Nat) : RegField := ⟨0x31000090 + 0x4 * n, 11, 1, .ro, 0⟩
/-- DSP_TX_STAT_n.VIDEO (R197): 1: a video stream is present -/
def DSP_TX_STAT_VIDEO (n : Nat) : RegField := ⟨0x31000090 + 0x4 * n, 10, 1, .ro, 0⟩
/-- DSP_TX_STAT_n.TRAINED (R197): 1: the link is trained -/
def DSP_TX_STAT_TRAINED (n : Nat) : RegField := ⟨0x31000090 + 0x4 * n, 9, 1, .ro, 0⟩
/-- DSP_TX_STAT_n.EDP (R197): 1: eDP panel mode (TX only; 0 for RX) -/
def DSP_TX_STAT_EDP (n : Nat) : RegField := ⟨0x31000090 + 0x4 * n, 8, 1, .ro, 0⟩
/-- CAM_PORT_CFG_n.RATE (R220): lane or trio rate in units of 50 Mbit/s or 50 Msym/s; 4–90 in D-PHY, 4–120 in C-PHY; 0 unc -/
def CAM_PORT_CFG_RATE (n : Nat) : RegField := ⟨0x32000000 + 0x4 * n, 16, 8, .rw, 0⟩
/-- CAM_PORT_CFG_n.ENABLE (R220): 1: the port receives -/
def CAM_PORT_CFG_ENABLE (n : Nat) : RegField := ⟨0x32000000 + 0x4 * n, 4, 1, .rw, 0⟩
/-- CAM_PORT_CFG_n.LANES (R220): 0 one, 1 two, 2 four lanes in D-PHY or three trios in C-PHY; 3 undefined -/
def CAM_PORT_CFG_LANES (n : Nat) : RegField := ⟨0x32000000 + 0x4 * n, 1, 2, .rw, 0⟩
/-- CAM_PORT_CFG_n.PHY (R220): 0 D-PHY, 1 C-PHY -/
def CAM_PORT_CFG_PHY (n : Nat) : RegField := ⟨0x32000000 + 0x4 * n, 0, 1, .rw, 0⟩
/-- CAM_PORT_STAT_n.CRC_ERR (R220): payload CRC failures; saturates at 255 -/
def CAM_PORT_STAT_CRC_ERR (n : Nat) : RegField := ⟨0x32000010 + 0x4 * n, 24, 8, .rc, 0⟩
/-- CAM_PORT_STAT_n.ECC_CORR (R220): corrected headers; saturates at 255 -/
def CAM_PORT_STAT_ECC_CORR (n : Nat) : RegField := ⟨0x32000010 + 0x4 * n, 16, 8, .rc, 0⟩
/-- CAM_PORT_STAT_n.ECC_UNCORR (R220): discarded headers; saturates at 255 -/
def CAM_PORT_STAT_ECC_UNCORR (n : Nat) : RegField := ⟨0x32000010 + 0x4 * n, 8, 8, .rc, 0⟩
/-- CAM_PORT_STAT_n.ACTIVE (R220): 1: high-speed traffic received within the last 10 ms -/
def CAM_PORT_STAT_ACTIVE (n : Nat) : RegField := ⟨0x32000010 + 0x4 * n, 7, 1, .ro, 0⟩
/-- CAM_PORT_STAT_n.VCS (R220): mapped virtual channels, 0–8 -/
def CAM_PORT_STAT_VCS (n : Nat) : RegField := ⟨0x32000010 + 0x4 * n, 0, 4, .ro, 0⟩
/-- CAM_PIPE_STAT_n.OVF_CNT (R220): frames damaged by overflow; saturates at 255 -/
def CAM_PIPE_STAT_OVF_CNT (n : Nat) : RegField := ⟨0x32000020 + 0x4 * n, 24, 8, .rc, 0⟩
/-- CAM_PIPE_STAT_n.STREAMS (R220): raw streams admitted, 0–8 -/
def CAM_PIPE_STAT_STREAMS (n : Nat) : RegField := ⟨0x32000020 + 0x4 * n, 20, 4, .ro, 0⟩
/-- CAM_PIPE_STAT_n.LOAD (R220): admitted load in Mpixel/s, 0–600 -/
def CAM_PIPE_STAT_LOAD (n : Nat) : RegField := ⟨0x32000020 + 0x4 * n, 0, 10, .ro, 0⟩
/-- CAM_EVT_STAT.PIPE_OVF (R220): a pipe overflowed -/
def CAM_EVT_STAT_PIPE_OVF : RegField := ⟨0x32000030, 3, 1, .w1c, 0⟩
/-- CAM_EVT_STAT.PORT_ERR (R220): a CRC or header error was counted -/
def CAM_EVT_STAT_PORT_ERR : RegField := ⟨0x32000030, 2, 1, .w1c, 0⟩
/-- CAM_EVT_STAT.SOURCE_LOST (R220): a camera stream lost its source (R209) -/
def CAM_EVT_STAT_SOURCE_LOST : RegField := ⟨0x32000030, 1, 1, .w1c, 0⟩
/-- CAM_EVT_STAT.FRAME_DROP (R220): a frame was dropped (R215) -/
def CAM_EVT_STAT_FRAME_DROP : RegField := ⟨0x32000030, 0, 1, .w1c, 0⟩
/-- CAM_CTX_CFG_n.KIND (R220): 0 display tap, 1 camera, 2 host-pushed (R202) -/
def CAM_CTX_CFG_KIND (n : Nat) : RegField := ⟨0x32000100 + 0x10 * n, 30, 2, .ro, (if n < 2 then 0 else if n < 34 then 1 else 2)⟩
/-- CAM_CTX_CFG_n.STATE (R220): 0 CLOSED, 1 OPEN, 2 BOUND, 3 LOST -/
def CAM_CTX_CFG_STATE (n : Nat) : RegField := ⟨0x32000100 + 0x10 * n, 28, 2, .ro, 0⟩
/-- CAM_CTX_CFG_n.PART (R220): bound partition; meaningful in BOUND and LOST -/
def CAM_CTX_CFG_PART (n : Nat) : RegField := ⟨0x32000100 + 0x10 * n, 24, 4, .ro, 0⟩
/-- CAM_CTX_CFG_n.DROP_DAMAGED (R220): 1: drop damaged frames (R212) -/
def CAM_CTX_CFG_DROP_DAMAGED (n : Nat) : RegField := ⟨0x32000100 + 0x10 * n, 23, 1, .rw, 0⟩
/-- CAM_CTX_CFG_n.PIPE (R220): admitted pipe -/
def CAM_CTX_CFG_PIPE (n : Nat) : RegField := ⟨0x32000100 + 0x10 * n, 21, 2, .ro, 0⟩
/-- CAM_CTX_CFG_n.RAW (R220): 1: the stream uses PIPE -/
def CAM_CTX_CFG_RAW (n : Nat) : RegField := ⟨0x32000100 + 0x10 * n, 20, 1, .ro, 0⟩
/-- CAM_CTX_CFG_n.PORT (R220): camera port -/
def CAM_CTX_CFG_PORT (n : Nat) : RegField := ⟨0x32000100 + 0x10 * n, 18, 2, .ro, 0⟩
/-- CAM_CTX_CFG_n.VC (R220): virtual channel, 0–15 -/
def CAM_CTX_CFG_VC (n : Nat) : RegField := ⟨0x32000100 + 0x10 * n, 14, 4, .ro, 0⟩
/-- CAM_CTX_CFG_n.DT (R220): CSI-2 data type -/
def CAM_CTX_CFG_DT (n : Nat) : RegField := ⟨0x32000100 + 0x10 * n, 8, 6, .ro, 0⟩
/-- CAM_CTX_TICKS_n.TICKS (R220): ticks since STREAM_OPEN, synthetic ticks included; wraps -/
def CAM_CTX_TICKS_TICKS (n : Nat) : RegField := ⟨0x32000104 + 0x10 * n, 0, 32, .ro, 0⟩
/-- CAM_CTX_DROP_n.LATE (R220): DROP_LATE frames (R214) -/
def CAM_CTX_DROP_LATE (n : Nat) : RegField := ⟨0x32000108 + 0x10 * n, 16, 16, .ro, 0⟩
/-- CAM_CTX_DROP_n.DAMAGED (R220): DONE_DAMAGED and DROP_DAMAGED frames -/
def CAM_CTX_DROP_DAMAGED (n : Nat) : RegField := ⟨0x32000108 + 0x10 * n, 0, 16, .ro, 0⟩
/-- CAM_CTX_MISC_n.SUPERSEDED (R220): DROP_SUPERSEDED frames -/
def CAM_CTX_MISC_SUPERSEDED (n : Nat) : RegField := ⟨0x3200010C + 0x10 * n, 16, 16, .ro, 0⟩
/-- CAM_CTX_MISC_n.OTHER (R220): DROP_RESET, DROP_FAULT, DROP_NO_CAPACITY and DROP_NO_BUFFER frames -/
def CAM_CTX_MISC_OTHER (n : Nat) : RegField := ⟨0x3200010C + 0x10 * n, 0, 16, .ro, 0⟩
/-- MEM_CFG.RATE (R283): 0 3,200; 1 4,267; 2 5,500; 3 6,400; 4 7,500; 5 8,533 MT/s; 6–15 undefined -/
def MEM_CFG_RATE : RegField := ⟨0x33000000, 20, 4, .rw, 0⟩
/-- MEM_CFG.RANKS (R283): 0 one rank, 1 two ranks -/
def MEM_CFG_RANKS : RegField := ⟨0x33000000, 18, 1, .rw, 0⟩
/-- MEM_CFG.DENS (R283): 0 8 Gbit, 1 16 Gbit per channel and rank -/
def MEM_CFG_DENS : RegField := ⟨0x33000000, 17, 1, .rw, 0⟩
/-- MEM_CFG.TYPE (R283): 0 LPDDR5, 1 LPDDR5X -/
def MEM_CFG_TYPE : RegField := ⟨0x33000000, 16, 1, .rw, 0⟩
/-- MEM_CFG.START (R283): 1: train all channels with this configuration; reads 1 until training ends -/
def MEM_CFG_START : RegField := ⟨0x33000000, 0, 1, .w1s, 0⟩
/-- MEM_STAT.SIZE (R283): trained size in GiB: 16 or 32; 0 before training -/
def MEM_STAT_SIZE : RegField := ⟨0x33000004, 8, 8, .ro, 0⟩
/-- MEM_STAT.GTAB_REJ (R283): a MEM_GTAB_DATA write was ignored (R286) -/
def MEM_STAT_GTAB_REJ : RegField := ⟨0x33000004, 4, 1, .w1c, 0⟩
/-- MEM_STAT.CFG_REJ (R283): a MEM_CFG write was ignored (R284) -/
def MEM_STAT_CFG_REJ : RegField := ⟨0x33000004, 3, 1, .w1c, 0⟩
/-- MEM_STAT.TRAIN_FAIL (R283): 1: training failed on at least one channel -/
def MEM_STAT_TRAIN_FAIL : RegField := ⟨0x33000004, 2, 1, .ro, 0⟩
/-- MEM_STAT.DISP_LIVE (R283): 1: class DISPLAY traffic is being served -/
def MEM_STAT_DISP_LIVE : RegField := ⟨0x33000004, 1, 1, .ro, 0⟩
/-- MEM_STAT.READY (R283): 1: trained and serving -/
def MEM_STAT_READY : RegField := ⟨0x33000004, 0, 1, .ro, 0⟩
/-- MEM_QOS_CFG.ISO_BW (R283): class ISOCH reservation in GB/s, 0–32; larger values act as 32 -/
def MEM_QOS_CFG_ISO_BW : RegField := ⟨0x33000008, 24, 8, .rw, 8⟩
/-- MEM_QOS_CFG.DISP_BW (R283): class DISPLAY reservation, 24 GB/s -/
def MEM_QOS_CFG_DISP_BW : RegField := ⟨0x33000008, 16, 8, .ro, 24⟩
/-- MEM_QOS_CFG.BULK_MIN (R283): class BULK minimum in 1/64 of the shared bandwidth; 0 acts as 1 -/
def MEM_QOS_CFG_BULK_MIN : RegField := ⟨0x33000008, 0, 4, .rw, 4⟩
/-- MEM_EVT_STAT.KEY_ABSENT (R283): an access met an empty key slot (R267) -/
def MEM_EVT_STAT_KEY_ABSENT : RegField := ⟨0x3300000C, 4, 1, .w1c, 0⟩
/-- MEM_EVT_STAT.ACC_VIOL (R283): an access was refused under R250 -/
def MEM_EVT_STAT_ACC_VIOL : RegField := ⟨0x3300000C, 3, 1, .w1c, 0⟩
/-- MEM_EVT_STAT.LECC_UE (R283): a read stayed uncorrectable after its retry -/
def MEM_EVT_STAT_LECC_UE : RegField := ⟨0x3300000C, 2, 1, .w1c, 0⟩
/-- MEM_EVT_STAT.LECC_CE (R283): a link ECC correction occurred -/
def MEM_EVT_STAT_LECC_CE : RegField := ⟨0x3300000C, 1, 1, .w1c, 0⟩
/-- MEM_EVT_STAT.DISP_MISS (R283): a class DISPLAY read exceeded 900 ns -/
def MEM_EVT_STAT_DISP_MISS : RegField := ⟨0x3300000C, 0, 1, .w1c, 0⟩
/-- MEM_CLS_BW_n.PEAK (R283): highest use in any 10 µs window of the last completed 1 ms, in 0.1 GB/s -/
def MEM_CLS_BW_PEAK (n : Nat) : RegField := ⟨0x33000010 + 0x4 * n, 16, 16, .ro, 0⟩
/-- MEM_CLS_BW_n.MEAN (R283): mean use over the last completed 1 ms, in 0.1 GB/s -/
def MEM_CLS_BW_MEAN (n : Nat) : RegField := ⟨0x33000010 + 0x4 * n, 0, 16, .ro, 0⟩
/-- MEM_LECC_CNT.UE (R283): reads delivered poisoned (R262); saturates at 255 -/
def MEM_LECC_CNT_UE : RegField := ⟨0x33000020, 24, 8, .rc, 0⟩
/-- MEM_LECC_CNT.RETRY (R283): reads retried; saturates at 255 -/
def MEM_LECC_CNT_RETRY : RegField := ⟨0x33000020, 16, 8, .rc, 0⟩
/-- MEM_LECC_CNT.CE (R283): link ECC corrections; saturates at 65,535 -/
def MEM_LECC_CNT_CE : RegField := ⟨0x33000020, 0, 16, .rc, 0⟩
/-- MEM_LECC_LAST.VALID (R283): 1: the other fields hold a capture -/
def MEM_LECC_LAST_VALID : RegField := ⟨0x33000024, 31, 1, .w1c, 0⟩
/-- MEM_LECC_LAST.UE (R283): 1: uncorrectable after retry; 0: corrected -/
def MEM_LECC_LAST_UE : RegField := ⟨0x33000024, 30, 1, .ro, 0⟩
/-- MEM_LECC_LAST.CH (R283): channel CH0–CH15 -/
def MEM_LECC_LAST_CH : RegField := ⟨0x33000024, 26, 4, .ro, 0⟩
/-- MEM_LECC_LAST.ADDR (R283): T2 offset bits [34:9] -/
def MEM_LECC_LAST_ADDR : RegField := ⟨0x33000024, 0, 26, .ro, 0⟩
/-- MEM_KEY_VALID.VALID (R283): bit s = 1: key slot s holds a key pair; key material is never readable -/
def MEM_KEY_VALID_VALID : RegField := ⟨0x33000028, 0, 32, .ro, 0⟩
/-- MEM_ACC_ERR.VALID (R283): 1: the other fields hold a capture -/
def MEM_ACC_ERR_VALID : RegField := ⟨0x3300002C, 31, 1, .w1c, 0⟩
/-- MEM_ACC_ERR.KIND (R283): 0 partition mismatch; 1 write to RO granule; 2 DISP or PLN granule; 3 key absent; 4 entry  -/
def MEM_ACC_ERR_KIND : RegField := ⟨0x3300002C, 28, 3, .ro, 0⟩
/-- MEM_ACC_ERR.PART (R283): requesting partition -/
def MEM_ACC_ERR_PART : RegField := ⟨0x3300002C, 24, 4, .ro, 0⟩
/-- MEM_ACC_ERR.GRAN (R283): granule number, 0–16,383 -/
def MEM_ACC_ERR_GRAN : RegField := ⟨0x3300002C, 0, 14, .ro, 0⟩
/-- MEM_GTAB_IDX.GRAN (R283): granule that MEM_GTAB_DATA reads and writes -/
def MEM_GTAB_IDX_GRAN : RegField := ⟨0x33000030, 0, 14, .rw, 0⟩
/-- MEM_GTAB_DATA.ZFILL (R283): 1: zero-fill the granule under the entry written with it (R251); reads 1 until done -/
def MEM_GTAB_DATA_ZFILL : RegField := ⟨0x33000034, 16, 1, .w1s, 0⟩
/-- MEM_GTAB_DATA.V (R283): 1: the entry is valid -/
def MEM_GTAB_DATA_V : RegField := ⟨0x33000034, 15, 1, .rw, 0⟩
/-- MEM_GTAB_DATA.DISP (R283): 1: display region; no encryption (R191) -/
def MEM_GTAB_DATA_DISP : RegField := ⟨0x33000034, 14, 1, .rw, 0⟩
/-- MEM_GTAB_DATA.PLN (R283): 1: Plinth granule -/
def MEM_GTAB_DATA_PLN : RegField := ⟨0x33000034, 13, 1, .rw, 0⟩
/-- MEM_GTAB_DATA.RO (R283): 1: partition writes refused -/
def MEM_GTAB_DATA_RO : RegField := ⟨0x33000034, 12, 1, .rw, 0⟩
/-- MEM_GTAB_DATA.PART (R283): owning partition, P0–P15 -/
def MEM_GTAB_DATA_PART : RegField := ⟨0x33000034, 8, 4, .rw, 0⟩
/-- MEM_GTAB_DATA.SLOT (R283): key slot, 0–31 -/
def MEM_GTAB_DATA_SLOT : RegField := ⟨0x33000034, 0, 5, .rw, 0⟩
/-- MEM_CH_STAT_n.CE (R283): link ECC corrections on channel c; saturates at 255 -/
def MEM_CH_STAT_CE (n : Nat) : RegField := ⟨0x33000040 + 0x4 * n, 24, 8, .rc, 0⟩
/-- MEM_CH_STAT_n.REF_RATE (R283): refresh rate code last read from MR4 -/
def MEM_CH_STAT_REF_RATE (n : Nat) : RegField := ⟨0x33000040 + 0x4 * n, 16, 3, .ro, 0⟩
/-- MEM_CH_STAT_n.TRAINED (R283): 1: channel c trained -/
def MEM_CH_STAT_TRAINED (n : Nat) : RegField := ⟨0x33000040 + 0x4 * n, 0, 1, .ro, 0⟩
/-- WFL_CTRL.PATROL_EN (R317): 1: patrol reads run (R310) -/
def WFL_CTRL_PATROL_EN : RegField := ⟨0x34000000, 2, 1, .rw, 1⟩
/-- WFL_CTRL.STOP (R317): 1: run the sequence of R304; cleared at reset of the domain -/
def WFL_CTRL_STOP : RegField := ⟨0x34000000, 1, 1, .w1s, 0⟩
/-- WFL_CTRL.ENABLE (R317): 1: the controller serves reads and operations -/
def WFL_CTRL_ENABLE : RegField := ⟨0x34000000, 0, 1, .rw, 0⟩
/-- WFL_STAT.MAQ_COUNT (R317): committed maquettes, 0–64 -/
def WFL_STAT_MAQ_COUNT : RegField := ⟨0x34000004, 16, 8, .ro, 0⟩
/-- WFL_STAT.RELOC_BLOCKED (R317): 1: a relocation waits for a free block (R310) -/
def WFL_STAT_RELOC_BLOCKED : RegField := ⟨0x34000004, 5, 1, .ro, 0⟩
/-- WFL_STAT.CLOSED (R317): 1: the sequence of R304 is complete -/
def WFL_STAT_CLOSED : RegField := ⟨0x34000004, 4, 1, .ro, 0⟩
/-- WFL_STAT.RECOVERY (R317): 1: journal replay in progress (R306) -/
def WFL_STAT_RECOVERY : RegField := ⟨0x34000004, 3, 1, .ro, 0⟩
/-- WFL_STAT.STORE_ACT (R317): 1: a MAQ_STORE or MAQ_ERASE is running -/
def WFL_STAT_STORE_ACT : RegField := ⟨0x34000004, 2, 1, .ro, 0⟩
/-- WFL_STAT.STOPPED (R317): 1: no new operation will start -/
def WFL_STAT_STOPPED : RegField := ⟨0x34000004, 1, 1, .ro, 0⟩
/-- WFL_STAT.READY (R317): 1: replay done; the T3 window serves reads -/
def WFL_STAT_READY : RegField := ⟨0x34000004, 0, 1, .ro, 0⟩
/-- WFL_EVT_STAT.FLASH_WORN (R317): a channel became worn (R308) -/
def WFL_EVT_STAT_FLASH_WORN : RegField := ⟨0x34000008, 5, 1, .w1c, 0⟩
/-- WFL_EVT_STAT.GROWN_BAD (R317): a block was retired (R307) -/
def WFL_EVT_STAT_GROWN_BAD : RegField := ⟨0x34000008, 4, 1, .w1c, 0⟩
/-- WFL_EVT_STAT.READ_UE (R317): a read was delivered poisoned (R293) -/
def WFL_EVT_STAT_READ_UE : RegField := ⟨0x34000008, 3, 1, .w1c, 0⟩
/-- WFL_EVT_STAT.HOLDUP_LOW (R317): a hold-up check failed (R299) -/
def WFL_EVT_STAT_HOLDUP_LOW : RegField := ⟨0x34000008, 2, 1, .w1c, 0⟩
/-- WFL_EVT_STAT.TORN_FOUND (R317): replay found a torn record (R306) -/
def WFL_EVT_STAT_TORN_FOUND : RegField := ⟨0x34000008, 1, 1, .w1c, 0⟩
/-- WFL_EVT_STAT.RELOCATED (R317): a relocation completed or was blocked (R310) -/
def WFL_EVT_STAT_RELOCATED : RegField := ⟨0x34000008, 0, 1, .w1c, 0⟩
/-- WFL_HOLDUP_CFG.CAP (R317): C in units of 10 µF; 0: no hold-up -/
def WFL_HOLDUP_CFG_CAP : RegField := ⟨0x3400000C, 16, 16, .rw, 0⟩
/-- WFL_HOLDUP_CFG.DIV (R317): divider ratio in units of 1/8; 0 acts as 8, ratio 1 -/
def WFL_HOLDUP_CFG_DIV : RegField := ⟨0x3400000C, 8, 8, .rw, 8⟩
/-- WFL_HOLDUP_CFG.VMIN (R317): VMIN in units of 100 mV -/
def WFL_HOLDUP_CFG_VMIN : RegField := ⟨0x3400000C, 0, 8, .rw, 0⟩
/-- WFL_HOLDUP_EXT.E_BOARD (R317): board energy in units of 10 µJ -/
def WFL_HOLDUP_EXT_E_BOARD : RegField := ⟨0x34000010, 0, 16, .rw, 0⟩
/-- WFL_HOLDUP_STAT.CODE (R317): last sample code -/
def WFL_HOLDUP_STAT_CODE : RegField := ⟨0x34000014, 22, 10, .ro, 0⟩
/-- WFL_HOLDUP_STAT.PROG_THR (R317): lowest code that passes a program check -/
def WFL_HOLDUP_STAT_PROG_THR : RegField := ⟨0x34000014, 12, 10, .ro, 1023⟩
/-- WFL_HOLDUP_STAT.ERASE_THR (R317): lowest code that passes an erase check -/
def WFL_HOLDUP_STAT_ERASE_THR : RegField := ⟨0x34000014, 2, 10, .ro, 1023⟩
/-- WFL_HOLDUP_STAT.LOW (R317): 1: the last sample fails the program check -/
def WFL_HOLDUP_STAT_LOW : RegField := ⟨0x34000014, 1, 1, .ro, 0⟩
/-- WFL_ECC_CNT.UE (R317): reads delivered poisoned; saturates at 255 -/
def WFL_ECC_CNT_UE : RegField := ⟨0x34000018, 24, 8, .rc, 0⟩
/-- WFL_ECC_CNT.RETRY (R317): reads that needed a retry level; saturates at 255 -/
def WFL_ECC_CNT_RETRY : RegField := ⟨0x34000018, 16, 8, .rc, 0⟩
/-- WFL_ECC_CNT.HIGH_CE (R317): codewords read with more than 40 corrections; saturates at 65,535 -/
def WFL_ECC_CNT_HIGH_CE : RegField := ⟨0x34000018, 0, 16, .rc, 0⟩
/-- WFL_ERR_LAST.VALID (R317): 1: the other fields hold a capture -/
def WFL_ERR_LAST_VALID : RegField := ⟨0x3400001C, 31, 1, .w1c, 0⟩
/-- WFL_ERR_LAST.CH (R317): channel WF0–WF31 -/
def WFL_ERR_LAST_CH : RegField := ⟨0x3400001C, 26, 5, .ro, 0⟩
/-- WFL_ERR_LAST.PBLK (R317): physical block -/
def WFL_ERR_LAST_PBLK : RegField := ⟨0x3400001C, 14, 10, .ro, 0⟩
/-- WFL_ERR_LAST.PAGE (R317): page within the block -/
def WFL_ERR_LAST_PAGE : RegField := ⟨0x3400001C, 6, 8, .ro, 0⟩
/-- WFL_SUSP_CNT.STALL_MAX (R317): longest read wait before tREAD since cleared, in 10 µs; saturates at 65,535 -/
def WFL_SUSP_CNT_STALL_MAX : RegField := ⟨0x34000020, 16, 16, .rc, 0⟩
/-- WFL_SUSP_CNT.SUSPENDS (R317): suspends of either class; saturates at 65,535 -/
def WFL_SUSP_CNT_SUSPENDS : RegField := ⟨0x34000020, 0, 16, .rc, 0⟩
/-- WFL_CH_STAT_n.WORN (R317): 1: channel worn (R308) -/
def WFL_CH_STAT_WORN (n : Nat) : RegField := ⟨0x34000100 + 0x4 * n, 31, 1, .ro, 0⟩
/-- WFL_CH_STAT_n.BUSY (R317): 0 idle; 1 read; 2 maquette program; 3 maquette erase; 4 record program; 5 record erase; 6  -/
def WFL_CH_STAT_BUSY (n : Nat) : RegField := ⟨0x34000100 + 0x4 * n, 28, 3, .ro, 0⟩
/-- WFL_CH_STAT_n.SPARE_LEFT (R317): spare blocks left, 0–48 -/
def WFL_CH_STAT_SPARE_LEFT (n : Nat) : RegField := ⟨0x34000100 + 0x4 * n, 22, 6, .ro, 48⟩
/-- WFL_CH_STAT_n.GROWN_BAD (R317): grown-bad blocks; saturates at 63 -/
def WFL_CH_STAT_GROWN_BAD (n : Nat) : RegField := ⟨0x34000100 + 0x4 * n, 16, 6, .ro, 0⟩
/-- WFL_CH_STAT_n.FACTORY_BAD (R317): factory-bad blocks, 0–16 -/
def WFL_CH_STAT_FACTORY_BAD (n : Nat) : RegField := ⟨0x34000100 + 0x4 * n, 11, 5, .ro, 0⟩
/-- WFL_CH_WEAR_n.MAX_EC (R317): highest erase count of a maquette-area block -/
def WFL_CH_WEAR_MAX_EC (n : Nat) : RegField := ⟨0x34000200 + 0x4 * n, 16, 16, .ro, 0⟩
/-- WFL_CH_WEAR_n.AVG_EC (R317): mean erase count of the maquette area, rounded down -/
def WFL_CH_WEAR_AVG_EC (n : Nat) : RegField := ⟨0x34000200 + 0x4 * n, 0, 16, .ro, 0⟩
/-- HIF_ID_n.STEPPING (R425): silicon stepping -/
def HIF_ID_STEPPING (n : Nat) : RegField := ⟨0x30000000 + 0x10000 * n, 24, 8, .ro, 176⟩
/-- HIF_ID_n.FUNC (R425): 0 PF; 1–15 VF1–VF15 -/
def HIF_ID_FUNC (n : Nat) : RegField := ⟨0x30000000 + 0x10000 * n, 16, 4, .ro, n⟩
/-- HIF_ID_n.DEVICE (R425): device number, the same in every function -/
def HIF_ID_DEVICE (n : Nat) : RegField := ⟨0x30000000 + 0x10000 * n, 0, 16, .ro, 34368⟩
/-- HIF_CAPS_n.F1 (R425): F1 rings accepted -/
def HIF_CAPS_F1 (n : Nat) : RegField := ⟨0x30000004 + 0x10000 * n, 31, 1, .ro, 1⟩
/-- HIF_CAPS_n.F2 (R425): F2 rings accepted -/
def HIF_CAPS_F2 (n : Nat) : RegField := ⟨0x30000004 + 0x10000 * n, 30, 1, .ro, 1⟩
/-- HIF_CAPS_n.VEC_M1 (R425): MSI-X vectors − 1 -/
def HIF_CAPS_VEC_M1 (n : Nat) : RegField := ⟨0x30000004 + 0x10000 * n, 16, 6, .ro, 63⟩
/-- HIF_CAPS_n.RINGS (R425): rings of the function -/
def HIF_CAPS_RINGS (n : Nat) : RegField := ⟨0x30000004 + 0x10000 * n, 0, 11, .ro, 1024⟩
/-- HIF_STAT_n.WR_DROP (R425): writes discarded by R384; live; saturates at 65,535; clears at function reset -/
def HIF_STAT_WR_DROP (n : Nat) : RegField := ⟨0x30000008 + 0x10000 * n, 16, 16, .ro, 0⟩
/-- HIF_STAT_n.FW_SLOT (R425): running image: 0 A, 1 B -/
def HIF_STAT_FW_SLOT (n : Nat) : RegField := ⟨0x30000008 + 0x10000 * n, 2, 1, .ro, 0⟩
/-- HIF_STAT_n.STALE (R425): 1: the Plinth is not publishing; live -/
def HIF_STAT_STALE (n : Nat) : RegField := ⟨0x30000008 + 0x10000 * n, 1, 1, .ro, 1⟩
/-- HIF_STAT_n.READY (R425): 1: the function accepts packets and window writes -/
def HIF_STAT_READY (n : Nat) : RegField := ⟨0x30000008 + 0x10000 * n, 0, 1, .ro, 0⟩
/-- HIF_WIN_SEQ_n.SEQ (R425): writes applied since function reset; live; wraps -/
def HIF_WIN_SEQ_SEQ (n : Nat) : RegField := ⟨0x3000000C + 0x10000 * n, 0, 32, .ro, 0⟩
/-- HIF_EVT_CFG_n.EN (R425): 1: event records are written -/
def HIF_EVT_CFG_EN (n : Nat) : RegField := ⟨0x30000010 + 0x10000 * n, 31, 1, .rw, 0⟩
/-- HIF_EVT_CFG_n.RING (R425): event ring; must be an enabled COMMAND ring -/
def HIF_EVT_CFG_RING (n : Nat) : RegField := ⟨0x30000010 + 0x10000 * n, 16, 10, .rw, 0⟩
/-- HIF_EVT_CFG_n.STAT_VEC (R425): vector for HIF_STAT changes -/
def HIF_EVT_CFG_STAT_VEC (n : Nat) : RegField := ⟨0x30000010 + 0x10000 * n, 0, 6, .rw, 0⟩
/-- HIF_RING_IDX_n.RING (R425): ring selected -/
def HIF_RING_IDX_RING (n : Nat) : RegField := ⟨0x30000020 + 0x10000 * n, 0, 10, .rw, 0⟩
/-- HIF_RING_CFG_n.ENABLE (R425): 1: enable with the staged settings; 0: disable (R393) -/
def HIF_RING_CFG_ENABLE (n : Nat) : RegField := ⟨0x30000024 + 0x10000 * n, 31, 1, .rw, 0⟩
/-- HIF_RING_CFG_n.FMT (R425): 0 F2; 1 F1 -/
def HIF_RING_CFG_FMT (n : Nat) : RegField := ⟨0x30000024 + 0x10000 * n, 30, 1, .rw, 0⟩
/-- HIF_RING_CFG_n.KIND (R425): 0 COMMAND; 1 FRAME; 2–3 undefined -/
def HIF_RING_CFG_KIND (n : Nat) : RegField := ⟨0x30000024 + 0x10000 * n, 28, 2, .rw, 0⟩
/-- HIF_RING_CFG_n.SQ_LOG2 (R425): 4–12 -/
def HIF_RING_CFG_SQ_LOG2 (n : Nat) : RegField := ⟨0x30000024 + 0x10000 * n, 20, 4, .rw, 4⟩
/-- HIF_RING_CFG_n.CQ_LOG2 (R425): 4–12 -/
def HIF_RING_CFG_CQ_LOG2 (n : Nat) : RegField := ⟨0x30000024 + 0x10000 * n, 16, 4, .rw, 4⟩
/-- HIF_RING_CFG_n.VEC (R425): MSI-X vector -/
def HIF_RING_CFG_VEC (n : Nat) : RegField := ⟨0x30000024 + 0x10000 * n, 8, 6, .rw, 0⟩
/-- HIF_RING_SQ_LO_n.ADDR (R425): LO: base bits [31:0], with [11:0] = 0; HI: bits [63:32] -/
def HIF_RING_SQ_LO_ADDR (n : Nat) : RegField := ⟨0x30000028 + 0x10000 * n, 0, 32, .rw, 0⟩
/-- HIF_RING_SQ_HI_n.ADDR (R425): LO: base bits [31:0], with [11:0] = 0; HI: bits [63:32] -/
def HIF_RING_SQ_HI_ADDR (n : Nat) : RegField := ⟨0x3000002C + 0x10000 * n, 0, 32, .rw, 0⟩
/-- HIF_RING_CQ_LO_n.ADDR (R425): LO: base bits [31:0], with [11:0] = 0; HI: bits [63:32] -/
def HIF_RING_CQ_LO_ADDR (n : Nat) : RegField := ⟨0x30000030 + 0x10000 * n, 0, 32, .rw, 0⟩
/-- HIF_RING_CQ_HI_n.ADDR (R425): LO: base bits [31:0], with [11:0] = 0; HI: bits [63:32] -/
def HIF_RING_CQ_HI_ADDR (n : Nat) : RegField := ⟨0x30000034 + 0x10000 * n, 0, 32, .rw, 0⟩
/-- HIF_RING_TAIL_LO_n.ADDR (R425): LO: tail word address bits [31:0], with [2:0] = 0; HI: bits [63:32]; 0: no tail word -/
def HIF_RING_TAIL_LO_ADDR (n : Nat) : RegField := ⟨0x30000038 + 0x10000 * n, 0, 32, .rw, 0⟩
/-- HIF_RING_TAIL_HI_n.ADDR (R425): LO: tail word address bits [31:0], with [2:0] = 0; HI: bits [63:32]; 0: no tail word -/
def HIF_RING_TAIL_HI_ADDR (n : Nat) : RegField := ⟨0x3000003C + 0x10000 * n, 0, 32, .rw, 0⟩
/-- HIF_RING_COAL_n.COAL_US (R425): time limit in µs; 0 none (R422) -/
def HIF_RING_COAL_COAL_US (n : Nat) : RegField := ⟨0x30000040 + 0x10000 * n, 8, 8, .rw, 0⟩
/-- HIF_RING_COAL_n.COAL_CNT (R425): record count; 0: each record -/
def HIF_RING_COAL_COAL_CNT (n : Nat) : RegField := ⟨0x30000040 + 0x10000 * n, 0, 8, .rw, 0⟩
/-- HIF_RING_STAT_n.STATE (R425): 0 DISABLED; 1 ENABLED; 2 DRAINING; 3 FENCED -/
def HIF_RING_STAT_STATE (n : Nat) : RegField := ⟨0x30000044 + 0x10000 * n, 30, 2, .ro, 0⟩
/-- HIF_RING_STAT_n.DB_ERR (R425): a doorbell or enable was rejected (R389, R426) -/
def HIF_RING_STAT_DB_ERR (n : Nat) : RegField := ⟨0x30000044 + 0x10000 * n, 29, 1, .w1c, 0⟩
/-- HIF_RING_STAT_n.CQ_FULL (R425): 1: records wait for CQ space (R391) -/
def HIF_RING_STAT_CQ_FULL (n : Nat) : RegField := ⟨0x30000044 + 0x10000 * n, 28, 1, .ro, 0⟩
/-- HIF_RING_STAT_n.IN_SET (R425): 1: the ring belongs to a partition's ring set -/
def HIF_RING_STAT_IN_SET (n : Nat) : RegField := ⟨0x30000044 + 0x10000 * n, 27, 1, .ro, 0⟩
/-- HIF_RING_STAT_n.PART (R425): that partition, meaningful when IN_SET = 1 -/
def HIF_RING_STAT_PART (n : Nat) : RegField := ⟨0x30000044 + 0x10000 * n, 23, 4, .ro, 0⟩
/-- HIF_RING_STAT_n.INFLIGHT (R425): packets in flight, 0–64 -/
def HIF_RING_STAT_INFLIGHT (n : Nat) : RegField := ⟨0x30000044 + 0x10000 * n, 16, 7, .ro, 0⟩
/-- HIF_RING_STAT_n.SQ_HEAD (R425): SQ head as last published; the doorbell read gives it live -/
def HIF_RING_STAT_SQ_HEAD (n : Nat) : RegField := ⟨0x30000044 + 0x10000 * n, 0, 12, .ro, 0⟩
/-- EVC_CTRL.ENABLE (R441): 1: signals are sent (R433) -/
def EVC_CTRL_ENABLE : RegField := ⟨0x21000000, 0, 1, .rw, 0⟩
/-- EVC_STAT.SW_REJ (R441): an EVC_SW_SET write was ignored -/
def EVC_STAT_SW_REJ : RegField := ⟨0x21000004, 1, 1, .w1c, 0⟩
/-- EVC_STAT.ROUTE_REJ (R441): an EVC_ROUTE_s write was ignored (R433) -/
def EVC_STAT_ROUTE_REJ : RegField := ⟨0x21000004, 0, 1, .w1c, 0⟩
/-- EVC_CNT_CLR.ALL (R441): EVC_CNT_CLR: 1 clears every counter; EVC_SW_SET: rsvd -/
def EVC_CNT_CLR_ALL : RegField := ⟨0x21000008, 31, 1, .wo, 0⟩
/-- EVC_CNT_CLR.SRC (R441): EVC_CNT_CLR: the counter to clear; EVC_SW_SET: the software source, 1536–2047, to pulse -/
def EVC_CNT_CLR_SRC : RegField := ⟨0x21000008, 0, 11, .wo, 0⟩
/-- EVC_SW_SET.SRC (R441): EVC_CNT_CLR: the counter to clear; EVC_SW_SET: the software source, 1536–2047, to pulse -/
def EVC_SW_SET_SRC : RegField := ⟨0x2100000C, 0, 11, .wo, 0⟩
/-- EVC_SUM_n.WORDS (R441): bit i = 1: word 32 × (n mod 2) + i holds a source deliverable to pair A (n = 0, 1) or pair -/
def EVC_SUM_WORDS (n : Nat) : RegField := ⟨0x21000010 + 0x4 * n, 0, 32, .ro, 0⟩
/-- EVC_MASK_n.MASK (R441): bit i = 1: source 32w + i masked -/
def EVC_MASK_MASK (n : Nat) : RegField := ⟨0x21000100 + 0x4 * n, 0, 32, .rw, 4294967295⟩
/-- EVC_PEND_n.PEND (R441): bit i = 1: source 32w + i pending (R430) -/
def EVC_PEND_PEND (n : Nat) : RegField := ⟨0x21000200 + 0x4 * n, 0, 32, .rw, 0⟩
/-- EVC_LEVEL_n.LEVEL (R441): bit i: the synchronised input of source 32w + i -/
def EVC_LEVEL_LEVEL (n : Nat) : RegField := ⟨0x21000300 + 0x4 * n, 0, 32, .ro, 0⟩
/-- EVC_MOD_n.BUSY (R441): 1: HOLD -/
def EVC_MOD_BUSY (n : Nat) : RegField := ⟨0x21000400 + 0x4 * n, 31, 1, .ro, 0⟩
/-- EVC_MOD_n.BYPASS_EN (R441): 1: an idle target bypasses HOLD (R436) -/
def EVC_MOD_BYPASS_EN (n : Nat) : RegField := ⟨0x21000400 + 0x4 * n, 30, 1, .rw, 1⟩
/-- EVC_MOD_n.INTERVAL (R441): hold in units of 10 µs; 0: no moderation -/
def EVC_MOD_INTERVAL (n : Nat) : RegField := ⟨0x21000400 + 0x4 * n, 0, 16, .rw, 0⟩
/-- EVC_CNT_n.CNT_3 (R441): counter of source 4n + 3 (R431) -/
def EVC_CNT_CNT_3 (n : Nat) : RegField := ⟨0x21001000 + 0x4 * n, 24, 8, .ro, 0⟩
/-- EVC_CNT_n.CNT_2 (R441): counter of source 4n + 2 -/
def EVC_CNT_CNT_2 (n : Nat) : RegField := ⟨0x21001000 + 0x4 * n, 16, 8, .ro, 0⟩
/-- EVC_CNT_n.CNT_1 (R441): counter of source 4n + 1 -/
def EVC_CNT_CNT_1 (n : Nat) : RegField := ⟨0x21001000 + 0x4 * n, 8, 8, .ro, 0⟩
/-- EVC_CNT_n.CNT_0 (R441): counter of source 4n -/
def EVC_CNT_CNT_0 (n : Nat) : RegField := ⟨0x21001000 + 0x4 * n, 0, 8, .ro, 0⟩
/-- EVC_ROUTE_n.MODE (R441): 0 OFF, 1 LEVEL_HIGH, 2 LEVEL_LOW, 3 RISE, 4 FALL, 5 BOTH -/
def EVC_ROUTE_MODE (n : Nat) : RegField := ⟨0x21002000 + 0x4 * n, 28, 3, .rw, 0⟩
/-- EVC_ROUTE_n.TGT (R441): 0 pair A, 1 pair B, 2 MSI-X -/
def EVC_ROUTE_TGT (n : Nat) : RegField := ⟨0x21002000 + 0x4 * n, 26, 2, .rw, 0⟩
/-- EVC_ROUTE_n.MOD (R441): moderation timer, 0–31 -/
def EVC_ROUTE_MOD (n : Nat) : RegField := ⟨0x21002000 + 0x4 * n, 21, 5, .rw, 0⟩
/-- EVC_ROUTE_n.FUNC (R441): 0 PF, 1–15 VF1–VF15; used when TGT = 2 -/
def EVC_ROUTE_FUNC (n : Nat) : RegField := ⟨0x21002000 + 0x4 * n, 17, 4, .rw, 0⟩
/-- EVC_ROUTE_n.VEC (R441): MSI-X vector, 0–63 -/
def EVC_ROUTE_VEC (n : Nat) : RegField := ⟨0x21002000 + 0x4 * n, 11, 6, .rw, 0⟩
/-- PWR_CTRL.PATINA_EN (R468): 1: Patina adjusts trims (R461) -/
def PWR_CTRL_PATINA_EN : RegField := ⟨0x23000000, 1, 1, .rw, 1⟩
/-- PWR_CTRL.CTRL_EN (R468): 1: the controller chooses point and rates (R452); 0: they hold -/
def PWR_CTRL_CTRL_EN : RegField := ⟨0x23000000, 0, 1, .rw, 0⟩
/-- PWR_LIMIT.COMPACT (R468): 1: compact configuration (R455) -/
def PWR_LIMIT_COMPACT : RegField := ⟨0x23000004, 19, 1, .ro, 0⟩
/-- PWR_LIMIT.MAX_OP (R468): highest point allowed, 0–6; 7 acts as 6 -/
def PWR_LIMIT_MAX_OP : RegField := ⟨0x23000004, 16, 3, .rw, 4⟩
/-- PWR_LIMIT.LIMIT (R468): package power limit in 0.1 W; values below 60 act as 60, above 300 as 300 -/
def PWR_LIMIT_LIMIT : RegField := ⟨0x23000004, 0, 9, .rw, 220⟩
/-- PWR_OP_STAT.CAP (R468): effective cap of R452 -/
def PWR_OP_STAT_CAP : RegField := ⟨0x23000008, 24, 3, .ro, 4⟩
/-- PWR_OP_STAT.TARGET (R468): point being moved to -/
def PWR_OP_STAT_TARGET : RegField := ⟨0x23000008, 20, 3, .ro, 0⟩
/-- PWR_OP_STAT.OP (R468): point in force -/
def PWR_OP_STAT_OP : RegField := ⟨0x23000008, 16, 3, .ro, 0⟩
/-- PWR_OP_STAT.BUSY (R468): 1: transition in progress (R445) -/
def PWR_OP_STAT_BUSY : RegField := ⟨0x23000008, 8, 1, .ro, 0⟩
/-- PWR_OP_STAT.POWER_FLOOR (R468): 1: array held below OP2 under a POWER_FLOOR takeover -/
def PWR_OP_STAT_POWER_FLOOR : RegField := ⟨0x23000008, 1, 1, .ro, 0⟩
/-- PWR_OP_STAT.DISP_FLOOR (R468): 1: the OP2 floor is in force (R6) -/
def PWR_OP_STAT_DISP_FLOOR : RegField := ⟨0x23000008, 0, 1, .ro, 0⟩
/-- PWR_EVT_STAT.MIN_BREACH (R468): a minimum rate was broken (R453) -/
def PWR_EVT_STAT_MIN_BREACH : RegField := ⟨0x2300000C, 10, 1, .w1c, 0⟩
/-- PWR_EVT_STAT.PACE_CHANGED (R468): a new pace was committed -/
def PWR_EVT_STAT_PACE_CHANGED : RegField := ⟨0x2300000C, 9, 1, .w1c, 0⟩
/-- PWR_EVT_STAT.DROOP (R468): a clock stretch occurred (R462) -/
def PWR_EVT_STAT_DROOP : RegField := ⟨0x2300000C, 8, 1, .w1c, 0⟩
/-- PWR_EVT_STAT.OP6_WITHDRAWN (R468): OP6 withdrawn (R461) -/
def PWR_EVT_STAT_OP6_WITHDRAWN : RegField := ⟨0x2300000C, 7, 1, .w1c, 0⟩
/-- PWR_EVT_STAT.PATINA_RAISE (R468): a trim was raised -/
def PWR_EVT_STAT_PATINA_RAISE : RegField := ⟨0x2300000C, 6, 1, .w1c, 0⟩
/-- PWR_EVT_STAT.RAIL_OC (R468): a rail without an actuator exceeded its maximum (R456) -/
def PWR_EVT_STAT_RAIL_OC : RegField := ⟨0x2300000C, 5, 1, .w1c, 0⟩
/-- PWR_EVT_STAT.POWER_FLOOR (R468): a POWER_FLOOR takeover was requested or ended -/
def PWR_EVT_STAT_POWER_FLOOR : RegField := ⟨0x2300000C, 4, 1, .w1c, 0⟩
/-- PWR_EVT_STAT.THERM_FLOOR (R468): FLOOR state entered -/
def PWR_EVT_STAT_THERM_FLOOR : RegField := ⟨0x2300000C, 3, 1, .w1c, 0⟩
/-- PWR_EVT_STAT.THERM_FORCED (R468): FORCED state entered -/
def PWR_EVT_STAT_THERM_FORCED : RegField := ⟨0x2300000C, 2, 1, .w1c, 0⟩
/-- PWR_EVT_STAT.THERM_SOFT (R468): SOFT state entered -/
def PWR_EVT_STAT_THERM_SOFT : RegField := ⟨0x2300000C, 1, 1, .w1c, 0⟩
/-- PWR_EVT_STAT.LIMITER (R468): the hardware limiter engaged -/
def PWR_EVT_STAT_LIMITER : RegField := ⟨0x2300000C, 0, 1, .w1c, 0⟩
/-- PWR_PKG.PEAK (R468): highest 100 µs average in the last completed 1 ms, in mW -/
def PWR_PKG_PEAK : RegField := ⟨0x23000010, 16, 16, .ro, 0⟩
/-- PWR_PKG.AVG (R468): 1 ms average, in mW (R446) -/
def PWR_PKG_AVG : RegField := ⟨0x23000010, 0, 16, .ro, 0⟩
/-- PWR_THERM_STAT.TJ (R468): Tj in 0.25 °C, two's complement -/
def PWR_THERM_STAT_TJ : RegField := ⟨0x23000014, 16, 10, .ro, 0⟩
/-- PWR_THERM_STAT.SENSOR (R468): sensor giving Tj, 0–15 -/
def PWR_THERM_STAT_SENSOR : RegField := ⟨0x23000014, 12, 4, .ro, 0⟩
/-- PWR_THERM_STAT.VALID_M1 (R468): sensors passing self-check − 1 -/
def PWR_THERM_STAT_VALID_M1 : RegField := ⟨0x23000014, 4, 4, .ro, 15⟩
/-- PWR_THERM_STAT.STATE (R468): 0 NORMAL, 1 SOFT, 2 FORCED, 3 FLOOR, 4 TRIPPED (R459) -/
def PWR_THERM_STAT_STATE : RegField := ⟨0x23000014, 1, 3, .ro, 0⟩
/-- PWR_THERM_STAT.GRADE (R468): 0 -C, 1 -X -/
def PWR_THERM_STAT_GRADE : RegField := ⟨0x23000014, 0, 1, .ro, Config.grade⟩
/-- PWR_HWLIM_STAT.ENGAGE_CNT (R468): engagements of the limiter; saturates at 255 -/
def PWR_HWLIM_STAT_ENGAGE_CNT : RegField := ⟨0x23000018, 24, 8, .rc, 0⟩
/-- PWR_HWLIM_STAT.STAGE (R468): 0 none, 1 THROTTLE, 2 STEP, 3 FLOOR (R457) -/
def PWR_HWLIM_STAT_STAGE : RegField := ⟨0x23000018, 8, 2, .ro, 0⟩
/-- PWR_HWLIM_STAT.RAIL_SRAM (R468): 1: VDD_SRAM current condition active -/
def PWR_HWLIM_STAT_RAIL_SRAM : RegField := ⟨0x23000018, 3, 1, .ro, 0⟩
/-- PWR_HWLIM_STAT.RAIL_ARR (R468): 1: VDD_ARR current condition active -/
def PWR_HWLIM_STAT_RAIL_ARR : RegField := ⟨0x23000018, 2, 1, .ro, 0⟩
/-- PWR_HWLIM_STAT.CEILING (R468): 1: 30 W ceiling condition active -/
def PWR_HWLIM_STAT_CEILING : RegField := ⟨0x23000018, 1, 1, .ro, 0⟩
/-- PWR_HWLIM_STAT.LIMIT (R468): 1: limit-in-force condition active -/
def PWR_HWLIM_STAT_LIMIT : RegField := ⟨0x23000018, 0, 1, .ro, 0⟩
/-- PWR_TRIM_LO.TRIM_3 (R468) -/
def PWR_TRIM_LO_TRIM_3 : RegField := ⟨0x2300001C, 24, 8, .rw, 0⟩
/-- PWR_TRIM_LO.TRIM_2 (R468) -/
def PWR_TRIM_LO_TRIM_2 : RegField := ⟨0x2300001C, 16, 8, .rw, 0⟩
/-- PWR_TRIM_LO.TRIM_1 (R468) -/
def PWR_TRIM_LO_TRIM_1 : RegField := ⟨0x2300001C, 8, 8, .rw, 0⟩
/-- PWR_TRIM_LO.TRIM_0 (R468) -/
def PWR_TRIM_LO_TRIM_0 : RegField := ⟨0x2300001C, 0, 8, .rw, 0⟩
/-- PWR_TRIM_HI.OP6_OFF (R468) -/
def PWR_TRIM_HI_OP6_OFF : RegField := ⟨0x23000020, 31, 1, .rw, 0⟩
/-- PWR_TRIM_HI.TRIM_6 (R468) -/
def PWR_TRIM_HI_TRIM_6 : RegField := ⟨0x23000020, 16, 8, .rw, 0⟩
/-- PWR_TRIM_HI.TRIM_5 (R468) -/
def PWR_TRIM_HI_TRIM_5 : RegField := ⟨0x23000020, 8, 8, .rw, 0⟩
/-- PWR_TRIM_HI.TRIM_4 (R468) -/
def PWR_TRIM_HI_TRIM_4 : RegField := ⟨0x23000020, 0, 8, .rw, 0⟩
/-- PWR_CPM_STAT.DROOP_CNT (R468): clock stretch events (R462); saturates at 255 -/
def PWR_CPM_STAT_DROOP_CNT : RegField := ⟨0x23000024, 24, 8, .rc, 0⟩
/-- PWR_CPM_STAT.WORST (R468): monitor with the least slack, 0–63; 0–31 north, 32–63 south -/
def PWR_CPM_STAT_WORST : RegField := ⟨0x23000024, 16, 6, .ro, 0⟩
/-- PWR_CPM_STAT.SLACK (R468): least slack over the last quantum, in ps; saturates at 255 -/
def PWR_CPM_STAT_SLACK : RegField := ⟨0x23000024, 0, 8, .ro, 255⟩
/-- PWR_PACE.SWEEPS (R468): pace sweeps completed; wraps -/
def PWR_PACE_SWEEPS : RegField := ⟨0x23000028, 16, 16, .ro, 0⟩
/-- PWR_PACE.COMMITTED (R468): committed pace, 0–6; 7: none (R466) -/
def PWR_PACE_COMMITTED : RegField := ⟨0x23000028, 8, 3, .ro, 7⟩
/-- PWR_PACE.SUST (R468): SUST_OP last reported (R465) -/
def PWR_PACE_SUST : RegField := ⟨0x23000028, 4, 3, .ro, 0⟩
/-- PWR_PACE.CHAINED (R468): 1: member of a chain -/
def PWR_PACE_CHAINED : RegField := ⟨0x23000028, 0, 1, .ro, 0⟩
/-- PWR_RATE_n.HW_RATE (R468): effective rate, after any hardware override (R458) -/
def PWR_RATE_HW_RATE (n : Nat) : RegField := ⟨0x23000040 + 0x4 * n, 16, 7, .ro, 64⟩
/-- PWR_RATE_n.MIN_RATE (R468): minimum rate from PART_CREATE or PART_RESIZE -/
def PWR_RATE_MIN_RATE (n : Nat) : RegField := ⟨0x23000040 + 0x4 * n, 8, 7, .ro, 0⟩
/-- PWR_RATE_n.RATE (R468): controller's rate, 1–64; 0 acts as 1, above 64 as 64; ignored for n = 0 while P0 is line-l -/
def PWR_RATE_RATE (n : Nat) : RegField := ⟨0x23000040 + 0x4 * n, 0, 7, .rw, 64⟩
/-- PWR_SMOOTH_n.FILL_EN (R468): R79 -/
def PWR_SMOOTH_FILL_EN (n : Nat) : RegField := ⟨0x23000080 + 0x4 * n, 15, 1, .rw, 1⟩
/-- PWR_SMOOTH_n.RAMP_UP (R468): 0, 8, 16 or 32 cycles -/
def PWR_SMOOTH_RAMP_UP (n : Nat) : RegField := ⟨0x23000080 + 0x4 * n, 12, 2, .rw, 0⟩
/-- PWR_SMOOTH_n.RAMP_DOWN (R468): 0–4: 8, 16, 32, 64, 128 cycles; 5–7 act as 4 -/
def PWR_SMOOTH_RAMP_DOWN (n : Nat) : RegField := ⟨0x23000080 + 0x4 * n, 8, 3, .rw, 2⟩
/-- PWR_SMOOTH_n.GAP_LIMIT (R468): gap limit ÷ 16 − 1, so 16–256 cycles -/
def PWR_SMOOTH_GAP_LIMIT (n : Nat) : RegField := ⟨0x23000080 + 0x4 * n, 4, 4, .rw, 3⟩
/-- FLT_STAT.OPEN (R503): records open, 0–128 -/
def FLT_STAT_OPEN : RegField := ⟨0x22000000, 16, 8, .ro, 0⟩
/-- FLT_STAT.BUF (R503): records in the buffer, 0–256 -/
def FLT_STAT_BUF : RegField := ⟨0x22000000, 0, 9, .ro, 0⟩
/-- FLT_EVT_STAT.TR_DROP (R503): a trace was dropped (R499) -/
def FLT_EVT_STAT_TR_DROP : RegField := ⟨0x22000004, 9, 1, .w1c, 0⟩
/-- FLT_EVT_STAT.EV_DROP (R503): an event was overwritten (R498) -/
def FLT_EVT_STAT_EV_DROP : RegField := ⟨0x22000004, 8, 1, .w1c, 0⟩
/-- FLT_EVT_STAT.ALARM_OVF (R503): an alarm was not written (R497) -/
def FLT_EVT_STAT_ALARM_OVF : RegField := ⟨0x22000004, 7, 1, .w1c, 0⟩
/-- FLT_EVT_STAT.PLN_RESET (R503): a Plinth reset occurred (R492) -/
def FLT_EVT_STAT_PLN_RESET : RegField := ⟨0x22000004, 6, 1, .w1c, 0⟩
/-- FLT_EVT_STAT.CHECKER_DEGRADED (R503): both pairs became UNCHECKED (R490) -/
def FLT_EVT_STAT_CHECKER_DEGRADED : RegField := ⟨0x22000004, 5, 1, .w1c, 0⟩
/-- FLT_EVT_STAT.UNCHECKED (R503): a pair became UNCHECKED (R489) -/
def FLT_EVT_STAT_UNCHECKED : RegField := ⟨0x22000004, 4, 1, .w1c, 0⟩
/-- FLT_EVT_STAT.MISMATCH (R503): a comparator found a mismatch (R487) -/
def FLT_EVT_STAT_MISMATCH : RegField := ⟨0x22000004, 3, 1, .w1c, 0⟩
/-- FLT_EVT_STAT.HANG (R503): a progress monitor found a hang (R478) -/
def FLT_EVT_STAT_HANG : RegField := ⟨0x22000004, 2, 1, .w1c, 0⟩
/-- FLT_EVT_STAT.BUF_FULL (R503): a record was not stored (R476) -/
def FLT_EVT_STAT_BUF_FULL : RegField := ⟨0x22000004, 1, 1, .w1c, 0⟩
/-- FLT_EVT_STAT.RECORD (R503): a record was published (R474) -/
def FLT_EVT_STAT_RECORD : RegField := ⟨0x22000004, 0, 1, .w1c, 0⟩
/-- FLT_REC_PTR.FULL (R503): 1: 256 records stored -/
def FLT_REC_PTR_FULL : RegField := ⟨0x22000008, 16, 1, .ro, 0⟩
/-- FLT_REC_PTR.HEAD (R503): slot the next published record takes -/
def FLT_REC_PTR_HEAD : RegField := ⟨0x22000008, 8, 8, .ro, 0⟩
/-- FLT_REC_PTR.TAIL (R503): next slot the Plinth reads; the buffer is empty when TAIL = HEAD and FULL = 0 -/
def FLT_REC_PTR_TAIL : RegField := ⟨0x22000008, 0, 8, .rw, 0⟩
/-- FLT_REC_LOST.LOST (R503): records not stored (R476); saturates at 0xFFFF_FFFF -/
def FLT_REC_LOST_LOST : RegField := ⟨0x2200000C, 0, 32, .rc, 0⟩
/-- FLT_LOCKSTEP.MISM_B (R503): mismatches of pair B in the last 24 h; saturates at 15 -/
def FLT_LOCKSTEP_MISM_B : RegField := ⟨0x22000010, 28, 4, .ro, 0⟩
/-- FLT_LOCKSTEP.MISM_A (R503): as MISM_A for pair A -/
def FLT_LOCKSTEP_MISM_A : RegField := ⟨0x22000010, 24, 4, .ro, 0⟩
/-- FLT_LOCKSTEP.STATE_B (R503): state of pair B -/
def FLT_LOCKSTEP_STATE_B : RegField := ⟨0x22000010, 16, 3, .ro, 0⟩
/-- FLT_LOCKSTEP.D1_PAIR (R503): pair holding duty set D1: 0 A, 1 B -/
def FLT_LOCKSTEP_D1_PAIR : RegField := ⟨0x22000010, 9, 1, .ro, 1⟩
/-- FLT_LOCKSTEP.D0_PAIR (R503): pair holding duty set D0 -/
def FLT_LOCKSTEP_D0_PAIR : RegField := ⟨0x22000010, 8, 1, .ro, 0⟩
/-- FLT_LOCKSTEP.DEGRADED (R503): 1: both pairs UNCHECKED (R490) -/
def FLT_LOCKSTEP_DEGRADED : RegField := ⟨0x22000010, 7, 1, .ro, 0⟩
/-- FLT_LOCKSTEP.STATE_A (R503): state of pair A -/
def FLT_LOCKSTEP_STATE_A : RegField := ⟨0x22000010, 0, 3, .ro, 0⟩
/-- FLT_SELFTEST.FAILS_B (R503): self-tests of pair B not flagged; saturates at 255 -/
def FLT_SELFTEST_FAILS_B : RegField := ⟨0x22000014, 24, 8, .rc, 0⟩
/-- FLT_SELFTEST.FAILS_A (R503): as FAILS_B for pair A -/
def FLT_SELFTEST_FAILS_A : RegField := ⟨0x22000014, 16, 8, .rc, 0⟩
/-- FLT_SELFTEST.RUNS (R503): self-tests run on either pair; wraps -/
def FLT_SELFTEST_RUNS : RegField := ⟨0x22000014, 0, 16, .ro, 0⟩
/-- FLT_WDOG_CFG.PLN_TO (R503): Plinth watchdog timeout in units of 10 ms; 0 acts as 1 -/
def FLT_WDOG_CFG_PLN_TO : RegField := ⟨0x22000018, 0, 8, .rw, 10⟩
/-- FLT_WDOG_CTRL.CONFIRMED (R503): 1: CONFIRM written since the last Plinth reset -/
def FLT_WDOG_CTRL_CONFIRMED : RegField := ⟨0x2200001C, 3, 1, .ro, 0⟩
/-- FLT_WDOG_CTRL.CONFIRM (R503): 1: the firmware confirms itself (R492); reads 0 -/
def FLT_WDOG_CTRL_CONFIRM : RegField := ⟨0x2200001C, 2, 1, .w1s, 0⟩
/-- FLT_WDOG_CTRL.KICK_B (R503): 1: pair B kicks the Plinth watchdog; reads 0 -/
def FLT_WDOG_CTRL_KICK_B : RegField := ⟨0x2200001C, 1, 1, .w1s, 0⟩
/-- FLT_WDOG_CTRL.KICK_A (R503): 1: pair A kicks; reads 0 -/
def FLT_WDOG_CTRL_KICK_A : RegField := ⟨0x2200001C, 0, 1, .w1s, 0⟩
/-- FLT_DWDOG.EXPIRED (R503): 1: WDOG_N asserted (R494) -/
def FLT_DWDOG_EXPIRED : RegField := ⟨0x22000020, 31, 1, .ro, 0⟩
/-- FLT_DWDOG.CLR (R503): 1: release WDOG_N; accepted only while CONFIRMED = 1; reads 0 -/
def FLT_DWDOG_CLR : RegField := ⟨0x22000020, 9, 1, .w1s, 0⟩
/-- FLT_DWDOG.KICK (R503): 1: restart the device watchdog; reads 0 -/
def FLT_DWDOG_KICK : RegField := ⟨0x22000020, 8, 1, .w1s, 0⟩
/-- FLT_DWDOG.TIMEOUT (R503): timeout in units of 100 ms; 0 acts as 1 -/
def FLT_DWDOG_TIMEOUT : RegField := ⟨0x22000020, 0, 8, .rw, 50⟩
/-- FLT_RST_CAUSE.COUNT (R503): chip resets since power-on; saturates at 255 -/
def FLT_RST_CAUSE_COUNT : RegField := ⟨0x22000024, 24, 8, .ro, 0⟩
/-- FLT_RST_CAUSE.CAUSE (R503): 0 power-on; 1 PERST_N; 2 PART_RESET_TIMEOUT; 3 PLN_WDOG; 4 LOCKSTEP; 5–15 the other source -/
def FLT_RST_CAUSE_CAUSE : RegField := ⟨0x22000024, 0, 4, .ro, 0⟩
/-- FLT_LOG_STAT.ALM_USED (R503): alarm slots holding uncopied alarms, 0–64 -/
def FLT_LOG_STAT_ALM_USED : RegField := ⟨0x22000028, 24, 8, .ro, 0⟩
/-- FLT_LOG_STAT.ALM_LOST (R503): alarms not written (R497); saturates at 255 -/
def FLT_LOG_STAT_ALM_LOST : RegField := ⟨0x22000028, 16, 8, .rc, 0⟩
/-- FLT_LOG_STAT.EV_DROP (R503): events overwritten (R498); saturates at 65,535 -/
def FLT_LOG_STAT_EV_DROP : RegField := ⟨0x22000028, 0, 16, .rc, 0⟩
/-- FLT_LOG_TRACE.TR_DROP (R503): traces dropped (R499); saturates at 0xFFFF_FFFF -/
def FLT_LOG_TRACE_TR_DROP : RegField := ⟨0x2200002C, 0, 32, .rc, 0⟩
/-- FLT_PROG_n.HANGS (R503): hangs found (R478); saturates at 255 -/
def FLT_PROG_HANGS (n : Nat) : RegField := ⟨0x22000040 + 0x4 * n, 24, 8, .rc, 0⟩
/-- FLT_PROG_n.STATE (R503): 0 RUNNING, 1 FENCED, 2 DRAINING, 3 RESETTING -/
def FLT_PROG_STATE (n : Nat) : RegField := ⟨0x22000040 + 0x4 * n, 16, 3, .ro, 0⟩
/-- FLT_PROG_n.LAST_CL (R503): logical cluster of the last hung work unit; 0xFF none -/
def FLT_PROG_LAST_CL (n : Nat) : RegField := ⟨0x22000040 + 0x4 * n, 0, 8, .ro, 255⟩
/-- FLT_DOM_CNT_n.REPORTS (R503): reports of classes 1–3, primaries and echoes; saturates at 65,535 -/
def FLT_DOM_CNT_REPORTS (n : Nat) : RegField := ⟨0x22000100 + 0x4 * n, 16, 16, .rc, 0⟩
/-- FLT_DOM_CNT_n.CORR (R503): CORRECTED reports; saturates at 65,535 -/
def FLT_DOM_CNT_CORR (n : Nat) : RegField := ⟨0x22000100 + 0x4 * n, 0, 16, .rc, 0⟩
/-- PLN_DBGCTL.WDOG_RUN (R528): 1: the Plinth watchdog and hold timers run while a core is halted -/
def PLN_DBGCTL_WDOG_RUN : RegField := ⟨0x20000100, 8, 1, .rw, 0⟩
/-- PLN_DBGCTL.HALTED_B (R528): 1: pair B halted -/
def PLN_DBGCTL_HALTED_B : RegField := ⟨0x20000100, 7, 1, .ro, 0⟩
/-- PLN_DBGCTL.HALTED_A (R528): 1: pair A halted -/
def PLN_DBGCTL_HALTED_A : RegField := ⟨0x20000100, 6, 1, .ro, 0⟩
/-- PLN_DBGCTL.RESUME_B (R528): 1: resume pair B; reads 0 -/
def PLN_DBGCTL_RESUME_B : RegField := ⟨0x20000100, 3, 1, .w1s, 0⟩
/-- PLN_DBGCTL.RESUME_A (R528): 1: resume pair A; reads 0 -/
def PLN_DBGCTL_RESUME_A : RegField := ⟨0x20000100, 2, 1, .w1s, 0⟩
/-- PLN_DBGCTL.HALT_B (R528): 1: halt pair B; reads 0 -/
def PLN_DBGCTL_HALT_B : RegField := ⟨0x20000100, 1, 1, .w1s, 0⟩
/-- PLN_DBGCTL.HALT_A (R528): 1: halt pair A; reads 0 -/
def PLN_DBGCTL_HALT_A : RegField := ⟨0x20000100, 0, 1, .w1s, 0⟩
/-- PLN_DBG_STAT.SEM_TIMEOUT (R528): a hold timer reached HOLD_LIM (R527) -/
def PLN_DBG_STAT_SEM_TIMEOUT : RegField := ⟨0x20000104, 8, 1, .w1c, 0⟩
/-- PLN_DBG_STAT.THR_HALTED (R528): compute threads halted in the device; saturates at 255 -/
def PLN_DBG_STAT_THR_HALTED : RegField := ⟨0x20000104, 0, 8, .ro, 0⟩
/-- PLN_THR_HALT.GO (R528): 1: apply OP to the named threads; reads 0 -/
def PLN_THR_HALT_GO : RegField := ⟨0x20000108, 31, 1, .w1s, 0⟩
/-- PLN_THR_HALT.OP (R528): 0 halt, 1 resume -/
def PLN_THR_HALT_OP : RegField := ⟨0x20000108, 30, 1, .rw, 0⟩
/-- PLN_THR_HALT.PHYS (R528): physical cluster, 0–33 -/
def PLN_THR_HALT_PHYS : RegField := ⟨0x20000108, 24, 6, .rw, 0⟩
/-- PLN_THR_HALT.CORE (R528): core c0–c63 -/
def PLN_THR_HALT_CORE : RegField := ⟨0x20000108, 18, 6, .rw, 0⟩
/-- PLN_THR_HALT.THREADS (R528): bit i: thread ti -/
def PLN_THR_HALT_THREADS : RegField := ⟨0x20000108, 0, 8, .rw, 0⟩
/-- PLN_SEM_CFG.HOLD_LIM (R528): hold limit in µs; 0: no limit -/
def PLN_SEM_CFG_HOLD_LIM : RegField := ⟨0x2000010C, 0, 16, .rw, 1000⟩
/-- PLN_SEM_n.ACQ (R528): 1: this normal read acquired the semaphore -/
def PLN_SEM_ACQ (n : Nat) : RegField := ⟨0x20000200 + 0x4 * n, 31, 1, .ro, 0⟩
/-- PLN_SEM_n.HELD (R528): 1: held -/
def PLN_SEM_HELD (n : Nat) : RegField := ⟨0x20000200 + 0x4 * n, 30, 1, .ro, 0⟩
/-- PLN_SEM_n.HELD_BY_HALTED (R528): 1: the owner is a halted pair -/
def PLN_SEM_HELD_BY_HALTED (n : Nat) : RegField := ⟨0x20000200 + 0x4 * n, 29, 1, .ro, 0⟩
/-- PLN_SEM_n.OWNER (R528): 0 pair A, 1 pair B, 2 debugger; meaningful when HELD = 1 -/
def PLN_SEM_OWNER (n : Nat) : RegField := ⟨0x20000200 + 0x4 * n, 27, 2, .ro, 0⟩
/-- PLN_SEM_n.HOLD_US (R528): time held, in µs; saturates at 65,535 -/
def PLN_SEM_HOLD_US (n : Nat) : RegField := ⟨0x20000200 + 0x4 * n, 8, 16, .ro, 0⟩
/-- PLN_SEM_n.RELEASE (R528): 1: release, from the owner only -/
def PLN_SEM_RELEASE (n : Nat) : RegField := ⟨0x20000200 + 0x4 * n, 0, 1, .wo, 0⟩
/-- SEC_STAT.SESSIONS (R530): open SPDM sessions, 0–32 -/
def SEC_STAT_SESSIONS : RegField := ⟨0x24000000, 2, 6, .ro, 0⟩
/-- SEC_STAT.SLOT0_OK (R530): 1: slot 0 key drawn -/
def SEC_STAT_SLOT0_OK : RegField := ⟨0x24000000, 1, 1, .ro, 0⟩
/-- SEC_STAT.READY (R530): 1: island self-test passed -/
def SEC_STAT_READY : RegField := ⟨0x24000000, 0, 1, .ro, 0⟩
/-- SEC_EVT_STAT.SESSION_OPEN (R530): a debug session opened -/
def SEC_EVT_STAT_SESSION_OPEN : RegField := ⟨0x24000004, 3, 1, .w1c, 0⟩
/-- SEC_EVT_STAT.KEY_ERASED (R530): a tenant slot was erased (R514, R515) -/
def SEC_EVT_STAT_KEY_ERASED : RegField := ⟨0x24000004, 2, 1, .w1c, 0⟩
/-- SEC_EVT_STAT.KEY_SET (R530): a tenant slot was set -/
def SEC_EVT_STAT_KEY_SET : RegField := ⟨0x24000004, 1, 1, .w1c, 0⟩
/-- SEC_EVT_STAT.SPDM_ERR (R530): an SPDM request received an ERROR response -/
def SEC_EVT_STAT_SPDM_ERR : RegField := ⟨0x24000004, 0, 1, .w1c, 0⟩
/-- SEC_BOOT.FWKEY_REV (R530): bit k: firmware key k revoked -/
def SEC_BOOT_FWKEY_REV : RegField := ⟨0x24000008, 16, 4, .ro, Config.fwKeyRev⟩
/-- SEC_BOOT.FUSED_SVN (R530): fused security version, 0–64 -/
def SEC_BOOT_FUSED_SVN : RegField := ⟨0x24000008, 0, 7, .ro, Config.fusedSvn⟩
/-- SEC_IDENT_ID_n.ID (R530): KEY_ID bytes 4n to 4n + 3, little-endian -/
def SEC_IDENT_ID_ID (n : Nat) : RegField := ⟨0x24000010 + 0x4 * n, 0, 32, .ro, (Config.identId n)⟩
/-- SEC_SLOT_OWN_n.OWN (R530): bits [4i + 3 : 4i]: owner of slot 8n + i, 0 PF, 1–15 VF1–VF15; 0xF none; slot 0 reads 0xF -/
def SEC_SLOT_OWN_OWN (n : Nat) : RegField := ⟨0x24000020 + 0x4 * n, 0, 32, .ro, 4294967295⟩
/-- SEC_DBG_STAT.HALTS (R530): 1: a Plinth core or compute thread is halted -/
def SEC_DBG_STAT_HALTS : RegField := ⟨0x24000040, 2, 1, .ro, 0⟩
/-- SEC_DBG_STAT.SINCE_RESET (R530): 1: a session opened since the last chip reset -/
def SEC_DBG_STAT_SINCE_RESET : RegField := ⟨0x24000040, 1, 1, .ro, 0⟩
/-- SEC_DBG_STAT.ACTIVE (R530): 1: a session is open -/
def SEC_DBG_STAT_ACTIVE : RegField := ⟨0x24000040, 0, 1, .ro, 0⟩
/-- SEC_DBG_CTRL.END (R530): 1: close the session when R524 allows; reads 1 until closed -/
def SEC_DBG_CTRL_END : RegField := ⟨0x24000044, 0, 1, .w1s, 0⟩
/-- SEC_DBG_SESS.COUNT (R530): sessions opened since power-on; saturates at 0xFFFF_FFFF -/
def SEC_DBG_SESS_COUNT : RegField := ⟨0x24000048, 0, 32, .ro, 0⟩
/-- SEC_DBG_TOUCH.PART (R530): bit n: Pn touched since its creation (R525) -/
def SEC_DBG_TOUCH_PART : RegField := ⟨0x2400004C, 0, 16, .ro, 0⟩
/-- SEC_APT_BASE.BASE (R530): window base, internal address bits [39:22] -/
def SEC_APT_BASE_BASE : RegField := ⟨0x24000050, 0, 18, .rw, 0⟩
/-- SEC_APT_STAT.DECODE_ERR (R530): an access met no decoded block (R522) -/
def SEC_APT_STAT_DECODE_ERR : RegField := ⟨0x24000054, 2, 1, .w1c, 0⟩
/-- SEC_APT_STAT.POISON (R530): a debug read returned a poisoned or uncorrectable word -/
def SEC_APT_STAT_POISON : RegField := ⟨0x24000054, 1, 1, .w1c, 0⟩
/-- SEC_APT_STAT.PEEK_WR (R530): a write through the peek alias was discarded -/
def SEC_APT_STAT_PEEK_WR : RegField := ⟨0x24000054, 0, 1, .w1c, 0⟩
/-- SEC_KEY_GEN_n.GEN (R530): KEY_SET operations on slot s since chip reset; wraps -/
def SEC_KEY_GEN_GEN (n : Nat) : RegField := ⟨0x24000080 + 0x4 * n, 0, 32, .ro, 0⟩
/-- SPN_CTRL.ROLE (R551): 0 alone, 1 master, 2 member -/
def SPN_CTRL_ROLE : RegField := ⟨0x35000000, 10, 2, .rw, 0⟩
/-- SPN_CTRL.POSITION (R551): 0–3 -/
def SPN_CTRL_POSITION : RegField := ⟨0x35000000, 8, 2, .rw, 0⟩
/-- SPN_CTRL.COUNT_M1 (R551): COUNT − 1 -/
def SPN_CTRL_COUNT_M1 : RegField := ⟨0x35000000, 6, 2, .rw, 0⟩
/-- SPN_CTRL.EN_1 (R551): 1: SPAN1 enabled -/
def SPN_CTRL_EN_1 : RegField := ⟨0x35000000, 1, 1, .rw, 0⟩
/-- SPN_CTRL.EN_0 (R551): 1: SPAN0 enabled -/
def SPN_CTRL_EN_0 : RegField := ⟨0x35000000, 0, 1, .rw, 0⟩
/-- SPN_STAT.SWEEP (R551): last SWEEP number seen, low 16 bits -/
def SPN_STAT_SWEEP : RegField := ⟨0x35000004, 16, 16, .ro, 0⟩
/-- SPN_STAT.SWEEP_PEND (R551): 1: a commit waits for APPLY_AT -/
def SPN_STAT_SWEEP_PEND : RegField := ⟨0x35000004, 2, 1, .ro, 0⟩
/-- SPN_STAT.CUT_OFF (R551): 1: no UP path to the master (R548) -/
def SPN_STAT_CUT_OFF : RegField := ⟨0x35000004, 1, 1, .ro, 0⟩
/-- SPN_STAT.ALIGNED (R551): 1: R544 holds; reads 1 on the master -/
def SPN_STAT_ALIGNED : RegField := ⟨0x35000004, 0, 1, .ro, 0⟩
/-- SPN_EVT_STAT.ALIGN_LOST (R551): ALIGNED went to 0 -/
def SPN_EVT_STAT_ALIGN_LOST : RegField := ⟨0x35000008, 6, 1, .w1c, 0⟩
/-- SPN_EVT_STAT.CFG_MISMATCH (R551): HELLO disagreed (R535) -/
def SPN_EVT_STAT_CFG_MISMATCH : RegField := ⟨0x35000008, 5, 1, .w1c, 0⟩
/-- SPN_EVT_STAT.SWEEP_DISCARD (R551): a sweep was discarded (R546) -/
def SPN_EVT_STAT_SWEEP_DISCARD : RegField := ⟨0x35000008, 4, 1, .w1c, 0⟩
/-- SPN_EVT_STAT.HALO_MISS (R551): a halo was mirrored (R541) -/
def SPN_EVT_STAT_HALO_MISS : RegField := ⟨0x35000008, 3, 1, .w1c, 0⟩
/-- SPN_EVT_STAT.RETRY (R551): a replay occurred (R537) -/
def SPN_EVT_STAT_RETRY : RegField := ⟨0x35000008, 2, 1, .w1c, 0⟩
/-- SPN_EVT_STAT.SPAN_UP (R551): a port came UP -/
def SPN_EVT_STAT_SPAN_UP : RegField := ⟨0x35000008, 1, 1, .w1c, 0⟩
/-- SPN_EVT_STAT.SPAN_DOWN (R551): a port went DOWN (R538) -/
def SPN_EVT_STAT_SPAN_DOWN : RegField := ⟨0x35000008, 0, 1, .w1c, 0⟩
/-- SPN_OFFSET.OFFSET (R551): last measured offset to the master in ns, two's complement; 0 on the master -/
def SPN_OFFSET_OFFSET : RegField := ⟨0x3500000C, 0, 32, .ro, 0⟩
/-- SPN_PORT_STAT_n.STATE (R551): 0 DISABLED, 1 DOWN, 2 TRAINING, 3 HELLO, 4 UP, 5 MISMATCH -/
def SPN_PORT_STAT_STATE (n : Nat) : RegField := ⟨0x35000010 + 0x4 * n, 29, 3, .ro, 0⟩
/-- SPN_PORT_STAT_n.WIDTH (R551): 0 none, 1 one lane, 2 two lanes, 3 four lanes -/
def SPN_PORT_STAT_WIDTH (n : Nat) : RegField := ⟨0x35000010 + 0x4 * n, 27, 2, .ro, 0⟩
/-- SPN_PORT_STAT_n.REVERSED (R551): 1: lane order reversed -/
def SPN_PORT_STAT_REVERSED (n : Nat) : RegField := ⟨0x35000010 + 0x4 * n, 26, 1, .ro, 0⟩
/-- SPN_PORT_STAT_n.RETRAIN (R551): trainings since cleared; saturates at 255 -/
def SPN_PORT_STAT_RETRAIN (n : Nat) : RegField := ⟨0x35000010 + 0x4 * n, 8, 8, .rc, 0⟩
/-- SPN_PORT_STAT_n.FAR_POS (R551): far end's POSITION from HELLO -/
def SPN_PORT_STAT_FAR_POS (n : Nat) : RegField := ⟨0x35000010 + 0x4 * n, 4, 4, .ro, 0⟩
/-- SPN_PORT_ERR_n.CRC_ERR (R551): flits dropped on CRC or sequence; saturates at 65,535 -/
def SPN_PORT_ERR_CRC_ERR (n : Nat) : RegField := ⟨0x35000020 + 0x4 * n, 16, 16, .rc, 0⟩
/-- SPN_PORT_ERR_n.REPLAY (R551): flits replayed; saturates at 65,535 -/
def SPN_PORT_ERR_REPLAY (n : Nat) : RegField := ⟨0x35000020 + 0x4 * n, 0, 16, .rc, 0⟩
/-- SPN_HALO_n.MISS (R551): halo rows mirrored at this edge; saturates at 0xFFFF_FFFF -/
def SPN_HALO_MISS (n : Nat) : RegField := ⟨0x35000030 + 0x4 * n, 0, 32, .rc, 0⟩
/-- SPN_DELAY_n.DELAY (R551): last hop delay measured on port n in 0.1 ns (R543) -/
def SPN_DELAY_DELAY (n : Nat) : RegField := ⟨0x35000040 + 0x4 * n, 0, 16, .ro, 0⟩
/-- BMC_STAT.RST_CAUSE (R578): FLT_RST_CAUSE.CAUSE -/
def BMC_STAT_RST_CAUSE : RegField := ⟨0x0, 28, 4, .ro, 0⟩
/-- BMC_STAT.RST_COUNT (R578): FLT_RST_CAUSE.COUNT -/
def BMC_STAT_RST_COUNT : RegField := ⟨0x0, 20, 8, .ro, 0⟩
/-- BMC_STAT.HOLD_REASON (R578): 0 none; 1 SEC_SELFTEST; 2 NO_IMAGE; 3 DRAM_TRAIN; 4 BOARD_RECORD; 5 FLASH_REPLAY -/
def BMC_STAT_HOLD_REASON : RegField := ⟨0x0, 16, 4, .ro, 0⟩
/-- BMC_STAT.STAGE (R578): 0 RESET; 1 ROM; 2 FW_INIT; 3 RUNNING; 4 TRIAL; 5 HOLD; 6 POWERING_DOWN; 7 POWERED_DOWN -/
def BMC_STAT_STAGE : RegField := ⟨0x0, 12, 4, .ro, 0⟩
/-- BMC_STAT.THERM_TRIP (R578): 1: THERM_TRIP_N asserted -/
def BMC_STAT_THERM_TRIP : RegField := ⟨0x0, 7, 1, .ro, 0⟩
/-- BMC_STAT.WDOG (R578): 1: WDOG_N asserted -/
def BMC_STAT_WDOG : RegField := ⟨0x0, 6, 1, .ro, 0⟩
/-- BMC_STAT.FW_SLOT (R578): running slot: 0 A, 1 B -/
def BMC_STAT_FW_SLOT : RegField := ⟨0x0, 5, 1, .ro, 0⟩
/-- BMC_STAT.REVERTED (R578): BOOT_CTL.REVERTED -/
def BMC_STAT_REVERTED : RegField := ⟨0x0, 4, 1, .ro, 0⟩
/-- BMC_RAILS.LAST_FAIL (R578): bit r = 1: rail r failed (R555) since the bit was cleared -/
def BMC_RAILS_LAST_FAIL : RegField := ⟨0x4, 16, 11, .w1c, 0⟩
/-- BMC_RAILS.GOOD (R578): bit r = 1: rail r good now -/
def BMC_RAILS_GOOD : RegField := ⟨0x4, 0, 11, .ro, 0⟩
/-- BMC_CTRL.RESTART (R578): 1: leave POWERED_DOWN (R561); ignored in any other stage; reads 0 -/
def BMC_CTRL_RESTART : RegField := ⟨0x8, 1, 1, .w1s, 0⟩
/-- BMC_CTRL.PWR_DOWN (R578): 1: start the orderly power-down (R559); reads 0 -/
def BMC_CTRL_PWR_DOWN : RegField := ⟨0x8, 0, 1, .w1s, 0⟩
/-- XSP_STAT.MODE (R579): 0 not set up; 1 octal DDR 200 MHz; 2 quad 100 MHz (R563) -/
def XSP_STAT_MODE : RegField := ⟨0x36000000, 8, 2, .ro, 0⟩
/-- XSP_STAT.BUSY (R579): 1: a program or erase is running -/
def XSP_STAT_BUSY : RegField := ⟨0x36000000, 7, 1, .ro, 0⟩
/-- XSP_STAT.TRIAL_PEND (R579): 1: BOOT_CTL.TRIAL ≠ 0xFF -/
def XSP_STAT_TRIAL_PEND : RegField := ⟨0x36000000, 4, 1, .ro, 0⟩
/-- XSP_STAT.STAGED (R579): 1: a slot is staged (R570) -/
def XSP_STAT_STAGED : RegField := ⟨0x36000000, 3, 1, .ro, 0⟩
/-- XSP_STAT.BOOT_SLOT (R579): slot booted: 0 A, 1 B -/
def XSP_STAT_BOOT_SLOT : RegField := ⟨0x36000000, 2, 1, .ro, 0⟩
/-- XSP_STAT.CTL_COPY (R579): BOOT_CTL copy in force -/
def XSP_STAT_CTL_COPY : RegField := ⟨0x36000000, 1, 1, .ro, 0⟩
/-- XSP_STAT.READY (R579): 1: the boot flash is set up -/
def XSP_STAT_READY : RegField := ⟨0x36000000, 0, 1, .ro, 0⟩
/-- XSP_EVT_STAT.FALLBACK_QUAD (R579): the quad-SPI fallback is in use (R563) -/
def XSP_EVT_STAT_FALLBACK_QUAD : RegField := ⟨0x36000004, 5, 1, .w1c, 0⟩
/-- XSP_EVT_STAT.WRITE_ERR (R579): a program or erase reported failure -/
def XSP_EVT_STAT_WRITE_ERR : RegField := ⟨0x36000004, 4, 1, .w1c, 0⟩
/-- XSP_EVT_STAT.CTL_REPAIRED (R579): a BOOT_CTL copy was found invalid -/
def XSP_EVT_STAT_CTL_REPAIRED : RegField := ⟨0x36000004, 3, 1, .w1c, 0⟩
/-- XSP_EVT_STAT.REVERTED (R579): a trial failed (R568, R574) -/
def XSP_EVT_STAT_REVERTED : RegField := ⟨0x36000004, 2, 1, .w1c, 0⟩
/-- XSP_EVT_STAT.CONFIRMED (R579): a trial image confirmed (R573) -/
def XSP_EVT_STAT_CONFIRMED : RegField := ⟨0x36000004, 1, 1, .w1c, 0⟩
/-- XSP_EVT_STAT.STAGE_DONE (R579): FW_STAGE completed with DONE -/
def XSP_EVT_STAT_STAGE_DONE : RegField := ⟨0x36000004, 0, 1, .w1c, 0⟩

end Reg

/-- The registers of the CLU block (R49). -/
def regsClu : List RegTemplate := [
  ⟨0x40000000, 0x1000000, 34, 0x0, 1, [(7, 1, .ro, 0), (0, 6, .ro, 0)]⟩,
  ⟨0x40000004, 0x1000000, 34, 0x0, 1, [(16, 4, .rw, 0), (8, 1, .rw, 0), (0, 5, .rw, 0)]⟩,
  ⟨0x40000008, 0x1000000, 34, 0x0, 1, [(3, 1, .w1s, 0), (2, 1, .w1s, 0), (1, 1, .w1s, 0), (0, 1, .rw, 0)]⟩,
  ⟨0x4000000C, 0x1000000, 34, 0x0, 1, [(7, 1, .w1c, 0), (6, 1, .w1c, 0), (5, 1, .w1c, 0), (0, 3, .ro, 0)]⟩,
  ⟨0x40000010, 0x1000000, 34, 0x4, 5, [(16, 8, .rc, 0), (0, 16, .rc, 0)]⟩,
  ⟨0x40000030, 0x1000000, 34, 0x0, 1, [(31, 1, .w1c, 0), (30, 1, .ro, 0), (27, 3, .ro, 0), (21, 6, .ro, 0), (16, 5, .ro, 0), (0, 16, .ro, 0)]⟩,
  ⟨0x40000034, 0x1000000, 34, 0x0, 1, [(0, 32, .ro, 0)]⟩,
  ⟨0x40000040, 0x1000000, 34, 0x0, 1, [(0, 4, .rw, 10)]⟩,
  ⟨0x40000044, 0x1000000, 34, 0x0, 1, [(16, 16, .ro, 0), (0, 16, .ro, 0)]⟩,
  ⟨0x40000050, 0x1000000, 34, 0x0, 1, [(16, 7, .ro, 0), (8, 8, .rc, 0), (0, 1, .ro, 0)]⟩,
  ⟨0x40000100, 0x1000000, 34, 0x4, 64, [(21, 3, .ro, 0), (18, 3, .ro, 0), (15, 3, .ro, 0), (12, 3, .ro, 0), (9, 3, .ro, 0), (6, 3, .ro, 0), (3, 3, .ro, 0), (0, 3, .ro, 0)]⟩,
  ⟨0x40000200, 0x1000000, 34, 0x4, 2, [(0, 32, .w1c, 0)]⟩]

/-- The registers of the DSP block (R197). -/
def regsDsp : List RegTemplate := [
  ⟨0x31000000, 0x0, 1, 0x0, 1, [(16, 8, .rw, 9), (3, 1, .w1s, 0), (2, 1, .rw, 0), (1, 1, .rw, 0), (0, 1, .rw, 0)]⟩,
  ⟨0x31000004, 0x0, 1, 0x0, 1, [(28, 4, .ro, 0), (24, 2, .ro, 0), (22, 2, .ro, 0), (21, 1, .ro, 0), (20, 1, .ro, 0), (19, 1, .ro, 0), (18, 1, .ro, 0), (17, 1, .ro, 0), (16, 1, .ro, 0), (8, 7, .ro, 0), (7, 1, .ro, 0)]⟩,
  ⟨0x31000008, 0x0, 1, 0x0, 1, [(10, 1, .w1c, 0), (9, 1, .w1c, 0), (8, 1, .w1c, 0), (7, 1, .w1c, 0), (6, 1, .w1c, 0), (5, 1, .w1c, 0), (4, 1, .w1c, 0), (3, 1, .w1c, 0), (2, 1, .w1c, 0), (1, 1, .w1c, 0), (0, 1, .w1c, 0)]⟩,
  ⟨0x3100000C, 0x0, 1, 0x0, 1, [(16, 16, .rw, 432), (0, 16, .rw, 8)]⟩,
  ⟨0x31000010, 0x0, 1, 0x0, 1, [(16, 16, .ro, 0), (0, 16, .ro, 0)]⟩,
  ⟨0x31000014, 0x0, 1, 0x0, 1, [(0, 32, .ro, 0)]⟩,
  ⟨0x31000018, 0x0, 1, 0x0, 1, [(0, 16, .ro, 0)]⟩,
  ⟨0x3100001C, 0x0, 1, 0x0, 1, [(0, 16, .ro, 0)]⟩,
  ⟨0x31000020, 0x0, 1, 0x0, 1, [(0, 32, .ro, 0)]⟩,
  ⟨0x31000024, 0x0, 1, 0x0, 1, [(0, 32, .ro, 0)]⟩,
  ⟨0x31000028, 0x0, 1, 0x0, 1, [(0, 16, .ro, 0)]⟩,
  ⟨0x3100002C, 0x0, 1, 0x0, 1, [(0, 32, .ro, 0)]⟩,
  ⟨0x31000030, 0x0, 1, 0x0, 1, [(0, 1, .w1s, 0)]⟩,
  ⟨0x31000034, 0x0, 1, 0x0, 1, [(0, 32, .ro, 0)]⟩,
  ⟨0x31000038, 0x0, 1, 0x0, 1, [(20, 10, .rw, 0), (10, 10, .rw, 0), (0, 10, .rw, 0)]⟩,
  ⟨0x3100003C, 0x0, 1, 0x0, 1, [(0, 16, .ro, 0)]⟩,
  ⟨0x31000040, 0x0, 1, 0x0, 1, [(0, 16, .ro, 0)]⟩,
  ⟨0x31000044, 0x0, 1, 0x0, 1, [(16, 16, .ro, 0), (0, 16, .ro, 0)]⟩,
  ⟨0x31000080, 0x4, 2, 0x0, 1, [(24, 8, .ro, 0), (16, 4, .ro, 0), (12, 2, .ro, 0), (11, 1, .ro, 0), (10, 1, .ro, 0), (9, 1, .ro, 0), (8, 1, .ro, 0)]⟩,
  ⟨0x31000090, 0x4, 2, 0x0, 1, [(24, 8, .ro, 0), (16, 4, .ro, 0), (12, 2, .ro, 0), (11, 1, .ro, 0), (10, 1, .ro, 0), (9, 1, .ro, 0), (8, 1, .ro, 0)]⟩]

/-- The registers of the CAM block (R220). -/
def regsCam : List RegTemplate := [
  ⟨0x32000000, 0x4, 4, 0x0, 1, [(16, 8, .rw, 0), (4, 1, .rw, 0), (1, 2, .rw, 0), (0, 1, .rw, 0)]⟩,
  ⟨0x32000010, 0x4, 4, 0x0, 1, [(24, 8, .rc, 0), (16, 8, .rc, 0), (8, 8, .rc, 0), (7, 1, .ro, 0), (0, 4, .ro, 0)]⟩,
  ⟨0x32000020, 0x4, 4, 0x0, 1, [(24, 8, .rc, 0), (20, 4, .ro, 0), (0, 10, .ro, 0)]⟩,
  ⟨0x32000030, 0x0, 1, 0x0, 1, [(3, 1, .w1c, 0), (2, 1, .w1c, 0), (1, 1, .w1c, 0), (0, 1, .w1c, 0)]⟩,
  ⟨0x32000100, 0x10, 48, 0x0, 1, [(30, 2, .ro, 0), (28, 2, .ro, 0), (24, 4, .ro, 0), (23, 1, .rw, 0), (21, 2, .ro, 0), (20, 1, .ro, 0), (18, 2, .ro, 0), (14, 4, .ro, 0), (8, 6, .ro, 0)]⟩,
  ⟨0x32000104, 0x10, 48, 0x0, 1, [(0, 32, .ro, 0)]⟩,
  ⟨0x32000108, 0x10, 48, 0x0, 1, [(16, 16, .ro, 0), (0, 16, .ro, 0)]⟩,
  ⟨0x3200010C, 0x10, 48, 0x0, 1, [(16, 16, .ro, 0), (0, 16, .ro, 0)]⟩]

/-- The registers of the MEM block (R283). -/
def regsMem : List RegTemplate := [
  ⟨0x33000000, 0x0, 1, 0x0, 1, [(20, 4, .rw, 0), (18, 1, .rw, 0), (17, 1, .rw, 0), (16, 1, .rw, 0), (0, 1, .w1s, 0)]⟩,
  ⟨0x33000004, 0x0, 1, 0x0, 1, [(8, 8, .ro, 0), (4, 1, .w1c, 0), (3, 1, .w1c, 0), (2, 1, .ro, 0), (1, 1, .ro, 0), (0, 1, .ro, 0)]⟩,
  ⟨0x33000008, 0x0, 1, 0x0, 1, [(24, 8, .rw, 8), (16, 8, .ro, 24), (0, 4, .rw, 4)]⟩,
  ⟨0x3300000C, 0x0, 1, 0x0, 1, [(4, 1, .w1c, 0), (3, 1, .w1c, 0), (2, 1, .w1c, 0), (1, 1, .w1c, 0), (0, 1, .w1c, 0)]⟩,
  ⟨0x33000010, 0x4, 4, 0x0, 1, [(16, 16, .ro, 0), (0, 16, .ro, 0)]⟩,
  ⟨0x33000020, 0x0, 1, 0x0, 1, [(24, 8, .rc, 0), (16, 8, .rc, 0), (0, 16, .rc, 0)]⟩,
  ⟨0x33000024, 0x0, 1, 0x0, 1, [(31, 1, .w1c, 0), (30, 1, .ro, 0), (26, 4, .ro, 0), (0, 26, .ro, 0)]⟩,
  ⟨0x33000028, 0x0, 1, 0x0, 1, [(0, 32, .ro, 0)]⟩,
  ⟨0x3300002C, 0x0, 1, 0x0, 1, [(31, 1, .w1c, 0), (28, 3, .ro, 0), (24, 4, .ro, 0), (0, 14, .ro, 0)]⟩,
  ⟨0x33000030, 0x0, 1, 0x0, 1, [(0, 14, .rw, 0)]⟩,
  ⟨0x33000034, 0x0, 1, 0x0, 1, [(16, 1, .w1s, 0), (15, 1, .rw, 0), (14, 1, .rw, 0), (13, 1, .rw, 0), (12, 1, .rw, 0), (8, 4, .rw, 0), (0, 5, .rw, 0)]⟩,
  ⟨0x33000040, 0x4, 16, 0x0, 1, [(24, 8, .rc, 0), (16, 3, .ro, 0), (0, 1, .ro, 0)]⟩]

/-- The registers of the WFL block (R317). -/
def regsWfl : List RegTemplate := [
  ⟨0x34000000, 0x0, 1, 0x0, 1, [(2, 1, .rw, 1), (1, 1, .w1s, 0), (0, 1, .rw, 0)]⟩,
  ⟨0x34000004, 0x0, 1, 0x0, 1, [(16, 8, .ro, 0), (5, 1, .ro, 0), (4, 1, .ro, 0), (3, 1, .ro, 0), (2, 1, .ro, 0), (1, 1, .ro, 0), (0, 1, .ro, 0)]⟩,
  ⟨0x34000008, 0x0, 1, 0x0, 1, [(5, 1, .w1c, 0), (4, 1, .w1c, 0), (3, 1, .w1c, 0), (2, 1, .w1c, 0), (1, 1, .w1c, 0), (0, 1, .w1c, 0)]⟩,
  ⟨0x3400000C, 0x0, 1, 0x0, 1, [(16, 16, .rw, 0), (8, 8, .rw, 8), (0, 8, .rw, 0)]⟩,
  ⟨0x34000010, 0x0, 1, 0x0, 1, [(0, 16, .rw, 0)]⟩,
  ⟨0x34000014, 0x0, 1, 0x0, 1, [(22, 10, .ro, 0), (12, 10, .ro, 1023), (2, 10, .ro, 1023), (1, 1, .ro, 0)]⟩,
  ⟨0x34000018, 0x0, 1, 0x0, 1, [(24, 8, .rc, 0), (16, 8, .rc, 0), (0, 16, .rc, 0)]⟩,
  ⟨0x3400001C, 0x0, 1, 0x0, 1, [(31, 1, .w1c, 0), (26, 5, .ro, 0), (14, 10, .ro, 0), (6, 8, .ro, 0)]⟩,
  ⟨0x34000020, 0x0, 1, 0x0, 1, [(16, 16, .rc, 0), (0, 16, .rc, 0)]⟩,
  ⟨0x34000100, 0x4, 32, 0x0, 1, [(31, 1, .ro, 0), (28, 3, .ro, 0), (22, 6, .ro, 48), (16, 6, .ro, 0), (11, 5, .ro, 0)]⟩,
  ⟨0x34000200, 0x4, 32, 0x0, 1, [(16, 16, .ro, 0), (0, 16, .ro, 0)]⟩]

/-- The registers of the EVC block (R441). -/
def regsEvc : List RegTemplate := [
  ⟨0x21000000, 0x0, 1, 0x0, 1, [(0, 1, .rw, 0)]⟩,
  ⟨0x21000004, 0x0, 1, 0x0, 1, [(1, 1, .w1c, 0), (0, 1, .w1c, 0)]⟩,
  ⟨0x21000008, 0x0, 1, 0x0, 1, [(31, 1, .wo, 0), (0, 11, .wo, 0)]⟩,
  ⟨0x2100000C, 0x0, 1, 0x0, 1, [(0, 11, .wo, 0)]⟩,
  ⟨0x21000010, 0x4, 4, 0x0, 1, [(0, 32, .ro, 0)]⟩,
  ⟨0x21000100, 0x4, 64, 0x0, 1, [(0, 32, .rw, 4294967295)]⟩,
  ⟨0x21000200, 0x4, 64, 0x0, 1, [(0, 32, .rw, 0)]⟩,
  ⟨0x21000300, 0x4, 64, 0x0, 1, [(0, 32, .ro, 0)]⟩,
  ⟨0x21000400, 0x4, 32, 0x0, 1, [(31, 1, .ro, 0), (30, 1, .rw, 1), (0, 16, .rw, 0)]⟩,
  ⟨0x21001000, 0x4, 512, 0x0, 1, [(24, 8, .ro, 0), (16, 8, .ro, 0), (8, 8, .ro, 0), (0, 8, .ro, 0)]⟩,
  ⟨0x21002000, 0x4, 2048, 0x0, 1, [(28, 3, .rw, 0), (26, 2, .rw, 0), (21, 5, .rw, 0), (17, 4, .rw, 0), (11, 6, .rw, 0)]⟩]

/-- The registers of the PWR block (R468). -/
def regsPwr : List RegTemplate := [
  ⟨0x23000000, 0x0, 1, 0x0, 1, [(1, 1, .rw, 1), (0, 1, .rw, 0)]⟩,
  ⟨0x23000004, 0x0, 1, 0x0, 1, [(19, 1, .ro, 0), (16, 3, .rw, 4), (0, 9, .rw, 220)]⟩,
  ⟨0x23000008, 0x0, 1, 0x0, 1, [(24, 3, .ro, 4), (20, 3, .ro, 0), (16, 3, .ro, 0), (8, 1, .ro, 0), (1, 1, .ro, 0), (0, 1, .ro, 0)]⟩,
  ⟨0x2300000C, 0x0, 1, 0x0, 1, [(10, 1, .w1c, 0), (9, 1, .w1c, 0), (8, 1, .w1c, 0), (7, 1, .w1c, 0), (6, 1, .w1c, 0), (5, 1, .w1c, 0), (4, 1, .w1c, 0), (3, 1, .w1c, 0), (2, 1, .w1c, 0), (1, 1, .w1c, 0), (0, 1, .w1c, 0)]⟩,
  ⟨0x23000010, 0x0, 1, 0x0, 1, [(16, 16, .ro, 0), (0, 16, .ro, 0)]⟩,
  ⟨0x23000014, 0x0, 1, 0x0, 1, [(16, 10, .ro, 0), (12, 4, .ro, 0), (4, 4, .ro, 15), (1, 3, .ro, 0), (0, 1, .ro, 0)]⟩,
  ⟨0x23000018, 0x0, 1, 0x0, 1, [(24, 8, .rc, 0), (8, 2, .ro, 0), (3, 1, .ro, 0), (2, 1, .ro, 0), (1, 1, .ro, 0), (0, 1, .ro, 0)]⟩,
  ⟨0x2300001C, 0x0, 1, 0x0, 1, [(24, 8, .rw, 0), (16, 8, .rw, 0), (8, 8, .rw, 0), (0, 8, .rw, 0)]⟩,
  ⟨0x23000020, 0x0, 1, 0x0, 1, [(31, 1, .rw, 0), (16, 8, .rw, 0), (8, 8, .rw, 0), (0, 8, .rw, 0)]⟩,
  ⟨0x23000024, 0x0, 1, 0x0, 1, [(24, 8, .rc, 0), (16, 6, .ro, 0), (0, 8, .ro, 255)]⟩,
  ⟨0x23000028, 0x0, 1, 0x0, 1, [(16, 16, .ro, 0), (8, 3, .ro, 7), (4, 3, .ro, 0), (0, 1, .ro, 0)]⟩,
  ⟨0x23000040, 0x4, 16, 0x0, 1, [(16, 7, .ro, 64), (8, 7, .ro, 0), (0, 7, .rw, 64)]⟩,
  ⟨0x23000080, 0x4, 16, 0x0, 1, [(15, 1, .rw, 1), (12, 2, .rw, 0), (8, 3, .rw, 2), (4, 4, .rw, 3)]⟩]

/-- The registers of the FLT block (R503). -/
def regsFlt : List RegTemplate := [
  ⟨0x22000000, 0x0, 1, 0x0, 1, [(16, 8, .ro, 0), (0, 9, .ro, 0)]⟩,
  ⟨0x22000004, 0x0, 1, 0x0, 1, [(9, 1, .w1c, 0), (8, 1, .w1c, 0), (7, 1, .w1c, 0), (6, 1, .w1c, 0), (5, 1, .w1c, 0), (4, 1, .w1c, 0), (3, 1, .w1c, 0), (2, 1, .w1c, 0), (1, 1, .w1c, 0), (0, 1, .w1c, 0)]⟩,
  ⟨0x22000008, 0x0, 1, 0x0, 1, [(16, 1, .ro, 0), (8, 8, .ro, 0), (0, 8, .rw, 0)]⟩,
  ⟨0x2200000C, 0x0, 1, 0x0, 1, [(0, 32, .rc, 0)]⟩,
  ⟨0x22000010, 0x0, 1, 0x0, 1, [(28, 4, .ro, 0), (24, 4, .ro, 0), (16, 3, .ro, 0), (9, 1, .ro, 1), (8, 1, .ro, 0), (7, 1, .ro, 0), (0, 3, .ro, 0)]⟩,
  ⟨0x22000014, 0x0, 1, 0x0, 1, [(24, 8, .rc, 0), (16, 8, .rc, 0), (0, 16, .ro, 0)]⟩,
  ⟨0x22000018, 0x0, 1, 0x0, 1, [(0, 8, .rw, 10)]⟩,
  ⟨0x2200001C, 0x0, 1, 0x0, 1, [(3, 1, .ro, 0), (2, 1, .w1s, 0), (1, 1, .w1s, 0), (0, 1, .w1s, 0)]⟩,
  ⟨0x22000020, 0x0, 1, 0x0, 1, [(31, 1, .ro, 0), (9, 1, .w1s, 0), (8, 1, .w1s, 0), (0, 8, .rw, 50)]⟩,
  ⟨0x22000024, 0x0, 1, 0x0, 1, [(24, 8, .ro, 0), (0, 4, .ro, 0)]⟩,
  ⟨0x22000028, 0x0, 1, 0x0, 1, [(24, 8, .ro, 0), (16, 8, .rc, 0), (0, 16, .rc, 0)]⟩,
  ⟨0x2200002C, 0x0, 1, 0x0, 1, [(0, 32, .rc, 0)]⟩,
  ⟨0x22000040, 0x4, 16, 0x0, 1, [(24, 8, .rc, 0), (16, 3, .ro, 0), (0, 8, .ro, 255)]⟩,
  ⟨0x22000100, 0x4, 128, 0x0, 1, [(16, 16, .rc, 0), (0, 16, .rc, 0)]⟩]

/-- The registers of the PLN block (R528). -/
def regsPln : List RegTemplate := [
  ⟨0x20000100, 0x0, 1, 0x0, 1, [(8, 1, .rw, 0), (7, 1, .ro, 0), (6, 1, .ro, 0), (3, 1, .w1s, 0), (2, 1, .w1s, 0), (1, 1, .w1s, 0), (0, 1, .w1s, 0)]⟩,
  ⟨0x20000104, 0x0, 1, 0x0, 1, [(8, 1, .w1c, 0), (0, 8, .ro, 0)]⟩,
  ⟨0x20000108, 0x0, 1, 0x0, 1, [(31, 1, .w1s, 0), (30, 1, .rw, 0), (24, 6, .rw, 0), (18, 6, .rw, 0), (0, 8, .rw, 0)]⟩,
  ⟨0x2000010C, 0x0, 1, 0x0, 1, [(0, 16, .rw, 1000)]⟩,
  ⟨0x20000200, 0x4, 32, 0x0, 1, [(31, 1, .ro, 0), (30, 1, .ro, 0), (29, 1, .ro, 0), (27, 2, .ro, 0), (8, 16, .ro, 0), (0, 1, .wo, 0)]⟩]

/-- The registers of the SEC block (R530). -/
def regsSec : List RegTemplate := [
  ⟨0x24000000, 0x0, 1, 0x0, 1, [(2, 6, .ro, 0), (1, 1, .ro, 0), (0, 1, .ro, 0)]⟩,
  ⟨0x24000004, 0x0, 1, 0x0, 1, [(3, 1, .w1c, 0), (2, 1, .w1c, 0), (1, 1, .w1c, 0), (0, 1, .w1c, 0)]⟩,
  ⟨0x24000008, 0x0, 1, 0x0, 1, [(16, 4, .ro, 0), (0, 7, .ro, 0)]⟩,
  ⟨0x24000010, 0x4, 4, 0x0, 1, [(0, 32, .ro, 0)]⟩,
  ⟨0x24000020, 0x4, 4, 0x0, 1, [(0, 32, .ro, 4294967295)]⟩,
  ⟨0x24000040, 0x0, 1, 0x0, 1, [(2, 1, .ro, 0), (1, 1, .ro, 0), (0, 1, .ro, 0)]⟩,
  ⟨0x24000044, 0x0, 1, 0x0, 1, [(0, 1, .w1s, 0)]⟩,
  ⟨0x24000048, 0x0, 1, 0x0, 1, [(0, 32, .ro, 0)]⟩,
  ⟨0x2400004C, 0x0, 1, 0x0, 1, [(0, 16, .ro, 0)]⟩,
  ⟨0x24000050, 0x0, 1, 0x0, 1, [(0, 18, .rw, 0)]⟩,
  ⟨0x24000054, 0x0, 1, 0x0, 1, [(2, 1, .w1c, 0), (1, 1, .w1c, 0), (0, 1, .w1c, 0)]⟩,
  ⟨0x24000080, 0x4, 32, 0x0, 1, [(0, 32, .ro, 0)]⟩]

/-- The registers of the SPN block (R551). -/
def regsSpn : List RegTemplate := [
  ⟨0x35000000, 0x0, 1, 0x0, 1, [(10, 2, .rw, 0), (8, 2, .rw, 0), (6, 2, .rw, 0), (1, 1, .rw, 0), (0, 1, .rw, 0)]⟩,
  ⟨0x35000004, 0x0, 1, 0x0, 1, [(16, 16, .ro, 0), (2, 1, .ro, 0), (1, 1, .ro, 0), (0, 1, .ro, 0)]⟩,
  ⟨0x35000008, 0x0, 1, 0x0, 1, [(6, 1, .w1c, 0), (5, 1, .w1c, 0), (4, 1, .w1c, 0), (3, 1, .w1c, 0), (2, 1, .w1c, 0), (1, 1, .w1c, 0), (0, 1, .w1c, 0)]⟩,
  ⟨0x3500000C, 0x0, 1, 0x0, 1, [(0, 32, .ro, 0)]⟩,
  ⟨0x35000010, 0x4, 2, 0x0, 1, [(29, 3, .ro, 0), (27, 2, .ro, 0), (26, 1, .ro, 0), (8, 8, .rc, 0), (4, 4, .ro, 0)]⟩,
  ⟨0x35000020, 0x4, 2, 0x0, 1, [(16, 16, .rc, 0), (0, 16, .rc, 0)]⟩,
  ⟨0x35000030, 0x4, 2, 0x0, 1, [(0, 32, .rc, 0)]⟩,
  ⟨0x35000040, 0x4, 2, 0x0, 1, [(0, 16, .ro, 0)]⟩]

/-- The registers of the XSP block (R579). -/
def regsXsp : List RegTemplate := [
  ⟨0x36000000, 0x0, 1, 0x0, 1, [(8, 2, .ro, 0), (7, 1, .ro, 0), (4, 1, .ro, 0), (3, 1, .ro, 0), (2, 1, .ro, 0), (1, 1, .ro, 0), (0, 1, .ro, 0)]⟩,
  ⟨0x36000004, 0x0, 1, 0x0, 1, [(5, 1, .w1c, 0), (4, 1, .w1c, 0), (3, 1, .w1c, 0), (2, 1, .w1c, 0), (1, 1, .w1c, 0), (0, 1, .w1c, 0)]⟩]

/-- Every register reachable at an internal address (R601). A reset value that depends on the index or the part is taken
from the field constants above. -/
def regTemplates : List RegTemplate :=
  regsClu ++ regsDsp ++ regsCam ++ regsMem ++ regsWfl ++ regsEvc ++ regsPwr ++ regsFlt ++ regsPln ++ regsSec ++ regsSpn ++ regsXsp

/-- The templates' base reset for the fields whose reset value depends on the register's number or on the part. -/
def specialReset (addr lo : Nat) : Option Nat :=
  if addr = 0x23000014 ∧ lo = 0 then some Config.grade
  else if addr = 0x24000008 ∧ lo = 16 then some Config.fwKeyRev
  else if addr = 0x24000008 ∧ lo = 0 then some Config.fusedSvn
  else if 0x24000010 ≤ addr ∧ addr ≤ 0x2400001C ∧ lo = 0 then some (Config.identId ((addr - 0x24000010) / 4))
  else if 0x40000000 ≤ addr ∧ addr < 0x62000000 ∧ addr % 0x1000000 = 0 then
    let n := (addr - 0x40000000) / 0x1000000
    if lo = 0 then some n else if lo = 7 then some (if n ≤ 16 then 0 else 1) else none
  else if 0x32000100 ≤ addr ∧ addr < 0x32000400 ∧ addr % 16 = 0 ∧ lo = 30 then
    let n := (addr - 0x32000100) / 16
    some (if n < 2 then 0 else if n < 34 then 1 else 2)
  else none

/-- Does the template list a register at this address? -/
def RegTemplate.covers (t : RegTemplate) (addr : Nat) : Bool :=
  decide (t.base ≤ addr) &&
  (let d := addr - t.base
   let a := if t.stride = 0 then 0 else d / t.stride
   let e := if t.stride = 0 then d else d % t.stride
   if t.icount = 1 then decide (a < t.count ∧ e = 0)
   else decide (a < t.count ∧ e % t.inner = 0 ∧ e / t.inner < t.icount))

/-- The fields of the register at an internal address; none: the offset is not listed. -/
def fieldsAt (addr : Nat) : List RegField :=
  match regTemplates.find? (fun t => t.covers addr) with
  | none => []
  | some t => t.fields.map (fun (lo, w, a, r) => ⟨addr, lo, w, a, (specialReset addr lo).getD r⟩)

end Sys2Proof.Machine
end

