-- ==== Sys2Proof/Machine/Table.lean ====
section
/-!
DEFINITION. Sys2Proof/Machine/Table.lean: sparse tables in one canonical form: keys strictly rising, and no entry equal
to what an unlisted key reads as. Memory, the register file and every per-number array of the device are such tables.
-/
namespace Sys2Proof.Machine

/-- The entry listed at `k`, if any. -/
def tfind {α : Type} (k : Nat) : List (Nat × α) → Option α
  | [] => none
  | (j, v) :: t => if j = k then some v else tfind k t

/-- The table with key `k` taken out. -/
def tdel {α : Type} (k : Nat) (t : List (Nat × α)) : List (Nat × α) := t.filter (fun e => decide (e.1 ≠ k))

/-- The table with `v` listed at `k`. -/
def tset {α : Type} (k : Nat) (v : α) : List (Nat × α) → List (Nat × α)
  | [] => [(k, v)]
  | (j, w) :: t => if j = k then (k, v) :: t else if k < j then (k, v) :: (j, w) :: t else (j, w) :: tset k v t

/-- What key `k` reads as: the listed value, or `d`. -/
def tget {α : Type} (d : α) (t : List (Nat × α)) (k : Nat) : α := (tfind k t).getD d

/-- Write `v` at `k`, keeping the canonical form: a value equal to the default is not listed. -/
def tput {α : Type} [DecidableEq α] (d : α) (t : List (Nat × α)) (k : Nat) (v : α) : List (Nat × α) :=
  if v = d then tdel k t else tset k v t

/-- Replace the value at `k` by a function of it. -/
def tmod {α : Type} [DecidableEq α] (d : α) (t : List (Nat × α)) (k : Nat) (f : α → α) : List (Nat × α) :=
  tput d t k (f (tget d t k))

/-- Keys strictly rising. -/
def tsorted {α : Type} : List (Nat × α) → Bool
  | [] => true
  | [_] => true
  | (j, _) :: (k, v) :: t => decide (j < k) && tsorted ((k, v) :: t)

/-- The canonical form: keys strictly rising and no entry equal to the default. -/
def twf {α : Type} [DecidableEq α] (d : α) (t : List (Nat × α)) : Bool :=
  tsorted t && t.all (fun e => decide (e.2 ≠ d))

/-- The table without the keys that satisfy `p`. -/
def tdrop {α : Type} (p : Nat → Bool) (t : List (Nat × α)) : List (Nat × α) := t.filter (fun e => !p e.1)

end Sys2Proof.Machine
end

