-- ==== Sys2Proof/Machine/State.lean ====
section
/-!
DEFINITION. Sys2Proof/Machine/State.lean: everything the spec gives the ZV8640, as plain data, and the device right after
reset. Registers live in one register file (`State.regs`, keyed by address and bit); memories in sorted byte lists; what
the registers do not show is in the structures below, one per chapter of spec/.
-/
namespace Sys2Proof.Machine

/-- An SPDM or DOE response (R510-R514). `body` holds bytes; a signature is in it as the device made it. -/
inductive SpdmReply where
  | discovery (vendor kind next : Nat)
  | version
  | capabilities
  | algorithms
  | digests (chain : Nat)
  | certificate (bytes : List Nat)
  | challengeAuth (measurements : List (Nat × List Nat)) (r s : Nat)
  | measurements (count : Nat) (blocks : List (Nat × List Nat)) (r s : Nat)
  | keyExchangeRsp (session : Nat)
  | finishRsp (session : Nat)
  | endSessionAck (session : Nat)
  | keyUpdateAck (session : Nat)
  | vendor (bytes : List Nat)
  | sessionLimitExceeded
  | error
deriving DecidableEq, Repr

/-- A message the device sends or a value it returns, in the order sent (the model's own record, log entry 2). -/
inductive OutMsg where
  | msix (fn vec addr data : Nat)
  | pair (p : Nat)
  | value (v : Nat)
  | unsupported (fn : Nat)
  | spdm (fn : Nat) (r : SpdmReply)
  | jtag (v : Nat)
  | flit (port : Nat) (bytes : List Nat)
  | line (y source link : Nat) (dsc : Bool) (pixels : List Pixel)
  | hostReply (fn addr : Nat) (bytes : List Nat)
deriving DecidableEq, Repr

/-! ### Clusters, cores and threads (spec/01_clusters_cores_threads.md) -/

/-- A completion tag of a thread (R30, R65): never used, waiting for a move or array instruction, waiting for a vector or
engine operation, set, or set with an error. -/
inductive Tag where
  | idle | pendMove | pendVector | done
  | error (status : Nat)
deriving DecidableEq, Repr

/-- What a thread that is not ready waits for (R30, R115). -/
inductive Wait where
  | none
  | tag (n : Nat)
  | moveQueue | arrayQueue | vectorQueue | collector
  | coreBarrier
  | clusterBarrier (k : Nat)
deriving DecidableEq, Repr

/-- A thread beside its state in CLU_THR_STAT: program counter into IM, registers, tags, what it waits for, the state to
resume to when it is HALTED, a fault due at its next WAIT or barrier (R35) and its work unit. -/
structure Thread where
  pc : Nat := 0
  g : List (Nat × BitVec 32) := []
  tags : List (Nat × Tag) := []
  wait : Wait := .none
  resume : Nat := 0
  faultDue : Bool := false
  unit : Option Nat := none
deriving DecidableEq, Repr

/-- What a work unit does for whom (R36, R69, R166): a step of a batch, a frame of a stream context, an Armature
dispatch, a training step, or other Plinth work. -/
inductive UnitKind where
  | batch (id : Nat)
  | frame (ctx frame : Nat)
  | armature
  | train (fn ring sqIdx : Nat)
  | other
deriving DecidableEq, Repr

/-- A work unit (R36): its partition, its threads (thread numbers), whether it is privileged (R69), failed (and the
status), the quanta of its age that count (R478), whether a thread of it was HALTED in this quantum (`exempt`), the program
counters of its threads when all of them waited on moves at the last boundary (`snap`), and whether it is its frame's last (R210). -/
structure WorkUnit where
  part : Nat
  kind : UnitKind
  threads : List Nat
  priv : Bool := false
  failed : Bool := false
  why : Nat := 0
  age : Nat := 0
  hung : Bool := false
  exempt : Bool := false
  snap : Option (List Nat) := none
  last : Bool := true
deriving DecidableEq, Repr

/-- A scrubber of one bank (R44, R45): its next word, a corrected word waiting for its write-back, whether the bank has
completed a pass since the cluster's last sweep, the device time of its last advance. -/
structure Scrubber where
  next : Nat := 0
  writeBack : Option Nat := none
  passed : Bool := false
  last : Nat := 0
deriving DecidableEq, Repr

/-! ### The cell array (spec/02_cell_array_dataflow.md) -/

/-- An array instruction in a core's array queue (R32): its 128-bit word (R62), the issuing thread, the output scale set
entry in force at its issue (R107), whether it has started, the window descriptor a CONV read at its start (R126), the AM
and PM words (PM word w as 4096 + w) that an earlier instruction unfinished at its issue writes, when it has no FENCE
(R64), whether it reads one of them, the operand words as they were at its start, the rows a STREAM has finished. -/
structure ArrInstr where
  word : Nat
  thread : Nat
  qset : Nat
  started : Bool := false
  window : List Nat := []
  before : List Nat := []
  hazard : Bool := false
  seen : List Nat := []
  rows : Nat := 0
deriving DecidableEq, Repr

/-- A core beside its threads and memories: the array queue, executing first (R32), the thread that issued last (R31),
the active and the shadow weight registers, as the WM words loaded into them (R57), the STREAM counters (R71), slips of the
8 feeders and 8 drains (R74), the links that cause a freeze (R75, R76), whether the array is ramped down (R80), the output
scale sets (R107), the counters of R113 and the drain LFSRs (R110). -/
structure Core where
  arr : List ArrInstr := []
  lastIssued : Nat := 7
  active : List Nat := []
  shadow : List Nat := []
  inCredit : Nat := 0
  outSpace : Nat := 0
  slips : List (Nat × Nat) := []
  freezers : List Nat := []
  rampedDown : Bool := false
  qset : List (Nat × Nat) := []
  satAcc : Nat := 0
  satOut : Nat := 0
  nonfinite : Nat := 0
  lfsr : List (Nat × Nat) := []
deriving DecidableEq, Repr

/-! ### Vector unit, collectors and engine (spec/03_number_formats.md, spec/04_image_operators.md) -/

/-- An entry of a core's vector queue (R33, R137): a vector operation with the output scale set entry in force at its issue
(R107), a collector feed or an engine operation. -/
inductive VecEntry where
  | vec (thread : Nat) (cmd : VecCmd) (qset : Nat)
  | feed (thread collector fmt : Nat) (src : Region) (count : Nat) (tag : Nat)
  | eng (thread addr tag : Nat)
deriving DecidableEq, Repr

/-- A max-abs collector (R115-R117): its owner (a partition), mode, channel count, DECAY, the values fed since the last
commit and the committed values (FP32 codes), and whether a release waits for a feed in flight. -/
structure Collector where
  owner : Option Nat := none
  perChannel : Bool := false
  channels : Nat := 1
  decay : Nat := 0
  fed : List (Nat × Nat) := []
  kept : List (Nat × Nat) := []
  freeing : Bool := false
deriving DecidableEq, Repr

/-- The engine's operation in progress: its core, thread, tag and the four command words read at its start (R137). -/
structure EngineOp where
  core : Nat
  thread : Nat
  tag : Nat
  words : List Nat
deriving DecidableEq, Repr

/-- A cluster beside its registers and memories: power good (R27), the move queues by number (0-63 cores, 64-67 Plinth,
R47) are in `moves`; the vector queues per core, the engine's configuration (R138), operation and the core it served last
(R137), the DMA queue served last (R48), collectors, scrubbers by bank number, when the last sweep completed (R54),
uncorrectable and correctable error history (R18) and whether it has met a condition of R18's table, an INIT that waits for
power good, the vector unit's counters (R113) and lane LFSRs (R110). -/
structure Cluster where
  powerGood : Bool := false
  vecq : List (Nat × List VecEntry) := []
  resampleLoaded : Bool := false
  engine : Option EngineOp := none
  lastEng : Nat := 63
  lastQueue : Nat := 67
  collectors : List (Nat × Collector) := []
  scrub : List (Nat × Scrubber) := []
  lastSweep : Nat := 0
  ueTimes : List Nat := []
  ceTimes : List (Nat × List Nat) := []
  doomed : Bool := false
  initPend : Bool := false
  ueWords : List (Nat × Nat) := []
  satOut : Nat := 0
  nonfinite : Nat := 0
  satAcc : Nat := 0
  lfsr : List (Nat × Nat) := []
deriving DecidableEq, Repr

/-! ### Host interface (spec/12_host_interface_ferar.md) -/

/-- State of a ring as stored (HIF_RING_STAT.STATE; FENCED is computed from the partition, R480). -/
inductive RingState where
  | disabled | enabled | draining
deriving DecidableEq, Repr

/-- The settings of one ring: HIF_RING_CFG, the bases, the tail word address and the coalescing limits (R426). -/
structure RingCfg where
  fmt : Nat := 0
  kind : Nat := 0
  sqLog2 : Nat := 4
  cqLog2 : Nat := 4
  vec : Nat := 0
  sqBase : Nat := 0
  cqBase : Nat := 0
  tailAddr : Nat := 0
  coalUs : Nat := 0
  coalCnt : Nat := 0
deriving DecidableEq, Repr

/-- A completion-queue record (R394): 32 bytes as four 64-bit words; `counts`: it counts toward the interrupt limits
(R422: a command record with NO_IRQ does not); `buf`: for a frame record whose program holds a buffer (R213), 1 + (binding
number * 48 + context) * 4 + buffer. -/
structure CqRec where
  w0 : Nat
  w1 : Nat
  w2 : Nat
  w3 : Nat
  counts : Bool
  buf : Nat := 0
deriving DecidableEq, Repr

/-- One ring of one function (R386-R393); `refs`: the buffer each unconsumed record holds (R213), 0 none. -/
structure Ring where
  state : RingState := .disabled
  staged : RingCfg := {}
  cfg : RingCfg := {}
  dbErr : Bool := false
  sqHead : Nat := 0
  sqTail : Nat := 0
  cqHead : Nat := 0
  cqTail : Nat := 0
  waiting : List CqRec := []
  refs : List Nat := []
  sinceIrq : Nat := 0
  oldest : Option Nat := none
deriving DecidableEq, Repr

/-- One entry of an MSI-X table (R421). Vector Control's mask bit is 1 at reset (PCI Express; log entry 6). -/
structure MsixEntry where
  addr : Nat := 0
  data : Nat := 0
  masked : Bool := true
deriving DecidableEq, Repr

/-- An event record not yet numbered (R397, R398). -/
structure EvRec where
  time : Nat
  code : Nat
  status : Nat
  fin : Bool
  part : Nat
  ranks : Nat
  detail : Nat
  quanta : Nat
deriving DecidableEq, Repr

/-- What the device keeps for one PCIe function: D3hot (R597), its write queue (R384), MSI-X table and pending bits (R421),
event count, held and lost event records (R398), the published copy of its window (R382) and the field states it shows, and
whether a function reset waits for the Plinth (R423, R427). -/
structure FnState where
  d3hot : Bool := false
  wq : List (Nat × Nat) := []
  msix : List (Nat × MsixEntry) := []
  pba : List Nat := []
  evtSeq : Nat := 0
  held : List EvRec := []
  lost : Nat := 0
  pub : List (Nat × Nat) := []
  flr : Bool := false
deriving DecidableEq, Repr

/-- A packet consumed and not yet completed (R390): where its command record goes and what it waits for (`key`: a handle,
context, request handle or slot, by opcode). -/
structure Cmd where
  fn : Nat
  ring : Nat
  sqIdx : Nat
  opcode : Nat
  tag : Nat
  noIrq : Bool
  part : Nat
  key : Nat
deriving DecidableEq, Repr

/-- The host interface. -/
structure Hif where
  fns : List (Nat × FnState) := []
  rings : List (Nat × Ring) := []
  cmds : List Cmd := []
  numVfs : Nat := 0
  refclk : Bool := true
deriving DecidableEq, Repr

/-! ### The display engine (spec/05_line_locked_display.md) -/

/-- The last row a receive port took of a 4:2:0 picture, with the even row above an odd one (R172). -/
structure RxRow where
  row : Nat
  kind : PixelKind
  depth : Nat
  pixels : List Pixel
  above : List Pixel
deriving DecidableEq, Repr

/-- The display engine beside its registers (reset domain of R171): the configuration in force and one that waits for a
frame boundary (R193); the two banks (R169) and whether each was loaded since the last chip reset (R171); the ratio and phase in
force; the DISPLAY_MODEs that wait (R192); the tick, the lines checked and the lines chosen and not yet sent (source, pixels; none: a
repeat) of the current frame (R154, R179, R182); the tick program's entries still to execute and the descriptor of the move that the
next SEGMENT follows (R164); the segments in the neural line buffer (R182); the cores whose armature unit was abandoned or failed
and has not ended well since (R166); counts of the frame, the takeover and what it rests on (R184-R188), whether a POWER_FLOOR takeover waits for its first line check
(R187); the last line sent on each
link (R185); the input frames of each port, when the picture's last began and the measured periods, in ps (R157-R159); a 4:2:0 row
that waits, the line store of 12 rows per port, the fallback lines formed and the rows the display region holds (R172, R176, R181);
the motion field (R178); the display region's granules (R191). -/
structure Dsp where
  cfg : Option DisplayCfg := none
  next : Option DisplayCfg := none
  bank0 : Option Armature := none
  bank1 : Option Armature := none
  fresh0 : Bool := false
  fresh1 : Bool := false
  p : Nat := 1
  q : Nat := 1
  phi0 : Nat := 0
  modes : List (Cmd × DisplayMode × Nat) := []
  tick : Nat := 0
  checked : Nat := 0
  linkBuf : List (Nat × Nat × Option (List Pixel)) := []
  prog : List ArmEntry := []
  lineMove : Option Desc := none
  stale : List Nat := []
  segs : List (Nat × List (Nat × List Pixel)) := []
  late : Nat := 0
  taken : Nat := 0
  lateFrames : Nat := 0
  takeover : Bool := false
  sinceLate : Nat := 0
  floorLost : Bool := false
  floorWait : Bool := false
  lastLines : List (Nat × List Pixel) := []
  inFrames : Nat := 0
  inFrames1 : Nat := 0
  inStart : Nat := 0
  inPeriod : Nat := 0
  inLost : Bool := false
  rxRow : List (Nat × RxRow) := []
  rows : List (Nat × List Pixel) := []
  fallback : List (Nat × List Pixel) := []
  regionRows : List Nat := []
  lockRun : Nat := 0
  field : List Nat := []
  region : Nat := 0
  coef : Option (List Int) := none
  clusters : List Nat := []
  linePeriod : Nat := 0
deriving DecidableEq, Repr


/-! ### Cameras and streams (spec/06_camera_stream_intake.md) -/

/-- What STREAM_BIND binds a context to (R204): a number of its own, the partition, the handle and entry, the ring of frame records,
the tap's divisor and scale, the pipe block, the three buffers' T2 addresses (free values) and their charge. -/
structure Binding where
  gen : Nat
  part : Nat
  handle : Nat
  entry : Nat
  fn : Nat
  ring : Nat
  d : Nat
  scale : Nat
  pipe : Nat
  bufs : List Nat
  charge : Nat
deriving DecidableEq, Repr

/-- How far a frame is (R210, R211): being received, received and in the pipe, released and waiting, in work, or its last work unit
ended in this tick of the time base (R219). -/
inductive FrameStage where
  | receiving | ended | released | working | finished
deriving DecidableEq, Repr

/-- A frame descriptor of a host-pushed stream (R216); `ok`: every field in its range and every rsvd byte 0. -/
structure PushDesc where
  addr : Nat
  tier : Nat
  width : Nat
  height : Nat
  stride : Nat
  fmt : Nat
  user : Nat
  ok : Bool
deriving DecidableEq, Repr

/-- An open frame (R209-R213): its number, open tick time, close tick number, buffer, binding, damage flags (CRC 1, HEADER
2, SHORT 4, PIPE_OVF 8, SYNTH_TICK 16), lines received, release time, USER tag, the descriptor of a pushed frame, whether the work
unit marked as its last has ended, and when its work ended. -/
structure Frame where
  no : Nat
  time : Nat
  close : Nat
  buf : Nat
  bind : Binding
  stage : FrameStage
  flags : Nat := 0
  lines : Nat := 0
  released : Nat := 0
  user : Nat := 0
  desc : Option PushDesc := none
  lastDone : Bool := false
  workEnd : Nat := 0
deriving DecidableEq, Repr

/-- A stream context beside its CAM registers (R202-R205): size, period in us, the frame ring, the binding
in force, the STREAM_BIND that waits for its first frame, bindings and a closing that wait for the next tick in the order accepted,
open frames, buffers of decided frames whose records the host has not consumed (binding number * 4 + buffer), ticks since a tap's
last frame, the pipe block of the frame received, and the STREAM_CLOSE that has taken effect. -/
structure Ctx where
  w : Nat := 0
  h : Nat := 0
  tp : Nat := 0
  fn : Nat := 0
  ring : Nat := 0
  bind : Option Binding := none
  bindCmd : Option Cmd := none
  waiting : List (Cmd × Option Binding) := []
  frames : List Frame := []
  held : List Nat := []
  skipped : Nat := 0
  lastFrame : Nat := 0
  block : List Nat := []
  closing : Option Cmd := none
deriving DecidableEq, Repr


/-! ### Memory tiers (spec/08_memory_tiers.md) -/

/-- Who asked for a move (R47, R252): a thread with its tag, a MOVE entry of the active Armature, a packet, or the Plinth. -/
inductive MoveOwner where
  | thread (k tag : Nat)
  | entry
  | packet (c : Cmd)
  | plinth
deriving DecidableEq, Repr

/-- A move in a queue of a cluster DMA engine (R48): its descriptor, owner, segments done, the bytes they read, which its
destination takes at the completion (R34), and the status of its error (0: none). -/
structure Move where
  desc : Desc
  owner : MoveOwner
  segs : Nat := 0
  got : List Byte := []
  err : Nat := 0
deriving DecidableEq, Repr

/-- The DRAM controller beside its registers: the granule table's entries as MEM_GTAB_DATA shows them without ZFILL, the
granules to be zero-filled (the first is in progress), the key each slot holds, and the key T2's bytes were last written
under, by granule for a zero-fill and by 64-byte data unit for a write (R251, R266); 0 is no encryption. -/
structure Dram where
  gtab : List (Nat × Nat) := []
  fills : List Nat := []
  keys : List (Nat × Nat) := []
  granKey : List (Nat × Nat) := []
  unitKey : List (Nat × Nat) := []
deriving DecidableEq, Repr

/-! ### The weight flash (spec/09_weight_flash.md) -/

/-- What a die's operation is for (R294): a read of a move, the read-back of a store, a page program or plane-set erase, a
record-class program (the record's SEQ) or erase, a patrol read, the copy of a logical block to a new physical block. -/
inductive DieWork where
  | read
  | verify
  | store
  | erase (ps : Nat)
  | record (seq : Nat)
  | recErase
  | patrol
  | copy (lblk dst : Nat)
deriving DecidableEq, Repr

/-- One channel's die: block-map entries that differ from the first map (R289, R314), erase counts, spares used per plane
(R288, R307), grown-bad blocks, plane-sets lost to R308, further free blocks, record blocks full, pages of the one being filled, the
oldest of them, cycles of each and the spares that replace them (R309, R311), whether the part's surplus good blocks are among the free
ones (R289), the running, suspended and waiting operations (R294-R296). -/
structure Channel where
  map : List (Nat × Nat) := []
  ec : List (Nat × Nat) := []
  spareUsed : List (Nat × Nat) := []
  grown : List Nat := []
  lost : List Nat := []
  extra : List Nat := []
  recFull : Nat := 0
  recUsed : Nat := 0
  recOld : Nat := 0
  recEc : List (Nat × Nat) := []
  recMap : List (Nat × Nat) := []
  surplus : Bool := false
  running : Option DieWork := none
  suspended : Option DieWork := none
  nested : Bool := false
  waiting : List DieWork := []
deriving DecidableEq, Repr

/-- Payload of a device record (R313). -/
inductive RecBody where
  | storeBegin (slot set : Nat) (sets : List (Nat × Nat))
  | storeCommit (slot beginSeq : Nat)
  | storeAbort (beginSeq : Nat)
  | eraseIntent (slot : Nat) (sets : List (Nat × Nat))
  | eraseDone (intentSeq : Nat)
  | relocate (ch old new lblk : Nat)
  | relocateDone (relSeq : Nat)
  | clusterMap (mask : Nat)
  | patina (trims : List Nat)
  | publisherKeys
deriving DecidableEq, Repr

/-- A device record and which of its copies on WF0 and WF16 are whole (R311, R312). -/
structure FlashRec where
  seq : Nat
  time : Nat
  on0 : Bool
  on16 : Bool
  body : RecBody
deriving DecidableEq, Repr

/-- A committed maquette in a store slot (R290, R291, R315). -/
structure Slot where
  set : Nat
  base : Nat
  man : Manifest
  part : Nat
  sets : List (Nat × Nat)
  beginSeq : Nat
deriving DecidableEq, Repr

/-- A MAQ_STORE or MAQ_ERASE accepted and not complete (R300): the packet, the slot, what is stored, its plane-sets
(channel, set), programs and read-backs left per channel, blocks failed per channel and logical block, plane-sets left to erase. -/
structure FlashJob where
  cmd : Option Cmd
  store : Bool
  slot : Nat
  part : Nat
  set : Nat
  man : Option Manifest
  handle : Nat
  started : Bool := false
  sets : List (Nat × Nat) := []
  recSeq : Nat := 0
  left : List (Nat × Nat) := []
  verify : List (Nat × Nat) := []
  fails : List (Nat × Nat) := []
  eraseLeft : List (Nat × Nat) := []
  holdLow : Bool := false
deriving DecidableEq, Repr

/-- The weight flash. -/
structure Flash where
  chans : List (Nat × Channel) := []
  slots : List (Nat × Slot) := []
  jobs : List FlashJob := []
  records : List FlashRec := []
  nextSeq : Nat := 0
  awaiting : List (Nat × List (Nat × Nat)) := []
  oldSets : List (Nat × Slot) := []
  pubs : List PubKey := []
  listSeq : Nat := 0
deriving DecidableEq, Repr

/-! ### Maquettes (spec/10_maquettes_casting.md) -/

/-- A maquette handle (R331): its partition, the store slot it was staged from (none: host memory), its manifest, state
(0 STAGED, 1 RESIDENT, 2 HELD_FOR_CAST), whether it is verified, the layers in T2, whether it holds a WM image (R337), a
forced eviction in progress (R343). -/
structure Handle where
  part : Nat
  slot : Option Nat
  man : Manifest
  st : Nat
  verified : Bool
  inT2 : List Nat
  wm : Bool
  evict : Option Cmd
deriving DecidableEq, Repr

/-- A cast running in a partition (R338-R342): its packet, handles and flags, the requests admitted before its barrier,
whether it reads, layers ready and swapped, how it failed, the layers it puts in T2 and those whose old copy is freed, and the layer
it was at when a fence rose (R480). -/
structure Cast where
  cmd : Cmd
  handle : Nat
  replace : Option Nat
  drain : Bool
  activate : Bool
  before : List Nat
  started : Bool
  ready : Nat
  swapped : Nat
  failed : Option (Nat × Nat)
  toT2 : List Nat
  freed : List Nat
  heldAt : Option Nat := none
deriving DecidableEq, Repr

/-! ### Partitions and serving (spec/11_partitions_serving.md, spec/07_attention_kv.md) -/

/-- The parameters of PART_CREATE and PART_RESIZE as a partition keeps them (R346). -/
structure Quota where
  q2 : Nat
  wres : Nat
  q3 : Nat
  q4 : Nat
  areas : List (Nat × Nat)
deriving DecidableEq, Repr

/-- A pending PART_RESIZE (R350): its packet, the cluster count it asks for, granules still to fill. -/
structure Resize where
  cmd : Cmd
  clusters : Option Nat
  q2 : Option Nat
  fills : List Nat
deriving DecidableEq, Repr

/-- How far a fence is (R480-R483): draining, up after its drain, or in its reset. -/
inductive FenceState where
  | none | draining | up | resetting
deriving DecidableEq, Repr

/-- One copy of an adapter's master weights and moments (R119): BF16 weights; the codes of the first moment and of the square
root of the second, with one BF16 scale per block of 256. -/
structure AdapterCopy where
  w : List Nat := []
  m : List Nat := []
  mScale : List Nat := []
  v : List Nat := []
  vScale : List Nat := []
deriving DecidableEq, Repr

/-- An adapter (R118, R119, R121): the digest it is bound to, its rank, ACC_COUNT and charge, the current and the next copy of
its weights and moments, the gradient sum in E5M2 with its exponent bytes X per block of 32. -/
structure Adapter where
  digest : Nat
  rank : Nat
  acc : Nat
  charge : Nat
  cur : AdapterCopy := {}
  nxt : AdapterCopy := {}
  grad : List Nat := []
  gradX : List Nat := []
deriving DecidableEq, Repr

/-- A partition (R345-R351). `logical`: the clusters it holds by logical number, ascending (a retired one without a spare
leaves the list, R23); `firmware`: the Plinth created it for its own work (R69); `clSet`: the count R24 judges by; charges in T2, T3 and T4 (R270); what waits for its fence and
reset; counts of R114 and R374; `ending`: its destruction waits for its clusters to pass INIT (R351); `fenceDue`: a fence is raised at the next quantum boundary
(R480). -/
structure Part where
  owner : Nat
  firmware : Bool := false
  logical : List Nat
  leaving : List Nat := []
  joining : List Nat := []
  clSet : Nat
  keySlot : Nat
  quota : Quota
  ringFirst : Nat
  ringCount : Nat
  minRate : Nat
  c2 : Nat := 0
  c3 : Nat := 0
  c4 : Nat := 0
  cast : Option Cast := none
  resize : Option Resize := none
  createCmd : Option Cmd := none
  fence : FenceState := .none
  fenceDue : Bool := false
  hung : Bool := false
  hangFence : Bool := false
  fenceCmds : List Cmd := []
  resetCmds : List Cmd := []
  destroyCmds : List Cmd := []
  destroying : Bool := false
  noRecords : Bool := false
  initLeft : List Nat := []
  ending : Bool := false
  satAcc : Nat := 0
  satOut : Nat := 0
  nonfinite : Nat := 0
  breaches : List (Nat × Nat) := []
  breachOpen : List (Nat × Nat × Nat) := []
  adapters : List (Nat × Adapter) := []
deriving DecidableEq, Repr

/-- An allocated KV page (R225, R229, R230, R268): its layer and number, its T2 or I/O virtual address (none: the Plinth found no
place, log entry 159), and of a spilled page the slot's key and the bytes that were encrypted. -/
structure KvPage where
  layer : Nat
  idx : Nat
  addr : Option Nat
  key : Nat := 0
  plain : List Byte := []
deriving DecidableEq, Repr

/-- State of a request (R363); `free`: the entry is free. -/
inductive ReqState where
  | free | held | active | pausing | paused | resuming | ready
deriving DecidableEq, Repr

/-- A request-table entry (R362): generation and whether the entry has been used, partition, state, model handle, TAG, where its record goes, batch and row,
its lengths and page size (R227, R228), positions written, T2 charge, the T4 charge of a spill, tier of its pages, its
time-to-live, the packets that wait on it, K, bias list, global list, stop tokens, whether it ended EXPIRED, and its allocated pages. -/
structure Req where
  gen : Nat := 0
  used : Bool := false
  part : Nat := 0
  state : ReqState := .free
  handle : Nat := 0
  tag : Nat := 0
  fn : Nat := 0
  ring : Nat := 0
  batch : Nat := 0
  row : Nat := 0
  e : Nat := 0
  p : Nat := 16
  written : Nat := 0
  charge : Nat := 0
  extra : Nat := 0
  charge4 : Nat := 0
  tier : Nat := 2
  place : Nat := 0
  ttl : Nat := 0
  due : Nat := 0
  cancelCmd : Option Cmd := none
  releaseCmd : Option Cmd := none
  pauseCmd : Option Cmd := none
  resumeCmd : Option Cmd := none
  pauseFirst : Bool := false
  k : Nat := 0
  bias : List (Nat × Nat) := []
  globals : List Nat := []
  stops : List Nat := []
  expired : Bool := false
  train : Bool := false
  pages : List KvPage := []
deriving DecidableEq, Repr

/-- A row of a batch (R358, R359): its request entry while one is live, its K, its last position, whether its sequence
stopped. -/
structure Row where
  req : Option Nat
  k : Nat
  pos : Nat
  stopped : Bool
deriving DecidableEq, Repr

/-- A batch (R358-R361): its packet while that is outstanding, model, rows, mode, what its current BATCH_SUBMIT covers,
prompt positions left, record-writing steps done, whether a step runs, whether the step is a replay (R21). -/
structure Batch where
  part : Nat
  handle : Nat
  entry : Nat
  cmd : Option Cmd
  fn : Nat
  ring : Nat
  rows : List Row
  greedy : Bool
  steps : Nat
  prio : Nat
  out : Nat
  kmax : Nat
  prefill : Nat
  tokens : Nat
  mask : Nat
  tokLen : Nat
  done : Nat
  held : Bool
  running : Bool
  waiting : Bool
  replay : Bool
  order : Nat
  admitted : Nat
deriving DecidableEq, Repr

/-- A TRAIN_STEP in progress (R118-R123, R362): its request entry, packet and operands, the phase it is in (R121), the sums of
its work units' counters (R114). -/
structure Train where
  cmd : Cmd
  part : Nat
  entry : Nat
  digest : Nat
  params : TrainParams
  phase : TrainPhase := .forward
  satAcc : Nat := 0
  satOut : Nat := 0
  nonfinite : Nat := 0
  running : Bool
  prio : Nat
  order : Nat
deriving DecidableEq, Repr

/-- A spare on its way to a retired cluster's logical number (R20): spare, logical number, partition (0xFF: none). -/
structure Repl where
  spare : Nat
  logical : Nat
  part : Nat
deriving DecidableEq, Repr

/-- Requests, batches and training steps. -/
structure Serving where
  reqs : List (Nat × Req) := []
  batches : List (Nat × Batch) := []
  trains : List Train := []
  order : Nat := 0
deriving DecidableEq, Repr

/-! ### Event controller (spec/13_event_controller.md) -/

/-- What the event controller keeps beside its registers: when each MSI-X vector (fn * 64 + vec) sent its last message,
plus one (0: never), which R436's idle rule reads. -/
structure Evc where
  lastMsg : List (Nat × Nat) := []
deriving DecidableEq, Repr

/-! ### Power (spec/14_power_clocks_thermal.md) -/

/-- An entry of the phase table (R450): the phase's array power in uW, normalised to OP4 at rate 64/64, and the quantum in
which it last ran. -/
structure Phase where
  part : Nat
  handle : Nat
  step : Nat
  power : Nat
  used : Nat
deriving DecidableEq, Repr

/-- What the power block keeps beside its registers: the phase table, the last forecast without correction and the
correction in force, quanta in a row above the forecast (R451), limit (0.1 W) and highest point in force (R458), a point
that waits for the transition's end (R445), smoothing settings in force where they differ from reset (R84), consecutive
samples at each state's threshold and the thermal states entered (R459), who requested POWER_FLOOR (R454, R457, R459, R467),
quanta in which OP2 could be held (R454), THERM_TRIP_N, hours of operation at a device time and their value at each point's last
lowering (R461, R463), sensors left out (R447), whether the array is being raised to OP2 so that OP2 can be reported (R454), and
whether OP2 is held until the neural path returns (R161). -/
structure Pwr where
  phases : List Phase := []
  forecast : Nat := 0
  excess : Nat := 0
  above : Nat := 0
  limit : Nat := 220
  maxOp : Nat := 4
  waitOp : Option Nat := none
  smooth : List (Nat × Nat) := []
  hot : List (Nat × Nat) := []
  entered : List Nat := []
  floorCtl : Bool := false
  floorLim : Bool := false
  floorTherm : Bool := false
  okQuanta : Nat := 0
  trip : Bool := false
  hours : Nat := 0
  hoursAt : Nat := 0
  lowerAt : List (Nat × Nat) := []
  sensorsOut : List Nat := []
  returning : Bool := false
  hold2 : Bool := false
deriving DecidableEq, Repr


/-! ### Faults, logs, pairs and watchdogs (spec/15_faults_hangs_recovery.md) -/

/-- A primary record while it is open (R474). -/
structure OpenRec where
  cls : Nat
  status : Nat
  time : Nat
  echo : Nat
  part : Nat
  sub : Nat
  span : Nat
  detail : Nat
  esc : Bool
deriving DecidableEq, Repr

/-- A published record (R475). -/
structure FltRec where
  num : Nat
  domain : Nat
  lost : Bool
  body : OpenRec
deriving DecidableEq, Repr

/-- Data of a log record (R496). -/
inductive LogData where
  | none
  | fault (r : FltRec)
  | summary (dropped first last : Nat)
deriving DecidableEq, Repr

/-- A log record (R496). `cls`: 0 ALARM, 1 EVENT, 2 TRACE, 3 SUMMARY. -/
structure LogRec where
  time : Nat
  seq : Nat
  cls : Nat
  level : Nat
  code : Nat
  fltNum : Nat
  part : Nat
  prevBoot : Bool
  share : Nat
  data : LogData
deriving DecidableEq, Repr

/-- A host log or trace buffer (R500). `len` 0: disabled. -/
structure LogBuf where
  addr : Nat := 0
  len : Nat := 0
  prod : Nat := 0
deriving DecidableEq, Repr

/-- What one lockstep pair keeps beside FLT_LOCKSTEP (R487-R491): the times of its mismatches, self-tests passed in a row while
UNCHECKED, whether it has kicked the Plinth watchdog since the last restart of the count, its state before a halt, which of its two
cores hold a load-reserved reservation (R526; log entry 170). -/
structure PairState where
  mism : List Nat := []
  passes : Nat := 0
  kicked : Bool := false
  before : Nat := 0
  resv : List Nat := []
deriving DecidableEq, Repr

/-- The log-head page of WF0 (R501): none, erased; else its records, the time and whether its CRC passes. -/
structure LogHead where
  time : Nat
  recs : List LogRec
  valid : Bool
deriving DecidableEq, Repr

/-- Fault Concentrator, logs, lockstep pairs and watchdogs; `movedA`, `movedB`: the event sources whose routes left pair A
or pair B (R435, R487); `wdogAt`, `dwdogAt`: when each watchdog's count last restarted (R491, R494); `inProgress`: partitions
that had work when the Plinth watchdog expired (R492); `prev`: the last boot's records not yet copied (R501). -/
structure Flt where
  opens : List (Nat × OpenRec) := []
  slots : List (Nat × FltRec) := []
  nextNum : Nat := 0
  lostSince : List Nat := []
  log : List LogRec := []
  seq : Nat := 0
  level : Nat := 0
  traceMask : Nat := 0
  dropRun : Option (Nat × Nat × Nat) := none
  logBuf : LogBuf := {}
  traceBuf : LogBuf := {}
  pairA : PairState := {}
  pairB : PairState := {}
  movedA : List Nat := []
  movedB : List Nat := []
  wdogAt : Nat := 0
  dwdogAt : Nat := 0
  inProgress : List Nat := []
  prev : List LogRec := []
  logHead : Option LogHead := none
deriving DecidableEq, Repr

/-! ### Security and debug (spec/16_security_attestation_debug.md) -/

/-- An SPDM session (R511): its number, its function, whether FINISH has completed it. -/
structure Session where
  id : Nat
  fn : Nat
  finished : Bool
deriving DecidableEq, Repr

/-- The security island and the JTAG port beside their registers: SPDM sessions, the owner of each tenant slot as function
+ 1 (0: none, R514), the JTAG instruction selected, its DBG data register's last word and the preloaded boundary bits,
whether an instruction has taken the pins from functional use (R523); for each held semaphore its hold time counted so far and
when the count last went on (R527). -/
structure Sec where
  sessions : List Session := []
  nextSession : Nat := 1
  owners : List (Nat × Nat) := []
  jtag : Nat := 0
  jtagData : Nat := 0
  boundary : List Bool := []
  pinsTaken : Bool := false
  sems : List (Nat × Nat × Nat) := []
deriving DecidableEq, Repr


/-! ### The Span link (spec/17_span_chaining.md) -/

/-- A flit to be sent, or held for replay (R536, R537): SEQ, type, RELAY, DST, SRC, payload fields, replays. -/
structure HeldFlit where
  seq : Nat
  kind : Nat
  relay : Bool
  dst : Nat
  src : Nat
  body : List Nat
  replays : Nat := 0
deriving DecidableEq, Repr

/-- A Span port beside its registers (R535-R543): next SEQ to send and expected, the replay buffer, flits that wait for room
in it, the hop delay in ns, whether HALO_IN and NTICK agree, whether a TICK_SYNC has come since UP, whether it has been UP before, whether halos
wait for a frame boundary (R549). -/
structure SpanPort where
  nextSeq : Nat := 0
  expect : Nat := 0
  held : List HeldFlit := []
  queue : List HeldFlit := []
  hop : Int := 0
  haloOk : Bool := false
  synced : Bool := false
  before : Bool := false
  haloWait : Bool := false
deriving DecidableEq, Repr

/-- What a chained device keeps (R540-R547): its ports, the halos received and missed by port * 2^32 + frame * 65,536 + row,
the step of the time base that waits for a quantum boundary, the frames within tolerance and whether this one is, the sweep
period and frames since the last sweep, the running sweep's reports, the commit (SWEEP, PACE, APPLY_AT), the
PACE_SWEEPs that wait for a sweep to begin and those whose sweep runs, whether the next alignment follows a cut (R549). -/
structure Span where
  ports : List (Nat × SpanPort) := []
  halos : List (Nat × List Pixel) := []
  missed : List Nat := []
  step : Option Int := none
  goodFrames : Nat := 0
  frameOk : Bool := true
  cutLock : Bool := false
  period : Nat := 0
  since : Nat := 0
  sweep : Nat := 0
  reports : Option (List (Nat × Nat)) := none
  commit : Option (Nat × Nat × Nat) := none
  cmds : List Cmd := []
  running : List Cmd := []
  rejoin : Bool := false
deriving DecidableEq, Repr

/-! ### Supplies, reset and boot (spec/18_supplies_reset_boot.md, spec/19_package_signals_electrical.md) -/

/-- What the Plinth is doing (R492, R568-R574): stopped (before the boot has confirmed, in reset, in HOLD), up, restarted by
its watchdog and not confirmed, restarting into a trial image, running a trial image, or restarted into the old image by a
reversion and not confirmed. -/
inductive Plinth where
  | stopped | up | wdog | restart | trial | old
deriving DecidableEq, Repr

/-- What started the orderly power-down (R559, R561, R595). -/
inductive DownBy where
  | pwrFail | bmc | refclk
deriving DecidableEq, Repr

/-- FW_STAGE in progress (R570): its packet, the slot it writes, the checked image. -/
structure Staging where
  cmd : Cmd
  slot : Nat
  image : FwImage
deriving DecidableEq, Repr

/-- The handoff block's header (R575). -/
structure Handoff where
  hoVer : Nat
  replay : Bool
  consumed : Bool
  fromVer : Nat
  toVer : Nat
  time : Nat
deriving DecidableEq, Repr

/-- The boot and the firmware update: boot flash, the Plinth's mode, the running image and its slot, the measurements (R507),
a staged slot, FW_STAGE in progress, FW_ACTIVATE accepted and whether a quantum boundary has passed since (R571), the handoff
block, the BOOT_CTL copy whose write is not yet reported complete, whether the last boot follows an automatic choice of the
other slot, PERST_N asserted, what holds the reset (R460), the orderly power-down (R559), whether a rail failed since the
last release of reset, whether the boot has set the power limits since the always-on domain's reset, the I3C dynamic address (R577), PCIE and REFCLK_24M running. -/
structure Boot where
  flash : BootFlash := {}
  pln : Plinth := .stopped
  image : Option FwImage := none
  slot : Nat := 0
  fwDigest : Nat := 0
  boardDigest : Nat := 0
  staged : Option Nat := none
  staging : Option Staging := none
  activate : Option Cmd := none
  stopped : Bool := false
  handoff : Option Handoff := none
  ctlWrite : Option Nat := none
  revertEvent : Bool := false
  perst : Bool := false
  held : Bool := false
  down : Option DownBy := none
  railLost : Bool := false
  released : Bool := false
  inited : Bool := false
  i3c : Option Nat := none
  refclk : Bool := true
deriving DecidableEq, Repr


/-- Why a step stops. -/
inductive Fault where
  /-- A command no sender can send: an operand list of a length the interface does not have. Raised by the meanings that
  take a payload list; safe (the device never sees such a command). -/
  | illFormed
deriving DecidableEq, Repr

/-- Why a command has no meaning. -/
inductive Refusal where
  /-- The command has no meaning in this model yet; raised by the dispatcher alone; safe (the run stops). -/
  | notModelled (mnemonic : String)
deriving DecidableEq, Repr

/-- The state of the device. `poison`: the 64-bit words marked poisoned, by address / 8 (R42); `upsets`: the words whose
stored bits hold an error no read has met or only corrected (R41, log entry 141): false one bit, true two; `moves`: the queues
of the cluster DMA engines, by cluster * 68 + queue; `moveWait`: per cluster, moves of the Plinth that wait for a place (R47). -/
structure State where
  time : Nat
  quantum : Nat
  free : Nat
  regs : List (Nat × Nat)
  mem : List Host.Cell
  host : List Host.Cell
  poison : List Nat
  upsets : List (Nat × Bool)
  clusters : List (Nat × Cluster)
  cores : List (Nat × Core)
  threads : List (Nat × Thread)
  units : List (Nat × WorkUnit)
  nextUnit : Nat
  dram : Dram
  moves : List (Nat × List Move)
  moveWait : List (Nat × List Move)
  flash : Flash
  handles : List (Nat × Handle)
  parts : List (Nat × Part)
  srv : Serving
  repl : List Repl
  hif : Hif
  evc : Evc
  flt : Flt
  dsp : Dsp
  cam : List (Nat × Ctx)
  span : Span
  pwr : Pwr
  sec : Sec
  boot : Boot
  out : List OutMsg
  pending : List Instr
deriving DecidableEq, Repr

/-- The device right after reset. -/
def State.reset : State where
  time := 0
  quantum := 0
  free := 0
  regs := []
  mem := []
  host := []
  poison := []
  upsets := []
  clusters := []
  cores := []
  threads := []
  units := []
  nextUnit := 0
  dram := {}
  moves := []
  moveWait := []
  flash := {}
  handles := []
  parts := []
  srv := {}
  repl := []
  hif := {}
  evc := {}
  flt := {}
  dsp := {}
  cam := []
  span := {}
  pwr := {}
  sec := {}
  boot := {}
  out := []
  pending := []

end Sys2Proof.Machine
end

