-- ==== Sys2Proof/Machine/Ops.lean ====
section
/-!
DEFINITION. Sys2Proof/Machine/Ops.lean: the named operations every meaning is built from: free values, register fields,
memories, completion records and interrupts of the host interface (spec/12), delivery of event sources (spec/13), reports
to the Fault Concentrator and the log ring (spec/15).
-/
namespace Sys2Proof.Machine
open Reg

/-- What a meaning answers. -/
abbrev Out := Host.Outcome State Fault Refusal

/-! ### Free values -/

/-- The next free value (log entry 1) and the state with the counter advanced. -/
def fresh (s : State) : Nat × State := (Config.freeNat s.free, { s with free := s.free + 1 })

/-! ### Register fields (R10, R11) -/

/-- Key of a field in the register file. -/
def RegField.key (f : RegField) : Nat := f.addr * 32 + f.lo

/-- The value of a field. -/
def rd (s : State) (f : RegField) : Nat := tget f.reset s.regs f.key

/-- The field written, reduced to its width. -/
def wr (s : State) (f : RegField) (v : Nat) : State :=
  { s with regs := tput f.reset s.regs f.key (v % 2 ^ f.width) }

/-- A saturating counter field raised by `n`. -/
def bump (s : State) (f : RegField) (n : Nat) : State := wr s f (satAdd (2 ^ f.width - 1) (rd s f) n)

/-- A counter field that wraps, raised by one. -/
def tick (s : State) (f : RegField) : State := wr s f (rd s f + 1)

/-- Is a one-bit field 1? -/
def isSet (s : State) (f : RegField) : Bool := rd s f == 1

/-- Every field of the given list back at its reset value. -/
def resetRegs (s : State) (p : Nat → Bool) : State := { s with regs := tdrop (fun k => p (k / 32)) s.regs }

/-! ### Memories -/

/-- A byte of the device's memories at an internal address (R601, R602); a byte nothing has written reads 0 (log entry 3). -/
def rb (s : State) (a : Nat) : Byte := tget 0 s.mem a

/-- One byte written. -/
def wb (s : State) (a : Nat) (v : Byte) : State := { s with mem := tput 0 s.mem a v }

/-- `n` bytes from `a`, little-endian (R9). -/
def rdN (s : State) (a : Nat) : Nat → Nat
  | 0 => 0
  | n + 1 => (rb s a).toNat + 256 * rdN s (a + 1) n

/-- `n` bytes written from `a`, little-endian (R9). -/
def wrN (s : State) (a : Nat) : Nat → Nat → State
  | 0, _ => s
  | n + 1, v => wrN (wb s a (BitVec.ofNat 8 v)) (a + 1) n (v / 256)

/-- A byte of function `fn`'s host memory (T4). -/
def hrb (s : State) (fn a : Nat) : Byte := tget 0 s.host (fn * 2 ^ 64 + a % 2 ^ 64)

/-- One byte of host memory written. -/
def hwb (s : State) (fn a : Nat) (v : Byte) : State := { s with host := tput 0 s.host (fn * 2 ^ 64 + a % 2 ^ 64) v }

/-- `n` bytes of host memory, little-endian. -/
def hrdN (s : State) (fn a : Nat) : Nat → Nat
  | 0 => 0
  | n + 1 => (hrb s fn a).toNat + 256 * hrdN s fn (a + 1) n

/-- `n` bytes of host memory written, little-endian. -/
def hwrN (s : State) (fn a : Nat) : Nat → Nat → State
  | 0, _ => s
  | n + 1, v => hwrN (hwb s fn a (BitVec.ofNat 8 v)) fn (a + 1) n (v / 256)

/-- A list of bytes written into host memory. -/
def hwrBytes (s : State) (fn a : Nat) : List Nat → State
  | [] => s
  | b :: t => hwrBytes (hwb s fn a (BitVec.ofNat 8 b)) fn (a + 1) t

/-- Is the 64-bit word that holds internal address `a` poisoned (R42)? -/
def poisoned (s : State) (a : Nat) : Bool := s.poison.contains (a / 8)

/-- The word that holds `a` marked poisoned; its bits stay as stored. -/
def setPoison (s : State) (a : Nat) : State := if poisoned s a then s else { s with poison := s.poison ++ [a / 8] }

/-- The poison of the word that holds `a` cleared, and its check bits good again (a full 64-bit write, R41, R42). -/
def clearPoison (s : State) (a : Nat) : State :=
  { s with poison := s.poison.filter (fun w => decide (w ≠ a / 8)), upsets := tdel (a / 8) s.upsets }

/-- The stored bit error of the word that holds `a` (R41): one bit (false), two (true), or none. -/
def upset (s : State) (a : Nat) : Option Bool := tfind (a / 8) s.upsets

/-- A stored bit error put into the word that holds `a` (log entry 141); one of two bits stays one of two bits. -/
def addUpset (s : State) (a : Nat) (ue : Bool) : State := { s with upsets := tset (a / 8) (ue || upset s a == some true) s.upsets }

/-- The word that holds `a` has good check bits again. -/
def dropUpset (s : State) (a : Nat) : State := { s with upsets := tdel (a / 8) s.upsets }

/-- Does a read of the word that holds `a` deliver it poisoned: marked so, or with an uncorrectable error (R43)? -/
def badWord (s : State) (a : Nat) : Bool := poisoned s a || upset s a == some true

/-- The error an operand says a read of the word that holds `a` finds, as an error stored there. -/
def addEcc (s : State) (a : Nat) : Ecc → State
  | .clean => s
  | .corrected => addUpset s a false
  | .uncorrectable => addUpset s a true

/-- Is any word of the `n` bytes from `a` poisoned? -/
def anyPoison (s : State) (a n : Nat) : Bool := s.poison.any (fun w => decide (a / 8 ≤ w) && decide (w * 8 < a + n))

/-- Is any word of the `n` bytes from `a` delivered poisoned, as `badWord` says? -/
def anyBad (s : State) (a n : Nat) : Bool :=
  anyPoison s a n || s.upsets.any (fun e => e.2 && decide (a / 8 ≤ e.1) && decide (e.1 * 8 < a + n))

/-! ### Sub-states by number -/

def clu (s : State) (n : Nat) : Cluster := tget {} s.clusters n
def setClu (s : State) (n : Nat) (c : Cluster) : State := { s with clusters := tput {} s.clusters n c }

/-- A core's number: physical cluster * 64 + core. -/
def coreNo (cl c : Nat) : Nat := cl * 64 + c
def core (s : State) (k : Nat) : Core := tget {} s.cores k
def setCore (s : State) (k : Nat) (c : Core) : State := { s with cores := tput {} s.cores k c }

/-- A thread's number: core number * 8 + thread. -/
def tno (t : ThreadId) : Nat := coreNo t.cluster t.core * 8 + t.thread
def thr (s : State) (k : Nat) : Thread := tget {} s.threads k
def setThr (s : State) (k : Nat) (t : Thread) : State := { s with threads := tput {} s.threads k t }

def fnSt (s : State) (fn : Nat) : FnState := tget {} s.hif.fns fn
def setFn (s : State) (fn : Nat) (f : FnState) : State := { s with hif := { s.hif with fns := tput {} s.hif.fns fn f } }

def ring (s : State) (fn r : Nat) : Ring := tget {} s.hif.rings (fn * 1024 + r)
def setRing (s : State) (fn r : Nat) (x : Ring) : State :=
  { s with hif := { s.hif with rings := tput {} s.hif.rings (fn * 1024 + r) x } }

/-- A message appended to the record of what the device sent. -/
def emit (s : State) (m : OutMsg) : State := { s with out := s.out ++ [m] }

/-! ### Internal addresses of cluster memories (R602) -/

/-- Base of a core memory of a physical cluster: 0 WM, 1 AM, 2 PM, 3 IM; 4 CM. -/
def memBase (cl m c : Nat) : Nat :=
  0x40000000 + cl * 0x1000000 +
    (if m = 4 then 0x100000
     else c * 0x20000 + (if m = 0 then 0x400000 else if m = 1 then 0x408000 else if m = 2 then 0x410000 else 0x418000))

/-- Size in bytes of a cluster memory (R37). -/
def memSize (m : Nat) : Nat :=
  if m = 0 then 32768 else if m = 1 then 32768 else if m = 2 then 8192 else if m = 3 then 16384 else 1048576

/-- Banks of a cluster memory (R37). -/
def memBanks (m : Nat) : Nat := if m = 3 then 2 else if m = 4 then 32 else 8

/-- Number of a core memory. -/
def memNo : CoreMem → Nat
  | .wm => 0
  | .am => 1
  | .pm => 2
  | .im => 3

/-- A 64-bit word of a cluster memory. -/
def rdWord (s : State) (cl m c w : Nat) : Nat := rdN s (memBase cl m c + 8 * w) 8

/-- The stored errors an operand names in the memories of a cluster (log entry 141); words past a memory's end are not there. -/
def addErrs (s : State) (cl : Nat) (errs : List WordErr) : State :=
  errs.foldl (fun s e => if 8 * e.word < memSize e.mem then addUpset s (memBase cl e.mem e.core + 8 * e.word) e.ue else s) s

/-- A word that has been fully rewritten since an uncorrectable error in it (R18's second condition reads this). -/
def noteRewrite (s : State) (cl a : Nat) : State :=
  let c := clu s cl
  if tget 0 c.ueWords (a / 8) = 1 then setClu s cl { c with ueWords := tput 0 c.ueWords (a / 8) 2 } else s

/-- A full 64-bit write of a word of a cluster memory: it clears the poison (R42), and a write-back that waits for the
word is dropped by the scrubber that holds it (R45). -/
def wrWord (s : State) (cl m c w v : Nat) : State :=
  let a := memBase cl m c + 8 * w
  noteRewrite (clearPoison (wrN s a 8 v) a) cl a

/-! ### Thread states (CLU_THR_STAT, R30) -/

/-- The field that holds the state of thread number `k`. -/
def thrField (k : Nat) : RegField :=
  ⟨0x40000100 + 0x1000000 * (k / 512) + 4 * (k / 8 % 64), 3 * (k % 8), 3, .ro, 0⟩

def thrState (s : State) (k : Nat) : Nat := rd s (thrField k)

/-- The thread put in a state with what it waits for; a HALTED thread keeps HALTED and resumes to the new state. -/
def setThrState (s : State) (k st : Nat) (w : Wait) : State :=
  let t := thr s k
  if thrState s k = 7 then setThr s k { t with resume := st, wait := w }
  else wr (setThr s k { t with wait := w }) (thrField k) st

/-- The thread the sequencer of a core issues from next (R31): the first READY one in round-robin order after the one that
issued last. -/
def nextThread (s : State) (cn : Nat) : Option Nat :=
  ((List.range 8).map (fun i => ((core s cn).lastIssued + 1 + i) % 8)).find? (fun i => thrState s (cn * 8 + i) == 1)

/-- Can the thread issue now (R30, R31): READY, and its turn? -/
def canIssue (s : State) (k : Nat) : Bool := thrState s k == 1 && nextThread s (k / 8) == some (k % 8)

/-- The thread has issued (R31). -/
def noteIssue (s : State) (k : Nat) : State := setCore s (k / 8) { core s (k / 8) with lastIssued := k % 8 }

/-- The thread has issued: its program counter advanced by an array instruction's 16 bytes (R62), or to a free value where
the spec gives the instruction no length (log entry 4). -/
def advancePc (s : State) (k : Nat) (arr : Bool) : State :=
  let s := noteIssue s k
  let t := thr s k
  if arr then setThr s k { t with pc := (t.pc + 16) % 16384 }
  else
    let p := fresh s
    setThr p.2 k { t with pc := p.1 % 16384 }

/-! ### MSI-X (R421) -/

def msixEntry (s : State) (fn vec : Nat) : MsixEntry := tget {} (fnSt s fn).msix vec

/-- The time of a vector's last message, plus 1 (R436). -/
def noteMsg (s : State) (fn vec : Nat) : State :=
  { s with evc := { s.evc with lastMsg := tput 0 s.evc.lastMsg (fn * 64 + vec) (s.time + 1) } }

/-- Signal a vector: a message when it is unmasked and the function is not in D3hot (R597), else its pending bit. -/
def signalVec (s : State) (fn vec : Nat) : State :=
  let f := fnSt s fn
  let e := msixEntry s fn vec
  if f.d3hot || e.masked then
    (if f.pba.contains vec then s else setFn s fn { f with pba := f.pba ++ [vec] })
  else emit (noteMsg s fn vec) (.msix fn vec e.addr e.data)

/-! ### Completion queues (R386, R391, R394, R422) -/

/-- Packets of a ring consumed and not completed. -/
def inflight (s : State) (fn r : Nat) : Nat := (s.hif.cmds.filter (fun c => c.fn == fn && c.ring == r)).length

/-- Is there a free slot in a ring's CQ? -/
def cqRoom (r : Ring) : Bool := (r.cqTail + 1) % 2 ^ r.cfg.cqLog2 != r.cqHead

/-- Does the ring's interrupt condition of R422 hold (by count)? -/
def coalDue (r : Ring) : Bool := decide (0 < r.sinceIrq) && decide (r.cfg.coalCnt ≤ r.sinceIrq)

/-- Write one record into a CQ that has room: the record, then the tail word, then the vector (R394). -/
def writeRec (s : State) (fn rg : Nat) (x : CqRec) : State :=
  let r := ring s fn rg
  let base := r.cfg.cqBase + 32 * r.cqTail
  let s := hwrN (hwrN (hwrN (hwrN s fn base 8 x.w0) fn (base + 8) 8 x.w1) fn (base + 16) 8 x.w2) fn (base + 24) 8 x.w3
  let tail := (r.cqTail + 1) % 2 ^ r.cfg.cqLog2
  let s := if r.cfg.tailAddr = 0 then s else hwrN s fn r.cfg.tailAddr 2 tail
  let r := { r with cqTail := tail, refs := r.refs ++ [x.buf],
                    sinceIrq := if x.counts then r.sinceIrq + 1 else r.sinceIrq,
                    oldest := if x.counts then (match r.oldest with | some t => some t | none => some s.time) else r.oldest }
  if coalDue r && x.counts then
    signalVec (setRing s fn rg { r with sinceIrq := 0, oldest := none }) fn r.cfg.vec
  else setRing s fn rg r

/-- Post a record: written at once, or waiting in order while the CQ is full (R391); a disabled ring's record is
discarded (R393). -/
def postRec (s : State) (fn rg : Nat) (x : CqRec) : State :=
  let r := ring s fn rg
  if r.state = .disabled then s
  else if r.waiting.isEmpty && cqRoom r then writeRec s fn rg x
  else setRing s fn rg { r with waiting := r.waiting ++ [x] }

/-- Waiting records written, in order, while the CQ has room. -/
def drainWaiting (fn rg : Nat) : List CqRec → State → State
  | [], s => setRing s fn rg { ring s fn rg with waiting := [] }
  | x :: t, s =>
    if cqRoom (ring s fn rg) then drainWaiting fn rg t (writeRec s fn rg x)
    else setRing s fn rg { ring s fn rg with waiting := x :: t }

/-- A DRAINING ring is DISABLED once its packets have completed and its records are written (R393). -/
def settleDrain (s : State) (fn rg : Nat) : State :=
  let r := ring s fn rg
  if r.state = .draining ∧ inflight s fn rg = 0 ∧ r.waiting = [] then setRing s fn rg { r with state := .disabled } else s

/-- What a completing command gives beside its status (R395). -/
structure Result where
  r0 : Nat := 0
  r1 : Nat := 0
  r2 : Nat := 0
  detail : Nat := 0
  flags : Nat := 0
deriving DecidableEq, Repr

/-- The command record of R395. -/
def cmdRec (c : Cmd) (status : Nat) (x : Result) : CqRec where
  w0 := x.r0 % 2 ^ 64
  w1 := c.sqIdx % 65536 + status % 256 * 2 ^ 16 + c.opcode % 256 * 2 ^ 24 + x.flags % 256 * 2 ^ 32 + 0xFF * 2 ^ 40 +
        x.detail % 65536 * 2 ^ 48
  w2 := x.r1 % 2 ^ 64
  w3 := c.tag % 2 ^ 32 + x.r2 % 2 ^ 32 * 2 ^ 32
  counts := !c.noIrq

/-- A consumed packet completes: it leaves the outstanding commands and its record is posted (R395). -/
def complete (s : State) (c : Cmd) (status : Nat) (x : Result) : State :=
  let s := { s with hif := { s.hif with cmds := s.hif.cmds.erase c } }
  settleDrain (postRec s c.fn c.ring (cmdRec c status x)) c.fn c.ring

/-- A waiting command completes, if it is still outstanding. -/
def finish (s : State) (c : Cmd) (status : Nat) (x : Result) : State := if s.hif.cmds.contains c then complete s c status x else s

/-- The same for a command that may be absent. -/
def finishOpt (s : State) (c : Option Cmd) (status : Nat) (x : Result) : State :=
  match c with
  | some c => finish s c status x
  | none => s

/-- Every outstanding command that satisfies `p` completes with one status. -/
def completeAll (s : State) (p : Cmd → Bool) (status : Nat) : State :=
  (s.hif.cmds.filter p).foldl (fun s c => complete s c status {}) s

/-- Every outstanding command that satisfies `p` is dropped without a record. -/
def dropCmds (s : State) (p : Cmd → Bool) : State :=
  { s with hif := { s.hif with cmds := s.hif.cmds.filter (fun c => !p c) } }

/-! ### Event records (R397, R398) -/

/-- The event record of R397. -/
def evRec (e : EvRec) (seq : Nat) : CqRec where
  w0 := e.time % 2 ^ 64
  w1 := e.code % 65536 + e.status % 256 * 2 ^ 16 + b2n e.fin * 2 ^ 32 + 0xFD * 2 ^ 40 + e.part % 256 * 2 ^ 48 +
        e.ranks % 256 * 2 ^ 56
  w2 := e.detail % 2 ^ 64
  w3 := e.quanta % 2 ^ 32 + seq % 2 ^ 32 * 2 ^ 32
  counts := true

/-- Can a function's event record be written now (R398)? -/
def evRoom (s : State) (fn : Nat) : Bool :=
  let r := ring s fn (rd s (HIF_EVT_CFG_RING fn))
  isSet s (HIF_EVT_CFG_EN fn) && r.state == .enabled && r.cfg.kind == 0 && r.waiting.isEmpty && cqRoom r

/-- One event record written with the function's next number. -/
def writeEv (s : State) (fn : Nat) (e : EvRec) : State :=
  let f := fnSt s fn
  writeRec (setFn s fn { f with evtSeq := (f.evtSeq + 1) % 2 ^ 32 }) fn (rd s (HIF_EVT_CFG_RING fn)) (evRec e f.evtSeq)

/-- An event for a function: written, held (at most 64), or counted as lost (R398). -/
def sendEvent (s : State) (fn : Nat) (e : EvRec) : State :=
  let f := fnSt s fn
  if f.held.isEmpty && f.lost == 0 && evRoom s fn then writeEv s fn e
  else if f.held.length < 64 then setFn s fn { f with held := f.held ++ [e] }
  else setFn s fn { f with lost := f.lost + 1 }

/-- Held event records written in order while there is room. -/
def flushHeld (fn : Nat) : List EvRec → State → State
  | [], s => setFn s fn { fnSt s fn with held := [] }
  | e :: t, s => if evRoom s fn then flushHeld fn t (writeEv s fn e) else setFn s fn { fnSt s fn with held := e :: t }

/-- When space returns: the held records, then one EVENTS_LOST record with the count, which clears (R398). -/
def flushEvents (s : State) (fn : Nat) : State :=
  let s := flushHeld fn (fnSt s fn).held s
  let f := fnSt s fn
  if f.held.isEmpty && decide (0 < f.lost) && evRoom s fn then
    writeEv (setFn s fn { f with lost := 0 }) fn
      { time := s.time, code := 5, status := 0, fin := false, part := 0xFF, ranks := 0, detail := f.lost % 2 ^ 32, quanta := 0 }
  else s

/-- A plain event of the given code. -/
def event (s : State) (fn code part detail : Nat) : State :=
  sendEvent s fn { time := s.time, code, status := 0, fin := false, part, ranks := 0, detail, quanta := 0 }

/-! ### The log ring (R495-R499) -/

/-- Records of a share of the log ring: 0 alarms, 1 overflow, 2 the event share, 3 the trace share. -/
def logUsed (s : State) (share : Nat) : Nat := (s.flt.log.filter (fun r => r.share == share)).length

def addLog (s : State) (r : LogRec) : State :=
  { s with flt := { s.flt with log := s.flt.log ++ [{ r with seq := s.flt.seq }], seq := (s.flt.seq + 1) % 2 ^ 32 } }

/-- A log record without number. -/
def mkLog (s : State) (cls level code fltNum part share : Nat) (d : LogData) : LogRec :=
  { time := s.time, seq := 0, cls, level, code, fltNum, part, prevBoot := false, share, data := d }

/-- The log without the first record that satisfies `p`. -/
def dropFirst (p : LogRec → Bool) : List LogRec → List LogRec
  | [] => []
  | r :: t => if p r then t else r :: dropFirst p t

/-- An alarm (R497). -/
def logAlarm (s : State) (code fltNum part : Nat) (d : LogData) : State :=
  if logUsed s 0 < 64 then addLog s (mkLog s 0 0 code fltNum part 0 d)
  else
    let s := bump s FLT_LOG_STAT_ALM_LOST 1
    let s := wr s FLT_EVT_STAT_ALARM_OVF 1
    if logUsed s 1 = 0 then
      let p := fresh s
      addLog p.2 (mkLog s 0 0 (p.1 % 65536) 0xFFFFFFFF 0xFF 1 (.summary 1 s.time s.time))
    else
      { s with flt := { s.flt with log := s.flt.log.map (fun r =>
          if r.share = 1 then
            (match r.data with
             | .summary n f _ => { r with data := .summary (satAdd (2 ^ 32 - 1) n 1) f s.time }
             | _ => r)
          else r) } }

/-- One more dropped trace of the current drop run (R499). -/
def noteDrop (s : State) : State :=
  let s := wr (bump s FLT_LOG_TRACE_TR_DROP 1) FLT_EVT_STAT_TR_DROP 1
  { s with flt := { s.flt with dropRun :=
      match s.flt.dropRun with
      | some (n, f, _) => some (satAdd (2 ^ 32 - 1) n 1, f, s.time)
      | none => some (1, s.time, s.time) } }

/-- An event of a level (R498). -/
def logEvent (s : State) (level code fltNum part : Nat) (d : LogData) : State :=
  if s.flt.level < level then s
  else
    let r := mkLog s 1 level code fltNum part 2 d
    if logUsed s 2 < 1024 then addLog s r
    else if s.flt.log.any (fun x => x.share == 2 && x.cls == 2) then
      addLog (noteDrop { s with flt := { s.flt with log := dropFirst (fun x => x.share == 2 && x.cls == 2) s.flt.log } }) r
    else
      let s := { s with flt := { s.flt with log := dropFirst (fun x => x.share == 2) s.flt.log } }
      addLog (wr (bump s FLT_LOG_STAT_EV_DROP 1) FLT_EVT_STAT_EV_DROP 1) r

/-- Free slots a trace may take (R499). -/
def traceSlots (s : State) : Nat := (959 - logUsed s 3) + (1024 - logUsed s 2)

/-- The share a trace or summary goes to. -/
def traceShare (s : State) : Nat := if logUsed s 3 < 959 then 3 else 2

/-- A trace of a group (R499, R500's groups); the point's number is not stated and is a free value. -/
def trace (s : State) (group part : Nat) : State :=
  if bit s.flt.traceMask group then
    let p := fresh s
    let s := p.2
    let r := fun (s : State) => mkLog s 2 0 (group * 256 + p.1 % 256) 0xFFFFFFFF part (traceShare s) .none
    match s.flt.dropRun with
    | none => if 0 < traceSlots s then addLog s (r s) else noteDrop s
    | some (n, f, l) =>
      if 2 ≤ traceSlots s then
        let s := addLog s (mkLog s 3 0 0 0xFFFFFFFF 0xFF (traceShare s) (.summary n f l))
        let s := { s with flt := { s.flt with dropRun := none } }
        addLog s (r s)
      else noteDrop s
  else s

/-! ### The Fault Concentrator (R473, R474) -/

/-- Classes of R471. -/
def clsCorrected : Nat := 0
def clsContained : Nat := 1
def clsPartition : Nat := 2
def clsDevice : Nat := 3

/-- One report of a detection under a root domain (R473, R474): the domain's counter, and the domain's primary record
opened, or echoed by any class but CORRECTED. -/
def report (s : State) (dom cls status part sub detail : Nat) : State :=
  let s := trace s 6 part
  if cls = 0 then bump s (FLT_DOM_CNT_CORR dom) 1
  else
    let s := bump s (FLT_DOM_CNT_REPORTS dom) 1
    match tfind dom s.flt.opens with
    | some r =>
      let r := { r with echo := satAdd 65535 r.echo 1, cls := max r.cls cls, span := (s.time - r.time) % 2 ^ 32 }
      { s with flt := { s.flt with opens := tset dom r s.flt.opens } }
    | none =>
      let r : OpenRec := { cls, status, time := s.time, echo := 0, part, sub, span := 0, detail, esc := false }
      { s with flt := { s.flt with opens := tset dom r s.flt.opens } }

/-! ### Event controller delivery (R428, R433-R436) -/

/-- Level a status register's bit gives its source, by its field list base (R428). -/
def regBit (s : State) (addr b : Nat) : Bool := tget 0 s.regs (addr * 32 + b) == 1

/-- The input level of a source that a register or a cluster drives (R428); none: a pin or a software source. -/
def srcLevel (s : State) (src : Nat) : Option Bool :=
  if src ≤ 10 then some (regBit s 0x31000008 src)
  else if 16 ≤ src ∧ src ≤ 19 then some (regBit s 0x32000030 (src - 16))
  else if 32 ≤ src ∧ src ≤ 36 then some (regBit s 0x3300000C (src - 32))
  else if 48 ≤ src ∧ src ≤ 53 then some (regBit s 0x34000008 (src - 48))
  else if 64 ≤ src ∧ src ≤ 79 then some (regBit s 0x2300000C (src - 64))
  else if 80 ≤ src ∧ src ≤ 95 then some (regBit s 0x22000004 (src - 80))
  else if 96 ≤ src ∧ src ≤ 111 then some (regBit s 0x24000004 (src - 96))
  else if 112 ≤ src ∧ src ≤ 127 then some (regBit s 0x35000008 (src - 112))
  else if 128 ≤ src ∧ src ≤ 143 then some (regBit s 0x36000004 (src - 128))
  else if 192 ≤ src ∧ src ≤ 208 then none
  else if 256 ≤ src ∧ src < 256 + 32 * 34 then
    let n := (src - 256) / 32
    let b := (src - 256) % 32
    some (if b = 0 then isSet s (CLU_STAT_UE_PEND n) else if b = 1 then isSet s (CLU_STAT_MAP_REJ n)
      else if b = 2 then isSet s (CLU_STAT_CTRL_REJ n)
      else if b = 3 then decide (rd s (CLU_CORE_FAULT_FAULT n 0) ≠ 0) || decide (rd s (CLU_CORE_FAULT_FAULT n 1) ≠ 0)
      else false)
  else if 1536 ≤ src then none
  else some false

def evPend (s : State) (src : Nat) : Bool := bit (rd s (EVC_PEND_PEND (src / 32))) (src % 32)
def evMask (s : State) (src : Nat) : Bool := bit (rd s (EVC_MASK_MASK (src / 32))) (src % 32)
def evLevel (s : State) (src : Nat) : Bool := bit (rd s (EVC_LEVEL_LEVEL (src / 32))) (src % 32)
def setPend (s : State) (src : Nat) : State := wr s (EVC_PEND_PEND (src / 32)) (setBit (rd s (EVC_PEND_PEND (src / 32))) (src % 32))
def clearPend (s : State) (src : Nat) : State :=
  wr s (EVC_PEND_PEND (src / 32)) (clearBit (rd s (EVC_PEND_PEND (src / 32))) (src % 32))
def setLevel (s : State) (src : Nat) (v : Bool) : State :=
  let w := rd s (EVC_LEVEL_LEVEL (src / 32))
  wr s (EVC_LEVEL_LEVEL (src / 32)) (if v then setBit w (src % 32) else clearBit w (src % 32))

/-- The counter field of a source (R431). -/
def evCnt (src : Nat) : RegField := ⟨0x21001000 + 4 * (src / 4), 8 * (src % 4), 8, .ro, 0⟩

/-- Deliverable (R433). -/
def deliverable (s : State) (src : Nat) : Bool :=
  evPend s src && !evMask s src && rd s (EVC_ROUTE_MODE src) != 0 && isSet s EVC_CTRL_ENABLE

/-- Does a level mode hold the source pending (R430)? -/
def levelHolds (s : State) (src : Nat) : Bool :=
  (rd s (EVC_ROUTE_MODE src) == 1 && evLevel s src) || (rd s (EVC_ROUTE_MODE src) == 2 && !evLevel s src)

/-- Does a Plinth pair run, so that an interrupt reaches it (R439, R440)? -/
def pairTakes (s : State) (p : Nat) : Bool :=
  s.boot.pln == .up && decide ((if p = 0 then rd s FLT_LOCKSTEP_STATE_A else rd s FLT_LOCKSTEP_STATE_B) < 2)

/-- Signal a source's target (R434, R435): an interrupt to a Plinth pair (one that does not run takes it later, R439), or a message that
clears the pending bit; a level mode sets it again while its level persists. -/
def signalSrc (s : State) (src : Nat) : State :=
  if rd s (EVC_ROUTE_TGT src) = 2 then
    let fn := rd s (EVC_ROUTE_FUNC src)
    let vec := rd s (EVC_ROUTE_VEC src)
    let s := signalVec (clearPend s src) fn vec
    if levelHolds s src then setPend s src else s
  else if pairTakes s (rd s (EVC_ROUTE_TGT src)) then emit s (.pair (rd s (EVC_ROUTE_TGT src)))
  else s

/-- Is the source's target idle (R436)? A vector: by its last message; whether a Plinth pair waits for an interrupt no
command shows, and is a free value. -/
def targetIdle (s : State) (src : Nat) : Bool × State :=
  if rd s (EVC_ROUTE_TGT src) = 2 then
    let last := tget 0 s.evc.lastMsg (rd s (EVC_ROUTE_FUNC src) * 64 + rd s (EVC_ROUTE_VEC src))
    (last == 0 || decide (last - 1 + 1000 * rd s (EVC_MOD_INTERVAL (rd s (EVC_ROUTE_MOD src))) ≤ s.time), s)
  else
    let p := fresh s
    (p.1 % 2 == 1, p.2)

/-- A source that has become deliverable, under its moderation timer (R436). -/
def deliver (s : State) (src : Nat) : State :=
  if deliverable s src then
    let t := rd s (EVC_ROUTE_MOD src)
    if rd s (EVC_MOD_INTERVAL t) = 0 then signalSrc s src
    else if isSet s (EVC_MOD_BUSY t) then
      if isSet s (EVC_MOD_BYPASS_EN t) then
        let p := targetIdle s src
        if p.1 then signalSrc p.2 src else p.2
      else s
    else wr (signalSrc s src) (EVC_MOD_BUSY t) 1
  else s

/-- Every source of `l` that was not deliverable in `before` and is now, delivered in order. -/
def deliverNew (before : State) (l : List Nat) (s : State) : State :=
  l.foldl (fun s src => if !deliverable before src && deliverable s src then deliver s src else s) s

end Sys2Proof.Machine
end

