-- ==== Sys2Proof/Machine/Frames.lean ====
section
/-!
DEFINITION. Sys2Proof/Machine/Frames.lean: frames of stream contexts (spec/06_camera_stream_intake.md R210-R215): buffers,
fates and frame records.
-/
namespace Sys2Proof.Machine
open Reg

def ctx (s : State) (c : Nat) : Ctx := tget {} s.cam c
def setCtx (s : State) (c : Nat) (x : Ctx) : State := { s with cam := tput {} s.cam c x }

/-- What a frame record holds of its frame's buffer (R213). -/
def bufRef (c : Nat) (f : Frame) : Nat := 1 + (f.bind.gen * 48 + c) * 4 + f.buf

/-- A buffer of a binding. -/
def heldBuf (f : Frame) : Nat := f.bind.gen * 4 + f.buf

/-- The frame record of R213. -/
def frameRec (s : State) (c : Nat) (f : Frame) (fate flags buf : Nat) : CqRec where
  w0 := f.time % 2 ^ 64
  w1 := f.no % 2 ^ 32 + fate % 256 * 2 ^ 32 + c % 256 * 2 ^ 40 + flags % 65536 * 2 ^ 48
  w2 := buf % 2 ^ 64
  w3 := (if f.released = 0 then 0 else min (((if f.stage = .finished then f.workEnd else s.time) - (f.released - 1)) / 100) (2 ^ 32 - 1)) + f.user % 2 ^ 32 * 2 ^ 32
  counts := true
  buf := if buf = 0 then 0 else bufRef c f

/-- Does a fate drop its frame (R214)? -/
def isDrop (fate : Nat) : Bool := decide (2 ≤ fate)

/-- The counter of a fate (R214, R215). -/
def countFate (s : State) (c fate : Nat) : State :=
  let s := if fate = 0 then s
    else if fate = 1 ∨ fate = 3 then bump s (CAM_CTX_DROP_DAMAGED c) 1
    else if fate = 2 then bump s (CAM_CTX_DROP_LATE c) 1
    else if fate = 4 then bump s (CAM_CTX_MISC_SUPERSEDED c) 1
    else bump s (CAM_CTX_MISC_OTHER c) 1
  if isDrop fate then wr s CAM_EVT_STAT_FRAME_DROP 1 else s

/-- Are the records of a ring discarded (R393)? -/
def ringOff (s : State) (fn r : Nat) : Bool := (ring s fn r).state == .disabled

/-- A frame's fate is decided (R213-R215): counted, its record posted; a buffer that is delivered stays held until the
record is consumed. -/
def decideFrame (s : State) (c : Nat) (f : Frame) (fate flags : Nat) : State :=
  let x := ctx s c
  let keep := !isDrop fate && !ringOff s f.bind.fn f.bind.ring
  let buf := if isDrop fate then 0 else f.bind.bufs.getD f.buf 0
  let s := setCtx s c { x with frames := x.frames.filter (fun g => g != f),
                               held := if keep then x.held ++ [heldBuf f] else x.held, lastFrame := f.no }
  let s := countFate s c fate
  let r := frameRec s c f fate flags buf
  postRec s f.bind.fn f.bind.ring { r with buf := if keep then bufRef c f else 0 }

/-- The open frame of a number. -/
def frameOf (s : State) (c no : Nat) : Option Frame := (ctx s c).frames.find? (fun f => f.no == no)

/-- An open frame dropped (R211, R214). -/
def dropFrame (s : State) (c no fate : Nat) : State :=
  match frameOf s c no with
  | some f => decideFrame s c f fate f.flags
  | none => s

/-- Every open frame bound to a partition dropped (R219, R351, R480). -/
def dropPartFrames (s : State) (p fate : Nat) : State :=
  s.cam.foldl (fun s e => (e.2.frames.filter (fun f => f.bind.part == p)).foldl (fun s f => dropFrame s e.1 f.no fate) s) s

/-- A buffer's record has been consumed (R213): the buffer is free. -/
def freeBuffer (s : State) (ref : Nat) : State :=
  if ref = 0 then s
  else
    let c := (ref - 1) / 4 % 48
    let x := ctx s c
    setCtx s c { x with held := x.held.erase ((ref - 1) / 192 * 4 + (ref - 1) % 4) }

/-- A free buffer of a binding's three. -/
def freeBuf (x : Ctx) (gen : Nat) : Option Nat :=
  ([0, 1, 2]).find? (fun b => !x.held.contains (gen * 4 + b) && !(x.frames.any (fun f => f.bind.gen == gen && f.buf == b)))

/-- A change to the open frame of a number. -/
def modFrame (s : State) (c no : Nat) (g : Frame → Frame) : State :=
  let x := ctx s c
  setCtx s c { x with frames := x.frames.map (fun f => if f.no = no then g f else f) }

/-- Frames whose last work unit ended before the present tick of the time base complete (R210, R219). -/
def completeFrames (s : State) : State :=
  s.cam.foldl (fun s e => (e.2.frames.filter (fun f => f.stage == .finished && decide (f.workEnd ≠ s.time))).foldl
    (fun s f => trace (decideFrame s e.1 f (if f.flags % 16 = 0 then 0 else 1) f.flags) 1 f.bind.part) s) s

end Sys2Proof.Machine
end

