-- ==== Sys2Proof/Machine/Flags.lean ====
section
/-!
DEFINITION. Sys2Proof/Machine/Flags.lean: the number formats of the array and the vector unit (spec/03_number_formats.md
R86-R91, R108-R111): decoding, exact sums and products, rounding, saturation, and which of the counters SAT_ACC, SAT_OUT and
NONFINITE an operation increments.
-/
namespace Sys2Proof.Machine

/-- A floating-point datum: NaN, an infinity, or the exact value (-1)^neg * m * 2^e. -/
inductive Fl where
  | nan
  | inf (neg : Bool)
  | fin (neg : Bool) (m : Nat) (e : Int)
deriving DecidableEq, Repr

/-- A binary format: bits of precision (hidden bit included), exponent of the last place of subnormals, bits of the
exponent field. -/
structure FloatFmt where
  prec : Nat
  emin : Int
  ebits : Nat
deriving DecidableEq, Repr

def fmtFp32 : FloatFmt := ⟨24, -149, 8⟩
def fmtBf16 : FloatFmt := ⟨8, -133, 8⟩
def fmtE5m2 : FloatFmt := ⟨3, -16, 5⟩
def fmtE4m3 : FloatFmt := ⟨4, -9, 4⟩

/-- The datum of a code of an IEEE-like format (R87): the top exponent is infinity or NaN. -/
def decodeIeee (f : FloatFmt) (x : Nat) : Fl :=
  let mb := f.prec - 1
  let frac := bits x 0 mb
  let ex := bits x mb f.ebits
  let neg := bit x (mb + f.ebits)
  if ex = 2 ^ f.ebits - 1 then (if frac = 0 then .inf neg else .nan)
  else if ex = 0 then .fin neg frac f.emin
  else .fin neg (2 ^ mb + frac) (f.emin + (ex : Int) - 1)

/-- The datum of an E4M3 code (R87): no infinity; only S.1111.111 is NaN. -/
def decodeE4m3 (x : Nat) : Fl :=
  let frac := bits x 0 3
  let ex := bits x 3 4
  let neg := bit x 7
  if ex = 15 ∧ frac = 7 then .nan
  else if ex = 0 then .fin neg frac (-9)
  else .fin neg (8 + frac) (-9 + (ex : Int) - 1)

/-- Number of bits of `m`; 0 for 0. -/
def bitLen (m : Nat) : Nat := if m = 0 then 0 else Nat.log2 m + 1

/-- `m * 2^e` as (place, shift): the exponent of the last place in the format, before rounding. -/
def lastPlace (f : FloatFmt) (m : Nat) (e : Int) : Int := max (e + (bitLen m : Int) - (f.prec : Int)) f.emin

/-- Round `m * 2^e` to the format, to nearest, ties to even (R90, R108): the significand and its exponent. -/
def roundRne (f : FloatFmt) (m : Nat) (e : Int) : Nat × Int :=
  let qe := lastPlace f m e
  let q :=
    if qe ≤ e then m * 2 ^ (e - qe).toNat
    else
      let d := (qe - e).toNat
      let h := m / 2 ^ d
      let r := m % 2 ^ d
      if 2 * r > 2 ^ d then h + 1 else if 2 * r = 2 ^ d then h + h % 2 else h
  if q = 2 ^ f.prec then (2 ^ (f.prec - 1), qe + 1) else (q, qe)

/-- Round stochastically (R111): the first 16 discarded bits plus the 16 random bits decide. -/
def roundStochastic (f : FloatFmt) (m : Nat) (e : Int) (rnd : Nat) : Nat × Int :=
  let qe := lastPlace f m e
  let q :=
    if qe ≤ e then m * 2 ^ (e - qe).toNat
    else
      let d := (qe - e).toNat
      let h := m / 2 ^ d
      let frac := (m % 2 ^ d) * 65536 / 2 ^ d
      if m % 2 ^ d ≠ 0 ∧ frac + rnd % 65536 ≥ 65536 then h + 1 else h
  if q = 2 ^ f.prec then (2 ^ (f.prec - 1), qe + 1) else (q, qe)

/-- The code of a rounded finite value; the sign bit on top. -/
def encodeFin (f : FloatFmt) (neg : Bool) (q : Nat) (qe : Int) : Nat :=
  let mb := f.prec - 1
  let body := if q < 2 ^ mb then q else ((qe - f.emin).toNat + 1) * 2 ^ mb + (q - 2 ^ mb)
  body + b2n neg * 2 ^ (mb + f.ebits)

/-- Does a rounded value lie beyond the largest finite value of an IEEE-like format? -/
def beyondIeee (f : FloatFmt) (q : Nat) (qe : Int) : Bool :=
  decide (2 ^ (f.prec - 1) ≤ q) && decide (qe - f.emin + 1 ≥ (2 ^ f.ebits - 1 : Int))

/-- Beyond 448 (R87, R109). -/
def beyondE4m3 (q : Nat) (qe : Int) : Bool := decide (qe > 5) || (decide (qe = 5) && decide (q = 15))

/-- Canonical NaNs (R88). -/
def nanFp32 : Nat := 0x7FC00000

/-- The FP32 code of an infinity. -/
def infFp32 (neg : Bool) : Nat := 0x7F800000 + b2n neg * 2 ^ 31

/-- The largest finite FP32 code of a sign. -/
def maxFp32 (neg : Bool) : Nat := 0x7F7FFFFF + b2n neg * 2 ^ 31

/-- FP32 code of an exact datum by RNE; overflow gives infinity (IEEE 754 binary32, R87). -/
def toFp32 : Fl → Nat
  | .nan => nanFp32
  | .inf neg => infFp32 neg
  | .fin neg m e =>
    let r := roundRne fmtFp32 m e
    if beyondIeee fmtFp32 r.1 r.2 then infFp32 neg else encodeFin fmtFp32 neg r.1 r.2

/-- The datum of an FP32 code. -/
def ofFp32 (x : Nat) : Fl := decodeIeee fmtFp32 x

/-- Does rounding this datum to FP32 overflow? -/
def overflowsFp32 : Fl → Bool
  | .fin _ m e => let r := roundRne fmtFp32 m e; beyondIeee fmtFp32 r.1 r.2
  | _ => false

/-- The exact product (R88: zeros keep their sign; infinity times zero is NaN). -/
def flMul : Fl → Fl → Fl
  | .nan, _ => .nan
  | _, .nan => .nan
  | .inf a, .inf b => .inf (a != b)
  | .inf a, .fin b m _ => if m = 0 then .nan else .inf (a != b)
  | .fin a m _, .inf b => if m = 0 then .nan else .inf (a != b)
  | .fin a m e, .fin b n f => .fin (a != b) (m * n) (e + f)

/-- Signed significand. -/
def signed (neg : Bool) (m : Nat) : Int := if neg then -(m : Int) else (m : Int)

/-- The exact sum (IEEE 754: an exact zero sum is +0 unless both are -0). -/
def flAdd : Fl → Fl → Fl
  | .nan, _ => .nan
  | _, .nan => .nan
  | .inf a, .inf b => if a = b then .inf a else .nan
  | .inf a, .fin .. => .inf a
  | .fin .., .inf b => .inf b
  | .fin a m e, .fin b n f =>
    let g := min e f
    let x := signed a (m * 2 ^ (e - g).toNat) + signed b (n * 2 ^ (f - g).toNat)
    if x = 0 then .fin (a && b) 0 g else .fin (decide (x < 0)) x.natAbs g

/-- INT32 two's complement of a 32-bit code. -/
def toInt32 (x : Nat) : Int := if x % 2 ^ 32 < 2 ^ 31 then ((x % 2 ^ 32 : Nat) : Int) else ((x % 2 ^ 32 : Nat) : Int) - 2 ^ 32

/-- The 32-bit code of an integer in range. -/
def ofInt32 (x : Int) : Nat := (x % 2 ^ 32).toNat

/-- Saturate to INT32 (R89): the code and whether it saturated. -/
def satInt32 (x : Int) : Int × Bool :=
  if x > 2147483647 then (2147483647, true) else if x < -2147483648 then (-2147483648, true) else (x, false)

/-- An integer as a datum. -/
def flOfInt (x : Int) : Fl := .fin (decide (x < 0)) x.natAbs 0

/-- FP32 product by RNE. -/
def fmul (x y : Nat) : Nat := toFp32 (flMul (ofFp32 x) (ofFp32 y))

/-- FP32 sum by RNE. -/
def fadd (x y : Nat) : Nat := toFp32 (flAdd (ofFp32 x) (ofFp32 y))

/-- FP32 fused multiply-add by one RNE. -/
def ffma (x y z : Nat) : Nat := toFp32 (flAdd (flMul (ofFp32 x) (ofFp32 y)) (ofFp32 z))

/-- The exact quotient as a datum good for one later rounding: enough quotient bits and a sticky bit. Division by zero and
infinities by IEEE 754. -/
def flDiv : Fl → Fl → Fl
  | .nan, _ => .nan
  | _, .nan => .nan
  | .inf _, .inf _ => .nan
  | .inf a, .fin b _ _ => .inf (a != b)
  | .fin a _ _, .inf b => .fin (a != b) 0 0
  | .fin a m e, .fin b n f =>
    if n = 0 then (if m = 0 then .nan else .inf (a != b))
    else
      let k := 64 + bitLen n
      let q := m * 2 ^ k / n
      let r := m * 2 ^ k % n
      .fin (a != b) (2 * q + (if r = 0 then 0 else 1)) (e - f - k - 1)

/-- FP32 quotient by RNE. -/
def fdiv (x y : Nat) : Nat := toFp32 (flDiv (ofFp32 x) (ofFp32 y))

/-- FP32 difference by RNE. -/
def fsub (x y : Nat) : Nat := fadd x (if y / 2 ^ 31 % 2 = 1 then y - 2 ^ 31 else y + 2 ^ 31)

/-- The floor of a finite datum. -/
def flFloor : Fl → Int
  | .fin neg m e =>
    if 0 ≤ e then signed neg (m * 2 ^ e.toNat)
    else
      let d := (-e).toNat
      if neg then -(((m + 2 ^ d - 1) / 2 ^ d : Nat) : Int) else ((m / 2 ^ d : Nat) : Int)
  | _ => 0

/-- FP32 code of an integer by RNE. -/
def fOfInt (x : Int) : Nat := toFp32 (flOfInt x)

/-- Is one datum less than another (numbers and infinities)? -/
def flLess : Fl → Fl → Bool
  | .nan, _ => false
  | _, .nan => false
  | .inf a, .inf b => a && !b
  | .inf a, .fin .. => a
  | .fin .., .inf b => !b
  | .fin a m e, .fin b n f =>
    let g := min e f
    decide (signed a (m * 2 ^ (e - g).toNat) < signed b (n * 2 ^ (f - g).toNat))

/-- A sum in the array (R91): an overflow gives the largest finite value of its sign and is reported. -/
def arrayAdd (x y : Nat) : Nat × Bool :=
  let z := flAdd (ofFp32 x) (ofFp32 y)
  if overflowsFp32 z then
    (match z with
     | .fin neg _ _ => (maxFp32 neg, true)
     | _ => (toFp32 z, false))
  else (toFp32 z, false)

/-- Is an FP32 code infinite or NaN? -/
def nonfiniteFp32 (x : Nat) : Bool := bits x 23 8 == 255

/-- RNE of a datum to an integer, saturated to INT32 (R106): value, saturated, was NaN. -/
def rneToInt32 : Fl → Int × Bool × Bool
  | .nan => (0, false, true)
  | .inf neg => (if neg then -2147483648 else 2147483647, true, false)
  | .fin neg m e =>
    let q : Nat :=
      if 0 ≤ e then m * 2 ^ e.toNat
      else
        let d := (-e).toNat
        let h := m / 2 ^ d
        let r := m % 2 ^ d
        if 2 * r > 2 ^ d then h + 1 else if 2 * r = 2 ^ d then h + h % 2 else h
    let r := satInt32 (signed neg q)
    (r.1, r.2, false)

/-- The sign-extended value of a `w`-bit two's-complement field. -/
def signExt (w x : Nat) : Int :=
  let y := x % 2 ^ w
  if y < 2 ^ (w - 1) then (y : Int) else (y : Int) - 2 ^ w

/-- What a conversion to a narrow format gives: the code, whether it saturated, whether it is NaN or infinite (R109). -/
structure Conv where
  code : Nat
  sat : Bool
  nonfinite : Bool
deriving DecidableEq, Repr

/-- Round a finite datum's magnitude to an integer, by RNE or stochastically (integer targets). -/
def roundInt (stoch : Bool) (rnd m : Nat) (e : Int) : Nat :=
  if 0 ≤ e then m * 2 ^ e.toNat
  else
    let d := (-e).toNat
    let h := m / 2 ^ d
    let r := m % 2 ^ d
    if stoch then (if r ≠ 0 ∧ r * 65536 / 2 ^ d + rnd % 65536 ≥ 65536 then h + 1 else h)
    else if 2 * r > 2 ^ d then h + 1 else if 2 * r = 2 ^ d then h + h % 2 else h

/-- Conversion to INT8 or INT4 (R86, R109): symmetric saturation at `lim`, `w` bits. -/
def convInt (w lim : Nat) (stoch : Bool) (rnd : Nat) : Fl → Conv
  | .nan => ⟨0, false, true⟩
  | .inf neg => ⟨ofInt32 (signed neg lim) % 2 ^ w, true, false⟩
  | .fin neg m e =>
    let q := roundInt stoch rnd m e
    if q > lim then ⟨ofInt32 (signed neg lim) % 2 ^ w, true, false⟩
    else ⟨ofInt32 (signed neg q) % 2 ^ w, false, false⟩

/-- Conversion to a floating format (R109). -/
def convFloat (f : FloatFmt) (e4m3 : Bool) (stoch : Bool) (rnd : Nat) (nanCode maxCode : Nat) : Fl → Conv
  | .nan => ⟨nanCode, false, true⟩
  | .inf neg =>
    let s := b2n neg * 2 ^ (f.prec - 1 + f.ebits)
    if e4m3 then ⟨maxCode + s, true, false⟩
    else ⟨(2 ^ f.ebits - 1) * 2 ^ (f.prec - 1) + s, false, true⟩
  | .fin neg m e =>
    let r := if stoch then roundStochastic f m e rnd else roundRne f m e
    let beyond := if e4m3 then beyondE4m3 r.1 r.2 else beyondIeee f r.1 r.2
    if beyond then ⟨maxCode + b2n neg * 2 ^ (f.prec - 1 + f.ebits), true, false⟩
    else ⟨encodeFin f neg r.1 r.2, false, false⟩

/-- Round x to OFMT (R62 codes: 0 and 2 INT8, 1 INT4, 4 E4M3, 5 E5M2, 6 BF16) and saturate (R108 steps 4 and 5, R109). -/
def convertTo (ofmt : Nat) (stoch : Bool) (rnd : Nat) (x : Fl) : Conv :=
  if ofmt = 1 then convInt 4 7 stoch rnd x
  else if ofmt = 4 then convFloat fmtE4m3 true stoch rnd 0x7F 0x7E x
  else if ofmt = 5 then convFloat fmtE5m2 false stoch rnd 0x7F 0x7B x
  else if ofmt = 6 then convFloat fmtBf16 false stoch rnd 0x7FC0 0x7F7F x
  else convInt 8 127 stoch rnd x

/-- R108 steps 1 to 3: scale, per-channel scale, RELU. `t` is the FP32 code of the sum. -/
def scaleSum (t scale : Nat) (chan : Option Nat) (relu : Bool) : Nat :=
  let x := fmul t scale
  let x := match chan with
    | some c => fmul x c
    | none => x
  if relu then
    (match ofFp32 x with
     | .nan => x
     | .inf true => 0
     | .fin true _ _ => 0
     | _ => x)
  else x

/-- One step of a Galois LFSR (R110). -/
def lfsrStep (x : Nat) : Nat := if x % 2 = 1 then (x / 2) ^^^ 0x80200003 else x / 2

/-- The seed of a lane (R112). -/
def lfsrSeed (seed id : Nat) : Nat :=
  let v := seed ^^^ ((id + 1) * 0x9E3779B9 % 2 ^ 32)
  if v = 0 then 1 else v

/-- The datum of an element of a format code of R62 (0 INT8, 1 INT4, 4 E4M3, 5 E5M2, 6 BF16). -/
def elemFl (fmt x : Nat) : Fl :=
  if fmt = 0 then flOfInt (signExt 8 x)
  else if fmt = 1 then flOfInt (signExt 4 x)
  else if fmt = 4 then decodeE4m3 (x % 256)
  else if fmt = 5 then decodeIeee fmtE5m2 (x % 256)
  else decodeIeee fmtBf16 (x % 65536)

end Sys2Proof.Machine
end

