-- ==== Sys2Proof/Machine/Operands.lean ====
section
/-!
DEFINITION. Sys2Proof/Machine/Operands.lean: the operand forms of array instructions: the 128-bit word (R62), where every
operand element lies (R61), the window descriptor of a CONV (R126), escape words (R104) and output scale sets (R107).
-/
namespace Sys2Proof.Machine
open Reg

/-- The fields of an array instruction (R62). -/
structure ArrF where
  opc : Nat
  wfmt : Nat
  afmt : Nat
  ofmt : Nat
  m : Nat
  n : Nat
  k : Nat
  a : Nat
  w : Nat
  p : Nat
  o : Nat
  omode : Nat
  acc : Bool
  fence : Bool
  tagEn : Bool
  tag : Nat
  qset : Nat
  low : Nat
deriving DecidableEq, Repr

/-- The fields of a 128-bit word (R62). -/
def arrFields (x : Nat) : ArrF where
  opc := bits x 120 8
  wfmt := bits x 116 4
  afmt := bits x 112 4
  ofmt := bits x 108 4
  m := bits x 100 8 + 1
  n := bits x 92 8 + 1
  k := bits x 84 8 + 1
  a := bits x 72 12
  w := bits x 60 12
  p := bits x 50 10
  o := bits x 38 12
  omode := bits x 36 2
  acc := bit x 35
  fence := bit x 34
  tagEn := bit x 33
  tag := bits x 30 3
  qset := bits x 24 6
  low := bits x 0 24

/-- Rows a STREAM streams (R62, R70). -/
def streamRows (x : Nat) : Nat := bits x 100 8 + 256 * bits x 12 8 + 65536 * bits x 20 4 + 1

/-- Input ring groups A_RING + 1 and output ring groups O_RING + 1 (R71). -/
def aRing (x : Nat) : Nat := bits x 6 6 + 1
def oRing (x : Nat) : Nat := bits x 0 6 + 1

/-- A 4-bit weight format: INT4, Z4E or Z3C. -/
def weight4 (wfmt : Nat) : Bool := wfmt == 1 || wfmt == 2 || wfmt == 3

/-- Is the pairing in R58's table? -/
def pairOk (wfmt afmt : Nat) : Bool :=
  (wfmt == 0 && afmt == 0) || (weight4 wfmt && (afmt == 1 || afmt == 0)) ||
  ((wfmt == 4 || wfmt == 5) && (afmt == 4 || afmt == 5)) || (wfmt == 6 && afmt == 6)

/-- kr of R58. -/
def krOf (wfmt : Nat) : Nat := if weight4 wfmt then 2 else 1

/-- kw = 8 * kr. -/
def kwOf (wfmt : Nat) : Nat := 8 * krOf wfmt

/-- q, rows per word, of an activation format with a weight format (R61). -/
def qAct (afmt wfmt : Nat) : Nat :=
  if afmt = 6 then 4 else if afmt = 0 ∧ weight4 wfmt = true then 4 else 8

/-- q, rows per word, of an emitted format (R61). -/
def qOut (ofmt : Nat) : Nat := if ofmt = 6 ∨ ofmt = 2 then 4 else 8

/-- kr an emitted format is laid out with (R61). -/
def krOut (ofmt : Nat) : Nat := if ofmt = 1 ∨ ofmt = 2 then 2 else 1

/-- Where an activation-like element lies: word address and (bit offset, width) in the word (R61). `rows`: the operand's
rows; `row`, `kb`, `r`, `j`: its row, K chunk, cell row and element. -/
def actPlace (fmt q kr base rows row kb r j : Nat) : Nat × Nat × Nat :=
  let w := base + 8 * (kb * ceilDiv rows q + row / q) + r
  if fmt = 6 then (w, 16 * (row % 4), 16)
  else if q = 4 then (w, 8 * (2 * (row % 4) + j), 8)
  else if kr = 2 then (w, 8 * (row % 8) + 4 * j, 4)
  else (w, 8 * (row % 8), 8)

/-- Where the weight (cell row r, element j, column c) of pass (nb, kb) lies (R61). -/
def weightPlace (wfmt base kbs nb kb r j c : Nat) : Nat × Nat × Nat :=
  if wfmt = 6 then (base + 8 * (2 * (nb * kbs + kb) + c / 4) + r, 16 * (c % 4), 16)
  else if weight4 wfmt then (base + 8 * (nb * kbs + kb) + r, 4 * (c * 2 + j), 4)
  else (base + 8 * (nb * kbs + kb) + r, 8 * c, 8)

/-- Words of a weight operand (R103, R129): doubled for BF16 and for the escape table. -/
def weightWords (wfmt nb kb : Nat) : Nat := (if wfmt = 6 ∨ wfmt = 2 ∨ wfmt = 3 then 16 else 8) * nb * kb

/-- Bits of a word of a core memory. -/
def fetchBits (s : State) (cl m c : Nat) (pl : Nat × Nat × Nat) : Nat := bits (rdWord s cl m c pl.1) pl.2.1 pl.2.2

/-- Replace bits of a word of a core memory: a write of fewer than 64 bits (R42 leaves the word's poison). -/
def storeBits (s : State) (cl m c : Nat) (pl : Nat × Nat × Nat) (v : Nat) : State :=
  let old := rdWord s cl m c pl.1
  let keep := old % 2 ^ pl.2.1 + old / 2 ^ (pl.2.1 + pl.2.2) * 2 ^ (pl.2.1 + pl.2.2)
  wrN s (memBase cl m c + 8 * pl.1) 8 (keep + v % 2 ^ pl.2.2 * 2 ^ pl.2.1)

/-- The window descriptor's fields (R126). -/
structure Win where
  pconst : Nat
  pmode : Nat
  fh : Nat
  fw : Nat
  sy : Nat
  sx : Nat
  dy : Nat
  dx : Nat
  owt : Nat
  rsv0 : Nat
  ih : Nat
  iw : Nat
  th : Nat
  tw : Nat
  ty0 : Nat
  tx0 : Nat
  oy0 : Int
  ox0 : Int
  rsv3 : Nat
deriving DecidableEq, Repr

/-- The descriptor read from four words (R126). -/
def winOf (l : List Nat) : Win :=
  let w0 := l.getD 0 0
  let w1 := l.getD 1 0
  let w2 := l.getD 2 0
  { pconst := bits w0 48 16, pmode := bits w0 46 2, fh := bits w0 43 3 + 1, fw := bits w0 40 3 + 1,
    sy := bits w0 37 3 + 1, sx := bits w0 34 3 + 1, dy := bits w0 31 3 + 1, dx := bits w0 28 3 + 1,
    owt := bits w0 20 8 + 1, rsv0 := bits w0 0 20,
    ih := bits w1 48 16, iw := bits w1 32 16, th := bits w1 16 16, tw := bits w1 0 16,
    ty0 := bits w2 48 16, tx0 := bits w2 32 16, oy0 := signExt 16 (bits w2 16 16), ox0 := signExt 16 (bits w2 0 16),
    rsv3 := l.getD 3 0 }

/-- R127's mirror. -/
def mirror (i : Int) (n : Nat) : Int :=
  if n ≤ 1 then 0
  else
    let p : Int := 2 * ((n : Int) - 1)
    let j := i % p
    if j ≥ n then p - j else j

/-- R127's clamp. -/
def clampTo (i : Int) (n : Nat) : Int := if i < 0 then 0 else if i ≥ n then (n : Int) - 1 else i

/-- What a tap reads (R127, R128): a constant, a tile row number, or a position outside the tile. -/
inductive TapSrc where
  | const (v : Nat)
  | row (p : Nat)
  | outside
deriving DecidableEq, Repr

/-- Where output row `m` of a CONV reads at tap (fy, fx). -/
def tapSource (w : Win) (m fy fx : Nat) : TapSrc :=
  let iy : Int := w.oy0 + (m / w.owt : Nat) * (w.sy : Int) + (fy : Int) * w.dy
  let ix : Int := w.ox0 + (m % w.owt : Nat) * (w.sx : Int) + (fx : Int) * w.dx
  let inY := decide (0 ≤ iy) && decide (iy < w.ih)
  let inX := decide (0 ≤ ix) && decide (ix < w.iw)
  if !(inY && inX) && w.pmode = 0 then .const 0
  else if !(inY && inX) && w.pmode = 1 then .const w.pconst
  else
    let y := if inY then iy else if w.pmode = 2 then mirror iy w.ih else clampTo iy w.ih
    let x := if inX then ix else if w.pmode = 2 then mirror ix w.iw else clampTo ix w.iw
    if (w.ty0 : Int) ≤ y ∧ y < w.ty0 + w.th ∧ (w.tx0 : Int) ≤ x ∧ x < w.tx0 + w.tw then
      .row ((y - w.ty0).toNat * w.tw + (x - w.tx0).toNat)
    else .outside

/-- An output scale set entry converts without fault (R107): ROUND is 0 or 1 and the reserved bits are 0. -/
def qsetOk (q : Nat) : Bool := decide (bits q 32 2 ≤ 1) && bits q 48 16 == 0

/-- The conditions on an array instruction's own fields, of R58, R63, R69, R70 and R132 (`q`: its output scale set). DESIGN CHOICE
(log entry 146): a STREAM with ACC = 0, which has no M, need not keep R63's condition on the words from P_BASE. -/
def arrUndefined (x : Nat) (priv : Bool) (q : Nat) : Bool :=
  let f := arrFields x
  let kw := kwOf f.wfmt
  let nb := ceilDiv f.n 8
  let kb := ceilDiv f.k kw
  let m2 := ceilDiv f.m 2
  let emit := f.omode == 1
  let formats := pairOk f.wfmt f.afmt && decide (f.omode ≤ 1) &&
    (!emit || (f.ofmt == 0 || f.ofmt == 1 || f.ofmt == 2 || f.ofmt == 4 || f.ofmt == 5 || f.ofmt == 6))
  let aligned := decide (f.a % 8 = 0) && decide (f.w % 8 = 0) && decide (f.o % 8 = 0) && decide (f.p % 8 = 0)
  let scale := !emit || qsetOk q
  if f.opc = 0x22 then
    let rows := streamRows x
    !(priv && formats && aligned && scale && emit && decide (f.n ≤ 8) && decide (f.k ≤ kw) &&
      decide (f.w + weightWords f.wfmt 1 1 ≤ 4096) && decide (f.a + 8 * aRing x ≤ 4096) && decide (f.o + 8 * oRing x ≤ 4096) &&
      (!f.acc || decide (f.p + 8 * ceilDiv rows 2 ≤ 1024)))
  else
    let accOk := if emit && !f.acc then decide (f.p + 8 * m2 ≤ 1024) else decide (f.p + 8 * nb * m2 ≤ 1024)
    let outOk := !emit || decide (f.o + 8 * ceilDiv f.n (8 * krOut f.ofmt) * ceilDiv f.m (qOut f.ofmt) ≤ 4096)
    let own :=
      if f.opc = 0x20 then
        f.low == 0 && decide (f.a + 8 * kb * ceilDiv f.m (qAct f.afmt f.wfmt) ≤ 4096) &&
        decide (f.w + weightWords f.wfmt nb kb ≤ 4096)
      else
        bits x 0 11 == 0 && decide (bits x 12 12 % 4 = 0) && decide (bits x 12 12 + 4 ≤ 4096) &&
        (!bit x 11 || decide (f.n = f.k))
    !(formats && aligned && scale && accOk && outOk && own)

/-- The conditions of R132 on a window descriptor, checked when the array reads it. -/
def winUndefined (x : Nat) (w : Win) : Bool :=
  let f := arrFields x
  let kw := kwOf f.wfmt
  let kb := ceilDiv f.k kw
  let taps := w.fh * w.fw
  let words := if bit x 11 then weightWords f.wfmt (ceilDiv f.n 8) 1 else weightWords f.wfmt (ceilDiv f.n 8) kb
  let used := if f.afmt = 6 then 16 else if f.afmt = 1 then 4 else 8
  !(decide (w.fh ≤ 7) && decide (w.fw ≤ 7) && decide (f.m % w.owt = 0) &&
    decide (0 < w.ih) && decide (0 < w.iw) && decide (0 < w.th) && decide (0 < w.tw) &&
    decide (f.a + 8 * kb * ceilDiv (w.th * w.tw) (qAct f.afmt f.wfmt) ≤ 4096) &&
    decide (w.pconst < 2 ^ used) && w.rsv0 == 0 && w.rsv3 == 0 && decide (f.w + taps * words ≤ 4096))

end Sys2Proof.Machine
end

