-- ==== Sys2Proof/Machine/Threads.lean ====
section
/-!
DEFINITION. Sys2Proof/Machine/Threads.lean: what happens to threads, tags, work units and clusters inside the commands of
spec/01_clusters_cores_threads.md: error detection (R41, R52, R53), tags and waking (R30, R34), thread faults (R36), the
end of a work unit's running (R27).
-/
namespace Sys2Proof.Machine
open Reg

/-! ### Error detection in a cluster's memories -/

/-- CLU_ECC_LAST and CLU_ECC_TIME as a record's DETAIL (R475). -/
def eccDetail (s : State) (n : Nat) : Nat :=
  b2n (isSet s (CLU_ECC_LAST_VALID n)) * 2 ^ 31 + rd s (CLU_ECC_LAST_UE n) * 2 ^ 30 + rd s (CLU_ECC_LAST_MEM n) * 2 ^ 27 +
    rd s (CLU_ECC_LAST_CORE n) * 2 ^ 21 + rd s (CLU_ECC_LAST_BANK n) * 2 ^ 16 + rd s (CLU_ECC_LAST_WORD n) +
    rd s (CLU_ECC_TIME_TIME n) * 2 ^ 32

/-- Capture of an error in CLU_ECC_LAST (R53): the first while VALID = 0; an uncorrectable one replaces a corrected one. -/
def eccCapture (s : State) (n mem c w : Nat) (ue : Bool) : State :=
  if !isSet s (CLU_ECC_LAST_VALID n) || (ue && !isSet s (CLU_ECC_LAST_UE n)) then
    let s := wr (wr s (CLU_ECC_LAST_VALID n) 1) (CLU_ECC_LAST_UE n) (b2n ue)
    let s := wr (wr s (CLU_ECC_LAST_MEM n) mem) (CLU_ECC_LAST_CORE n) (if mem = 4 then 0 else c)
    let s := wr (wr s (CLU_ECC_LAST_BANK n) (w % memBanks mem)) (CLU_ECC_LAST_WORD n) (w / memBanks mem)
    wr s (CLU_ECC_TIME_TIME n) s.time
  else s

/-- The partition that owns a physical cluster; 0xFF when it is not mapped or no partition holds its logical number (R348,
R475). -/
def cluPart (s : State) (n : Nat) : Nat :=
  let p := rd s (CLU_MAP_PART n)
  let l := rd s (CLU_MAP_LOGICAL n)
  match tfind p s.parts with
  | some x => if isSet s (CLU_MAP_MAPPED n) && (x.logical.contains l || x.leaving.contains l) then p else 0xFF
  | none => 0xFF

/-- The retirement history after an uncorrectable error in a word that was not marked poisoned, or a corrected error in a
bank (R18); the cluster is doomed once a condition of R18's table holds. 24 h is 8,640,000,000,000 ticks and 1 h 360,000,000,000 (R13). -/
def eccHistory (s : State) (n mem c w : Nat) (ue : Bool) : State :=
  let k := clu s n
  let word := (memBase n mem c + 8 * w) / 8
  if ue then
    let times := (k.ueTimes ++ [s.time]).filter (fun t => decide (s.time < t + 8640000000000))
    let again := tget 0 k.ueWords word == 2
    setClu s n { k with ueTimes := times, ueWords := tput 0 k.ueWords word 1, doomed := k.doomed || again || decide (3 ≤ times.length) }
  else
    let bank := mem * 4096 + (if mem = 4 then 0 else c * 32) + w % memBanks mem
    let times := ((tget [] k.ceTimes bank) ++ [s.time]).filter (fun t => decide (s.time < t + 360000000000))
    setClu s n { k with ceTimes := tput [] k.ceTimes bank times, doomed := k.doomed || decide (1000 < times.length) }

/-- One detection of an error in word `w` of a cluster memory (R52, R53, R473): counter, capture, retirement history
(R18: not of a word already marked poisoned), report. -/
def eccDetect (s : State) (n mem c w : Nat) (ue : Bool) : State :=
  let s := bump s (if ue then CLU_ECC_CNT_UE n mem else CLU_ECC_CNT_CE n mem) 1
  let s := eccCapture s n mem c w ue
  let s := if ue then wr s (CLU_STAT_UE_PEND n) 1 else s
  let s := if ue && poisoned s (memBase n mem c + 8 * w) then s else eccHistory s n mem c w ue
  report s n (if ue then clsContained else clsCorrected) (if ue then 0x61 else 0) (cluPart s n) (if mem = 4 then 0xFF else c)
    (eccDetail s n)

/-! ### Reads and writes of words that are checked (R41-R43, R45, R52) -/

/-- A read of word `w` of a cluster memory (R41, R43, R52): a corrected word is delivered and counted once; one that is
poisoned or has an uncorrectable error is counted and delivered poisoned (`true`). -/
def readWord (s : State) (n m c w : Nat) : State × Bool :=
  let a := memBase n m c + 8 * w
  if badWord s a then (eccDetect s n m c w true, true)
  else if upset s a = some false then (eccDetect s n m c w false, false)
  else (s, false)

/-- Reads in order, given as (memory, core, word), up to the first that is delivered poisoned. -/
def readWords (n : Nat) : List (Nat × Nat × Nat) → State → State × Bool
  | [], s => (s, false)
  | x :: t, s =>
    let z := readWord s n x.1 x.2.1 x.2.2
    if z.2 then z else readWords n t z.1

/-- The memory, core and word of an internal address of a cluster memory (R602), with its cluster. -/
def cellOf (a : Nat) : Option (Nat × Nat × Nat × Nat) :=
  if a < 0x40000000 then none
  else
    let n := (a - 0x40000000) / 0x1000000
    let o := (a - 0x40000000) % 0x1000000
    if 34 ≤ n then none
    else if 0x100000 ≤ o ∧ o < 0x200000 then some (n, 4, 0, (o - 0x100000) / 8)
    else if 0x400000 ≤ o ∧ o < 0x400000 + 64 * 0x20000 then
      let c := (o - 0x400000) / 0x20000
      let b := (o - 0x400000) % 0x20000
      if b < 0x8000 then some (n, 0, c, b / 8)
      else if b < 0x10000 then some (n, 1, c, (b - 0x8000) / 8)
      else if b < 0x12000 then some (n, 2, c, (b - 0x10000) / 8)
      else if 0x18000 ≤ b ∧ b < 0x1C000 then some (n, 3, c, (b - 0x18000) / 8)
      else none
    else none

/-- Number of a bank among its cluster's scrubbers. -/
def bankKey (mem c b : Nat) : Nat := mem * 4096 + (if mem = 4 then 0 else c * 32) + b

/-- Words of a bank (R37). -/
def bankWords (mem : Nat) : Nat := memSize mem / 8 / memBanks mem

/-- Every bank of a cluster's memories. -/
def allBanks : List Nat :=
  (List.range 64).flatMap (fun c => ([0, 1, 2, 3]).flatMap (fun m => (List.range (memBanks m)).map (fun b => bankKey m c b))) ++
    (List.range 32).map (fun b => bankKey 4 0 b)

/-- A sweep is complete when every bank has passed (R54); its length in units of 10 ms counts whole units. -/
def settleSweep (s : State) (n : Nat) : State :=
  let u := clu s n
  if allBanks.all (fun b => (tget {} u.scrub b).passed) then
    let len := (s.time - u.lastSweep) / 1000000
    let s := wr s (CLU_SCRUB_STAT_SWEEPS n) (rd s (CLU_SCRUB_STAT_SWEEPS n) + 1)
    let s := wr s (CLU_SCRUB_STAT_MAX_SWEEP n) (min 0xFFFF (max (rd s (CLU_SCRUB_STAT_MAX_SWEEP n)) len))
    setClu s n { u with lastSweep := s.time,
                        scrub := allBanks.foldl (fun t b => tput {} t b { tget {} t b with passed := false }) u.scrub }
  else s

/-- A scrubber advances past its word. -/
def scrubAdvance (s : State) (n mem c b : Nat) : State :=
  let u := clu s n
  let key := bankKey mem c b
  let x := tget {} u.scrub key
  let next := (x.next + 1) % bankWords mem
  let y : Scrubber := { next, writeBack := none, passed := x.passed || next == 0, last := s.time }
  settleSweep (setClu s n { u with scrub := tput {} u.scrub key y }) n

/-- A port has written a word: a write-back waiting for it is dropped and its scrubber advances (R45). -/
def portWrote (s : State) (a : Nat) : State :=
  match cellOf a with
  | none => s
  | some (n, m, c, w) =>
    if (tget {} (clu s n).scrub (bankKey m c (w % memBanks m))).writeBack = some w then scrubAdvance s n m c (w % memBanks m) else s

/-- The read inside a write of fewer than 64 bits (R42): a corrected word is merged and written with good check bits; one
with an uncorrectable error is counted, and the whole word is marked poisoned. A word so marked stays so. -/
def mergeWord (s : State) (a : Nat) : State :=
  match cellOf a, (if poisoned s a then none else upset s a) with
  | some (n, m, c, w), some true => setPoison (eccDetect s n m c w true) a
  | some (n, m, c, w), some false => dropUpset (eccDetect s n m c w false) a
  | _, _ => s

/-- A word rewritten in full (R18, R41, R42). -/
def fullWrite (s : State) (a : Nat) : State :=
  match cellOf a with
  | some (n, _, _, _) => noteRewrite (clearPoison s a) n a
  | none => clearPoison s a

/-- What checks a word `w` (address / 8) meets when the bytes at the addresses `l` have been written. -/
def wroteWord (l : List Nat) (s : State) (w : Nat) : State :=
  let known := s.poison.contains w || (tfind w s.upsets).isSome ||
    (match cellOf (8 * w) with | some x => tget 0 (clu s x.1).ueWords w == 1 | none => false)
  let s := if !known then s
    else if (List.range 8).all (fun i => l.contains (8 * w + i)) then fullWrite s (8 * w) else mergeWord s (8 * w)
  portWrote s (8 * w)

/-- The list without repeats that stand beside each other. -/
def dedupNext : List Nat → List Nat
  | [] => []
  | [x] => [x]
  | x :: y :: t => if x = y then dedupNext (y :: t) else x :: dedupNext (y :: t)

/-- Bytes at the given addresses have been written by a port: words wholly covered lose their poison and count as
rewritten (R18, R42), the others are read, corrected and merged (R42); pending write-backs are dropped (R45). -/
def wroteBytes (s : State) (l : List Nat) : State := (dedupNext (l.map (· / 8))).foldl (wroteWord l) s

/-- `n` bytes from `a` have been written by a port. -/
def wroteRange (s : State) (a n : Nat) : State := wroteBytes s ((List.range n).map (fun i => a + i))

/-! ### Tags and waiting threads -/

def tagOf (s : State) (k tag : Nat) : Tag := tget .idle (thr s k).tags tag

/-- A tag put in a state. -/
def setTag (s : State) (k tag : Nat) (v : Tag) : State :=
  let t := thr s k
  setThr s k { t with tags := tput .idle t.tags tag v }

/-- Threads 0-7 of a core that wait as `w` says become READY. -/
def wakeCore (s : State) (cn : Nat) (w : Wait) : State :=
  (List.range 8).foldl (fun s i => if (thr s (cn * 8 + i)).wait = w then setThrState s (cn * 8 + i) 1 .none else s) s

/-! ### Work units -/

/-- Is a thread of the unit still running (not STOPPED, not FAULTED)? -/
def unitRunning (s : State) (u : WorkUnit) : Bool := u.threads.any (fun k => thrState s k != 0 && thrState s k != 6)

/-- Is a work unit running on the cluster? -/
def clusterBusy (s : State) (n : Nat) : Bool :=
  s.units.any (fun e => unitRunning s e.2 && e.2.threads.any (fun k => k / 512 == n))

/-- Does the cluster hold queued vector-unit or engine operations, which run to completion before QUIESCING ends (R148)? -/
def vecBusy (s : State) (n : Nat) : Bool := !(clu s n).vecq.isEmpty || (clu s n).engine.isSome

/-- A cluster with no work unit left running goes from ACTIVE or QUIESCING to IDLE (R27). -/
def settleCluster (s : State) (n : Nat) : State :=
  let st := rd s (CLU_STAT_STATE n)
  if st = 3 ∧ clusterBusy s n = false then wr s (CLU_STAT_STATE n) 2
  else if st = 4 ∧ clusterBusy s n = false ∧ vecBusy s n = false then
    wr (wr s (CLU_STAT_STATE n) 2) (CLU_CTRL_QUIESCE n) 0
  else s

/-- Clusters that hold a thread of the unit. -/
def unitClusters (u : WorkUnit) : List Nat := (List.range 34).filter (fun n => u.threads.any (fun k => k / 512 == n))

/-- Write free values over `n` 64-bit words from byte address `a` (a destination the spec calls undefined). -/
def scramble (s : State) (a : Nat) : Nat → State
  | 0 => s
  | n + 1 =>
    let p := fresh s
    scramble (wrN p.2 a 8 p.1) (a + 8) n

/-- The other threads of a failed unit stop; those at a barrier are released and fault at their next WAIT or barrier
(R35, R36). -/
def stopOthers (s : State) (l : List Nat) : State :=
  l.foldl (fun s k =>
    let t := thr s k
    if thrState s k = 0 ∨ thrState s k = 6 then s
    else
      match t.wait with
      | .coreBarrier => setThr (setThrState s k 1 .none) k { thr (setThrState s k 1 .none) k with faultDue := true }
      | .clusterBarrier _ => setThr (setThrState s k 1 .none) k { thr (setThrState s k 1 .none) k with faultDue := true }
      | _ => setThrState s k 0 .none) s

/-- A core barrier every started thread of the core has reached completes (R35). -/
def settleCoreBarrier (s : State) (cn : Nat) : State :=
  let started := ((List.range 8).map (fun i => cn * 8 + i)).filter (fun k => thrState s k != 0 && thrState s k != 6)
  if started.all (fun k => (thr s k).wait == .coreBarrier) then wakeCore s cn .coreBarrier else s

end Sys2Proof.Machine
end

