-- ==== Sys2Proof/Machine/Array.lean ====
section
/-!
DEFINITION. Sys2Proof/Machine/Array.lean: the cell array's commands (spec/02_cell_array_dataflow.md, the array part of
spec/03_number_formats.md and the CONV of spec/04_image_operators.md).
-/
namespace Sys2Proof.Machine
open Reg

/-! ### One accumulator write -/

/-- Where the activations of a streamed row come from: a constant for every channel, or operand row `p` of `rows`. -/
structure RowSrc where
  src : TapSrc
  rows : Nat
deriving DecidableEq, Repr

/-- The code of the activation element (kb, r, j) of a streamed row. -/
def actCode (s : State) (cn : Nat) (f : ArrF) (x : RowSrc) (kb r j : Nat) : Nat :=
  match x.src with
  | .const v => v
  | .row p => fetchBits s (cn / 64) 1 (cn % 64) (actPlace f.afmt (qAct f.afmt f.wfmt) (krOf f.wfmt) f.a x.rows p kb r j)
  | .outside => 0

/-- The weight base, chunk counts and indices of one pass (R61, R103, R129, R133). -/
structure PassAt where
  wbase : Nat
  kbs : Nat
  nb : Nat
  wkb : Nat
  kb : Nat
  esc : Nat
  dw : Bool
deriving DecidableEq, Repr

/-- Is the format Z4E or Z3C, which has an escape table (R103)? -/
def zFmt (wfmt : Nat) : Bool := wfmt == 2 || wfmt == 3

/-- The WM words a pass loads into the weight registers (R57, R61, R67, R105): one word per cell row, then the second word
of each row for BF16 or the escape words of the 8 columns for Z4E and Z3C. -/
def passWords (f : ArrF) (p : PassAt) : List Nat :=
  if f.wfmt = 6 then (List.range 16).map (fun i => p.wbase + 16 * (p.nb * p.kbs + p.wkb) + i)
  else
    let base := if p.dw && zFmt f.wfmt then p.wbase + 16 * p.nb else p.wbase + 8 * (p.nb * p.kbs + p.wkb)
    (List.range 8).map (fun i => base + i) ++ (if zFmt f.wfmt then (List.range 8).map (fun c => p.esc + c) else [])

/-- The words a pass loads, as WM holds them. -/
def loadWords (s : State) (cn : Nat) (l : List Nat) : List Nat := l.map (fun w => rdWord s (cn / 64) 0 (cn % 64) w)

/-- The code of the weight (r, j) of column c in the weight registers `ws` (R61). -/
def weightCode (ws : List Nat) (f : ArrF) (r j c : Nat) : Nat :=
  if f.wfmt = 6 then bits (ws.getD (8 * (c / 4) + r) 0) (16 * (c % 4)) 16
  else if weight4 f.wfmt then bits (ws.getD r 0) (4 * (c * 2 + j)) 4
  else bits (ws.getD r 0) (8 * c) 8

/-- Is element (r, j) of column c inside the operand (R66: cells beyond K or N hold zero weights)? -/
def inTile (f : ArrF) (p : PassAt) (r j c : Nat) : Bool :=
  decide (kwOf f.wfmt * p.kb + krOf f.wfmt * r + j < f.k) && decide (8 * p.nb + c < f.n)

/-- The exact integer column sum of a streamed row (R56, R89). -/
def intColumn (s : State) (cn : Nat) (f : ArrF) (p : PassAt) (ws : List Nat) (x : RowSrc) (c : Nat) : Int :=
  (List.range 8).foldl (fun t r =>
    (List.range (krOf f.wfmt)).foldl (fun t j =>
      if inTile f p r j c then
        t + signExt (if f.wfmt = 0 then 8 else 4) (weightCode ws f r j c) *
            signExt (if f.afmt = 0 then 8 else 4) (actCode s cn f x p.kb r j)
      else t) t) 0

/-- s + p by RNE in the array, with R91's overflow. -/
def arrayAddFl (x : Nat) (y : Fl) : Nat × Bool :=
  let z := flAdd (ofFp32 x) y
  if overflowsFp32 z then
    (match z with
     | .fin neg _ _ => (maxFp32 neg, true)
     | _ => (toFp32 z, false))
  else (toFp32 z, false)

/-- The FP32 column sum in cell-row order (R90): the first product, then one rounding per addition. DESIGN CHOICE (log entry
142): the rule calls products exact in FP32; a BF16 product outside FP32's exact range is kept exact and s0 is its rounding to
FP32, which counts as an addition where it overflows. -/
def floatColumn (s : State) (cn : Nat) (f : ArrF) (p : PassAt) (ws : List Nat) (x : RowSrc) (c : Nat) : Nat × Bool :=
  let r := (List.range 8).foldl (fun (t : Option (Nat × Bool)) r =>
    if inTile f p r 0 c then
      let y := flMul (elemFl f.wfmt (weightCode ws f r 0 c)) (elemFl f.afmt (actCode s cn f x p.kb r 0))
      match t with
      | none => some (arrayAddFl 0x80000000 y)
      | some (v, o) => let z := arrayAddFl v y; some (z.1, o || z.2)
    else t) none
  r.getD (0, false)

/-- What one accumulator write gives: the 32-bit value, whether it saturated (R89, R91), NONFINITE increments (R91, R106). -/
structure AccOut where
  v : Nat
  sat : Bool
  nonf : Nat
deriving DecidableEq, Repr

/-- The drain's operation for a row and column (R89-R91, R106): `old` is the accumulator, none when it is overwritten. -/
def drainAdd (s : State) (cn : Nat) (f : ArrF) (p : PassAt) (ws : List Nat) (x : RowSrc) (c : Nat) (old : Option Nat) : AccOut :=
  if 4 ≤ f.wfmt then
    let y := floatColumn s cn f p ws x c
    let z := match old with
      | none => y
      | some a => let z := arrayAddFl a (ofFp32 y.1); (z.1, y.2 || z.2)
    ⟨z.1, z.2, b2n (nonfiniteFp32 z.1)⟩
  else
    let t := intColumn s cn f p ws x c
    if zFmt f.wfmt then
      let e := ws.getD (8 + c) 0
      let pos := bits e 32 4
      let prod : Int × Bool × Bool :=
        if bit e 36 then
          rneToInt32 (ofFp32 (fmul (toFp32 (elemFl f.afmt (actCode s cn f x p.kb (pos / 2) (pos % 2)))) (bits e 0 32)))
        else (0, false, false)
      let y := t * (bits e 37 4 : Nat) * (2 ^ bits e 41 4 : Nat) + prod.1
      let z := satInt32 (match old with | none => y | some a => toInt32 a + y)
      ⟨ofInt32 z.1, z.2 || prod.2.1, b2n prod.2.2⟩
    else
      let z := satInt32 (match old with | none => t | some a => toInt32 a + t)
      ⟨ofInt32 z.1, z.2, 0⟩

/-- Where accumulator (m, 8 * nb + c) lies in PM (R61, R66). -/
def accPlace (f : ArrF) (nb m c : Nat) : Nat × Nat × Nat :=
  let slot := if f.omode = 1 ∧ f.acc = false then 0 else nb
  (f.p + 8 * (slot * ceilDiv f.m 2 + m / 2) + c, 32 * (m % 2), 32)

/-! ### Emitting results (R108-R111) -/

/-- Counters of a core raised (R113). -/
def addCounts (s : State) (cn : Nat) (satA satO nonf : Nat) : State :=
  let k := core s cn
  setCore s cn { k with satAcc := satAdd 65535 k.satAcc satA, satOut := satAdd 65535 k.satOut satO,
                        nonfinite := satAdd 65535 k.nonfinite nonf }

/-- The per-channel scale of output column n under an entry (R107). DESIGN CHOICE (log entry 143): where VEC_BASE + n / 2 lies
past the end of AM the scale is a free value. -/
def chanScale (s : State) (cn q n : Nat) : Option Nat × State :=
  if bit q 35 then
    if bits q 36 12 + n / 2 < 4096 then (some (bits (rdWord s (cn / 64) 1 (cn % 64) (bits q 36 12 + n / 2)) (32 * (n % 2)) 32), s)
    else
      let p := fresh s
      (some (p.1 % 2 ^ 32), p.2)
  else (none, s)

/-- The conversion of a final sum of output column n: the code for OFMT, and the state with the column drain's LFSR
stepped (R110) and the counters raised (R109, R113). -/
def emitConvert (s : State) (cn : Nat) (x : ArrInstr) (n c t : Nat) : Nat × State :=
  let f := arrFields x.word
  let q := x.qset
  let t32 := if 4 ≤ f.wfmt then t else toFp32 (flOfInt (toInt32 t))
  let ch := chanScale s cn q n
  let s := ch.2
  let v := scaleSum t32 (bits q 0 32) ch.1 (bit q 34)
  let stoch := bits q 32 2 == 1
  let k := core s cn
  let l := lfsrStep (tget 0 k.lfsr c)
  let s := if stoch then setCore s cn { k with lfsr := tput 0 k.lfsr c l } else s
  let z := convertTo f.ofmt stoch l (ofFp32 v)
  (z.code, addCounts s cn 0 (b2n z.sat) (b2n z.nonfinite))

/-- Place of an emitted result (m, n) (R61): `rows` rows of the region, `row` its row there. -/
def emitPlace (f : ArrF) (rows row n : Nat) : Nat × Nat × Nat :=
  let kr := krOut f.ofmt
  actPlace f.ofmt (qOut f.ofmt) kr f.o rows row (n / (8 * kr)) (n % (8 * kr) / kr) (n % kr)

/-- Write an emitted result where R61 places it. -/
def emitWrite (s : State) (cn : Nat) (f : ArrF) (rows row n code : Nat) : State :=
  storeBits s (cn / 64) 1 (cn % 64) (emitPlace f rows row n) code

/-- One row and column of a pass with the weights `ws` in the cells: the drain's operation and where its value goes (R66,
R130). DEDUCED (log entry 25): a final sum that is emitted counts in SAT_ACC and NONFINITE as an accumulator write, and its
converted element again. -/
def passCell (x : ArrInstr) (cn : Nat) (p : PassAt) (ws : List Nat) (src : RowSrc) (m c : Nat) (first last : Bool) (s : State) : State :=
  let f := arrFields x.word
  let pl := accPlace f p.nb m c
  let old := if first && !f.acc then none else some (fetchBits s (cn / 64) 2 (cn % 64) pl)
  let z := drainAdd s cn f p ws src c old
  let s := addCounts s cn (b2n z.sat) 0 z.nonf
  if last && f.omode == 1 then
    if 8 * p.nb + c < f.n then
      let e := emitConvert s cn x (8 * p.nb + c) c z.v
      emitWrite e.2 cn f f.m m (8 * p.nb + c) e.1
    else s
  else storeBits s (cn / 64) 2 (cn % 64) pl z.v

/-! ### The passes of an instruction (R57, R66, R130) -/

/-- A pass: its weights, its window tap (0 for a MATMUL), whether it is the first or the last of its N chunk. -/
structure Pass where
  at' : PassAt
  tap : Nat
  first : Bool
  last : Bool
deriving DecidableEq, Repr

/-- Taps of an instruction's window. -/
def tapsOf (x : ArrInstr) : Nat := if (arrFields x.word).opc = 0x21 then (winOf x.window).fh * (winOf x.window).fw else 1

/-- Does a CONV multiply depthwise (R133)? -/
def depthwise (x : ArrInstr) : Bool := (arrFields x.word).opc == 0x21 && bit x.word 11

/-- The passes in order: the fold of a MATMUL (R66), of a CONV (R130, R133), or the one pass of a STREAM (R70). -/
def passes (x : ArrInstr) : List Pass :=
  let f := arrFields x.word
  let kw := kwOf f.wfmt
  let kbs := ceilDiv f.k kw
  let nbs := ceilDiv f.n 8
  let taps := tapsOf x
  let dw := depthwise x
  if f.opc = 0x22 then [⟨⟨f.w, 1, 0, 0, 0, f.w + (if f.wfmt = 6 then 16 else 8), false⟩, 0, true, true⟩]
  else
    let sz := weightWords f.wfmt nbs (if dw then 1 else kbs)
    (List.range nbs).flatMap (fun nb => (List.range taps).flatMap (fun t =>
      if dw then [⟨⟨f.w + t * sz, 1, nb, 0, 8 * nb / kw, f.w + t * sz + 8 * (2 * nb + 1), true⟩, t, t == 0, t + 1 == taps⟩]
      else (List.range kbs).map (fun kb =>
        ⟨⟨f.w + t * sz, kbs, nb, kb, kb, f.w + t * sz + 8 * nbs * kbs + 8 * (nb * kbs + kb), false⟩, t,
          t == 0 && kb == 0, t + 1 == taps && kb + 1 == kbs⟩)))

/-- Where streamed row m of a tap takes its activations, and the rows of the operand (R61, R127). -/
def rowSource (x : ArrInstr) (tap m : Nat) : RowSrc :=
  if (arrFields x.word).opc = 0x21 then
    let w := winOf x.window
    ⟨tapSource w m (tap / w.fw) (tap % w.fw), w.th * w.tw⟩
  else ⟨.row m, (arrFields x.word).m⟩

/-- One pass: its weights become the active ones, then M rows stream, 8 columns each (R57, R66). -/
def runPass (x : ArrInstr) (cn : Nat) (s : State) (p : Pass) : State :=
  let f := arrFields x.word
  let ws := loadWords s cn (passWords f p.at')
  let s := setCore s cn { core s cn with active := ws }
  (List.range f.m).foldl (fun s m =>
    (List.range 8).foldl (fun s c => passCell x cn p.at' ws (rowSource x p.tap m) m c p.first p.last s) s) s

/-- The fold of a MATMUL or CONV. -/
def runPasses (x : ArrInstr) (cn : Nat) (s : State) : State := (passes x).foldl (runPass x cn) s

/-! ### Where an instruction reads and writes -/

/-- Is the PM region used (R66): results stay there, or sums are kept between chunks, or ACC = 1? -/
def pmUsed (x : ArrInstr) : Bool :=
  let f := arrFields x.word
  if f.opc = 0x22 then f.acc
  else f.omode == 0 || f.acc || decide (1 < tapsOf x * (if depthwise x then 1 else ceilDiv f.k (kwOf f.wfmt)))

/-- The accumulators the instruction writes in PM (R61, R66), or a STREAM with ACC = 1 has there. -/
def pmPlaces (x : ArrInstr) : List (Nat × Nat × Nat) :=
  let f := arrFields x.word
  if pmUsed x then
    if f.opc = 0x22 then
      (List.range (streamRows x.word)).flatMap (fun i => (List.range 8).map (fun c => (f.p + 8 * (i / 2) + c, 32 * (i % 2), 32)))
    else
      (List.range (if f.omode = 1 ∧ f.acc = false then 1 else ceilDiv f.n 8)).flatMap (fun nb =>
        (List.range f.m).flatMap (fun m => (List.range 8).map (fun c => accPlace f nb m c)))
  else []

/-- The places of the results an instruction emits to AM: columns n < N only (R61, R66, R71). -/
def amPlaces (x : ArrInstr) : List (Nat × Nat × Nat) :=
  let f := arrFields x.word
  if f.omode = 1 then
    let ring := oRing x.word * qOut f.ofmt
    let rows := if f.opc = 0x22 then ring else f.m
    (List.range (if f.opc = 0x22 then min ring (streamRows x.word) else f.m)).flatMap (fun m =>
      (List.range f.n).map (fun n => emitPlace f rows m n))
  else []

/-- The words an instruction writes: AM word w as w, PM word w as 4096 + w. -/
def writtenWords (x : ArrInstr) : List Nat :=
  dedupNext ((amPlaces x).map (fun p => p.1)) ++ dedupNext ((pmPlaces x).map (fun p => 4096 + p.1))

/-- The AM words of an operand row in K chunk kb: those of cell rows that hold a K element (R61, R66). -/
def rowWords (x : ArrInstr) (rows row kb : Nat) : List Nat :=
  let f := arrFields x.word
  ((List.range 8).filter (fun r => decide (kwOf f.wfmt * kb + krOf f.wfmt * r < f.k))).map (fun r =>
    (actPlace f.afmt (qAct f.afmt f.wfmt) (krOf f.wfmt) f.a rows row kb r 0).1)

/-- The AM words that hold the channel scales an EMIT uses (R107). -/
def scaleWords (x : ArrInstr) : List Nat :=
  let f := arrFields x.word
  if f.omode = 1 ∧ bit x.qset 35 = true then
    ((List.range (ceilDiv f.n 2)).map (fun i => bits x.qset 36 12 + i)).filter (fun w => decide (w < 4096))
  else []

/-- The words an instruction reads besides its weights: AM word w as w, PM word w as 4096 + w. A STREAM: its input ring. -/
def readOperands (x : ArrInstr) : List Nat :=
  let f := arrFields x.word
  let am :=
    if f.opc = 0x22 then (List.range (8 * aRing x.word)).map (fun i => f.a + i)
    else (passes x).flatMap (fun p => if p.at'.nb ≠ 0 ∧ depthwise x = false then [] else (List.range f.m).flatMap (fun m =>
      match (rowSource x p.tap m).src with
      | .row r => rowWords x (rowSource x p.tap m).rows r p.at'.kb
      | _ => []))
  dedupNext am ++ scaleWords x ++ (if f.acc then dedupNext ((pmPlaces x).map (fun p => 4096 + p.1)) else [])

/-- What those words and the weight operand hold. -/
def operandValues (s : State) (cn : Nat) (x : ArrInstr) : List Nat :=
  ((passes x).flatMap (fun p => passWords (arrFields x.word) p.at')).map (fun w => rdWord s (cn / 64) 0 (cn % 64) w) ++
    (readOperands x).map (fun w => if w < 4096 then rdWord s (cn / 64) 1 (cn % 64) w else rdWord s (cn / 64) 2 (cn % 64) (w - 4096))

/-- Free values over the given places of a core memory. -/
def scramblePlaces (s : State) (cn m : Nat) (l : List (Nat × Nat × Nat)) : State :=
  l.foldl (fun s pl => let p := fresh s; storeBits p.2 (cn / 64) m (cn % 64) pl p.1) s

/-- An instruction's destinations in PM and AM hold free values: it is abandoned (R65), or read words that an earlier
instruction was writing (R64, R85). -/
def scrambleDest (s : State) (cn : Nat) (x : ArrInstr) : State :=
  scramblePlaces (scramblePlaces s cn 2 (pmPlaces x)) cn 1 (amPlaces x)

/-- After an EMIT the PM region that it used is undefined (R66). -/
def afterEmit (s : State) (cn : Nat) (x : ArrInstr) : State :=
  if (arrFields x.word).omode = 1 then scramblePlaces s cn 2 (pmPlaces x) else s

/-- The results of an instruction whose operands were written while it ran: free values, and free increments of the counters
that count them. -/
def freeResults (s : State) (cn : Nat) (x : ArrInstr) : State :=
  let s := scrambleDest s cn x
  let a := fresh s
  let o := fresh a.2
  let n := fresh o.2
  addCounts n.2 cn a.1 o.1 n.1

/-! ### The checked accesses of an instruction (R42, R43, R128) -/

/-- What an instruction meets at a streamed row, in order: a read of a word, a write of part of a word, a read outside the
CONV's tile. -/
inductive Access where
  | read (mem word : Nat)
  | merge (mem word : Nat)
  | outside
deriving DecidableEq, Repr

/-- The accesses of a pass: the weights it loads, then per row the activations, the accumulators and the writes. One read of a
word per group of rows it holds counts once (log entry 144). -/
def passAccesses (x : ArrInstr) (p : Pass) : List Access :=
  let f := arrFields x.word
  let q := qAct f.afmt f.wfmt
  (passWords f p.at').map (.read 0) ++
  (if p.last then (scaleWords x).map (.read 1) else []) ++
  (List.range f.m).flatMap (fun m =>
    (match (rowSource x p.tap m).src with
     | .row r => if f.opc = 0x20 ∧ m % q ≠ 0 then [] else (rowWords x (rowSource x p.tap m).rows r p.at'.kb).map (.read 1)
     | .const _ => []
     | .outside => [.outside]) ++
    (List.range 8).flatMap (fun c =>
      let w := (accPlace f p.at'.nb m c).1
      (if p.first && !f.acc then [] else if m % 2 = 0 then [.read 2 w] else []) ++
      (if p.last && f.omode == 1 then
         (if 8 * p.at'.nb + c < f.n then [.merge 1 (emitPlace f f.m m (8 * p.at'.nb + c)).1] else [])
       else [.merge 2 w])))

/-- How a run of accesses ends: none stopped it, a word was delivered poisoned, or a read fell outside the tile. -/
inductive Stop where
  | none | poison | outside
deriving DecidableEq, Repr

/-- Accesses in order, up to the first that stops the instruction. -/
def runAccesses (cn : Nat) : List Access → State → State × Stop
  | [], s => (s, .none)
  | .read m w :: t, s =>
    let z := readWord s (cn / 64) m (cn % 64) w
    if z.2 then (z.1, .poison) else runAccesses cn t z.1
  | .merge m w :: t, s =>
    let a := memBase (cn / 64) m (cn % 64) + 8 * w
    runAccesses cn t (portWrote (mergeWord s a) a)
  | .outside :: _, s => (s, .outside)

/-! ### Abandoned instructions and thread faults (R35, R36, R65) -/

/-- The instructions of a core's queue that satisfy `p` are abandoned, executing and pending (R65); a place in the queue wakes
the threads that wait for it. -/
def abandonWhere (s : State) (cn : Nat) (p : ArrInstr → Bool) : State :=
  let k := core s cn
  if k.arr.any p then
    let first := match k.arr with
      | x :: _ => p x
      | [] => false
    let k' := { k with arr := k.arr.filter (fun x => !p x) }
    let k' := if first then { k' with slips := [], freezers := [] } else k'
    wakeCore ((k.arr.filter p).foldl (fun s x => scrambleDest s cn x) (setCore s cn k')) cn .arrayQueue
  else s

/-- A work unit's instructions on a core are abandoned. -/
def abandonArray (s : State) (cn unit : Nat) : State := abandonWhere s cn (fun x => (thr s x.thread).unit == some unit)

/-- The cores a thread's fault touches: those of its work unit. -/
def faultCores (s : State) (k : Nat) : List Nat :=
  match (thr s k).unit.bind (fun u => tfind u s.units) with
  | some w => (w.threads.map (fun j => j / 8)).eraseDups
  | none => [k / 8]

/-- A thread faults (R36): FAULTED, the core's bit in CLU_CORE_FAULT, the other threads of its work unit stopped or released
from their barriers (R35), the unit failed and its array instructions abandoned (R65), its frame dropped (R214), one report
under the cluster's root domain, with `status`; a word the memory already reported is not reported again (R473: `reported`). -/
def faultOnce (s : State) (k status : Nat) (reported : Bool) : State :=
  let n := k / 512
  let c := k / 8 % 64
  let t := thr s k
  let s := wr (setThr s k { t with wait := .none }) (thrField k) 6
  let s := wr s (CLU_CORE_FAULT_FAULT n (c / 32)) (setBit (rd s (CLU_CORE_FAULT_FAULT n (c / 32))) (c % 32))
  let s := if reported then s else report s n clsContained status (cluPart s n) c (eccDetail s n)
  match t.unit.bind (fun u => (tfind u s.units).map (fun w => (u, w))) with
  | none => settleCluster (settleCoreBarrier (abandonWhere s (k / 8) (fun x => x.thread == k)) (k / 8)) n
  | some (u, w) =>
    let cores := (w.threads.map (fun j => j / 8)).eraseDups
    let s := { s with units := tset u { w with failed := true, why := status } s.units }
    let s := stopOthers s (w.threads.filter (fun j => j != k))
    let s := cores.foldl (fun s cn => abandonArray s cn u) s
    let s := cores.foldl settleCoreBarrier s
    let s := (unitClusters w).foldl settleCluster s
    match w.kind with
    | .frame c no => dropFrame s c no 6
    | .armature => { s with dsp := { s.dsp with stale := cores ++ s.dsp.stale } }
    | _ => s

/-! ### Start and STREAM, under a thread fault `fault` -/

/-- Is the array of the core frozen (R75)? -/
def frozen (c : Core) : Bool := !c.freezers.isEmpty

/-- The weight words of a pass of the instruction, none past its end. -/
def passLoad (s : State) (cn : Nat) (x : ArrInstr) (i : Nat) : List Nat :=
  match (passes x)[i]? with
  | some p => loadWords s cn (passWords (arrFields x.word) p.at')
  | none => []

/-- An instruction begins: its first pass's weights are the active ones and the next pass's the shadow ones (R57); whether it
reads words an earlier one was writing (R64); its operands as they are now. -/
def beginInstr (s : State) (cn : Nat) (x : ArrInstr) : State :=
  let k := core s cn
  let x := { x with started := true, hazard := (readOperands x).any (fun w => x.before.contains w),
                    seen := if (arrFields x.word).opc = 0x22 then [] else operandValues s cn x }
  setCore s cn { k with arr := x :: k.arr.tail, active := passLoad s cn x 0, shadow := passLoad s cn x 1, rampedDown := false }

/-- The instruction at the front of the array queue starts (R32): a CONV reads its window descriptor, which is checked then
(R63, R126, R132), free words where an earlier instruction was writing it (R64); a STREAM loads its weights, sets OUT_SPACE
to its ring and holds IN_CREDIT to its ring (R71). A frozen array starts nothing. -/
def startWith (fault : State → Nat → Nat → Bool → State) (s : State) (cn : Nat) : State :=
  let k := core s cn
  match k.arr with
  | [] => s
  | x :: _ =>
    if x.started || frozen k then s
    else
      let f := arrFields x.word
      let ids := fun (m : Nat) (l : List Nat) => l.map (fun w => (m, cn % 64, w))
      if f.opc = 0x21 then
        let l := (List.range 4).map (fun i => bits x.word 12 12 + i)
        let z := readWords (cn / 64) (ids 1 l) s
        if z.2 then fault z.1 x.thread 0x61 true
        else
          let r := l.foldl (fun (e : List Nat × State) w =>
            if x.before.contains w then (e.1 ++ [(fresh e.2).1 % 2 ^ 64], (fresh e.2).2)
            else (e.1 ++ [rdWord e.2 (cn / 64) 1 (cn % 64) w], e.2)) ([], z.1)
          if winUndefined x.word (winOf r.1) then fault r.2 x.thread 0x7F false
          else beginInstr r.2 cn { x with window := r.1 }
      else if f.opc = 0x22 then
        let z := readWords (cn / 64) (ids 0 ((passes x).flatMap (fun p => passWords f p.at')) ++ ids 1 (scaleWords x)) s
        if z.2 then fault z.1 x.thread 0x61 true
        else
          let s := beginInstr z.1 cn x
          let k := core s cn
          setCore s cn { k with outSpace := oRing x.word, inCredit := min k.inCredit (aRing x.word) }
      else beginInstr s cn x

/-- Row of the input ring and row of the output ring that hold row `i` of a STREAM (R71). -/
def inRow (x : ArrInstr) (i : Nat) : Nat :=
  let q := qAct (arrFields x.word).afmt (arrFields x.word).wfmt
  (i / q) % aRing x.word * q + i % q
def outRow (x : ArrInstr) (i : Nat) : Nat :=
  let q := qOut (arrFields x.word).ofmt
  (i / q) % oRing x.word * q + i % q

/-- The accesses of row `i` of a STREAM: a new input group's words, with ACC = 1 the accumulators (R70), the writes. -/
def streamAccesses (x : ArrInstr) (i : Nat) : List Access :=
  let f := arrFields x.word
  let q := qAct f.afmt f.wfmt
  (if i % q = 0 then (rowWords x (aRing x.word * q) (inRow x i) 0).map (.read 1) else []) ++
  (if f.acc ∧ i % 2 = 0 then (List.range 8).map (fun c => .read 2 (f.p + 8 * (i / 2) + c)) else []) ++
  (List.range f.n).map (fun c => .merge 1 (emitPlace f (oRing x.word * qOut f.ofmt) (outRow x i) c).1)

/-- Row `i` of a STREAM: its operands from the input ring, its result into the output ring (R71); free sums where it reads
words an earlier instruction was writing (R64). -/
def streamRow (x : ArrInstr) (cn i : Nat) (s : State) : State :=
  let f := arrFields x.word
  let q := qAct f.afmt f.wfmt
  let p : PassAt := ⟨f.w, 1, 0, 0, 0, f.w + 8, false⟩
  (List.range 8).foldl (fun s c =>
    let pl : Nat × Nat × Nat := (f.p + 8 * (i / 2) + c, 32 * (i % 2), 32)
    let old := if f.acc then some (fetchBits s (cn / 64) 2 (cn % 64) pl) else none
    let z := drainAdd s cn f p (core s cn).active ⟨.row (inRow x i), aRing x.word * q⟩ c old
    let v := if x.hazard then fresh s else (z.v, s)
    let s := addCounts v.2 cn (b2n z.sat) 0 z.nonf
    if c < f.n then
      let e := emitConvert s cn x c c (v.1 % 2 ^ 32)
      emitWrite e.2 cn f (oRing x.word * qOut f.ofmt) (outRow x i) c e.1
    else s) s

/-- The executing STREAM streams up to `n` more rows while IN_CREDIT and OUT_SPACE allow (R71) and the array is not frozen.
DESIGN CHOICE (log entry 145): the partial last group of a ring counts as a group, for IN_CREDIT and for OUT_SPACE. -/
def pumpStream (fault : State → Nat → Nat → Bool → State) (cn : Nat) : Nat → State → State
  | 0, s => s
  | n + 1, s =>
    let c := core s cn
    match c.arr with
    | [] => s
    | x :: t =>
      let f := arrFields x.word
      let i := x.rows
      if f.opc ≠ 0x22 ∨ x.started = false ∨ streamRows x.word ≤ i ∨ frozen c = true then s
      else if c.inCredit = 0 ∨ c.outSpace = 0 then s
      else
        let z := runAccesses cn (streamAccesses x i) s
        if z.2 = .poison then fault z.1 x.thread 0x61 true
        else
          let s := streamRow x cn i z.1
          let c := core s cn
          let doneIn := (i + 1) % qAct f.afmt f.wfmt == 0 || i + 1 == streamRows x.word
          let doneOut := (i + 1) % qOut f.ofmt == 0 || i + 1 == streamRows x.word
          let c := { c with arr := { x with rows := i + 1 } :: t, rampedDown := false }
          let c := if doneIn then { c with inCredit := c.inCredit - 1 } else c
          let c := if doneOut then { c with outSpace := c.outSpace - 1 } else c
          pumpStream fault cn n (setCore s cn c)

/-- The executing STREAM streams every row its counters allow. -/
def pumpWith (fault : State → Nat → Nat → Bool → State) (s : State) (cn : Nat) : State :=
  match (core s cn).arr with
  | [] => s
  | x :: _ => pumpStream fault cn (streamRows x.word) s

/-- The fault of a thread, after which the next instruction left at the front of each queue it touched starts; that one may
fault in turn, `n` times at most. -/
def faultN : Nat → State → Nat → Nat → Bool → State
  | 0, s, k, status, reported => faultOnce s k status reported
  | n + 1, s, k, status, reported =>
    (faultCores s k).foldl (fun s cn => pumpWith (faultN n) (startWith (faultN n) s cn) cn) (faultOnce s k status reported)

/-- A thread faults (R36, R65). Each fault fails a work unit or takes away a thread's own instructions, so more faults in a
row than there are units and places in the queues do not occur. -/
def threadFault (s : State) (k status : Nat) (reported : Bool) : State := faultN (s.units.length + 2) s k status reported

/-- A ready thread faults at the instruction it issues (R31, R36). -/
def issueFault (s : State) (k status : Nat) : State := threadFault (noteIssue s k) k status false

/-- The front of a core's array queue starts and a STREAM streams what it can. -/
def restart (s : State) (cn : Nat) : State := pumpWith threadFault (startWith threadFault s cn) cn

/-- Set a tag done or with its error, and wake the thread that waits for it: it goes on, or faults at its WAIT (R36, R43,
R254); a poisoned word has been reported by the memory that held it (R473). -/
def completeTag (s : State) (k tag : Nat) (ok : Bool) (status : Nat) : State :=
  let s := setTag s k tag (if ok then .done else .error status)
  if (thr s k).wait = .tag tag then
    if ok then setThrState s k 1 .none else threadFault s k status (status == 0x61)
  else s

/-! ### Issue and completion -/

/-- Is the work unit of a thread privileged (R69)? -/
def privileged (s : State) (k : Nat) : Bool :=
  match (thr s k).unit.bind (fun u => tfind u s.units) with
  | some w => w.priv
  | none => false

/-- A thread issues an array instruction (R31, R32, R63): undefined, it faults, even while the queue is full (DESIGN CHOICE, log
entry 146: the check is made at the issue that meets the full queue); with the queue full the thread waits (WAIT_ARRAY);
otherwise it enters the queue and the thread goes on. -/
def issueArray (s : State) (k word : Nat) : State :=
  if canIssue s k then
    let cn := k / 8
    let c := core s cn
    let f := arrFields word
    let q := tget 0 c.qset f.qset
    if arrUndefined word (privileged s k) q then issueFault s k 0x7F
    else if 2 ≤ c.arr.length then setThrState s k 3 .arrayQueue
    else
      let s := advancePc s k true
      let s := if f.tagEn then setTag s k f.tag .pendMove else s
      let c := core s cn
      let before := if f.fence then [] else c.arr.flatMap writtenWords
      restart (setCore s cn { c with arr := c.arr ++ [{ word, thread := k, qset := q, before }] }) cn
  else s

/-- The front instruction leaves the queue: every link's slip has been recovered (R77), its tag is set, a waiting thread can
issue, the next one starts (R32, R65). -/
def popArray (s : State) (cn : Nat) (x : ArrInstr) : State :=
  let c := core s cn
  let s := setCore s cn { c with arr := c.arr.tail, slips := [], freezers := [] }
  let f := arrFields x.word
  let s := if f.tagEn then completeTag s x.thread f.tag true 0 else s
  restart (wakeCore s cn .arrayQueue) cn

/-- ARRAY_INSTRUCTION_COMPLETE (R65, R66, R130): the executing MATMUL or CONV writes its results; a poisoned operand or a
read outside the tile faults its thread at the row where it arises (R43, R63, R128). Results are free values where an
unfenced earlier instruction was writing an operand (R64, R85), or an operand changed while it ran (log entry 147). A frozen
array completes nothing (R75). -/
def arrayComplete (cl : Fin 34) (c : Fin 64) (errs : List WordErr) (s : State) : State :=
  let cn := coreNo cl c
  let s := addErrs s cl errs
  match (core s cn).arr with
  | [] => s
  | x :: _ =>
    if (arrFields x.word).opc = 0x22 ∨ x.started = false ∨ frozen (core s cn) = true then s
    else
      let changed := x.hazard || operandValues s cn x != x.seen
      let z := runAccesses cn ((passes x).flatMap (passAccesses x)) s
      match z.2 with
      | .poison => threadFault z.1 x.thread 0x61 true
      | .outside => threadFault z.1 x.thread 0x7F false
      | .none =>
        let s := runPasses x cn z.1
        let s := if changed then freeResults s cn x else afterEmit s cn x
        popArray (setCore s cn { core s cn with shadow := [] }) cn x

/-- Raise IN_CREDIT or OUT_SPACE of the STREAM of a core; each saturates at its ring size (R71, R85), and the rows it
allows stream. With no STREAM at the front the counter saturates at the largest ring, 64 groups, until a STREAM starts. -/
def addCredit (s : State) (cn : Nat) (output : Bool) (n : Nat) : State :=
  let c := core s cn
  let lim := match c.arr with
    | x :: _ => if (arrFields x.word).opc = 0x22 then (if output then oRing x.word else aRing x.word) else 64
    | [] => 64
  pumpWith threadFault (setCore s cn (if output then { c with outSpace := satAdd lim c.outSpace n }
    else { c with inCredit := satAdd lim c.inCredit n })) cn

/-- STREAM_END (R72): after its last row's result, or stopped by the Plinth or the Armature sequencer; the counters keep what
they had reached; with ACC = 1 its PM region is undefined (R66, R70). DESIGN CHOICE (log entry 148): a STREAM that is stopped
sets its tag like one that ends. -/
def streamEnd (cl : Fin 34) (c : Fin 64) (stopped : Bool) (s : State) : State :=
  let cn := coreNo cl c
  match (core s cn).arr with
  | [] => s
  | x :: _ =>
    if (arrFields x.word).opc ≠ 0x22 ∨ x.started = false then s
    else if stopped = true ∨ (x.rows = streamRows x.word ∧ frozen (core s cn) = false) then popArray (afterEmit s cn x) cn x
    else s

/-! ### Stalls, freezes and smoothing -/

/-- Links that the credits of a STREAM starve or back up (R71, R73): all feeders without input credit, all drains without
output space, while rows are left. -/
def creditStalls (c : Core) : List Nat :=
  match c.arr with
  | x :: _ =>
    if (arrFields x.word).opc = 0x22 ∧ x.started = true ∧ x.rows < streamRows x.word then
      (if c.inCredit = 0 then List.range 8 else []) ++ (if c.outSpace = 0 then (List.range 8).map (· + 8) else [])
    else []
  | [] => []

/-- Does the core execute an array instruction, so that a link can be due (R73)? -/
def executing (c : Core) : Bool :=
  match c.arr with
  | x :: _ => x.started
  | [] => false

/-- A freeze ends once every link that caused it has slip 0 (R75, R76); what waited goes on. -/
def thaw (s : State) (cn : Nat) : State :=
  let c := core s cn
  if c.freezers.all (fun l => tget 0 c.slips l == 0) then restart (setCore s cn { c with freezers := [], rampedDown := false }) cn
  else s

/-- ARRAY_STALL (R73-R76, R85): one cycle in which the named links, and those the STREAM's credits stall, are starved or
backed up. Each stalled link with slip below 4 gains one; those at 4 freeze the array. In a frozen cycle every other link with
slip recovers one step, and the freeze ends when every link that caused it is at 0. -/
def arrayStall (cl : Fin 34) (c : Fin 64) (links : List (Fin 16)) (s : State) : State :=
  let cn := coreNo cl c
  let k := core s cn
  if !executing k then s
  else
    let stalled := (links.map Fin.val ++ creditStalls k).eraseDups
    if frozen k then
      let slips := (List.range 16).foldl (fun t l => if stalled.contains l then t else tput 0 t l (tget 0 t l - 1)) k.slips
      thaw (setCore s cn { k with slips }) cn
    else
      let slips := stalled.foldl (fun t l => tput 0 t l (min 4 (tget 0 t l + 1))) k.slips
      setCore s cn { k with slips, freezers := stalled.filter (fun l => tget 0 k.slips l == 4) }

/-- FREEZE_END (R75, R76): the frozen cycles that are left pass without a stall: every link recovers one step in each, until
those that caused the freeze are at 0. While the STREAM's credits hold one of them, the freeze goes on. -/
def freezeEnd (cl : Fin 34) (c : Fin 64) (s : State) : State :=
  let cn := coreNo cl c
  let k := core s cn
  let held := creditStalls k
  if !frozen k || k.freezers.any (fun l => held.contains l) then s
  else
    let left := (k.freezers.map (fun l => tget 0 k.slips l)).foldl max 0
    let slips := (List.range 16).foldl (fun t l => if held.contains l then t else tput 0 t l (tget 0 t l - left)) k.slips
    thaw (setCore s cn { k with slips }) cn

/-- GAP_LIMIT_REACHED (R79, R80): in a gap (an empty queue, a frozen array, a STREAM its credits hold) the active cells are
ramped down to zero. -/
def execGapLimitReached (cl : Fin 34) (c : Fin 64) (s : State) : Out :=
  let cn := coreNo cl c
  let k := core s cn
  if executing k && !frozen k && (creditStalls k).isEmpty then .next s
  else .next (setCore s cn { k with rampedDown := true })

end Sys2Proof.Machine
end

