-- ==== Sys2Proof/Machine/Event.lean ====
section
/-!
DEFINITION. Sys2Proof/Machine/Event.lean: the event controller's commands (spec/13_event_controller.md).
-/
namespace Sys2Proof.Machine
open Reg

/-- Is the change from `old` to `new` an event in a mode (R430)? -/
def isEvent (mode : Nat) (old new : Bool) : Bool :=
  if mode = 1 ∨ mode = 3 then !old && new
  else if mode = 2 ∨ mode = 4 then old && !new
  else if mode = 5 then old != new
  else false

/-- Is the pending bit set by this sample (R430)? -/
def setsPend (mode : Nat) (old new : Bool) : Bool :=
  if mode = 1 then new else if mode = 2 then !new else isEvent mode old new

/-- The source's input sampled at a level: counter, pending bit, and delivery (R430, R431, R433, R435). -/
def senseAt (s : State) (src : Nat) (new : Bool) : State :=
  let old := evLevel s src
  let mode := rd s (EVC_ROUTE_MODE src)
  let t := setLevel s src new
  let t := if isEvent mode old new then bump t (evCnt src) 1 else t
  let t := if setsPend mode old new then setPend t src else t
  if deliverable t src && (!deliverable s src || rd t (EVC_ROUTE_TGT src) == 2) then deliver t src else t

/-- EVENT_SENSE: a driven source takes its register's level, a pin (GPIO, PWR_FAIL_N) the level given; the software
sources are pulsed by EVC_SW_SET alone (R428-R431). -/
def execEventSense (src : Fin 2048) (pin : Bool) (s : State) : Out :=
  match srcLevel s src with
  | some v => .next (senseAt s src v)
  | none => if src.val < 1536 then .next (senseAt s src pin) else .next s

/-- One signal to each target among the deliverable sources given; the pending bits of an MSI-X target's sources are
cleared by its one message (R435, R436). -/
def signalTargets (l : List Nat) (s : State) : State :=
  (l.foldl (fun (p : State × List Nat) src =>
    let s := p.1
    let key := rd s (EVC_ROUTE_TGT src) * 1024 +
      (if rd s (EVC_ROUTE_TGT src) = 2 then rd s (EVC_ROUTE_FUNC src) * 64 + rd s (EVC_ROUTE_VEC src) else 0)
    if p.2.contains key then
      (if rd s (EVC_ROUTE_TGT src) = 2 then (let s := clearPend s src; if levelHolds s src then setPend s src else s) else s, p.2)
    else (signalSrc s src, p.2 ++ [key])) (s, [])).1

/-- The deliverable sources on a timer. -/
def timerSources (s : State) (t : Nat) : List Nat :=
  (List.range 2048).filter (fun src => deliverable s src && rd s (EVC_ROUTE_MOD src) == t)

/-- MODERATION_HOLD_END (R436): with deliverable sources one signal to each target and HOLD restarts; with none, IDLE. -/
def execModerationHoldEnd (timer : Fin 32) (s : State) : Out :=
  if isSet s (EVC_MOD_BUSY timer) then
    match timerSources s timer with
    | [] => .next (wr s (EVC_MOD_BUSY timer) 0)
    | l => .next (signalTargets l s)
  else .next s

/-- EVC_SW_SET (R428, R440): a single-cycle pulse of a software source; below 1536 it is ignored and sets SW_REJ. -/
def execEvcSwSet (src : Fin 2048) (s : State) : Out :=
  if src.val < 1536 then .next (wr s EVC_STAT_SW_REJ 1)
  else .next (senseAt (senseAt s src true) src false)

/-- EVC_CNT_CLR (R431): one counter, or all. -/
def execEvcCntClr (all : Bool) (src : Fin 2048) (s : State) : Out :=
  if all then .next (resetRegs s (fun a => decide (0x21001000 ≤ a) && decide (a < 0x21001800)))
  else .next (wr s (evCnt src) 0)

/-- Is an EVC_ROUTE_s write ignored (R433)? -/
def routeRejected (src mode tgt func : Nat) : Bool :=
  decide (6 ≤ mode) || decide (tgt = 3) || (decide (tgt = 2) && decide (func ≠ 0) && decide (src < 1536))

/-- A write of EVC_ROUTE_s (R431-R433, R440): refused with ROUTE_REJ, or taken; a change of MODE clears the counter and
senses no event, and a level mode sets the pending bit from the next cycle. -/
def routeWrite (s : State) (src v : Nat) : State :=
  let mode := bits v 28 3
  let tgt := bits v 26 2
  let func := bits v 17 4
  if routeRejected src mode tgt func then wr s EVC_STAT_ROUTE_REJ 1
  else
    let t := if mode = rd s (EVC_ROUTE_MODE src) then s else wr s (evCnt src) 0
    let t := wr (wr (wr (wr (wr t (EVC_ROUTE_MODE src) mode) (EVC_ROUTE_TGT src) tgt) (EVC_ROUTE_MOD src) (bits v 21 5))
      (EVC_ROUTE_FUNC src) func) (EVC_ROUTE_VEC src) (bits v 11 6)
    let t := if levelHolds t src then setPend t src else t
    deliverNew s [src] t

/-- EVC_ROUTE_WRITE (R433). -/
def execEvcRouteWrite (src : Fin 2048) (value : BitVec 32) (s : State) : Out := .next (routeWrite s src value.toNat)

/-- The sources of the EVC words a register write can make deliverable: a word of masks or pending bits, or all. -/
def evcAffected (addr : Nat) : List Nat :=
  if 0x21000100 ≤ addr ∧ addr < 0x21000300 then (List.range 32).map (fun i => (addr % 256) / 4 * 32 + i)
  else if addr = 0x21000000 then List.range 2048
  else []

/-- The word shown in EVC_SUM_n: which words hold a source deliverable to pair A (n 0, 1) or B (n 2, 3) (R434). -/
def evcSum (s : State) (n : Nat) : Nat :=
  ((List.range 32).map (fun i =>
    if (List.range 32).any (fun j =>
      let src := (32 * (n % 2) + i) * 32 + j
      deliverable s src && rd s (EVC_ROUTE_TGT src) == n / 2) then 2 ^ i else 0)).foldl (· + ·) 0

end Sys2Proof.Machine
end

