-- ==== Sys2Proof/Machine/Codec.lean ====
section
/-!
DEFINITION. Sys2Proof/Machine/Codec.lean: the compressed stream of the compactor and the expander (spec/08_memory_tiers.md
R274-R280) and the narrow tensors Z4E and Z3C with their expanded form (spec/03_number_formats.md R92-R104).
-/
namespace Sys2Proof.Machine

/-- A source of bytes, by offset. -/
abbrev Bytes := Nat → Nat

/-- `n` bytes from `a`, little-endian (R9). -/
def leN (g : Bytes) (a : Nat) : Nat → Nat
  | 0 => 0
  | n + 1 => g a % 256 + 256 * leN g (a + 1) n

/-- The `n` little-endian bytes of a value. -/
def toLe (v : Nat) : Nat → List Nat
  | 0 => []
  | n + 1 => v % 256 :: toLe (v / 256) n

/-- Rounded up to a multiple of 8. -/
def up8 (n : Nat) : Nat := ceilDiv n 8 * 8

/-! ### Canonical codes (R276, R277) -/

/-- The symbols present, by length and then by symbol. -/
def sortedSyms (len : Nat → Nat) : List (Nat × Nat) :=
  (List.range 15).flatMap (fun l => ((List.range 268).filter (fun s => len s == l + 1)).map (fun s => (s, l + 1)))

/-- Consecutive code values over the sorted symbols: (symbol, length, code). -/
def assignCodes : List (Nat × Nat) → Nat → Nat → List (Nat × Nat × Nat)
  | [], _, _ => []
  | (s, l) :: t, code, prev =>
    let c := code * 2 ^ (l - prev)
    (s, l, c) :: assignCodes t (c + 1) l

def codesOf (len : Nat → Nat) : List (Nat × Nat × Nat) :=
  match sortedSyms len with
  | [] => []
  | (s, l) :: t => (s, l, 0) :: assignCodes t 1 l

/-- R277. -/
def tableValid (len : Nat → Nat) : Bool :=
  let l := sortedSyms len
  l.foldl (fun n e => n + 2 ^ (15 - e.2)) 0 == 2 ^ 15 || (match l with | [(_, 1)] => true | _ => false)

/-- Code length of symbol `s` in the 134-byte table at `a` (R276). -/
def tableLen (g : Bytes) (a s : Nat) : Nat := bits (g (a + s / 2)) (4 * (s % 2)) 4

/-- One symbol read from the payload: the symbol and the position after it; none when it would read past `lim` or no code
matches. -/
def readSym (codes : List (Nat × Nat × Nat)) (g : Bytes) (pay lim : Nat) : Nat → Nat → Nat → Nat → Option (Nat × Nat)
  | 0, _, _, _ => none
  | fuel + 1, pos, l, code =>
    if lim ≤ pos then none
    else
      let code := 2 * code + b2n (bit (g (pay + pos / 8)) (pos % 8))
      match codes.find? (fun e => e.2.1 == l + 1 && e.2.2 == code) with
      | some e => some (e.1, pos + 1)
      | none => readSym codes g pay lim fuel (pos + 1) (l + 1) code

/-- The expander's loop over a CODED block (R278): bytes (reversed), payload bits and symbols used; none when damaged. -/
def decodeLoop (codes : List (Nat × Nat × Nat)) (g : Bytes) (pay lim raw : Nat) :
    Nat → List Nat → Nat → Nat → Option (List Nat × Nat × Nat)
  | 0, _, _, _ => none
  | fuel + 1, out, pos, n =>
    if out.length = raw then some (out, pos, n)
    else
      match readSym codes g pay lim 15 pos 0 0 with
      | none => none
      | some (s, p) =>
        if s < 256 then decodeLoop codes g pay lim raw fuel (s :: out) p (n + 1)
        else
          let run := 2 ^ (s - 256 + 1)
          if raw < out.length + run then none
          else decodeLoop codes g pay lim raw fuel (List.replicate run 0 ++ out) p (n + 1)

/-- One block of `raw` bytes at offset `a` (R275, R278). -/
def expandBlock (g : Bytes) (a raw : Nat) : Option (List Nat) :=
  let h := leN g a 8
  let ty := h % 4
  if ty = 0 then some ((List.range raw).map (fun i => g (a + 8 + i) % 256))
  else if ty = 2 then some (List.replicate raw 0)
  else if ty = 1 then
    let len := tableLen g (a + 8)
    if tableValid len then
      match decodeLoop (codesOf len) g (a + 142) (bits h 48 16) raw (raw + 1) [] 0 0 with
      | some (out, pos, n) => if pos = bits h 48 16 ∧ n = bits h 32 16 then some out.reverse else none
      | none => none
    else none
  else none

/-- RAW_SIZE of a stream (R274). -/
def streamRaw (g : Bytes) : Nat := leN g 8 8

/-- Are a stream's header and index consistent (R274, R278)? -/
def streamHeaderOk (g : Bytes) : Bool :=
  let nblk := leN g 4 4
  let raw := streamRaw g
  let idx := leN g 0x10 4
  let dat := leN g 0x14 4
  leN g 0 4 == 0x5A430001 && decide (1 ≤ raw) && decide (raw ≤ 2 ^ 32) && nblk == ceilDiv raw 4096 && idx % 8 == 0 &&
    dat % 8 == 0 && (List.range nblk).all (fun i => decide (dat + 8 * leN g (idx + 4 * i) 4 + 8 ≤ leN g 0x18 8))

/-- Blocks in order, joined; none when one is damaged. -/
def expandBlocks (g : Bytes) (raw : Nat) : List Nat → Option (List Nat)
  | [] => some []
  | i :: t =>
    match expandBlock g (leN g 0x14 4 + 8 * leN g (leN g 0x10 4 + 4 * i) 4) (min 4096 (raw - 4096 * i)) with
    | none => none
    | some b => (expandBlocks g raw t).map (fun r => b ++ r)

/-- The raw bytes of a stream; none is DAMAGED_STREAM (R278). -/
def expand (g : Bytes) : Option (List Nat) :=
  if streamHeaderOk g then expandBlocks g (streamRaw g) (List.range (leN g 4 4)) else none

/-! ### The compactor (R279, R280) -/

/-- Symbols of a run of `n` zero bytes: the largest run symbol not longer than the run, again on the rest. -/
def runSyms : Nat → Nat → List Nat
  | 0, _ => []
  | fuel + 1, n =>
    if n = 0 then []
    else if n = 1 then [0]
    else
      let r := min 11 (Nat.log2 n - 1)
      (256 + r) :: runSyms fuel (n - 2 ^ (r + 1))

/-- The symbols of a block; `z` zero bytes are pending. -/
def blockSyms : List Nat → Nat → List Nat
  | [], z => runSyms z z
  | b :: t, z => if b = 0 then blockSyms t (z + 1) else runSyms z z ++ b :: blockSyms t 0

/-- A node of the tree: weight, key, and the symbols below it with their depth. -/
structure HNode where
  weight : Nat
  key : Nat
  leaves : List (Nat × Nat)
deriving DecidableEq, Repr

/-- Is `a` before `b` by (weight, key)? -/
def HNode.before (a b : HNode) : Bool := decide (a.weight < b.weight) || (a.weight == b.weight && decide (a.key < b.key))

/-- A node put in its place in a list ordered by (weight, key). -/
def insertNode (n : HNode) : List HNode → List HNode
  | [] => [n]
  | h :: t => if n.before h then n :: h :: t else h :: insertNode n t

/-- Merge the two least nodes until one is left. -/
def mergeNodes : Nat → List HNode → List (Nat × Nat)
  | fuel + 1, a :: b :: t =>
    mergeNodes fuel (insertNode ⟨a.weight + b.weight, min a.key b.key, (a.leaves ++ b.leaves).map (fun e => (e.1, e.2 + 1))⟩ t)
  | _, [a] => a.leaves
  | _, _ => []

/-- Code lengths for symbol counts; counts are halved until no code is longer than 15. -/
def buildLens : Nat → List (Nat × Nat) → List (Nat × Nat)
  | 0, _ => []
  | fuel + 1, cnt =>
    match cnt with
    | [(s, _)] => [(s, 1)]
    | _ =>
      let l := mergeNodes cnt.length (cnt.foldl (fun l e => insertNode ⟨e.2, e.1, [(e.1, 0)]⟩ l) [])
      if l.all (fun e => decide (e.2 ≤ 15)) then l else buildLens fuel (cnt.map (fun e => (e.1, ceilDiv e.2 2)))

/-- The bits of a code, most significant first. -/
def codeBits (l code : Nat) : List Bool := (List.range l).map (fun i => bit code (l - 1 - i))

/-- Bits packed into bytes, bit i in bit i mod 8 (R276). -/
def packBits : Nat → List Bool → List Nat
  | 0, _ => []
  | fuel + 1, l =>
    if l.isEmpty then []
    else (List.range 8).foldl (fun n i => n + b2n (l.getD i false) * 2 ^ i) 0 :: packBits fuel (l.drop 8)

/-- A block header (R275). -/
def blockHeader (bitsN syms ty : Nat) : List Nat := toLe (bitsN * 2 ^ 48 + syms * 2 ^ 32 + ty) 8

/-- Padding to a multiple of 8 bytes. -/
def pad8 (l : List Nat) : List Nat := l ++ List.replicate (up8 l.length - l.length) 0

/-- One block compacted (R279, R280). -/
def compactBlock (raw : List Nat) : List Nat :=
  if raw.all (fun b => b == 0) then blockHeader 0 0 2
  else
    let syms := blockSyms raw 0
    let cnt := ((List.range 268).map (fun s => (s, syms.count s))).filter (fun e => decide (0 < e.2))
    let lens := buildLens 20 cnt
    let len := fun s => ((lens.find? (fun e => e.1 == s)).map Prod.snd).getD 0
    let codes := codesOf len
    let payload := syms.flatMap (fun s => match codes.find? (fun e => e.1 == s) with | some e => codeBits e.2.1 e.2.2 | none => [])
    let c := up8 (8 + 134 + ceilDiv payload.length 8)
    if 25 * c > 23 * raw.length then pad8 (blockHeader 0 0 0 ++ raw)
    else
      pad8 (blockHeader payload.length syms.length 1 ++
        (List.range 134).map (fun i => len (2 * i) + 16 * len (2 * i + 1)) ++ packBits payload.length payload)

/-- 4,096-byte blocks. -/
def chunks : Nat → List Nat → List (List Nat)
  | 0, _ => []
  | fuel + 1, l => if l.isEmpty then [] else l.take 4096 :: chunks fuel (l.drop 4096)

/-- Index entries of consecutive blocks. -/
def blockOffs : List (List Nat) → Nat → List Nat
  | [], _ => []
  | b :: t, o => toLe (o / 8) 4 ++ blockOffs t (o + b.length)

/-- The stream of raw bytes (R274, R279): the index follows the header, and block 0 the index at the next multiple of 8. -/
def compact (raw : List Nat) : List Nat :=
  let bl := (chunks raw.length raw).map compactBlock
  let dat := up8 (32 + 4 * bl.length)
  let body := bl.flatten
  toLe 0x5A430001 4 ++ toLe bl.length 4 ++ toLe raw.length 8 ++ toLe 32 4 ++ toLe dat 4 ++ toLe (dat + body.length) 8 ++
    pad8 (blockOffs bl 0) ++ body

/-- The space a COMPACT destination must offer (R280). -/
def compactBound (raw : Nat) : Nat := up8 (32 + 4 * ceilDiv raw 4096) + ceilDiv raw 4096 * 4104

/-! ### Narrow tensors (R92-R102) -/

/-- The header of a narrow tensor (R100). -/
structure Narrow where
  fmt : Nat
  efloor : Nat
  k : Nat
  n : Nat
  nesc : Nat
  code : Nat
  index : Nat
  side : Nat
  book : Nat
  rsvd : Nat
deriving DecidableEq, Repr

def narrowOf (g : Bytes) : Narrow where
  fmt := g 0 % 256
  efloor := g 1 % 256
  rsvd := leN g 2 2
  k := leN g 4 4
  n := leN g 8 4
  nesc := leN g 0xC 4
  code := leN g 0x10 4
  index := leN g 0x14 4
  side := leN g 0x18 4
  book := leN g 0x1C 4

/-- Blocks per channel of a Z4E tensor (R95), and K8 of a Z3C tensor (R98). -/
def kz (t : Narrow) : Nat := ceilDiv t.k 32
def k8 (t : Narrow) : Nat := 8 * ceilDiv t.k 8

/-- Code of element `i` of Z4E block `b` (R92). -/
def z4Code (g : Bytes) (t : Narrow) (b i : Nat) : Nat := bits (g (t.code + 18 * b + i / 2)) (4 * (i % 2)) 4
def z4Scale (g : Bytes) (t : Narrow) (b : Nat) : Nat := g (t.code + 18 * b + 16) % 256
def z4Esc (g : Bytes) (t : Narrow) (b : Nat) : Nat := g (t.code + 18 * b + 17) % 256

/-- Code at linear index `i` of a Z3C tensor (R98). -/
def z3Code (g : Bytes) (t : Narrow) (i : Nat) : Nat := bits (leN g (t.code + 3 * (i / 8)) 3) (3 * (i % 8)) 3

/-- Escapes in Z4E block `b` among elements below `i`. -/
def z4EscIn (g : Bytes) (t : Narrow) (b i : Nat) : Nat := ((List.range i).filter (fun e => z4Code g t b e == 8)).length

/-- Effective exponent and significand of an E4M3 scale (R101). -/
def scaleEe (x : Nat) : Nat := max (bits x 3 4) 1
def scaleSig (x : Nat) : Nat := if bits x 3 4 = 0 then bits x 0 3 else 8 + bits x 0 3

/-- Is a Z4E tensor well-formed (R92-R96, R101, R102)? -/
def z4Ok (g : Bytes) (t : Narrow) : Bool :=
  let nb := t.n * kz t
  let total := fun b => (List.range b).foldl (fun n i => n + z4Esc g t i) 0
  decide (1 ≤ t.efloor) && decide (t.efloor ≤ 15) && t.book == 0 &&
  (List.range nb).all (fun b =>
    let x := z4Scale g t b
    decide (x < 0x7F) && decide (t.efloor ≤ scaleEe x) && decide (scaleEe x - t.efloor ≤ 10) &&
    decide (z4EscIn g t b 16 ≤ 1) && decide (z4EscIn g t b 32 - z4EscIn g t b 16 ≤ 1) &&
    z4Esc g t b == z4EscIn g t b 32 &&
    (List.range 32).all (fun i => decide (32 * (b % kz t) + i < t.k) || z4Code g t b i == 0)) &&
  (List.range (ceilDiv nb 8)).all (fun i => leN g (t.index + 4 * i) 4 == total (8 * i)) && t.nesc == total nb

/-- Are two data the same finite number? Zeros are, whatever their signs. -/
def flSame : Fl → Fl → Bool
  | .fin a m e, .fin b n f =>
    let h := min e f
    (a == b || m == 0) && m * 2 ^ (e - h).toNat == n * 2 ^ (f - h).toNat
  | _, _ => false

/-- The level L of a codebook entry: the integer from -7 to 7 with entry = g * L (R97), if any. -/
def z3Level (g : Bytes) (t : Narrow) (ch e : Nat) : Option Int :=
  let step := decodeIeee fmtBf16 (leN g (t.book + 16 * ch + 14) 2)
  let v := decodeIeee fmtBf16 (leN g (t.book + 16 * ch + 2 * e) 2)
  ((List.range 15).map (fun (i : Nat) => (i : Int) - 7)).find? (fun l => flSame (flMul step (flOfInt l)) v)

/-- Is a Z3C tensor well-formed (R97-R99, R102)? -/
def z3Ok (g : Bytes) (t : Narrow) : Bool :=
  let total := t.n * k8 t
  let escBelow := fun i => ((List.range i).filter (fun e => z3Code g t e == 7 && decide (e % k8 t < t.k))).length
  t.efloor == 0 &&
  (List.range t.n).all (fun ch =>
    let st := leN g (t.book + 16 * ch + 14) 2
    decide (0 < bits st 7 8) && decide (bits st 7 8 < 255) && !bit st 15 &&
    (List.range 7).all (fun e => (z3Level g t ch e).isSome) &&
    (List.range (ceilDiv t.k 16)).all (fun j =>
      decide (((List.range 16).filter (fun i => decide (16 * j + i < t.k) && z3Code g t (ch * k8 t + 16 * j + i) == 7)).length ≤ 1)) &&
    (List.range (k8 t)).all (fun k => decide (k < t.k) || z3Code g t (ch * k8 t + k) == 0)) &&
  (List.range (ceilDiv total 256)).all (fun i => leN g (t.index + 4 * i) 4 == escBelow (256 * i)) && t.nesc == escBelow total

/-- Is a narrow tensor well-formed (R102)? -/
def narrowOk (g : Bytes) : Bool :=
  let t := narrowOf g
  t.rsvd == 0 && decide (1 ≤ t.k) && decide (1 ≤ t.n) && t.code % 64 == 0 && t.index % 64 == 0 && t.side % 64 == 0 &&
    t.book % 64 == 0 && (if t.fmt = 2 then z4Ok g t else if t.fmt = 3 then z3Ok g t else false)

/-- The 4-bit level of weight (k, n) in the expanded form (R103). -/
def narrowLevel (g : Bytes) (t : Narrow) (k n : Nat) : Nat :=
  if t.k ≤ k ∨ t.n ≤ n then 0
  else if t.fmt = 2 then
    let c := z4Code g t (n * kz t + k / 32) (k % 32)
    if c = 8 then 0 else c
  else
    let c := z3Code g t (n * k8 t + k)
    if c = 7 then 0 else ((z3Level g t n c).getD 0 % 16).toNat

/-- Is weight (k, n) an escape? -/
def narrowEsc (g : Bytes) (t : Narrow) (k n : Nat) : Bool :=
  decide (k < t.k) && decide (n < t.n) &&
    (if t.fmt = 2 then z4Code g t (n * kz t + k / 32) (k % 32) == 8 else z3Code g t (n * k8 t + k) == 7)

/-- Side-list position of the escape at weight (k, n) (R95, R98). -/
def escPos (g : Bytes) (t : Narrow) (k n : Nat) : Nat :=
  if t.fmt = 2 then
    let b := n * kz t + k / 32
    (List.range b).foldl (fun a i => a + z4Esc g t i) 0 + z4EscIn g t b (k % 32)
  else ((List.range (n * k8 t + k)).filter (fun e => z3Code g t e == 7 && decide (e % k8 t < t.k))).length

/-- The escape word of pass `kb` and channel `n` (R104). -/
def narrowEscWord (g : Bytes) (t : Narrow) (kb n : Nat) : Nat :=
  let x := z4Scale g t (n * kz t + 16 * kb / 32)
  let live := decide (n < t.n) && decide (16 * kb < t.k)
  let base := if t.fmt = 2 then (if live then scaleSig x * 2 ^ 37 + (scaleEe x - t.efloor) * 2 ^ 41 else 0) else 2 ^ 37
  match (List.range 16).find? (fun p => narrowEsc g t (16 * kb + p) n) with
  | none => base
  | some p =>
    let v := decodeIeee fmtBf16 (leN g (t.side + 2 * escPos g t (16 * kb + p) n) 2)
    let f :=
      if t.fmt = 2 then toFp32 (flMul v (.fin false 1 (10 - (t.efloor : Int))))
      else fdiv (toFp32 v) (toFp32 (decodeIeee fmtBf16 (leN g (t.book + 16 * n + 14) 2)))
    base + 2 ^ 36 + p * 2 ^ 32 + f

/-- The expanded form of channels N0 to N0 + NC - 1 as 64-bit words: weight words, then the escape table (R103). -/
def narrowWords (g : Bytes) (n0 nc : Nat) : List Nat :=
  let t := narrowOf g
  let kbs := ceilDiv t.k 16
  let nbs := ceilDiv nc 8
  let level := fun k c => if c < nc then narrowLevel g t k (n0 + c) else 0
  (List.range nbs).flatMap (fun nb => (List.range kbs).flatMap (fun kb => (List.range 8).map (fun r =>
    (List.range 16).foldl (fun w e => w + level (16 * kb + 2 * r + e % 2) (8 * nb + e / 2) * 2 ^ (4 * e)) 0))) ++
  (List.range nbs).flatMap (fun nb => (List.range kbs).flatMap (fun kb => (List.range 8).map (fun c =>
    if 8 * nb + c < nc then narrowEscWord g t kb (n0 + 8 * nb + c) else 0)))

end Sys2Proof.Machine
end

