-- ==== Sys2Proof/Machine/Memory.lean ====
section
/-!
DEFINITION. Sys2Proof/Machine/Memory.lean: the memory tiers (spec/08_memory_tiers.md): T2 with its granule table and inline
encryption, endpoints of moves, and what a move does.
-/
namespace Sys2Proof.Machine
open Reg

/-! ### Granules, keys, T2 bytes (R249-R251, R266, R267) -/

def t2Base : Nat := 0x1000000000
def t3Base : Nat := 0x2000000000

/-- Granule of a T2 address. -/
def granOf (a : Nat) : Nat := (a - t2Base) / 2097152

/-- Does an address lie in T2's range (at most 32 GiB)? -/
def isT2 (a : Nat) : Bool := decide (t2Base ≤ a) && decide (a < t2Base + 2 ^ 35)

/-- Granules of the trained DRAM (R249). -/
def granCount (s : State) : Nat := rd s MEM_STAT_SIZE * 512

def gEntry (s : State) (g : Nat) : Nat := tget 0 s.dram.gtab g
def gV (e : Nat) : Bool := bit e 15
def gDisp (e : Nat) : Bool := bit e 14
def gPln (e : Nat) : Bool := bit e 13
def gRo (e : Nat) : Bool := bit e 12
def gPart (e : Nat) : Nat := bits e 8 4
def gSlot (e : Nat) : Nat := bits e 0 5

/-- A granule entry set. -/
def setGran (s : State) (g e : Nat) : State := { s with dram := { s.dram with gtab := tput 0 s.dram.gtab g e } }

/-- The key of a granule's slot; 0: none, or no encryption (DISP = 1). -/
def granKeyNow (s : State) (g : Nat) : Nat :=
  let e := gEntry s g
  if gDisp e then 0 else tget 0 s.dram.keys (gSlot e)

/-- The key a data unit's bytes were last written under. -/
def storedKey (s : State) (u : Nat) : Nat :=
  match tfind u s.dram.unitKey with
  | some k => k
  | none => tget 0 s.dram.granKey (u / 32768)

/-- A byte of T2 read under key `k`. -/
def t2Rb (s : State) (k a : Nat) : Byte :=
  let w := storedKey s ((a - t2Base) / 64)
  if w = k then rb s a else BitVec.ofNat 8 (Config.xts w k a (rdN s (a / 16 * 16) 16))

/-- A data unit rewritten under key `k`: what it reads as under `k` becomes its plaintext (R266). -/
def rekeyUnit (s : State) (k u : Nat) : State :=
  if storedKey s u = k then s
  else
    let base := t2Base + 64 * u
    let bytes := (List.range 64).map (fun i => t2Rb s k (base + i))
    let s := (List.range 64).foldl (fun s i => wb s (base + i) (bytes.getD i 0)) s
    { s with dram := { s.dram with unitKey := tset u k s.dram.unitKey } }

/-- A byte of T2 written under key `k`. -/
def t2Wb (s : State) (k a : Nat) (v : Byte) : State := wb (rekeyUnit s k ((a - t2Base) / 64)) a v

/-- Zero over a whole granule under its entry's key (R251). -/
def zeroGranule (s : State) (g : Nat) : State :=
  let lo := t2Base + g * 2097152
  { s with mem := tdrop (fun a => decide (lo ≤ a) && decide (a < lo + 2097152)) s.mem,
           poison := s.poison.filter (fun w => !(decide (lo / 8 ≤ w) && decide (w < (lo + 2097152) / 8))),
           dram := { s.dram with granKey := tput 0 s.dram.granKey g (granKeyNow s g),
                                 unitKey := tdrop (fun u => u / 32768 == g) s.dram.unitKey } }

/-- The committed range that holds a T3 window address (R291), that of an old version still resident included (R303). -/
def slotAt (s : State) (a : Nat) : Option (Nat × Slot) :=
  (s.flash.slots ++ s.flash.oldSets).find? (fun e => decide (e.2.base ≤ a) && decide (a < e.2.base + e.2.man.totalLen))

/-- Any byte of the device's memories as the device reads it, by internal address. -/
def devRb (s : State) (a : Nat) : Byte :=
  if isT2 a then t2Rb s (granKeyNow s (granOf a)) a
  else if t3Base ≤ a then
    match slotAt s a with
    | some e => BitVec.ofNat 8 (Config.maqByte e.2.man.maqDigest (a - e.2.base))
    | none => 0
  else rb s a

/-- Any byte of T0, T1 or T2 as the device writes it. -/
def devWb (s : State) (a : Nat) (v : Byte) : State := if isT2 a then t2Wb s (granKeyNow s (granOf a)) a v else wb s a v

/-! ### Access checks (R250) -/

/-- Who asks for an access. -/
inductive Requester where
  | display
  | plinth
  | part (p : Nat)
deriving DecidableEq, Repr

/-- KIND of MEM_ACC_ERR when an access to a granule is refused. -/
def accessKind (s : State) (r : Requester) (g : Nat) (write : Bool) : Option Nat :=
  let e := gEntry s g
  if granCount s ≤ g then some 5
  else
    match r with
    | .display => if gDisp e then none else some 2
    | .plinth => if !gV e then some 4 else if tget 0 s.dram.keys (gSlot e) == 0 then some 3 else none
    | .part p =>
      if !gV e then some 4
      else if gDisp e || gPln e then some 2
      else if gPart e ≠ p then some 0
      else if tget 0 s.dram.keys (gSlot e) = 0 then some 3
      else if write && gRo e then some 1
      else none

/-- Number shown for a requester in MEM_ACC_ERR.PART. -/
def requesterPart : Requester → Nat
  | .part p => p
  | _ => 0

/-- A refused access (R250, R267): flags, capture, report under the DRAM controller's root domain. -/
def refuseAccess (s : State) (r : Requester) (g kind : Nat) : State :=
  let s := wr s MEM_EVT_STAT_ACC_VIOL 1
  let s := if kind = 3 then wr s MEM_EVT_STAT_KEY_ABSENT 1 else s
  let s := if isSet s MEM_ACC_ERR_VALID then s
    else wr (wr (wr (wr s MEM_ACC_ERR_VALID 1) MEM_ACC_ERR_KIND kind) MEM_ACC_ERR_PART (requesterPart r)) MEM_ACC_ERR_GRAN g
  report s 34 clsContained (if kind = 3 then 0x42 else 0x21) (match r with | .part p => p | _ => 0xFF) 0xFF
    (2 ^ 31 + kind * 2 ^ 28 + requesterPart r * 2 ^ 24 + g % 16384)

/-- May a partition reach a byte of T2 (R250)? -/
def bufReach (s : State) (p a : Nat) (write : Bool) : Bool := isT2 a && (accessKind s (.part p) (granOf a) write).isNone

/-- Status of a refused access (R254). -/
def kindStatus (kind : Nat) : Nat := if kind = 3 then 0x42 else 0x21

/-! ### Endpoints (R253) -/

/-- The physical cluster mapped to a logical number. -/
def physOf (s : State) (l : Nat) : Option Nat :=
  (List.range 34).find? (fun n => isSet s (CLU_MAP_MAPPED n) && rd s (CLU_MAP_LOGICAL n) == l)

/-- An endpoint of a move: host memory of a function, or an internal byte address, with the bytes its memory holds from
there on. -/
structure Ep where
  host : Bool
  fn : Nat
  base : Nat
  room : Nat
deriving DecidableEq, Repr

/-- Function that owns a partition's host memory. -/
def ownerOf (s : State) (p : Nat) : Nat := match tfind p s.parts with | some x => x.owner | none => 0

/-- Is a partition bound to a slot's version (R291): some handle of it staged from there is RESIDENT? -/
def boundTo (s : State) (p : Nat) (v : Nat × Slot) : Bool :=
  s.handles.any (fun e => e.2.part == p && e.2.slot == some v.1 && e.2.man.maqDigest == v.2.man.maqDigest && e.2.st == 1)

/-- An address in the form its tier selects; none: not allowed (R253, R255). `cl`: the engine's cluster; `p`: the
partition that owns the move, none for the Plinth. -/
def endpoint (s : State) (cl : Nat) (p : Option Nat) (fn tier a : Nat) : Option Ep :=
  if tier = 0 then
    if 2 ^ 25 ≤ a then none
    else
      match physOf s (bits a 20 5) with
      | none => none
      | some n =>
        let m := bits a 12 2
        let off := 8 * bits a 0 12
        if n = cl ∧ off < memSize m then some ⟨false, 0, memBase n m (bits a 14 6) + off, memSize m - off⟩ else none
  else if tier = 1 then
    if 2 ^ 25 ≤ a then none
    else
      match physOf s (bits a 20 5) with
      | none => none
      | some n =>
        if p = none ∨ p = some (cluPart s n) then some ⟨false, 0, memBase n 4 0 + bits a 0 20, 1048576 - bits a 0 20⟩ else none
  else if tier = 2 then (if t2Base ≤ a ∧ a < 2 ^ 40 then some ⟨false, 0, a, t2Base + 2 ^ 36 - a⟩ else none)
  else if tier = 3 then
    if isSet s WFL_STAT_READY then
      match slotAt s a with
      | some e =>
        if p = none ∨ boundTo s (p.getD 0) e = true then some ⟨false, 0, a, e.2.base + e.2.man.totalLen - a⟩ else none
      | none => none
    else none
  else if tier = 4 then (if a < 2 ^ 64 then some ⟨true, fn, a, 2 ^ 64 - a⟩ else none)
  else none

/-- A byte at offset `o` of an endpoint. -/
def epRb (s : State) (e : Ep) (o : Nat) : Byte := if e.host then hrb s e.fn (e.base + o) else devRb s (e.base + o)
def epWb (s : State) (e : Ep) (o : Nat) (v : Byte) : State :=
  if e.host then hwb s e.fn (e.base + o) v else devWb s (e.base + o) v

/-! ### Descriptors (R252, R255, R257) -/

/-- Bytes the element space of a descriptor holds. -/
def descBytes (d : Desc) : Nat := d.e0 * d.e1 * d.e2 * d.e3

/-- Offset of byte `k` of the visit order under strides. -/
def descOff (d : Desc) (s1 s2 s3 k : Nat) : Nat :=
  k % d.e0 + k / d.e0 % d.e1 * s1 + k / (d.e0 * d.e1) % d.e2 * s2 + k / (d.e0 * d.e1 * d.e2) * s3

def srcOff (d : Desc) (k : Nat) : Nat := descOff d d.s1 d.s2 d.s3 k
def dstOff (d : Desc) (k : Nat) : Nat := descOff d d.d1 d.d2 d.d3 k

/-- Bytes from the first to the last byte a strided side touches. -/
def span (d : Desc) (s1 s2 s3 : Nat) : Nat := d.e0 + (d.e1 - 1) * s1 + (d.e2 - 1) * s2 + (d.e3 - 1) * s3

def isCopy (d : Desc) : Bool := d.xform == 0
def isTo (d : Desc) : Bool := d.xform == 1
def isFrom (d : Desc) : Bool := d.xform == 2
def isNarrow (d : Desc) : Bool := d.xform == 3
def isFill (d : Desc) : Bool := d.xform == 4
def isExpand (d : Desc) : Bool := d.comp == 1
def isCompact (d : Desc) : Bool := d.comp == 2

/-- Format of an operand conversion (ARG). -/
def argFmt (d : Desc) : Nat := bits d.arg 0 4
def argQ (d : Desc) : Nat := if argFmt d = 6 ∨ (argFmt d = 0 ∧ bit d.arg 4 = true) then 4 else 8
def argKr (d : Desc) : Nat := if argFmt d = 1 ∨ (argFmt d = 0 ∧ bit d.arg 4 = true) then 2 else 1

/-- Channels of an operand conversion: E0 bytes of elements. -/
def argChannels (d : Desc) : Nat := if argFmt d = 6 then d.e0 / 2 else if argFmt d = 1 then 2 * d.e0 else d.e0

/-- Words of the operand image in AM (R61). -/
def operandWords (d : Desc) : Nat := 8 * ceilDiv (argChannels d) (8 * argKr d) * ceilDiv (d.e1 * d.e2) (argQ d)

/-- Is a T0 address in AM? -/
def inAm (a : Nat) : Bool := bits a 12 2 == 1

/-- Fields outside their ranges, or endpoints that R255, R256 and R257 do not allow (`spill`: a Plinth spill or a
TENSOR_MOVE, which may write T4). -/
def descBad (d : Desc) (spill : Bool) : Bool :=
  decide (4 < d.srcTier) || decide (4 < d.dstTier) || decide (4 < d.xform) || decide (2 < d.comp) || bits d.flags 2 6 != 0 ||
  d.rsvd != 0 ||
  (!isNarrow d && (d.e0 == 0 || d.e1 == 0 || d.e2 == 0 || d.e3 == 0 || decide (2 ^ 32 < descBytes d))) ||
  (isFill d && d.comp != 0) ||
  (bit d.flags 0 && !(d.dstTier == 0 && inAm d.dst)) ||
  (if isCopy d then !(decide (d.dstTier ≤ 2) || (d.dstTier == 4 && spill)) || d.arg != 0
   else if isTo d then !((d.srcTier == 1 || d.srcTier == 2) && d.dstTier == 0 && inAm d.dst) || decide (31 < d.arg)
   else if isFrom d then !(d.srcTier == 0 && inAm d.src && (d.dstTier == 1 || d.dstTier == 2)) || decide (31 < d.arg)
   else if isNarrow d then !((d.srcTier == 1 || d.srcTier == 2 || d.srcTier == 3) && d.dstTier == 0 && bits d.dst 12 2 == 0)
   else !decide (d.dstTier ≤ 2)) ||
  ((isTo d || isFrom d) && !(argFmt d == 0 || argFmt d == 1 || argFmt d == 4 || argFmt d == 5 || argFmt d == 6))

/-- Bytes the destination receives before compaction. -/
def rawBytes (s : State) (src : Ep) (d : Desc) : Nat :=
  if isTo d then d.e0 * d.e1 * d.e2
  else if isFrom d then d.e0 * d.e1 * d.e2
  else if isNarrow d then
    let k := (epRb s src 4).toNat + 256 * (epRb s src 5).toNat + 65536 * (epRb s src 6).toNat + 16777216 * (epRb s src 7).toNat
    128 * ceilDiv (bits d.arg 32 32) 8 * ceilDiv k 16
  else descBytes d

/-- Bytes an endpoint's memory must hold from its address on. -/
def needSrc (d : Desc) : Nat :=
  if isFill d then 0 else if isFrom d then 8 * operandWords d else if isNarrow d || isExpand d then 32 else span d d.s1 d.s2 d.s3

def needDst (d : Desc) : Nat :=
  if isCompact d then compactBound (descBytes d) else if isTo d then 8 * operandWords d else if isNarrow d then 8
  else span d d.d1 d.d2 d.d3

/-- Does a row of `n` bytes at `a` in T2 touch a granule that refuses the access? -/
def rowKind (s : State) (r : Requester) (write : Bool) (a n : Nat) : Option (Nat × Nat) :=
  if isT2 a then
    (List.range (granOf (a + n - 1) - granOf a + 1)).findSome? (fun i =>
      (accessKind s r (granOf a + i) write).map (fun k => (granOf a + i, k)))
  else if t2Base ≤ a ∧ a < t3Base then some (granOf a, 5) else none

/-- Rows of a strided side: offsets of their first bytes. -/
def rowOffs (d : Desc) (s1 s2 s3 : Nat) : List Nat :=
  (List.range (d.e1 * d.e2 * d.e3)).map (fun i => i % d.e1 * s1 + i / d.e1 % d.e2 * s2 + i / (d.e1 * d.e2) * s3)

/-- The first granule of T2 that refuses a move: granule, KIND. -/
def moveRefused (s : State) (r : Requester) (d : Desc) (src dst : Ep) : Option (Nat × Nat) :=
  let side := fun (e : Ep) (linear : Bool) (n s1 s2 s3 : Nat) (w : Bool) =>
    if e.host then none
    else if linear then rowKind s r w e.base n
    else (rowOffs d s1 s2 s3).findSome? (fun o => rowKind s r w (e.base + o) d.e0)
  match (if isFill d then none else side src (isExpand d || isNarrow d) (needSrc d) d.s1 d.s2 d.s3 false) with
  | some x => some x
  | none => if dst.host then none else side dst (isCompact d) (needDst d) d.d1 d.d2 d.d3 true

/-- The status of a failing check made before data moves (R254, R257), if any. -/
def moveCheck (s : State) (cl : Nat) (p : Option Nat) (fn : Nat) (d : Desc) (spill : Bool) : Option Nat :=
  if descBad d spill then some 0x21
  else
    match (if isFill d then some ⟨false, 0, 0, 0⟩ else endpoint s cl p fn d.srcTier d.src), endpoint s cl p fn d.dstTier d.dst with
    | some a, some b =>
      if (needSrc d ≤ a.room ∨ isFill d = true) ∧ needDst d ≤ b.room then
        let g : Bytes := fun i => (epRb s a i).toNat
        if isExpand d && !isNarrow d && !(streamRaw g == rawBytes s a d) then some 0x21 else none
      else some 0x21
    | _, _ => some 0x21

/-! ### The data of a move -/

/-- The source bytes a move reads, by internal address: of a stream or tensor its header, of an operand its words, else those
of the element space from visit position `lo` on, `n` of them. -/
def sourceAddrs (d : Desc) (src : Ep) (lo n : Nat) : List Nat :=
  if isFill d || src.host then []
  else if isExpand d || isNarrow d || isFrom d then (if lo = 0 then (List.range (needSrc d)).map (fun o => src.base + o) else [])
  else (List.range n).map (fun k => src.base + srcOff d (lo + k))

/-- Reads of the words that hold the bytes at the given addresses (R41, R43): corrected words of a cluster memory are counted;
`true` when one is delivered poisoned. -/
def readBytes (l : List Nat) (s : State) : State × Bool :=
  (dedupNext (l.map (· / 8))).foldl (fun z w =>
    if z.2 then z
    else match cellOf (8 * w) with
      | some (n, m, c, x) => readWord z.1 n m c x
      | none => (z.1, poisoned z.1 (8 * w))) (s, false)

/-- The raw source bytes in visit order, expanded when COMP = 1; none: a damaged stream. -/
def sourceBytes (s : State) (d : Desc) (src : Ep) (n : Nat) : Option (List Nat) :=
  let g : Bytes := fun i => (epRb s src i).toNat
  if isExpand d then expand g else some ((List.range n).map (fun k => g (srcOff d k)))

/-- An element of the operand image in AM: bits of channel `k` of pixel `p`. -/
def operandPlace (d : Desc) (base rows p k : Nat) : Nat × Nat × Nat :=
  let kr := argKr d
  actPlace (argFmt d) (argQ d) kr base rows p (k / (8 * kr)) (k % (8 * kr) / kr) (k % kr)

/-- Element `i` of a packed list of bytes in the format of ARG. -/
def elemOf (d : Desc) (l : List Nat) (i : Nat) : Nat :=
  if argFmt d = 6 then l.getD (2 * i) 0 + 256 * l.getD (2 * i + 1) 0
  else if argFmt d = 1 then bits (l.getD (i / 2) 0) (4 * (i % 2)) 4
  else l.getD i 0

/-- Write bytes from offset 0 of an endpoint. -/
def writeLinear (s : State) (e : Ep) (l : List Nat) : State :=
  wroteBytes ((l.zipIdx).foldl (fun s x => epWb s e x.2 (BitVec.ofNat 8 x.1)) s)
    (if e.host then [] else (List.range l.length).map (fun i => e.base + i))

/-- A move whose bytes are moved as they are. -/
def plainMove (d : Desc) : Bool := (isCopy d || isFill d) && d.comp == 0

/-- Bytes `lo` to `lo + n - 1` of a plain COPY or FILL as its source gives them. -/
def segmentBytes (s : State) (d : Desc) (src : Ep) (lo n : Nat) : List Byte :=
  (List.range n).map (fun k => if isFill d then BitVec.ofNat 8 (bits d.arg (8 * ((lo + k) % 8)) 8) else epRb s src (srcOff d (lo + k)))

/-- The bytes of a plain move written to its destination. -/
def writePlain (s : State) (d : Desc) (dst : Ep) (got : List Byte) : State :=
  let l := got.zipIdx.map (fun x => (dstOff d x.2, x.1))
  wroteBytes (l.foldl (fun s x => epWb s dst x.1 x.2) s) (if dst.host then [] else l.map (fun x => dst.base + x.1))

/-- Segments of a move, of up to 4 KiB of the bytes its destination receives (R48). -/
def moveSegs (s : State) (d : Desc) (src : Ep) : Nat := ceilDiv (max 1 (rawBytes s src d)) 4096

/-- The whole effect of a move that converts: the state with the destination written, or the status it fails with. -/
def moveData (s : State) (d : Desc) (src dst : Ep) : State × Nat :=
  let g : Bytes := fun i => (epRb s src i).toNat
  let rows := d.e1 * d.e2
  let ch := argChannels d
  if isNarrow d then
    match (if isExpand d then expand g else some []) with
    | none => (s, 0x60)
    | some ex =>
      let g : Bytes := if isExpand d then (fun i => ex.getD i 0) else g
      let t := narrowOf g
      let n0 := bits d.arg 0 32
      let nc := bits d.arg 32 32
      if !narrowOk g then (s, 0x22)
      else if t.n < n0 + nc ∨ nc = 0 then (s, 0x21)
      else
        let bytes := (narrowWords g n0 nc).flatMap (fun w => toLe w 8)
        let bytes := if isCompact d then compact bytes else bytes
        if dst.room < bytes.length then (s, 0x21) else (writeLinear s dst bytes, 0)
  else if isFrom d then
    let base := src.base / 8 * 8
    let word := fun w => rdN s (base + 8 * w) 8
    let elem := fun p k => let pl := operandPlace d 0 rows p k; bits (word pl.1) pl.2.1 pl.2.2
    let bytes := (List.range rows).flatMap (fun p =>
      if argFmt d = 1 then (List.range d.e0).map (fun b => elem p (2 * b) + 16 * elem p (2 * b + 1))
      else if argFmt d = 6 then (List.range ch).flatMap (fun k => toLe (elem p k) 2)
      else (List.range ch).map (fun k => elem p k))
    if isCompact d then (writeLinear s dst (compact bytes), 0)
    else
      let l := (bytes.zipIdx).map (fun x => (dstOff d x.2, x.1))
      (wroteBytes (l.foldl (fun s x => epWb s dst x.1 (BitVec.ofNat 8 x.2)) s) (l.map (fun x => dst.base + x.1)), 0)
  else
    match sourceBytes s d src (if isTo d then d.e0 * rows else descBytes d) with
    | none => (s, 0x60)
    | some bytes =>
      if isTo d then
        let image := fun (s0 : State) (base : Nat) =>
          (List.range rows).foldl (fun s p => (List.range ch).foldl (fun s k =>
            let pl := operandPlace d 0 rows p k
            let old := rdN s (base + 8 * pl.1) 8
            let keep := old % 2 ^ pl.2.1 + old / 2 ^ (pl.2.1 + pl.2.2) * 2 ^ (pl.2.1 + pl.2.2)
            wrN s (base + 8 * pl.1) 8 (keep + elemOf d (bytes.drop (p * d.e0)) k % 2 ^ pl.2.2 * 2 ^ pl.2.1)) s) s0
        let words := (List.range (8 * operandWords d)).map (fun i => dst.base + i)
        if isCompact d then
          let t := image { s with mem := tdrop (fun a => decide (dst.base ≤ a) && decide (a < dst.base + 8 * operandWords d)) s.mem } dst.base
          (writeLinear s dst (compact (words.map (fun a => (rb t a).toNat))), 0)
        else (wroteBytes (image s dst.base) words, 0)
      else if isCompact d then (writeLinear s dst (compact bytes), 0)
      else
        let l := (bytes.zipIdx).map (fun x => (dstOff d x.2, x.1))
        (wroteBytes (l.foldl (fun s x => epWb s dst x.1 (BitVec.ofNat 8 x.2)) s)
          (if dst.host then [] else l.map (fun x => dst.base + x.1)), 0)

/-- Free values over every byte of a move's destination: its data is undefined until the move's tag is set (R34), and after an
error (R254). -/
def scrambleDst (s : State) (d : Desc) (src dst : Ep) : State :=
  let offs := if isTo d then List.range (8 * operandWords d)
    else if isCompact d then List.range (needDst d)
    else if isNarrow d then List.range (rawBytes s src d)
    else (List.range (descBytes d)).map (dstOff d)
  (offs.filter (fun o => decide (o < dst.room))).foldl (fun s o => let p := fresh s; epWb p.2 dst o (BitVec.ofNat 8 p.1)) s

/-! ### Queues of a cluster DMA engine (R33, R48) -/

def mq (cl q : Nat) : Nat := cl * 68 + q
def moveQueue (s : State) (cl q : Nat) : List Move := tget [] s.moves (mq cl q)

/-- CLU_DMA_STAT follows the queues. -/
def refreshDma (s : State) (cl : Nat) : State :=
  let n := ((List.range 68).filter (fun q => !(moveQueue s cl q).isEmpty)).length
  wr (wr s (CLU_DMA_STAT_ACTIVE_Q cl) n) (CLU_DMA_STAT_BUSY cl) (if n = 0 then 0 else 1)

def setMoveQueue (s : State) (cl q : Nat) (l : List Move) : State :=
  refreshDma { s with moves := tput [] s.moves (mq cl q) l } cl

/-- Partition, function and T4 permission of a move. -/
def moveParty (s : State) (cl : Nat) (m : Move) : Option Nat × Nat × Bool :=
  match m.owner with
  | .plinth => (none, ownerOf s (cluPart s cl), true)
  | .packet c => (some c.part, c.fn, true)
  | _ => (some (cluPart s cl), ownerOf s (cluPart s cl), false)

/-- Who the DRAM controller sees (R250): an Armature's move is the display DMA's where it touches the display region (R164). -/
def moveRequester (s : State) (cl : Nat) (m : Move) : Requester :=
  let onDisplay := fun tier a => tier == 2 && isT2 a && gDisp (gEntry s (granOf a))
  match m.owner with
  | .plinth => .plinth
  | .entry => if onDisplay m.desc.srcTier m.desc.src || onDisplay m.desc.dstTier m.desc.dst then .display
              else .part (cluPart s cl)
  | .packet c => .part c.part
  | _ => .part (cluPart s cl)

/-- The endpoints of a move, once its checks pass. -/
def moveEnds (s : State) (cl : Nat) (m : Move) : Option (Ep × Ep) :=
  let x := moveParty s cl m
  match (if isFill m.desc then some ⟨false, 0, 0, 0⟩ else endpoint s cl x.1 x.2.1 m.desc.srcTier m.desc.src),
        endpoint s cl x.1 x.2.1 m.desc.dstTier m.desc.dst with
  | some a, some b => some (a, b)
  | _, _ => none

/-- The endpoints of a move that every check made before its data moves allows (R250, R254). -/
def moveAllowed (s : State) (cl : Nat) (m : Move) : Option (Ep × Ep) :=
  let x := moveParty s cl m
  match moveCheck s cl x.1 x.2.1 m.desc x.2.2, moveEnds s cl m with
  | none, some e => if (moveRefused s (moveRequester s cl m) m.desc e.1 e.2).isNone then some e else none
  | _, _ => none

/-- The destination of a move undefined, where the move may write it. -/
def undefineDst (s : State) (cl : Nat) (m : Move) : State :=
  match moveAllowed s cl m with
  | some e => scrambleDst s m.desc e.1 e.2
  | none => s

/-- A move put at the end of a queue; from now its destination is undefined (R34). -/
def queueMove (s : State) (cl q : Nat) (m : Move) : State :=
  let s := undefineDst s cl m
  setMoveQueue s cl q (moveQueue s cl q ++ [m])

/-- A Plinth queue of a cluster with fewer than 8 entries (R47). -/
def plinthQueue (s : State) (cl : Nat) : Option Nat := ([64, 65, 66, 67]).find? (fun q => decide ((moveQueue s cl q).length < 8))

/-- A move of the Plinth queued in the lowest Plinth queue with a place, or waiting for one (R47, log entry 22). -/
def queuePlinth (s : State) (cl : Nat) (m : Move) : State :=
  let w := tget [] s.moveWait cl
  match (if w.isEmpty then plinthQueue s cl else none) with
  | some q => queueMove s cl q m
  | none => { s with moveWait := tput [] s.moveWait cl (w ++ [m]) }

/-- The first waiting move of the Plinth takes a place that has become free. -/
def admitPlinth (s : State) (cl : Nat) : State :=
  match tget [] s.moveWait cl, plinthQueue s cl with
  | m :: t, some q => queueMove { s with moveWait := tput [] s.moveWait cl t } cl q m
  | _, _ => s

/-- The front move leaves its queue; a thread or a move that waits for a place in it goes on (R33). -/
def popMove (s : State) (cl q : Nat) : State :=
  let s := setMoveQueue s cl q (moveQueue s cl q).tail
  if q < 64 then wakeCore s (coreNo cl q) .moveQueue else admitPlinth s cl

/-- A move's end told to its owner (R254, R395). -/
def tellOwner (s : State) (m : Move) (status : Nat) : State :=
  match m.owner with
  | .thread k tag => completeTag s k tag (status == 0) status
  | .packet c => finish s c status {}
  | _ => s

/-- The front move ends in error (R43, R254): the destination is undefined, ERR_CNT counts it, its owner learns. -/
def failMove (s : State) (cl q status : Nat) : State :=
  match moveQueue s cl q with
  | [] => s
  | m :: _ =>
    let s := bump (undefineDst s cl m) (CLU_DMA_STAT_ERR_CNT cl) 1
    tellOwner (popMove s cl q) m status

/-- The front move is whole: its credit (R256) and its tag or record. -/
def finishMove (s : State) (cl q : Nat) : State :=
  match moveQueue s cl q with
  | [] => s
  | m :: _ =>
    let d := m.desc
    let s := popMove s cl q
    let s := if bit d.flags 0 then addCredit s (coreNo cl (bits d.dst 14 6)) (bit d.flags 1) (max 1 d.creditN) else s
    tellOwner s m 0

end Sys2Proof.Machine
end

