-- ==== Sys2Proof/Machine/Flash.lean ====
section
/-!
DEFINITION. Sys2Proof/Machine/Flash.lean: the weight flash (spec/09_weight_flash.md): dies and their operations, the
hold-up check, records and journal replay, block retirement, stores and erases.
-/
namespace Sys2Proof.Machine
open Reg

/-! ### Channels -/

def chan (s : State) (c : Nat) : Channel := tget {} s.flash.chans c
def setChan (s : State) (c : Nat) (x : Channel) : State :=
  { s with flash := { s.flash with chans := tput {} s.flash.chans c x } }

/-- Plane-sets of a channel (R288). -/
def psCount : Nat := if Config.flashGib = 128 then 238 else 110

/-- A logical block's block-map entry (R314). -/
def mapEntry (s : State) (c l : Nat) : Nat := (tfind l (chan s c).map).getD (2 ^ 15 + Config.blockMap c l % 1024)

/-- The physical block behind a logical block. -/
def pblk (s : State) (c l : Nat) : Nat := mapEntry s c l % 1024

def setMap (s : State) (c l e : Nat) : State := let x := chan s c; setChan s c { x with map := tset l e x.map }

/-- BUSY code of a channel (WFL_CH_STAT). -/
def busyCode (x : Channel) : Nat :=
  match x.running with
  | some .read | some .verify | some .patrol => 1
  | some .store | some (.copy _ _) => 2
  | some (.erase _) => 3
  | some (.record _) => 4
  | some .recErase => 5
  | none => match x.suspended with
    | some .recErase => 7
    | some _ => 6
    | none => 0

def refreshChan (s : State) (c : Nat) : State := wr s (WFL_CH_STAT_BUSY c) (busyCode (chan s c))

/-- Maquette-class programs and erases (R294). -/
def maqClass : DieWork → Bool
  | .store | .copy _ _ | .erase _ => true
  | _ => false

/-- Does an operation need the hold-up check (R298), and as an erase? -/
def needsHoldup : DieWork → Option Bool
  | .read | .verify | .patrol => none
  | .erase _ | .recErase => some true
  | _ => some false

/-- Order of starting at a die (R294). -/
def rankOf : DieWork → Nat
  | .read | .verify => 0
  | .record _ => 1
  | .recErase => 2
  | .store | .copy _ _ | .erase _ => 2
  | .patrol => 3

/-- Work put at a die. -/
def enqueueDie (s : State) (c : Nat) (w : DieWork) : State :=
  let x := chan s c
  setChan s c { x with waiting := x.waiting ++ [w] }

/-! ### Hold-up (R298, R299, R318) -/

/-- Does a sample code pass the check of an erase or a program? Energies in 10 µJ, voltages by R298's formula. -/
def holdupOk (s : State) (erase : Bool) (code : Nat) : Bool :=
  let cap := rd s WFL_HOLDUP_CFG_CAP
  let div := if rd s WFL_HOLDUP_CFG_DIV = 0 then 8 else rd s WFL_HOLDUP_CFG_DIV
  let vmin := rd s WFL_HOLDUP_CFG_VMIN
  let a : Int := ((code : Int) - 4) * 18 * div
  let d : Int := 81840
  let need : Int := ((if erase then 400 else 600) + rd s WFL_HOLDUP_EXT_E_BOARD : Nat)
  decide (200 * d * d * need ≤ (cap : Int) * (100 * a * a - (vmin : Int) * vmin * d * d))

/-- The lowest passing code; 0x3FF where none passes. -/
def holdupThr (s : State) (erase : Bool) : Nat := ((List.range 1024).find? (holdupOk s erase)).getD 0x3FF

def refreshThr (s : State) : State :=
  wr (wr s WFL_HOLDUP_STAT_PROG_THR (holdupThr s false)) WFL_HOLDUP_STAT_ERASE_THR (holdupThr s true)

/-- A sample taken: WFL_HOLDUP_STAT shows it. -/
def holdupSample (s : State) (code : Nat) : State :=
  wr (wr s WFL_HOLDUP_STAT_CODE code) WFL_HOLDUP_STAT_LOW (b2n (!holdupOk s false code))

/-! ### Records (R311-R313) -/

/-- Replace a record's fields. -/
def modRec (s : State) (seq : Nat) (f : FlashRec → FlashRec) : State :=
  { s with flash := { s.flash with records := s.flash.records.map (fun r => if r.seq = seq then f r else r) } }

/-- A device record appended; its copies go to WF0 first and then to WF16. -/
def writeDevRec (s : State) (b : RecBody) : State :=
  let seq := s.flash.nextSeq
  let s := { s with flash := { s.flash with
    records := s.flash.records ++ [{ seq, time := s.time, on0 := false, on16 := false, body := b }], nextSeq := seq + 1 } }
  enqueueDie (enqueueDie s 0 (.record seq)) 16 (.record seq)

/-! ### Plane-sets -/

def ecOf (s : State) (c b : Nat) : Nat := tget 0 (chan s c).ec b

/-- Erase count of a plane-set: the sum over its four blocks. -/
def psWear (s : State) (c ps : Nat) : Nat := (List.range 4).foldl (fun n i => n + ecOf s c (pblk s c (4 * ps + i))) 0

/-- Plane-sets in use: committed, of jobs, awaiting erase, or of a replaced version still resident (R303). -/
def psUsed (s : State) : List (Nat × Nat) :=
  s.flash.slots.flatMap (fun e => e.2.sets) ++ s.flash.jobs.flatMap (fun j => j.sets ++ j.eraseLeft) ++
    s.flash.awaiting.flatMap Prod.snd ++ s.flash.oldSets.flatMap (fun e => e.2.sets)

/-- Free plane-sets of a channel. -/
def psFree (s : State) (c : Nat) : List Nat :=
  let used := psUsed s
  (List.range psCount).filter (fun p => !used.contains (c, p) && !(chan s c).lost.contains p)

/-- The free plane-set of least wear. -/
def leastWorn (s : State) (c : Nat) : List Nat → Option Nat
  | [] => none
  | p :: t =>
    match leastWorn s c t with
    | none => some p
    | some q => if psWear s c q < psWear s c p then some q else some p

/-- `n` free plane-sets in order of lowest erase count (R301). -/
def takeSets (s : State) (c : Nat) : Nat → List Nat → List (Nat × Nat)
  | 0, _ => []
  | n + 1, free =>
    match leastWorn s c free with
    | none => []
    | some p => (c, p) :: takeSets s c n (free.filter (fun q => q != p))

/-- Channels of a stripe set, ascending (R290). -/
def setChans (set : Nat) : List Nat := (List.range 32).filter (fun c => bit set c)

/-- Pages of the i-th of n channels of a maquette of `len` bytes (R290). -/
def chanPages (len n i : Nat) : Nat := let p := ceilDiv len 16384; (p + n - 1 - i) / n

/-- MAX_EC and AVG_EC of a channel. -/
def refreshWear (s : State) (c : Nat) : State :=
  let l := (List.range (4 * psCount)).map (fun b => ecOf s c (pblk s c b))
  wr (wr s (WFL_CH_WEAR_MAX_EC c) (min 65535 (l.foldl max 0))) (WFL_CH_WEAR_AVG_EC c) (l.foldl (· + ·) 0 / (4 * psCount))

/-! ### Block retirement (R307, R308) -/

/-- A spare for plane `p`: of the plane itself, else of another. -/
def takeSpare (s : State) (c p : Nat) : Option (Nat × State) :=
  let x := chan s c
  match ([p, (p + 1) % 4, (p + 2) % 4, (p + 3) % 4]).find? (fun q => decide (tget 0 x.spareUsed q < 12)) with
  | none => none
  | some q =>
    let n := tget 0 x.spareUsed q
    let s := setChan s c { x with spareUsed := tput 0 x.spareUsed q (n + 1) }
    some (Config.spareBlock c q n % 1024, wr s (WFL_CH_STAT_SPARE_LEFT c) (rd s (WFL_CH_STAT_SPARE_LEFT c) - 1))

/-- A free block of a worn channel: a free block for relocation, of the same plane first; else from the least worn free
plane-set, which leaves the pool for good (R308). -/
def takeFree (s : State) (c p : Nat) : Option (Nat × State) :=
  let x := chan s c
  match (x.extra.find? (fun b => b % 4 == p)).orElse (fun _ => x.extra.head?) with
  | some b => some (b, setChan s c { x with extra := x.extra.filter (fun y => y != b) })
  | none =>
    match leastWorn s c (psFree s c) with
    | none => none
    | some ps =>
      let own := pblk s c (4 * ps + p)
      let rest := ([(p + 1) % 4, (p + 2) % 4, (p + 3) % 4]).map (fun q => pblk s c (4 * ps + q))
      some (own, setChan s c { x with lost := x.lost ++ [ps], extra := x.extra ++ rest })

/-- WFL_ERR_LAST as a record of domain 35 carries it (R475). -/
def flashCapture (s : State) : Nat :=
  rd s WFL_ERR_LAST_VALID * 2 ^ 31 + rd s WFL_ERR_LAST_CH * 2 ^ 26 + rd s WFL_ERR_LAST_PBLK * 2 ^ 14 + rd s WFL_ERR_LAST_PAGE * 2 ^ 6

/-- A block for plane `p`; a channel whose spares are gone becomes worn. -/
def replacement (s : State) (c p : Nat) : Option Nat × State :=
  match takeSpare s c p with
  | some (b, s) => (some b, s)
  | none =>
    let s := if isSet s (WFL_CH_STAT_WORN c) then s
      else report (wr (wr s (WFL_CH_STAT_WORN c) 1) WFL_EVT_STAT_FLASH_WORN 1) 35 clsDevice 0x51 0xFF c (flashCapture s)
    match takeFree s c p with
    | some (b, s) => (some b, s)
    | none => (none, s)

/-- A physical block is grown bad (R307). -/
def growBad (s : State) (c b : Nat) : State :=
  let x := chan s c
  wr (bump (setChan s c { x with grown := x.grown ++ [b] }) (WFL_CH_STAT_GROWN_BAD c) 1) WFL_EVT_STAT_GROWN_BAD 1

/-- A logical block's physical block is retired as grown bad. `data`: the block holds data, which is copied first. -/
def retireBlock (s : State) (c l : Nat) (data : Bool) : State :=
  let old := pblk s c l
  let r := replacement (growBad s c old) c (l % 4)
  match r.1 with
  | none => setMap r.2 c l (2 ^ 15 + 2 ^ 14 + old)
  | some b => if data then enqueueDie (setMap r.2 c l (2 ^ 15 + 2 ^ 14 + old)) c (.copy l b) else setMap r.2 c l (2 ^ 15 + b)

/-- The physical block of record-area block `i` (R288, R309). -/
def recBlock (s : State) (c i : Nat) : Nat := (tfind i (chan s c).recMap).getD (Config.recordBlock c i % 1024)

/-- A record-area block retired and replaced as a maquette block is (R309); its records are copied to its replacement. -/
def replaceRec (s : State) (c i : Nat) : State :=
  let r := replacement (growBad s c (recBlock s c i)) c (i % 4)
  match r.1 with
  | none => r.2
  | some b => let x := chan r.2 c; setChan r.2 c { x with recMap := tset i b x.recMap, recEc := tput 0 x.recEc i 0 }

/-! ### Jobs (R300-R303) -/

def setJobs (s : State) (l : List FlashJob) : State :=
  let s := { s with flash := { s.flash with jobs := l } }
  wr s WFL_STAT_STORE_ACT (b2n (!l.isEmpty))

/-- The front job replaced. -/
def setFront (s : State) (j : FlashJob) : State :=
  match s.flash.jobs with
  | [] => s
  | _ :: t => setJobs s (j :: t)

/-- Plane-sets to be erased in the background under a record (R302, R303, R306). -/
def eraseLater (s : State) (seq : Nat) (sets : List (Nat × Nat)) : State :=
  let s := { s with flash := { s.flash with awaiting := s.flash.awaiting ++ [(seq, sets)] } }
  sets.foldl (fun s e => enqueueDie s e.1 (.erase e.2)) s

/-- MAQ_COUNT follows the slots. -/
def refreshCount (s : State) : State := wr s WFL_STAT_MAQ_COUNT s.flash.slots.length

/-- A job's packet completes, when the ring still takes it. -/
def tellJob (s : State) (j : FlashJob) (status : Nat) (x : Result) : State :=
  match j.cmd with
  | some c => finish s c status x
  | none => s

/-- Sum of RAW_LEN of every section. -/
def rawLenSum (m : Manifest) : Nat := m.sects.foldl (fun n x => n + x.rawLen) 0

/-- Charge of a whole maquette, staged in T2 or stored in T3: its uncompressed size, rounded up to 4 KiB (R270, R332). -/
def rawSize (m : Manifest) : Nat := ceilDiv (rawLenSum m) 4096 * 4096

/-- A partition's record replaced. -/
def setPart (s : State) (p : Nat) (f : Part → Part) : State :=
  match tfind p s.parts with
  | some x => { s with parts := tset p (f x) s.parts }
  | none => s

/-- Is the maquette of a slot staged or resident in any partition (R303, R331)? -/
def slotHeld (s : State) (slot : Nat) : Bool := s.handles.any (fun e => e.2.slot == some slot)

/-- Old versions of replaced slots that no handle was staged from any more: their plane-sets are erased under an
ERASE_INTENT record (R303). -/
def freeOldSets (s : State) : State :=
  let used := fun (e : Nat × Slot) => s.handles.any (fun h => h.2.slot == some e.1 && h.2.man.maqDigest == e.2.man.maqDigest)
  let gone := s.flash.oldSets.filter (fun e => !used e)
  let s := { s with flash := { s.flash with oldSets := s.flash.oldSets.filter used } }
  gone.foldl (fun s e => eraseLater (writeDevRec s (.eraseIntent e.1 e.2.sets)) s.flash.nextSeq e.2.sets) s

/-- The windows a new maquette of `len` bytes may take (R291). -/
def freeBases (s : State) (len : Nat) : List Nat :=
  ((List.range 256).map (fun i => t3Base + i * 536870912)).filter (fun b =>
    decide (b + len ≤ 2 ^ 38) &&
    s.flash.slots.all (fun e => decide (b + len ≤ e.2.base) || decide (e.2.base + e.2.man.totalLen ≤ b)) &&
    s.flash.oldSets.all (fun e => decide (b + len ≤ e.2.base) || decide (e.2.base + e.2.man.totalLen ≤ b)))

/-- An element of a list chosen by a free value (log entry 1). -/
def pick (s : State) (l : List Nat) : Option Nat × State :=
  let p := fresh s
  (if l.isEmpty then none else some (l.getD (p.1 % l.length) 0), p.2)

/-- The front job starts: a store checks its channels and allocates; an erase withdraws its slot (R300-R303). -/
def startOne (s : State) : State :=
  match s.flash.jobs with
  | [] => s
  | j :: t =>
    if j.started then s
    else if j.store then
      let cs := setChans j.set
      let len := match j.man with | some m => m.totalLen | none => 0
      let need := fun (i : Nat) => ceilDiv (chanPages len cs.length i) 1024
      let idx := cs.zipIdx
      if cs.any (fun c => isSet s (WFL_CH_STAT_WORN c)) then
        tellJob (setPart (setJobs s t) j.part (fun p => { p with c3 := p.c3 - (match j.man with | some m => rawSize m | none => 0) })) j 0x51 {}
      else if idx.any (fun e => decide ((psFree s e.1).length < need e.2)) then
        tellJob (setPart (setJobs s t) j.part (fun p => { p with c3 := p.c3 - (match j.man with | some m => rawSize m | none => 0) })) j 0x31 {}
      else
        let sets := idx.flatMap (fun e => takeSets s e.1 (need e.2) (psFree s e.1))
        let left := idx.map (fun e => (e.1, ceilDiv (chanPages len cs.length e.2) 4))
        let seq := s.flash.nextSeq
        let s := setJobs s ({ j with started := true, sets := sets, recSeq := seq, left := left, verify := left } :: t)
        let s := writeDevRec s (.storeBegin j.slot j.set sets)
        left.foldl (fun s e => if e.2 = 0 then s else enqueueDie s e.1 .store) s
    else
      match tfind j.slot s.flash.slots with
      | none => tellJob (setJobs s t) j 0x21 {}
      | some x =>
        let seq := s.flash.nextSeq
        let s := { s with flash := { s.flash with slots := tdel j.slot s.flash.slots } }
        let s := setPart s x.part (fun p => { p with c3 := p.c3 - rawSize x.man })
        let s := setJobs s ({ j with started := true, recSeq := seq, eraseLeft := x.sets } :: t)
        let s := writeDevRec (refreshCount s) (.eraseIntent j.slot x.sets)
        x.sets.foldl (fun s e => enqueueDie s e.1 (.erase e.2)) s

/-- The front job starts; one that is refused at its start makes way for the next (R300). -/
def startJob (s : State) : State := (List.range s.flash.jobs.length).foldl (fun s _ => startOne s) s

/-- Drop the waiting work of a store from every die. -/
def dropStoreWork (s : State) : State :=
  (List.range 32).foldl (fun s c =>
    let x := chan s c
    setChan s c { x with waiting := x.waiting.filter (fun w => !(w == .store) && !(w == .verify)) }) s

/-- The front store fails (R302): STORE_ABORT, its plane-sets are erased, its charge is returned, the next job starts. -/
def abortStore (s : State) (status : Nat) : State :=
  match s.flash.jobs with
  | [] => s
  | j :: t =>
    let s := dropStoreWork s
    let s := if j.started then eraseLater (writeDevRec s (.storeAbort j.recSeq)) s.flash.nextSeq j.sets else s
    let s := setPart s j.part (fun p => { p with c3 := p.c3 - (match j.man with | some m => rawSize m | none => 0) })
    startJob (tellJob (setJobs s t) j status {})

/-! ### Starting and ending operations -/

/-- The operation the controller starts next at a free die (R294-R296): while an operation is suspended, only reads and
record-class programs; for a suspended record-class erase only its one nested program. -/
def nextWork (x : Channel) : Option DieWork :=
  let l := match x.suspended with
    | some .recErase => if x.nested then [] else x.waiting.filter (fun w => rankOf w == 1)
    | some _ => x.waiting.filter (fun w => decide (rankOf w ≤ 1))
    | none => x.waiting
  ((List.range 4).findSome? (fun r => l.find? (fun w => rankOf w == r)))

/-- Is a record-class erase running or suspended on another channel (R296: one channel at a time)? -/
def recEraseElsewhere (s : State) (c : Nat) : Bool :=
  s.flash.chans.any (fun e => e.1 != c && (e.2.running == some .recErase || e.2.suspended == some .recErase))

/-- The work starts at its die. -/
def beginWork (s : State) (c : Nat) (w : DieWork) : State :=
  let x := chan s c
  refreshChan (setChan s c { x with running := some w, waiting := x.waiting.erase w,
                                    nested := x.nested || (x.suspended == some .recErase) }) c

/-- FLASH_OP_START (R294, R298, R299): the next operation of a free die starts; a program or erase only when the sample of
HOLDUP_SENSE passes. -/
def execFlashOpStart (ch : Fin 32) (code : Fin 1024) (s : State) : Out :=
  let x := chan s ch
  if x.running.isSome || !isSet s WFL_CTRL_ENABLE then .next s
  else
    match nextWork x with
    | none => .next s
    | some w =>
      match needsHoldup w with
      | none => .next (beginWork s ch w)
      | some erase =>
        if isSet s WFL_STAT_STOPPED || (w == .recErase && recEraseElsewhere s ch) then .next s
        else
          let s := holdupSample s code
          if holdupOk s erase code then
            .next (beginWork (match s.flash.jobs with | j :: _ => setFront s { j with holdLow := false } | [] => s) ch w)
          else
            let s := wr s WFL_EVT_STAT_HOLDUP_LOW 1
            match s.flash.jobs with
            | j :: _ => .next (if j.started && (w == .store || j.eraseLeft.any (fun e => w == .erase e.2)) then
                setFront s { j with holdLow := true } else s)
            | [] => .next s

/-- The die is free again. -/
def endWork (s : State) (c : Nat) : State :=
  let x := chan s c
  refreshChan (setChan s c { x with running := none }) c

/-- Counters and reports of a page read (R293, R319, R471). -/
def countRead (s : State) (c : Nat) (r : PageRead) : State :=
  let s := bump s WFL_ECC_CNT_HIGH_CE r.high
  let s := if 0 < r.level.val then bump s WFL_ECC_CNT_RETRY 1 else s
  if r.ue then
    let s := wr (bump s WFL_ECC_CNT_UE 1) WFL_EVT_STAT_READ_UE 1
    let s := if isSet s WFL_ERR_LAST_VALID then s
      else wr (wr (wr (wr s WFL_ERR_LAST_VALID 1) WFL_ERR_LAST_CH c) WFL_ERR_LAST_PBLK (pblk s c r.lblk)) WFL_ERR_LAST_PAGE r.page
    report s 35 clsContained 0x61 0xFF c (2 ^ 31 + c * 2 ^ 26 + pblk s c r.lblk * 2 ^ 14 + r.page * 2 ^ 6)
  else if 0 < r.level.val then report s 35 clsCorrected 0 0xFF 0xFF 0 else s

/-- Four-plane programs, and read-backs, of a store's whole share of a channel (R290, R301). -/
def storeTotal (j : FlashJob) (c : Nat) : Nat :=
  let cs := setChans j.set
  match j.man, cs.findIdx? (· == c) with
  | some m, some i => ceilDiv (chanPages m.totalLen cs.length i) 4
  | _, _ => 0

/-- The logical block of plane `plane` in which program or read-back `k` of a store's channel lies. -/
def storeBlock (j : FlashJob) (c k plane : Nat) : Nat :=
  4 * ((j.sets.filter (fun e => e.1 == c)).map Prod.snd).getD (k / 256) 0 + plane

/-- A block of the running store fails program or verification at program `k` (R301, R302): its pages so far are programmed again and
verified; the third block in a row for one logical block ends the store. -/
def storeFailure (s : State) (c l k : Nat) : State :=
  match s.flash.jobs with
  | [] => s
  | j :: _ =>
    let key := c * 4096 + l
    let n := tget 0 j.fails key + 1
    let s := retireBlock s c l false
    if 3 ≤ n then abortStore s 0x52
    else
      let start := k / 256 * 256
      let total := storeTotal j c
      let left := if tget 0 j.left c = 0 then min 256 (total - start) else total - start
      let s := setFront s { j with fails := tput 0 j.fails key n, left := tput 0 j.left c left,
                                   verify := tput 0 j.verify c (if tget 0 j.left c = 0 then total - start else tget 0 j.verify c) }
      enqueueDie s c .store

/-- FLASH_READ_DONE (R293, R301, R307): `waited` is how long the read waited before its tREAD, in 10 µs. -/
def execFlashReadDone (ch : Fin 32) (r : PageRead) (waited : Nat) (s : State) : Out :=
  match (chan s ch).running with
  | some .read =>
    let s := countRead (endWork s ch) ch r
    let s := wr s WFL_SUSP_CNT_STALL_MAX (min 65535 (max (rd s WFL_SUSP_CNT_STALL_MAX) waited))
    .next (if r.level = 8 then retireBlock s ch r.lblk true else s)
  | some .verify =>
    let s := countRead (endWork s ch) ch r
    match s.flash.jobs with
    | j :: _ =>
      if r.crcOk = false ∨ 60 < r.worst ∨ r.ue = true then .next (storeFailure s ch r.lblk (storeTotal j ch - tget 0 j.verify ch))
      else
        let n := tget 0 j.verify ch - 1
        let s := setFront s { j with verify := tput 0 j.verify ch n }
        .next (if n = 0 then s else enqueueDie s ch .verify)
    | [] => .next s
  | _ => .next s

/-- A record program has ended (R309, R311): a copy that is whole counts as valid; 64 programs fill a block, and with 6 full the oldest
block is erased. A block that fails is replaced, and the record is programmed again. -/
def recordDone (s : State) (c seq : Nat) (ok : Bool) : State :=
  let x := chan s c
  if !ok then enqueueDie (replaceRec s c ((x.recOld + x.recFull) % 8)) c (.record seq)
  else
    let s := modRec s seq (fun r => if c = 0 then { r with on0 := true } else { r with on16 := true })
    let x := if x.recUsed + 1 = 64 then { x with recUsed := 0, recFull := x.recFull + 1 } else { x with recUsed := x.recUsed + 1 }
    let s := setChan s c x
    if x.recFull = 6 ∧ x.recUsed = 0 then enqueueDie s c .recErase else s

/-- The oldest record-area block has been erased (R309, R311): its cycles count; one that fails or reaches 30,000 is replaced. -/
def recordErased (s : State) (c : Nat) (ok : Bool) : State :=
  let x := chan s c
  let i := x.recOld
  let n := tget 0 x.recEc i + 1
  let s := setChan s c { x with recFull := x.recFull - 1, recOld := (i + 1) % 8, recEc := tput 0 x.recEc i n, nested := false }
  if ok = false ∨ 30000 ≤ n then replaceRec s c i else s

/-- FLASH_PROGRAM_DONE (R301, R307, R309-R311): `plane` is that of the block that failed. -/
def execFlashProgramDone (ch : Fin 32) (ok : Bool) (plane : Fin 4) (s : State) : Out :=
  match (chan s ch).running with
  | some .store =>
    let s := endWork s ch
    match s.flash.jobs with
    | j :: _ =>
      if ok then
        let n := tget 0 j.left ch - 1
        let s := setFront s { j with left := tput 0 j.left ch n }
        .next (enqueueDie s ch (if n = 0 then .verify else .store))
      else
        let k := storeTotal j ch - tget 0 j.left ch
        .next (storeFailure s ch (storeBlock j ch k plane) k)
    | [] => .next s
  | some (.record seq) =>
    .next (recordDone (endWork s ch) ch seq ok)
  | some (.copy l dst) =>
    let s := endWork s ch
    if ok then
      let retired := mapEntry s ch l / 2 ^ 14 % 2 == 1
      let old := pblk s ch l
      let s := setMap s ch l (2 ^ 15 + dst)
      if retired then .next s
      else
        let x := chan s ch
        let s := setChan s ch { x with extra := x.extra ++ [old] }
        let rel := s.flash.records.find? (fun r => match r.body with | .relocate c o n b => c == ch.val && o == old && n == dst && b == l | _ => false)
        .next (wr (writeDevRec s (.relocateDone (match rel with | some r => r.seq | none => 0))) WFL_EVT_STAT_RELOCATED 1)
    else
      let r := replacement (growBad s ch dst) ch (l % 4)
      match r.1 with
      | some b => .next (enqueueDie r.2 ch (.copy l b))
      | none => .next r.2
  | _ => .next s

/-- A plane-set has been erased: counts, and retirement at 3,000 or of the plane's block that failed (R307). -/
def countErase (s : State) (c ps : Nat) (ok : Bool) (plane : Nat) : State :=
  let s := (List.range 4).foldl (fun s i =>
    let b := pblk s c (4 * ps + i)
    let x := chan s c
    let n := tget 0 x.ec b + 1
    let s := setChan s c { x with ec := tput 0 x.ec b (min 65535 n) }
    if n = 3000 ∨ (ok = false ∧ i = plane) then retireBlock s c (4 * ps + i) false else s) s
  refreshWear s c

/-- FLASH_ERASE_DONE (R303, R307-R309, R311): a plane-set or a record block has been erased; `plane` is that of the block that failed. -/
def execFlashEraseDone (ch : Fin 32) (ok : Bool) (plane : Fin 4) (s : State) : Out :=
  match (chan s ch).running with
  | some (.erase ps) =>
    let s := countErase (endWork s ch) ch ps ok plane
    let s := { s with flash := { s.flash with
      awaiting := s.flash.awaiting.map (fun (e : Nat × List (Nat × Nat)) => (e.1, e.2.filter (fun x => !(x == (ch.val, ps))))) } }
    let s := match s.flash.jobs with
      | j :: _ => setFront s { j with eraseLeft := j.eraseLeft.filter (fun x => !(x == (ch.val, ps))) }
      | [] => s
    -- a block left on a retired physical block moves now that a block is free (R308)
    match (List.range (4 * psCount)).find? (fun l => bit (mapEntry s ch l) 14 && !(chan s ch).waiting.any (fun w => match w with | .copy m _ => m == l | _ => false)) with
    | some l =>
      match takeFree s ch (l % 4) with
      | some (b, s) => .next (enqueueDie s ch (.copy l b))
      | none => .next s
    | none => .next s
  | some .recErase => .next (recordErased (endWork s ch) ch ok)
  | _ => .next s

/-- FLASH_SUSPEND (R295, R296): a maquette-class operation is suspended for a waiting read or record-class program, a
record-class erase only for one record-class program. -/
def execFlashSuspend (ch : Fin 32) (s : State) : Out :=
  let x := chan s ch
  match x.running with
  | some w =>
    let may := if maqClass w then x.waiting.any (fun v => decide (rankOf v ≤ 1))
      else w == .recErase && !x.nested && x.waiting.any (fun v => rankOf v == 1)
    if may && x.suspended.isNone then
      .next (bump (refreshChan (setChan s ch { x with running := none, suspended := some w }) ch) WFL_SUSP_CNT_SUSPENDS 1)
    else .next s
  | none => .next s

/-- FLASH_RESUME (R295, R296): the suspended operation goes on; a record-class erase after its nested program. -/
def execFlashResume (ch : Fin 32) (s : State) : Out :=
  let x := chan s ch
  match x.running, x.suspended with
  | none, some w =>
    if w == .recErase && !x.nested then .next s
    else .next (refreshChan (setChan s ch { x with running := some w, suspended := none }) ch)
  | _, _ => .next s

/-- HOLDUP_RETRY_TIMEOUT (R302, R303): a hold-up check has failed for 100 ms: a store aborts, an erase completes and its
erases go on in the background. -/
def execHoldupRetryTimeout (s : State) : Out :=
  match s.flash.jobs with
  | j :: t =>
    if j.holdLow then
      if j.store then .next (abortStore s 0x50)
      else
        let s := { s with flash := { s.flash with awaiting := s.flash.awaiting ++ [(j.recSeq, j.eraseLeft)] } }
        .next (startJob (tellJob (setJobs s t) j 0x50 {}))
    else .next s
  | [] => .next s

/-- PATROL_READ (R310): an idle die reads a page of a committed maquette; a weak block is relocated, or the relocation is
blocked while its plane has no free block. -/
def execPatrolRead (ch : Fin 32) (r : PageRead) (s : State) : Out :=
  let x := chan s ch
  let mine := s.flash.slots.any (fun e => e.2.sets.contains (ch.val, r.lblk / 4))
  if x.running.isSome || x.suspended.isSome || !x.waiting.isEmpty || !isSet s WFL_CTRL_PATROL_EN || !isSet s WFL_STAT_READY ||
     !mine then .next s
  else
    let s := countRead s ch r
    if r.level = 8 then .next (retireBlock s ch r.lblk true)
    else if 80 < r.worst ∨ 0 < r.level.val then
      match x.extra.find? (fun b => b % 4 == r.lblk % 4) with
      | some b =>
        let s := setChan s ch { chan s ch with extra := x.extra.filter (fun y => y != b) }
        let s := writeDevRec s (.relocate ch (pblk s ch r.lblk) b r.lblk)
        .next (enqueueDie (wr s WFL_STAT_RELOC_BLOCKED 0) ch (.copy r.lblk b))
      | none => .next (wr (wr s WFL_EVT_STAT_RELOCATED 1) WFL_STAT_RELOC_BLOCKED 1)
    else .next s

/-- STORE_COMMIT (R300, R302, R303): the front store's data is programmed and verified; the commit record switches the
slot to the new version. -/
def execStoreCommit (ok : Bool) (s : State) : Out :=
  match s.flash.jobs with
  | j :: t =>
    match j.man with
    | some m =>
      if !(j.store && j.started && j.left.all (fun e => e.2 == 0) && j.verify.all (fun e => e.2 == 0)) then .next s
      else if !ok then .next (abortStore s 0x7F)
      else
        let p := pick s (freeBases s m.totalLen)
        match p.1 with
        | none => .next (abortStore p.2 0x31)
        | some base =>
          let s := p.2
          let old := tfind j.slot s.flash.slots
          let new : Slot := { set := j.set, base, man := m, part := j.part, sets := j.sets, beginSeq := j.recSeq }
          let s := { s with flash := { s.flash with slots := tset j.slot new s.flash.slots } }
          let s := writeDevRec (refreshCount s) (.storeCommit j.slot j.recSeq)
          let s := match old with
            | none => s
            | some o =>
              let s := setPart s o.part (fun p => { p with c3 := p.c3 - rawSize o.man })
              if slotHeld s j.slot then { s with flash := { s.flash with oldSets := s.flash.oldSets ++ [(j.slot, o)] } }
              else eraseLater (writeDevRec s (.eraseIntent j.slot o.sets)) s.flash.nextSeq o.sets
          .next (startJob (tellJob (setJobs s t) j 0 { r1 := base }))
    | none => .next s
  | [] => .next s

/-- ERASE_DONE (R303, R306): the front erase, or erases in the background, have ended; the ERASE_DONE record is written. -/
def execEraseDone (ok : Bool) (s : State) : Out :=
  match s.flash.awaiting.find? (fun e => e.2.isEmpty) with
  | some e =>
    let s := { s with flash := { s.flash with awaiting := s.flash.awaiting.filter (fun x => x.1 != e.1) } }
    .next (if ok then writeDevRec s (.eraseDone e.1) else s)
  | none =>
    match s.flash.jobs with
    | j :: t =>
      if !j.store && j.started && j.eraseLeft.isEmpty then
        let s := if ok then writeDevRec s (.eraseDone j.recSeq) else s
        .next (startJob (tellJob (setJobs s t) j (if ok then 0 else 0x7F) {}))
      else .next s
    | [] => .next s

/-! ### Enabling, stopping, journal replay (R304-R306) -/

/-- A record in force: either copy is valid (R311). -/
def inForce (r : FlashRec) : Bool := r.on0 || r.on16

/-- Is a STORE_BEGIN followed by its commit or abort? -/
def closed (l : List FlashRec) (seq : Nat) : Bool :=
  l.any (fun r => match r.body with
    | .storeCommit _ b => b == seq
    | .storeAbort b => b == seq
    | .eraseDone i => i == seq
    | .relocateDone i => i == seq
    | _ => false)

/-- The journal replayed (R306). -/
def replayJournal (s : State) : State :=
  let torn := s.flash.records.any (fun r => !inForce r)
  let live := s.flash.records.filter inForce
  let s := { s with flash := { s.flash with records := live.map (fun r => { r with on0 := true, on16 := true }), jobs := [],
                                            awaiting := [] } }
  let s := if torn then wr s WFL_EVT_STAT_TORN_FOUND 1 else s
  let s := { s with flash := { s.flash with slots := s.flash.slots.filter (fun e =>
      live.any (fun r => match r.body with | .storeCommit _ b => b == e.2.beginSeq | _ => false)) } }
  let s := live.foldl (fun s r =>
    if closed live r.seq then s
    else
      match r.body with
      | .storeBegin _ _ sets => eraseLater (writeDevRec s (.storeAbort r.seq)) r.seq sets
      | .eraseIntent slot sets =>
        let own := match tfind slot s.flash.slots with | some x => x.sets == sets | none => false
        eraseLater (if own then { s with flash := { s.flash with slots := tdel slot s.flash.slots } } else s) r.seq sets
      | .relocate c _ n _ => let x := chan s c; setChan s c { x with extra := x.extra ++ [n] }
      | _ => s) s
  refreshCount (freeOldSets (wr s WFL_STAT_STORE_ACT 0))

/-- A channel's registers rebuilt from its record area (R319), and the surplus good blocks of its planes among its free blocks
(R289). -/
def rebuildChan (s : State) (c : Nat) : State :=
  let x := chan s c
  let s := if x.surplus then s
    else setChan s c { x with surplus := true, extra := x.extra ++ (List.range (16 - Config.factoryBad c % 17)).map (fun i => Config.surplusBlock c i % 1024) }
  let s := wr (wr s (WFL_CH_STAT_FACTORY_BAD c) (Config.factoryBad c % 17)) (WFL_CH_STAT_GROWN_BAD c) (min 63 x.grown.length)
  let s := wr s (WFL_CH_STAT_SPARE_LEFT c) (48 - ((List.range 4).map (tget 0 x.spareUsed)).foldl (· + ·) 0)
  refreshWear (wr s (WFL_CH_STAT_WORN c) (b2n (decide (49 ≤ x.grown.length)))) c

/-- The journal replayed and the channels rebuilt: the T3 window serves reads (R306, R319). -/
def readyFlash (s : State) : State := wr ((List.range 32).foldl rebuildChan (replayJournal (wr s WFL_CTRL_ENABLE 1))) WFL_STAT_READY 1

/-- The controller enabled (R306). -/
def enableFlash (s : State) : State :=
  if isSet s WFL_CTRL_ENABLE || isSet s WFL_STAT_STOPPED then wr s WFL_CTRL_ENABLE 1 else readyFlash s

/-- WFL_ENABLE (R306): WFL_CTRL.ENABLE set. -/
def execWflEnable (s : State) : Out := .next (enableFlash s)

/-- The controller stops (R304): programs complete, a suspended program first; erases are aborted by die reset; the PHYs park. -/
def closeFlash (s : State) : State :=
  let s := wr s WFL_STAT_STOPPED 1
  let s := (List.range 32).foldl (fun s c =>
    let x := chan s c
    let finish := fun (s : State) (w : Option DieWork) => match w with
      | some (.record seq) => recordDone s c seq true
      | _ => s
    let s := finish (finish s x.suspended) x.running
    let x := chan s c
    refreshChan (setChan s c { x with running := none, suspended := none, nested := false }) c) s
  wr s WFL_STAT_CLOSED 1

/-- The log head as one record-area page of WF0: the newest 255 ring records (R304 step 4, R501); `valid`: its program completed.
A controller that is not enabled programs nothing (R576). -/
def writeLogHead (s : State) (valid : Bool) : State :=
  if isSet s WFL_CTRL_ENABLE && !isSet s WFL_STAT_CLOSED then
    { s with flt := { s.flt with logHead := some ⟨s.time, s.flt.log.drop (s.flt.log.length - 255), valid⟩ } }
  else s

/-- WFL_CTRL.STOP set (R304). -/
def stopFlash (s : State) : State := closeFlash (writeLogHead (wr s WFL_CTRL_STOP 1) true)

/-- WFL_STOP (R304). -/
def execWflStop (s : State) : Out := .next (stopFlash s)

/-- WFL_HOLDUP_CFG_WRITE (R318): WFL_HOLDUP_CFG, or WFL_HOLDUP_EXT, written and the thresholds recomputed. -/
def execWflHoldupCfgWrite (ext : Bool) (value : BitVec 32) (s : State) : Out :=
  let v := value.toNat
  if ext then .next (refreshThr (wr s WFL_HOLDUP_EXT_E_BOARD (bits v 0 16)))
  else .next (refreshThr (wr (wr (wr s WFL_HOLDUP_CFG_CAP (bits v 16 16)) WFL_HOLDUP_CFG_DIV (bits v 8 8)) WFL_HOLDUP_CFG_VMIN (bits v 0 8)))

/-- WFL_ECC_CNT_READ (R319): the counts are returned and clear. -/
def execWflEccCntRead (s : State) : Out :=
  let v := rd s WFL_ECC_CNT_UE * 2 ^ 24 + rd s WFL_ECC_CNT_RETRY * 2 ^ 16 + rd s WFL_ECC_CNT_HIGH_CE
  .next (emit (wr (wr (wr s WFL_ECC_CNT_UE 0) WFL_ECC_CNT_RETRY 0) WFL_ECC_CNT_HIGH_CE 0) (.value v))

/-- WFL_SUSP_CNT_READ (R319). -/
def execWflSuspCntRead (s : State) : Out :=
  let v := rd s WFL_SUSP_CNT_STALL_MAX * 2 ^ 16 + rd s WFL_SUSP_CNT_SUSPENDS
  .next (emit (wr (wr s WFL_SUSP_CNT_STALL_MAX 0) WFL_SUSP_CNT_SUSPENDS 0) (.value v))

end Sys2Proof.Machine
end

