-- ==== Sys2Proof/Machine/Packet.lean ====
section
/-!
DEFINITION. Sys2Proof/Machine/Packet.lean: the consumption of a Ferar packet (spec/12_host_interface_ferar.md R388-R405):
whether it is consumed, the checks of R405 before an opcode's own, replies (R402).
-/
namespace Sys2Proof.Machine
open Reg

/-- The partition whose ring set holds a ring of a function (R388). -/
def ringPart (s : State) (fn r : Nat) : Option Nat :=
  (s.parts.find? (fun e => e.2.owner == fn && decide (e.2.ringFirst ≤ r) && decide (r < e.2.ringFirst + e.2.ringCount))).map Prod.fst

/-- Is a partition fenced (R480)? -/
def fenced (s : State) (p : Nat) : Bool :=
  match tfind p s.parts with
  | some x => x.fence != .none
  | none => false

/-- Is a ring one of a fenced partition's? -/
def ringFenced (s : State) (fn r : Nat) : Bool :=
  match ringPart s fn r with
  | some p => fenced s p
  | none => false

/-- Does the Plinth serve packets (R492, R529, R559, R571, R572)? -/
def plinthServes (s : State) : Bool :=
  s.boot.pln == .up && !s.boot.stopped && s.boot.down.isNone &&
    !(isSet s PLN_DBGCTL_HALTED_A && isSet s PLN_DBGCTL_HALTED_B)

/-- Does the device consume the packet at the head of this ring now (R390-R393, R597, R599)? -/
def canConsume (s : State) (h : Pkt) : Bool :=
  let r := ring s h.fn h.ring
  plinthServes s && s.hif.refclk && r.state == .enabled && r.cfg.kind == 0 && isSet s (HIF_STAT_READY h.fn) && !(fnSt s h.fn).d3hot && r.sqHead != r.sqTail &&
    r.waiting.isEmpty && cqRoom r && decide (inflight s h.fn h.ring < 64) &&
    (!h.fence || ringFenced s h.fn h.ring || inflight s h.fn h.ring == 0)

/-- Which rings accept a packet of an opcode (R388, R349). -/
inductive Scope where
  /-- Names no partition: any COMMAND ring of the function. -/
  | any
  /-- PART_CREATE, PART_RESIZE, PART_DESTROY: any COMMAND ring of the PF. -/
  | admin
  /-- PART_FENCE, PART_RESET, QUERY of a partition: also a function ring of the owner, or any COMMAND ring of the PF. -/
  | control
  /-- Every other opcode that names a partition: a ring of its ring set. -/
  | owned
deriving DecidableEq, Repr

/-- Does PART match the ring (R405 step 3)? -/
def partOk (s : State) (h : Pkt) : Scope → Bool
  | .any => h.part == 0xFF || ringPart s h.fn h.ring == some h.part
  | .admin => true
  | .control =>
    (tfind h.part s.parts).isSome &&
      (h.fn.val == 0 || ringPart s h.fn h.ring == some h.part ||
        ((ringPart s h.fn h.ring).isNone && ownerOf s h.part == h.fn.val))
  | .owned => ringPart s h.fn h.ring == some h.part

/-- The packet taken from its ring as an outstanding command; `key`: what later events find it by. -/
def takePkt (s : State) (h : Pkt) (op key : Nat) : Cmd × State :=
  let r := ring s h.fn h.ring
  let c : Cmd := { fn := h.fn, ring := h.ring, sqIdx := r.sqHead, opcode := op, tag := h.tag.toNat, noIrq := h.noIrq,
                   part := h.part, key }
  let s := setRing s h.fn h.ring { r with sqHead := (r.sqHead + 1) % 2 ^ r.cfg.sqLog2 }
  (c, { s with hif := { s.hif with cmds := s.hif.cmds ++ [c] } })

/-- Is an opcode barred on F1 rings (R403)? -/
def f1Barred (op : Nat) : Bool := (decide (0x50 ≤ op) && decide (op ≤ 0x7B)) || decide (0x7E ≤ op)

/-- The first failure of R405 steps 1 to 3, if any. -/
def pktFailure (s : State) (h : Pkt) (op : Nat) (sc : Scope) (pfOnly : Bool) : Option Nat :=
  let f1 := (ring s h.fn h.ring).cfg.fmt == 1
  if h.ver ≠ (if f1 then 1 else 2) then some 0x22
  else if (f1 && f1Barred op) || (pfOnly && h.fn.val != 0) then some 0x20
  else if !h.formOk || !partOk s h sc then some 0x21
  else none

/-- A packet consumed: a fenced partition's ring answers FENCED (R392), a failure of R405 its status; otherwise the opcode
acts. A packet that is not consumed changes nothing. -/
def withPkt (s : State) (h : Pkt) (op key : Nat) (sc : Scope) (pfOnly : Bool) (act : Cmd → State → State) : State :=
  if canConsume s h then
    let p := takePkt (trace s 7 h.part) h op key
    if ringFenced s h.fn h.ring then complete p.2 p.1 0x10 {}
    else
      match pktFailure s h op sc pfOnly with
      | some st => complete p.2 p.1 st {}
      | none => act p.1 p.2
  else s

/-- A reply written into its buffer, with TRUNC and the full length (R402); `r` gives the record's other fields. -/
def replyTo (s : State) (h : Pkt) (c : Cmd) (bytes : List Nat) (r : Result) : State :=
  let n := if h.replyAddr = 0 then 0 else h.replyLen
  let s := hwrBytes s h.fn h.replyAddr.toNat (bytes.take n)
  complete s c 0 { r with r0 := bytes.length, flags := if n < bytes.length then 1 else 0 }

/-- A packet with no effect of its own completes with a status. -/
def answer (st : Nat) (c : Cmd) (s : State) : State := complete s c st {}

/-- A partition, as its packets find it. -/
def part? (s : State) (p : Nat) : Option Part := tfind p s.parts

/-- Completion status of work that ends well: DONE, or DONE_DEGRADED on a shrunk partition (R24). -/
def doneStatus (s : State) (p : Nat) : Nat :=
  match tfind p s.parts with
  | some x => if x.logical.length < x.clSet then 1 else 0
  | none => 0

end Sys2Proof.Machine
end

