-- ==== Sys2Proof/Machine/Takeover.lean ====
section
/-!
DEFINITION. Sys2Proof/Machine/Takeover.lean: the display engine's shared operations (spec/05_line_locked_display.md): causes
and full takeover (R186-R189), what P0 holds (R160-R162), the pixels of a line (R172, R173, R180, R181).
-/
namespace Sys2Proof.Machine
open Reg

def setDsp (s : State) (f : Dsp → Dsp) : State := { s with dsp := f s.dsp }

/-- The active bank's Armature (R169). -/
def activeArm (s : State) : Option Armature := if isSet s DSP_STAT_ARM_BANK then s.dsp.bank1 else s.dsp.bank0

/-- The standby bank's Armature. -/
def standbyArm (s : State) : Option Armature := if isSet s DSP_STAT_ARM_BANK then s.dsp.bank0 else s.dsp.bank1

/-- Has the host chosen the neural path (R183)? -/
def neuralChosen (s : State) : Bool := isSet s DSP_CTRL_NEURAL_EN && !isSet s DSP_CTRL_FORCE_FALLBACK

/-- Is cause `c` of R186 active? -/
def hasCause (s : State) (c : Nat) : Bool := bit (rd s DSP_STAT_CAUSE_SET) (c - 1)

/-- SOURCE follows what the engine sends (R182, R185, R186). -/
def refreshSource (s : State) : State :=
  wr s DSP_STAT_SOURCE
    (if !isSet s DSP_CTRL_ENABLE || s.dsp.inLost then 0
     else if neuralChosen s && !s.dsp.takeover && (activeArm s).isSome then 2 else 1)

/-- One event of a broken guarantee to a function (R374, R397): ranks broken and kept. -/
def breachEvent (s : State) (fn p broken kept : Nat) (fin : Bool) (quanta : Nat) : State :=
  sendEvent s fn { time := s.time, code := 1, status := 0x70, fin, part := p, ranks := 16 * broken + kept, detail := 0,
                    quanta := min quanta (2 ^ 32 - 1) }

/-- A breach of guarantee `broken` of partition `p` begins (R374): one event, one count; while it lasts nothing more. -/
def breachBegin (s : State) (p broken kept : Nat) : State :=
  match tfind p s.parts with
  | none => s
  | some x =>
    if x.breachOpen.any (fun e => e.1 == broken) then s
    else
      let n := tget 0 x.breaches broken
      let s := setPart s p (fun x => { x with breaches := tput 0 x.breaches broken (satAdd 65535 n 1),
                                              breachOpen := x.breachOpen ++ [(broken, kept, s.time)] })
      breachEvent s x.owner p broken kept false 0

/-- It ends: the event with END and the duration in quanta (R374). -/
def breachEnd (s : State) (p broken : Nat) : State :=
  match tfind p s.parts with
  | none => s
  | some x =>
    match x.breachOpen.find? (fun e => e.1 == broken) with
    | none => s
    | some e =>
      let s := setPart s p (fun x => { x with breachOpen := x.breachOpen.filter (fun e => e.1 != broken) })
      breachEvent s x.owner p broken e.2.1 true ((s.time - e.2.2) / 25000)

/-- A takeover begins with its first cause when the host has chosen the neural path (R186, R187); one with cause POWER_FLOOR
breaks the line lock's guarantee (R189). -/
def beginTakeover (s : State) (c : Nat) : State :=
  if neuralChosen s && !s.dsp.takeover then
    let s := setDsp s (fun d => { d with takeover := true })
    let s := wr (bump (wr s DSP_STAT_FIRST_CAUSE c) DSP_TAKEOVER_CNT_COUNT 1) DSP_EVT_STAT_TAKEOVER 1
    let s := refreshSource s
    if hasCause s 4 then breachBegin s 0 3 1 else s
  else s

/-- Is a POWER_FLOOR takeover signalled that no line check has applied yet (R187)? The array stays at OP2 or above until then. -/
def floorWaits (s : State) : Bool := s.dsp.floorWait && isSet s DSP_CTRL_ENABLE

/-- The takeover ends (R188), and with it the breach. -/
def endTakeover (s : State) : State :=
  breachEnd (setDsp (wr s DSP_STAT_FIRST_CAUSE 0) (fun d => { d with takeover := false })) 0 3

/-- A cause arises (R186). POWER_FLOOR ends the line lock and breaks its guarantee (R161, R189). -/
def raiseCause (s : State) (c : Nat) : State :=
  if hasCause s c then s
  else
    let s := beginTakeover (wr s DSP_STAT_CAUSE_SET (setBit (rd s DSP_STAT_CAUSE_SET) (c - 1))) c
    if c = 4 then
      let s := if s.dsp.takeover then breachBegin s 0 3 1 else s
      if isSet s DSP_STAT_LINE_LOCKED then
        setDsp (wr s DSP_STAT_LINE_LOCKED 0) (fun d => { d with floorLost := true, floorWait := true })
      else s
    else s

/-- A cause's return condition holds (R186); the neural path returns at a frame boundary (R188). -/
def dropCause (s : State) (c : Nat) : State := wr s DSP_STAT_CAUSE_SET (clearBit (rd s DSP_STAT_CAUSE_SET) (c - 1))

/-- ARMATURE: no Armature is active while NEURAL_EN = 1 (R186). -/
def checkArmature (s : State) : State :=
  if isSet s DSP_CTRL_NEURAL_EN && (activeArm s).isNone then raiseCause s 7 else dropCause s 7

/-- P0's clusters in cluster-index order (R348): logical numbers, ascending. -/
def p0Clusters (s : State) : List Nat :=
  match tfind 0 s.parts with
  | some x => x.logical
  | none => []

/-- The physical cluster behind cluster index `i` of P0 in the active Armature. -/
def armPhys (s : State) (i : Nat) : Option Nat := (s.dsp.clusters[i]?).bind (physOf s)

/-! ### Pixels (R172, R173, R180) -/

/-- A component of `depth` bits at 12 bits, by bit replication (R172). -/
def widen (depth x : Nat) : Nat :=
  if depth = 8 then (x % 256) * 16 + x % 256 / 16 else if depth = 10 then (x % 1024) * 4 + x % 1024 / 256 else x % 4096

/-- A chroma component at column `x` of a received row, in halves of a code at 12 bits (R172): interpolated between the co-sited
samples on both sides; none: there is no such pair. -/
def chromaHalf (k : PixelKind) (depth : Nat) (g : Pixel → Nat) (l : List Pixel) (x : Nat) : Option Nat :=
  let at' := fun i => (l[i]?).map (fun p => widen depth (g p))
  if k.sampling = .s444 ∨ x % 2 = 0 then (at' x).map (fun v => 2 * v)
  else
    match at' (x - 1), at' (x + 1) with
    | some a, some b => some (a + b)
    | _, _ => none

/-- The same in quarters, between two rows; a missing sample's value is open (Config.edgeChroma). -/
def chromaQuarter (k : PixelKind) (depth : Nat) (g : Pixel → Nat) (above below : List Pixel) (x : Nat) : Nat :=
  match chromaHalf k depth g above x, chromaHalf k depth g below x with
  | some a, some b => a + b
  | _, _ => Config.edgeChroma ((chromaHalf k depth g above (x - x % 2)).getD 0) % 16384

/-- A received row as RGB at 12 bits (R172): `above` and `below` are the rows that hold its chroma, both the row itself but in an
odd row of a 4:2:0 picture. -/
def rgbRow (k : PixelKind) (depth : Nat) (l above below : List Pixel) : List Pixel :=
  (l.zipIdx).map (fun e =>
    if k.colour = .rgb then ⟨widen depth e.1.a, widen depth e.1.b, widen depth e.1.c⟩
    else
      let v := Config.yccRgb (k.colour == .bt2020) (widen depth e.1.a) (chromaQuarter k depth Pixel.b above below e.2)
        (chromaQuarter k depth Pixel.c above below e.2)
      ⟨v % 4096, v / 4096 % 4096, v / 4096 / 4096 % 4096⟩)

/-- Round a quotient to nearest, ties to even. -/
def rneDiv (n : Int) (d : Nat) : Int :=
  let q := n / d
  let r := (n % d).toNat
  if 2 * r > d then q + 1 else if 2 * r = d then q + q % 2 else q

/-- Clamp to 0-4095. -/
def clamp12 (x : Int) : Nat := if x < 0 then 0 else if 4095 < x then 4095 else x.toNat

/-- One output component (R173): `f` the fallback scaler's, `r` the network's code. -/
def formComp (direct : Bool) (rshift f r : Nat) : Nat :=
  if direct then
    match elemFl 6 r with
    | .nan => 0
    | x => clamp12 (rneToInt32 (flMul x (flOfInt 4095))).1
  else clamp12 ((f : Int) + signExt 8 r * 2 ^ rshift)

/-- Rounded to the output depth (R173); a result outside the depth's range has no stated code and is free. -/
def toDepth (s : State) (depth o : Nat) : Nat × State :=
  let v := (rneDiv (o : Int) (2 ^ (12 - depth))).toNat
  if v < 2 ^ depth then (v, s)
  else
    let p := fresh s
    (p.1 % 2 ^ depth, p.2)

/-- A line rounded to the output depth. -/
def depthLine (depth : Nat) : List Pixel → State → List Pixel × State
  | [], s => ([], s)
  | p :: t, s =>
    let a := toDepth s depth p.a
    let b := toDepth a.2 depth p.b
    let c := toDepth b.2 depth p.c
    let r := depthLine depth t c.2
    (⟨a.1, b.1, c.1⟩ :: r.1, r.2)

/-- Source position of output sample `y` in 64ths: ((y + 0.5) * n / m - 0.5) rounded to the nearest 64th (R180). -/
def scalePos (y n m : Nat) : Int := rneDiv (32 * ((2 * (y : Int) + 1) * n - m)) m

/-- Are 8 coefficients a phase's (R180): 10 bits, two's complement, summing to 256? -/
def phaseOk (l : List Int) : Bool := l.all (fun x => decide (-512 ≤ x) && decide (x ≤ 511)) && l.foldl (· + ·) 0 == 256

/-- A tap of the built-in windowed-sinc set, whose values are not stated (Config.sinc) but for their range and sums. -/
def builtinCoef (phase tap : Nat) : Int :=
  if phaseOk ((List.range 8).map (Config.sinc phase)) then Config.sinc phase tap else if tap = 3 then 256 else 0

/-- Coefficient of a tap: the loaded set, or the built-in one. -/
def tapCoef (s : State) (phase tap : Nat) : Int :=
  match s.dsp.coef with
  | some l => l.getD (phase * 8 + tap) 0
  | none => builtinCoef phase tap

/-- Is the ratio in force that of the super-resolution path (R174)? -/
def superRes (s : State) : Bool := s.dsp.p == s.dsp.q && s.dsp.phi0 == 0

/-- The content position t_j of the current output frame in units of 1 / (65,536 P) of an input frame (R174). -/
def contentPos (s : State) : Nat := s.dsp.phi0 * s.dsp.p + rd s DSP_FRAME_CNT_FRAMES * s.dsp.q * 65536

/-- The input frame n_j of the current output frame: the one whose first row starts the output frame in super-resolution
(R157), else the whole part of t_j (R174). -/
def contentFrame (s : State) : Nat := if superRes s then s.dsp.inFrames - 1 else contentPos s / (65536 * s.dsp.p)

/-- The phase of the current output frame, in units of 1 / (65,536 P). -/
def contentPhase (s : State) : Nat := if superRes s then 0 else contentPos s % (65536 * s.dsp.p)

/-- The frame the fallback scaler reads (R181): n_j, or n_j + 1 when the phase is at least one half. -/
def fallbackFrame (s : State) : Nat :=
  if 2 * contentPhase s < 65536 * s.dsp.p then contentFrame s else contentFrame s + 1

/-- Rows the fallback line y reads (R180), clamped to the image. -/
def fallbackRows (c : DisplayCfg) (y : Nat) : List Nat :=
  (List.range 8).map (fun (t : Nat) => (clampTo (scalePos y c.ih c.vActive / 64 - 3 + (t : Nat)) c.ih).toNat)

/-- The fallback line y (R180), when every row it reads is there; `row` gives the source's rows. -/
def scaledLine (s : State) (c : DisplayCfg) (y : Nat) (row : Nat → Option (List Pixel)) : Option (List Pixel) :=
  let sy := scalePos y c.ih c.vActive
  let rows := (fallbackRows c y).map row
  if rows.all Option.isSome then
    let rows := rows.map (fun r => r.getD [])
    some ((List.range c.hActive).map (fun x =>
      let sx := scalePos x c.iw c.hActive
      let sum := fun (g : Pixel → Nat) =>
        (rows.zipIdx).foldl (fun n r => n + tapCoef s (sy % 64).toNat r.2 *
          (List.range 8).foldl (fun m t => m + tapCoef s (sx % 64).toNat t *
            (g (r.1.getD (clampTo (sx / 64 - 3 + t) c.iw).toNat ⟨0, 0, 0⟩) : Int)) 0) (0 : Int)
      ⟨clamp12 (rneDiv (sum Pixel.a) 65536), clamp12 (rneDiv (sum Pixel.b) 65536), clamp12 (rneDiv (sum Pixel.c) 65536)⟩))
  else none

/-- The neural line from its segments in order of k (R173, R182) over the fallback line `f`. -/
def neuralLine (a : Armature) (f : List Pixel) (segs : List (Nat × List Pixel)) : List Pixel :=
  let r := segs.flatMap Prod.snd
  (r.zipIdx).map (fun e =>
    let g := f.getD e.2 ⟨0, 0, 0⟩
    ⟨formComp a.direct a.rshift g.a e.1.a, formComp a.direct a.rshift g.b e.1.b, formComp a.direct a.rshift g.c e.1.c⟩)

/-! ### The display region (R176, R191) -/

/-- Granules of the display region a configuration needs (R191). -/
def regionNeed (c : DisplayCfg) : Nat :=
  let bytes := if c.interp then ceilDiv (3 * c.iw * c.ih * 4 + 2097152) 1048576 * 1048576 else 2097152
  ceilDiv bytes 2097152

/-- First byte of the display region of a configuration: the highest granules of T2. -/
def regionBase (s : State) (c : DisplayCfg) : Nat := t2Base + (granCount s - regionNeed c) * 2097152

/-- First byte of a row of input frame `n` in the region: frame n lies in its third n mod 3 (R176; log entry 9). -/
def regionRow (s : State) (c : DisplayCfg) (n y : Nat) : Nat := regionBase s c + (n % 3) * (c.iw * c.ih * 4) + y * c.iw * 4

/-- A 10-bit RGB pixel as the region holds it (R176). -/
def regionPixel (p : Pixel) : Nat := p.a * 2 ^ 20 + p.b * 2 ^ 10 + p.c

/-- Key of a row of an input frame. -/
def rowKey (n y : Nat) : Nat := n * 16384 + y

/-- A row of input frame `n` written into the region by the display DMA (R176). -/
def writeRegionRow (s : State) (c : DisplayCfg) (n y : Nat) (row : List Pixel) : State :=
  let base := regionRow s c n y
  let r := depthLine 10 row s
  let s := (r.1.zipIdx).foldl (fun s e => (List.range 4).foldl (fun s i =>
    devWb s (base + 4 * e.2 + i) (BitVec.ofNat 8 (bits (regionPixel e.1) (8 * i) 8))) s) r.2
  setDsp (wroteRange s base (4 * row.length)) (fun d => { d with regionRows := rowKey n y :: d.regionRows.filter (fun k =>
    k != rowKey n y && decide (n < k / 16384 + 3)) })

/-- A row of input frame `n` as the display DMA reads it from the region, at 12 bits (R181): none when the row is not there or a
word of it is poisoned (R195). -/
def readRegionRow (s : State) (c : DisplayCfg) (n y : Nat) : Option (List Pixel) :=
  let base := regionRow s c n y
  if s.dsp.regionRows.contains (rowKey n y) ∧ (List.range (c.iw * 4)).all (fun i => !poisoned s (base + i)) = true then
    some ((List.range c.iw).map (fun x =>
      let v := (List.range 4).foldl (fun v i => v + (devRb s (base + 4 * x + i)).toNat * 256 ^ i) 0
      ⟨widen 10 (bits v 20 10), widen 10 (bits v 10 10), widen 10 (bits v 0 10)⟩))
  else none

/-! ### The line store (R149, R172, R181) -/

/-- Key of a row of an input frame in a port's line store. -/
def storeKey (rx n y : Nat) : Nat := rowKey n y * 2 + rx

/-- A row of the picture from the line store: both halves of a dual-port input. -/
def storedRow (s : State) (c : DisplayCfg) (n y : Nat) : Option (List Pixel) :=
  match tfind (storeKey 0 n y) s.dsp.rows with
  | none => none
  | some l => if c.dualIn then (tfind (storeKey 1 n y) s.dsp.rows).map (fun r => l ++ r) else some l

/-- A row put into a port's line store of 12 rows (R181). -/
def storeRow (s : State) (rx n y : Nat) (l : List Pixel) : State :=
  setDsp s (fun d =>
    let rows := tset (storeKey rx n y) l d.rows
    { d with rows := tdrop (fun k => k % 2 == rx && decide (12 ≤ (rows.filter (fun e => e.1 % 2 == rx && decide (k < e.1))).length)) rows })

/-- The fallback lines of input frame `n` that row `y` completes, formed from the line store (R179, R181); those of frames before
the last are gone. -/
def formFallback (s : State) (c : DisplayCfg) (n y : Nat) : State :=
  let lines := (List.range c.vActive).filter (fun o => (fallbackRows c o).foldl max 0 == y)
  let s := setDsp s (fun d => { d with fallback := tdrop (fun k => decide (k / 16384 + 1 < n)) d.fallback })
  lines.foldl (fun s o =>
    match scaledLine s c o (storedRow s c n) with
    | some l => setDsp s (fun d => { d with fallback := tset (rowKey n o) l d.fallback })
    | none => s) s

/-- The fallback line y of the current output frame (R180, R181). -/
def fallbackLine (s : State) (c : DisplayCfg) (y : Nat) : Option (List Pixel) :=
  if superRes s then tfind (rowKey (fallbackFrame s) y) s.dsp.fallback
  else scaledLine s c y (readRegionRow s c (fallbackFrame s))

end Sys2Proof.Machine
end

