-- ==== Sys2Proof/Machine/Work.lean ====
section
/-!
DEFINITION. Sys2Proof/Machine/Work.lean: work units, requests and batches as every command that starts, ends or abandons
work meets them (spec/01 R27, R36; spec/03 R112-R114; spec/07 R225-R236; spec/11 R358-R372).
-/
namespace Sys2Proof.Machine
open Reg

/-! ### Work units -/

/-- Logical number of a physical cluster. -/
def logicalOf (s : State) (n : Nat) : Nat := rd s (CLU_MAP_LOGICAL n)

/-- A core's counters cleared and its drain LFSRs seeded at the start of a work unit (R112, R113). -/
def seedCore (s : State) (seed cn : Nat) : State :=
  let k := core s cn
  let g := logicalOf s (cn / 64) * 64 + cn % 64
  setCore s cn { k with satAcc := 0, satOut := 0, nonfinite := 0,
                        lfsr := (List.range 8).map (fun i => (i, lfsrSeed seed (g * 8 + i))) }

/-- The same for a cluster's vector unit. -/
def seedCluster (s : State) (seed n : Nat) : State :=
  let u := clu s n
  setClu s n { u with satAcc := 0, satOut := 0, nonfinite := 0,
                      lfsr := (List.range 256).map (fun i => (i, lfsrSeed seed (16384 + logicalOf s n * 256 + i))) }

/-- A thread started by the dispatcher at an IM address (R30), with its tags clear. -/
def startThread (s : State) (unit k im : Nat) (g1 : Option (BitVec 32)) : State :=
  let t := thr s k
  let t := { t with pc := im % 16384, tags := [], wait := .none, resume := 1, faultDue := false, unit := some unit,
                    g := match g1 with | some v => tput 0 t.g 1 v | none => t.g }
  wr (setThr s k t) (thrField k) 1

/-- Records in the record buffer (R476, R503). -/
def bufCount (s : State) : Nat :=
  if isSet s FLT_REC_PTR_FULL then 256 else (rd s FLT_REC_PTR_HEAD + 256 - rd s FLT_REC_PTR_TAIL) % 256

/-- Is a record of a domain open, or published and not yet consumed? -/
def recordDue (s : State) (dom : Nat) : Bool :=
  (tfind dom s.flt.opens).isSome || (List.range (bufCount s)).any (fun i =>
    match tfind ((rd s FLT_REC_PTR_TAIL + i) % 256) s.flt.slots with
    | some r => r.domain == dom
    | none => false)

/-- The Plinth clears a core's FAULT bit once it has recorded the fault (no record of the cluster's domain is due) and the core is
restarted or released: none of its threads stands FAULTED in a work unit (R55). -/
def clearFaults (s : State) (n : Nat) : State :=
  if recordDue s n then s
  else
    let stuck := fun (c : Nat) => (List.range 8).any (fun i =>
      let k := coreNo n c * 8 + i
      thrState s k == 6 && (thr s k).unit.isSome)
    ([0, 1]).foldl (fun s h =>
      let v := rd s (CLU_CORE_FAULT_FAULT n h)
      wr s (CLU_CORE_FAULT_FAULT n h)
        ((List.range 32).foldl (fun m i => if bit v i && stuck (32 * h + i) then m + 2 ^ i else m) 0)) s

/-- A work unit starts (WORK_UNIT_DISPATCH): its cores and clusters are seeded, its threads start, an IDLE mapped cluster
becomes ACTIVE (R27). -/
def startUnit (s : State) (u : WorkUnit) (seed : Nat) (ims : List Nat) (g1 : Option (BitVec 32)) : State :=
  let id := s.nextUnit
  let s := trace s 2 u.part
  let s := { s with units := tset id u s.units, nextUnit := id + 1 }
  let s := (u.threads.map (fun k => k / 8)).eraseDups.foldl (fun s cn => seedCore s seed cn) s
  let s := (unitClusters u).foldl (fun s n => seedCluster s seed n) s
  let s := (u.threads.zip ims).foldl (fun s e => startThread s id e.1 e.2 g1) s
  let s := (unitClusters u).foldl (fun s n => if rd s (CLU_STAT_STATE n) = 2 then wr s (CLU_STAT_STATE n) 3 else s) s
  if u.kind = .armature then s else (unitClusters u).foldl clearFaults s

/-- The sums of a work unit's counters (R113, R114): SAT_ACC, SAT_OUT, NONFINITE. -/
def unitSums (s : State) (u : WorkUnit) : Nat × Nat × Nat :=
  let cs := (u.threads.map (fun k => k / 8)).eraseDups.map (core s)
  let vs := (unitClusters u).map (clu s)
  ((cs.map (·.satAcc)).foldl (· + ·) 0 + (vs.map (·.satAcc)).foldl (· + ·) 0,
   (cs.map (·.satOut)).foldl (· + ·) 0 + (vs.map (·.satOut)).foldl (· + ·) 0,
   (cs.map (·.nonfinite)).foldl (· + ·) 0 + (vs.map (·.nonfinite)).foldl (· + ·) 0)

/-- A work unit's counters added to its partition's totals, and to the sums of the training step it belongs to (R114). -/
def addTotals (s : State) (u : WorkUnit) : State :=
  let x := unitSums s u
  let m := 2 ^ 32 - 1
  let s := setPart s u.part (fun p => { p with satAcc := satAdd m p.satAcc x.1, satOut := satAdd m p.satOut x.2.1,
                                               nonfinite := satAdd m p.nonfinite x.2.2 })
  match u.kind with
  | .train fn rg sq =>
    { s with srv := { s.srv with trains := s.srv.trains.map (fun t =>
        if t.cmd.fn = fn ∧ t.cmd.ring = rg ∧ t.cmd.sqIdx = sq then
          { t with satAcc := satAdd m t.satAcc x.1, satOut := satAdd m t.satOut x.2.1, nonfinite := satAdd m t.nonfinite x.2.2 }
        else t) } }
  | _ => s

/-- A unit forgotten: its threads belong to no unit. -/
def forgetUnit (s : State) (id : Nat) (u : WorkUnit) : State :=
  let s := u.threads.foldl (fun s k => if (thr s k).unit = some id then setThr s k { thr s k with unit := none } else s) s
  { s with units := tdel id s.units }

/-- A work unit abandoned (R21, R65, R166): its threads stop, its array instructions are abandoned. -/
def stopUnit (s : State) (id : Nat) : State :=
  match tfind id s.units with
  | none => s
  | some u =>
    let cores := (u.threads.map (fun k => k / 8)).eraseDups
    let s := cores.foldl (fun s cn => abandonArray s cn id) s
    let s := u.threads.foldl (fun s k =>
      if (thr s k).unit = some id ∧ thrState s k ≠ 6 then wr (setThr s k { thr s k with wait := .none }) (thrField k) 0 else s) s
    let s := cores.foldl restart (cores.foldl settleCoreBarrier (forgetUnit s id u))
    (unitClusters u).foldl (fun s n => clearFaults (settleCluster s n) n) s

/-- Numbers of the units that satisfy a test. -/
def unitsWhere (s : State) (p : WorkUnit → Bool) : List Nat := (s.units.filter (fun e => p e.2)).map Prod.fst

/-- A work unit whose last thread has ended (WORK_UNIT_END): totals (R114), its cluster may go IDLE (R27); a frame's work has
ended with the last of its units (R210). -/
def endUnit (s : State) (id : Nat) : State :=
  match tfind id s.units with
  | none => s
  | some u =>
    if unitRunning s u then s
    else
      let s := trace (addTotals s u) 2 u.part
      let s := (unitClusters u).foldl (fun s n => clearFaults (settleCluster s n) n) (forgetUnit s id u)
      match u.kind with
      | .frame c no =>
        let s := if u.last ∧ u.failed = false then modFrame s c no (fun f => { f with lastDone := true }) else s
        if s.units.any (fun e => e.2.kind == .frame c no) then s
        else modFrame s c no (fun f => if f.lastDone then { f with stage := .finished, workEnd := s.time } else f)
      | .armature =>
        if u.failed then s
        else { s with dsp := { s.dsp with stale := s.dsp.stale.filter (fun cn => !u.threads.any (fun k => k / 8 == cn)) } }
      | _ => s

/-! ### The request table (R362, R363) -/

def req (s : State) (e : Nat) : Req := tget {} s.srv.reqs e
def setReq (s : State) (e : Nat) (r : Req) : State := { s with srv := { s.srv with reqs := tput {} s.srv.reqs e r } }
def batch? (s : State) (b : Nat) : Option Batch := tfind b s.srv.batches
def setBatch (s : State) (b : Nat) (x : Batch) : State := { s with srv := { s.srv with batches := tset b x s.srv.batches } }

/-- A request handle: entry and generation. -/
def handleOf (e : Nat) (r : Req) : Nat := e + 4096 * (r.gen % 2 ^ 20)

/-- The entry a handle names, when its request lives. -/
def findReq (s : State) (h : Nat) : Option Nat :=
  let e := h % 4096
  let r := req s e
  if r.state != .free && handleOf e r == h then some e else none

/-- Does a handle name a request that has expired and whose entry is not reused (R368)? -/
def expiredHandle (s : State) (h : Nat) : Bool :=
  let e := h % 4096
  let r := req s e
  r.state == .free && r.expired && handleOf e r == h

/-- Entries in use, of the device and of a partition. -/
def usedEntries (s : State) : Nat := (s.srv.reqs.filter (fun e => e.2.state != .free)).length
def partEntries (s : State) (p : Nat) : List Nat :=
  (s.srv.reqs.filter (fun e => e.2.state != .free && e.2.part == p)).map Prod.fst

/-- Are `n` entries free for a partition (R360, R362)? -/
def roomFor (s : State) (p n : Nat) : Bool := decide (usedEntries s + n ≤ 4096) && decide ((partEntries s p).length + n ≤ 256)

/-- The lowest-numbered free entry (R362). -/
def freeEntry (s : State) : Option Nat := (List.range 4096).find? (fun e => (req s e).state == .free)

/-- A request put in the lowest free entry; each reuse of an entry raises its generation (R362). -/
def newReq (s : State) (r : Req) : Option (Nat × State) :=
  match freeEntry s with
  | none => none
  | some e => some (e, setReq s e { r with gen := if (req s e).used then ((req s e).gen + 1) % 2 ^ 20 else 0, used := true })

/-! ### Charges (R228, R236, R270) -/

def up4k (n : Nat) : Nat := ceilDiv n 4096 * 4096

/-- Does a charge fit the partition's T2 quota (R271)? -/
def fitsT2 (s : State) (p n : Nat) : Bool :=
  match tfind p s.parts with
  | some x => decide (x.c2 + n ≤ x.quota.q2)
  | none => false

def charge2 (s : State) (p n : Nat) : State := setPart s p (fun x => { x with c2 := x.c2 + n })
def credit2 (s : State) (p n : Nat) : State := setPart s p (fun x => { x with c2 := x.c2 - n })
def charge4 (s : State) (p n : Nat) : State := setPart s p (fun x => { x with c4 := x.c4 + n })
def credit4 (s : State) (p n : Nat) : State := setPart s p (fun x => { x with c4 := x.c4 - n })

/-- The smallest power of two from 16 to 1,024 that is not below `x`, or 1,024. -/
def pagePow (x : Nat) : Nat := ([16, 32, 64, 128, 256, 512].find? (fun p => decide (x ≤ p))).getD 1024

/-- Positions of a page (R227): by the row's PAGE_LOG2, else from the expected length. -/
def pageSize (m : Manifest) (e pl2 : Nat) : Nat :=
  if pl2 ≠ 0 then 2 ^ pl2
  else
    let ws := m.attention.map (·.window)
    let e := if ws.all Option.isSome ∧ ws ≠ [] then min e ((ws.map (fun w => w.getD 0)).foldl max 0) else e
    pagePow (ceilDiv e 16)

/-- Bytes of an element of a layer's keys and values, and of all of a position's (R225, R226). -/
def elemBytes (a : AttnLayer) : Nat := if a.bf16 then 2 else 1
def posBytes (a : AttnLayer) : Nat := 2 * a.heads * a.dim * elemBytes a

/-- Pages a layer reserves (R228, R236). -/
def layerPages (e p : Nat) (globals : List Nat) : Option Nat → Nat
  | none => ceilDiv e p
  | some w => min (ceilDiv e p) (ceilDiv w p + 1 + ((globals.map (fun g => g / p)).eraseDups).length)

/-- T2 bytes a request reserves: its pages and its page table (R228, R231). -/
def reserveBytes (m : Manifest) (e p : Nat) (globals : List Nat) : Nat :=
  let np := m.attention.map (fun a => layerPages e p globals a.window)
  up4k ((m.attention.zip np).foldl (fun n x => n + x.2 * p * posBytes x.1) 0) + up4k (8 * np.length * np.foldl max 0)

/-- Bytes of a request's page table alone. -/
def tableBytes (m : Manifest) (e p : Nat) (globals : List Nat) : Nat :=
  let np := m.attention.map (fun a => layerPages e p globals a.window)
  up4k (8 * np.length * np.foldl max 0)

/-! ### The end of a request -/

/-- The request record of R396. -/
def reqRec (s : State) (handle pos row status flags tag batch : Nat) : CqRec where
  w0 := handle % 2 ^ 32 + pos % 2 ^ 32 * 2 ^ 32
  w1 := row % 256 + status % 256 * 2 ^ 16 + 0x30 * 2 ^ 24 + flags % 256 * 2 ^ 32 + 0xFE * 2 ^ 40
  w2 := s.time % 2 ^ 64
  w3 := tag % 2 ^ 32 + batch % 2 ^ 32 * 2 ^ 32
  counts := true

/-- The rows of every batch without a request. -/
def clearRow (s : State) (e : Nat) : State :=
  { s with srv := { s.srv with batches := s.srv.batches.map (fun b =>
      (b.1, { b.2 with rows := b.2.rows.map (fun r => if r.req = some e then { r with req := none } else r) })) } }

/-- A request ends (R361, R364): its record, its pages, reservation and entry freed, the commands that wait on it. -/
def endReq (s : State) (e status : Nat) : State :=
  let r := req s e
  if r.state = .free then s
  else
    let s := if r.train then s
      else postRec s r.fn r.ring (reqRec s (handleOf e r) r.written r.row status 0 r.tag r.batch)
    let s := credit4 (credit2 s r.part r.charge) r.part r.charge4
    let s := setReq (clearRow s e) e { gen := r.gen, used := true, part := r.part, expired := status == 0x13 }
    let s := finishOpt s r.cancelCmd 0 { r2 := status }
    let s := finishOpt s r.releaseCmd 0 { r2 := status }
    let s := finishOpt s r.pauseCmd 0x21 {}
    finishOpt s r.resumeCmd (if status = 0x13 then 0x13 else 0x21) {}

/-- A batch ends: its outstanding BATCH_SUBMIT completes (R359, R361). -/
def endBatch (s : State) (b status : Nat) : State :=
  match batch? s b with
  | none => s
  | some x =>
    let s := finishOpt s x.cmd status { r2 := b, detail := x.admitted }
    { s with srv := { s.srv with batches := tdel b s.srv.batches } }

/-- A batch with no ACTIVE or HELD request left has ended (R359). -/
def settleBatch (s : State) (b : Nat) : State :=
  match batch? s b with
  | none => s
  | some x => if x.rows.any (fun r => r.req.isSome) then s else endBatch s b 0

/-- The units of a batch's step abandoned; the step is replayed once (R21, R371). -/
def abandonStep (s : State) (b : Nat) : State :=
  let s := (unitsWhere s (fun u => u.kind == .batch b)).foldl stopUnit s
  match batch? s b with
  | some x => setBatch s b { x with running := false }
  | none => s

/-- Completion status of a request that ends well (R24). -/
def reqDone (s : State) (e : Nat) : Nat := doneStatus s (req s e).part

/-! ### Handles and casts -/

/-- Uncompressed bytes of a maquette's sections without a layer. -/
def looseRaw (m : Manifest) : Nat := (m.sects.filter (fun x => x.layer == 0xFFFF)).foldl (fun n x => n + x.rawLen) 0

/-- Charges in T2 of a layer, and of the sections without a layer, of a maquette cast from a store slot (R270, R336). -/
def layerBytes (m : Manifest) (l : Nat) : Nat := up4k (m.layers.getD l 0)
def looseBytes (m : Manifest) : Nat := up4k (looseRaw m)

/-- Uncompressed bytes of the layers of a list. -/
def layersRaw (m : Manifest) (l : List Nat) : Nat := l.foldl (fun n k => n + m.layers.getD k 0) 0

/-- Bytes a maquette cast from `slot` has in T2 and in T3 with the layers `l` in T2 (R272, R336). -/
def placedT2 (m : Manifest) (slot : Option Nat) (l : List Nat) : Nat :=
  if slot.isNone then rawLenSum m else looseRaw m + layersRaw m l
def placedT3 (m : Manifest) (slot : Option Nat) (l : List Nat) : Nat :=
  if slot.isNone then 0 else layersRaw m ((List.range m.layers.length).filter (fun k => !l.contains k))

/-- T2 charge of a handle: a copy staged from host memory is charged whole; else what a cast placed. -/
def handleCharge (h : Handle) : Nat :=
  match h.slot with
  | none => rawSize h.man
  | some _ => if h.st = 1 then h.inT2.foldl (fun n l => n + layerBytes h.man l) (looseBytes h.man) else 0

/-- A handle released: its charge and binding go (R331, R343); a T3 range withdrawn while resident goes with its last user
(R303). -/
def releaseHandle (s : State) (h : Nat) : State :=
  match tfind h s.handles with
  | none => s
  | some x =>
    let s := credit2 s x.part (handleCharge x)
    freeOldSets { s with handles := tdel h s.handles }

/-- A running cast fails (R342, R344): layers swapped back, what it wrote freed, its handle STAGED again, its packet
completes with `status`; `f` is the failing layer. -/
def unwindCast (s : State) (p status f : Nat) : State :=
  match (part? s p).bind (·.cast) with
  | none => s
  | some c =>
    let s := setPart s p (fun x => { x with cast := none })
    let s := match tfind c.handle s.handles with
      | some h =>
        let placed := match h.slot with
          | some _ => (c.toT2.filter (fun l => decide (l < c.ready))).foldl (fun n l => n + layerBytes h.man l) (if c.started then looseBytes h.man else 0)
          | none => 0
        { credit2 s p placed with handles := tset c.handle { h with st := 0 } s.handles }
      | none => s
    finish s c.cmd status { detail := f }

end Sys2Proof.Machine
end

