-- ==== Sys2Proof/Machine/Pages.lean ====
section
/-!
DEFINITION. Sys2Proof/Machine/Pages.lean: key-value pages: their places, their table entries, allocation and freeing, spill and
copy back (spec/07_attention_kv.md R225-R232, R236; spec/08_memory_tiers.md R247, R268, R269).
-/
namespace Sys2Proof.Machine
open Reg

/-! ### Places (R231, R269; where the Plinth puts a page is free, log entry 159) -/

/-- Granules of a partition, ascending. -/
def partGrans (s : State) (p : Nat) : List Nat :=
  (s.dram.gtab.filter (fun e => gV e.2 && !gPln e.2 && !gDisp e.2 && gPart e.2 == p)).map Prod.fst

/-- A page's size in bytes (R225). -/
def pageBytes (r : Req) (m : Manifest) (l : Nat) : Nat := match m.attention[l]? with | some a => r.p * posBytes a | none => 0

/-- The manifest a request's handle names. -/
def reqMan (s : State) (e : Nat) : Option Manifest := (tfind (req s e).handle s.handles).map (·.man)

/-- Address and bytes of every page in a tier. -/
def pagesIn (s : State) (tier : Nat) : List (Nat × Nat) :=
  s.srv.reqs.flatMap (fun e =>
    if (e.2.tier == 4) == (tier == 4) then
      match reqMan s e.1 with
      | some m => e.2.pages.filterMap (fun g => g.addr.map (fun a => (a, pageBytes e.2 m g.layer)))
      | none => []
    else [])

/-- Do `n` bytes from `a` meet a range of a list? -/
def meets (l : List (Nat × Nat)) (a n : Nat) : Bool := l.any (fun x => decide (x.1 < a + n) && decide (a < x.1 + x.2))

/-- Places of a page of `n` bytes that start in a range of addresses, at multiples of its size from the range's start. -/
def placesIn (taken : List (Nat × Nat)) (lo len n : Nat) : List Nat :=
  let n' := ceilDiv (max 1 n) 256 * 256
  ((List.range (max 1 (len / n'))).map (fun i => lo + i * n')).filter (fun a => !meets taken a n)

/-- A place of `n` bytes in a partition's T2 that holds no other page: in one of the granules `gs`, or from one on. -/
def placeT2 (s : State) (gs : List Nat) (n : Nat) : Option Nat × State :=
  let taken := pagesIn s 2
  let fits := fun g => (List.range (ceilDiv n 2097152)).all (fun i => gs.contains (g + i)) &&
    !(placesIn taken (t2Base + g * 2097152) 2097152 n).isEmpty
  let g := pick s (gs.filter fits)
  match g.1 with
  | none => (none, g.2)
  | some g' => pick g.2 (placesIn taken (t2Base + g' * 2097152) 2097152 n)

/-- A place of `n` bytes in a partition's T4 areas that holds no other page (R248). -/
def placeT4 (s : State) (p n : Nat) : Option Nat × State :=
  match tfind p s.parts with
  | none => (none, s)
  | some x =>
    let taken := pagesIn s 4
    pick s ((x.quota.areas.filter (fun a => decide (n ≤ a.2))).flatMap (fun a => placesIn taken a.1 a.2 n))

/-! ### Allocation (R229, R236) and the table (R230, R231) -/

/-- Must a layer hold page `i` once `next` more positions are to be written (R229, R236)? -/
def pageKept (r : Req) (w : Option Nat) (next i : Nat) : Bool :=
  decide (i * r.p < r.written + next) &&
    (match w with
     | none => true
     | some w => decide (r.written + 1 < i * r.p + r.p + w) || r.globals.any (fun g => g / r.p == i))

/-- The allocated page of a layer and number. -/
def pageOf (r : Req) (l i : Nat) : Option KvPage := r.pages.find? (fun g => g.layer == l && g.idx == i)

/-- A page of a request allocated. -/
def allocPage (m : Manifest) (s : State) (e l i : Nat) : State :=
  let r := req s e
  if (pageOf r l i).isSome then s
  else
    let p := placeT2 s (partGrans s r.part) (pageBytes r m l)
    setReq p.2 e { req p.2 e with pages := (req p.2 e).pages ++ [{ layer := l, idx := i, addr := p.1 }] }

/-- A step boundary's allocation and freeing for a request whose next step writes `next` positions (R229, R236). -/
def settlePages (s : State) (e next : Nat) : State :=
  match reqMan s e with
  | none => s
  | some m =>
    let r := req s e
    let w := fun l => match m.attention[l]? with | some a => a.window | none => none
    let s := setReq s e { r with pages := r.pages.filter (fun g => pageKept r (w g.layer) next g.idx) }
    (List.range m.attention.length).foldl (fun s l =>
      ((List.range (ceilDiv (r.written + next) r.p)).filter (pageKept r (w l) next)).foldl (fun s i => allocPage m s e l i) s) s

/-- Page-table entry of page `i` of layer `l` of a request (R230, R231, R232). -/
def pageEntry (r : Req) (l i : Nat) : Nat :=
  match pageOf r l i with
  | some g =>
    2 ^ 63 + (if r.tier = 4 then 2 ^ 61 + 2 ^ 46 else 0) + (Nat.log2 r.p - 4) * 2 ^ 58 +
      min r.p (r.written - i * r.p) * 2 ^ 47 + (g.addr.getD 0) / 256 % 2 ^ 40
  | none => 0

/-- Bytes of a request's allocated pages, as a spill copies them (R270, R367). -/
def spillBytes (r : Req) (m : Manifest) : Nat := up4k (r.pages.foldl (fun n g => n + pageBytes r m g.layer) 0)

/-! ### Bytes of a page (R225, R266, R268) -/

/-- The bytes of a page in T2. -/
def pageRead (s : State) (g : KvPage) (n : Nat) : List Byte :=
  match g.addr with
  | some a => (List.range n).map (fun i => devRb s (a + i))
  | none => []

/-- Bytes written into a page in T2 from an offset on. -/
def pageWrite (s : State) (p : Nat) (g : KvPage) (off : Nat) (l : List Byte) : State :=
  match g.addr with
  | none => s
  | some a =>
    let put := (l.zipIdx).filter (fun e => bufReach s p (a + off + e.2) true)
    wroteBytes (put.foldl (fun s e => devWb s (a + off + e.2) e.1) s) (put.map (fun e => a + off + e.2))

/-- Little-endian number of a list of bytes, and 64 bytes of a number. -/
def leBytesNat (l : List Byte) : Nat := l.foldr (fun b n => b.toNat + 256 * n) 0
def unitBytes (x : Nat) : List Byte := (List.range 64).map (fun i => BitVec.ofNat 8 (x / 256 ^ i))

/-- Data unit `u` of a list of bytes. -/
def unitOf (l : List Byte) (u : Nat) : Nat := leBytesNat ((l.drop (64 * u)).take 64)

/-- XTS tweak of a data unit of a spilled page (R268). -/
def spillTweak (iova u : Nat) : Nat := 2 ^ 127 + iova / 64 + u

/-- The key of a partition's slot. -/
def partKey (s : State) (p : Nat) : Nat := match tfind p s.parts with | some x => tget 0 s.dram.keys x.keySlot | none => 0

/-- One page copied to T4 (R247, R268): encrypted under the partition's slot, into an area of the partition. -/
def spillPage (m : Manifest) (e : Nat) (s : State) (g : KvPage) : KvPage × State :=
  let r := req s e
  let n := pageBytes r m g.layer
  let bytes := pageRead s g n
  let p := placeT4 s r.part n
  let k := partKey s r.part
  match p.1 with
  | none => ({ g with addr := none, key := k, plain := bytes }, p.2)
  | some a =>
    let s := (List.range (ceilDiv bytes.length 64)).foldl (fun s u =>
      hwrBytes s (ownerOf s r.part) (a + 64 * u) ((unitBytes (Config.xtsEnc k (spillTweak a u) (unitOf bytes u))).map (·.toNat))) p.2
    ({ g with addr := some a, key := k, plain := bytes }, s)

/-- One data unit read back from T4: what was encrypted, when neither the host's bytes nor the slot's key have changed; else the
decryption of what is there (R268). -/
def unitBack (s : State) (p : Nat) (g : KvPage) (a u : Nat) : List Byte :=
  let c := hrdN s (ownerOf s p) (a + 64 * u) 64
  if c = Config.xtsEnc g.key (spillTweak a u) (unitOf g.plain u) % 2 ^ 512 ∧ g.key = partKey s p then unitBytes (unitOf g.plain u)
  else unitBytes (Config.xtsDec (partKey s p) (spillTweak a u) c)

/-- One page copied back to T2 (R232, R247). -/
def restorePage (m : Manifest) (e : Nat) (s : State) (g : KvPage) : KvPage × State :=
  let r := req s e
  let n := pageBytes r m g.layer
  let bytes := match g.addr with
    | some a => ((List.range (ceilDiv n 64)).flatMap (unitBack s r.part g a)).take n
    | none => g.plain
  let p := placeT2 s (partGrans s r.part) n
  let h : KvPage := { layer := g.layer, idx := g.idx, addr := p.1 }
  (h, pageWrite p.2 r.part h 0 bytes)

/-- Every page of a request moved by a copy, one after the other; a page already moved holds its new place. -/
def movePages (s : State) (e : Nat) (f : State → KvPage → KvPage × State) : State :=
  (req s e).pages.foldl (fun s g =>
    let x := f s g
    setReq x.2 e { req x.2 e with pages := (req x.2 e).pages.map (fun h => if h == g then x.1 else h) }) s

/-- Pages that lie in granules about to leave their partition copied into its other granules (R269). -/
def clearGrans (s : State) (p : Nat) (gs : List Nat) : State :=
  let stay := (partGrans s p).filter (fun g => !gs.contains g)
  (s.srv.reqs.filter (fun e => e.2.part == p && e.2.tier != 4)).foldl (fun s e =>
    match reqMan s e.1 with
    | none => s
    | some m =>
      movePages s e.1 (fun s g =>
        match g.addr with
        | some a =>
          if (List.range (granOf (a + pageBytes (req s e.1) m g.layer - 1) + 1 - granOf a)).any (fun i => gs.contains (granOf a + i)) then
            let bytes := pageRead s g (pageBytes (req s e.1) m g.layer)
            let q := placeT2 s stay (pageBytes (req s e.1) m g.layer)
            let h := { g with addr := q.1 }
            (h, pageWrite q.2 p h 0 bytes)
          else (g, s)
        | none => (g, s))) s

/-! ### The pages of a step (R222, R229) -/

/-- Positions of the prompt a prefill step writes for a row: those the mask marks as tokens (R224). -/
def maskCount (s : State) (x : Batch) (row from' n : Nat) : Nat :=
  ((List.range n).filter (fun j => hrb s x.fn (x.mask + row * x.tokLen + from' + j) != 0)).length

/-- Positions a row writes in its batch's next step (R222, R224). -/
def nextCount (s : State) (x : Batch) (chunk row : Nat) : Nat :=
  if x.prefill = 0 then 1 else maskCount s x row (x.tokLen - x.prefill) (min chunk x.prefill)

/-- CHUNK of a batch's maquette (R222). -/
def chunkOf (s : State) (x : Batch) : Nat := match tfind x.handle s.handles with | some h => h.man.chunk | none => 64

/-- The pages every live row of a batch writes in its next step are allocated, those no longer needed freed (R229, R236). -/
def pagesForStep (s : State) (b : Nat) : State :=
  match batch? s b with
  | none => s
  | some x =>
    (x.rows.zipIdx).foldl (fun s r =>
      match r.1.req with
      | some e => if (req s e).tier = 4 then s else settlePages s e (nextCount s x (chunkOf s x) r.2)
      | none => s) s

end Sys2Proof.Machine
end

