-- ==== Sys2Proof/Machine/Recovery.lean ====
section
/-!
DEFINITION. Sys2Proof/Machine/Recovery.lean: what every recovery is built from: power and initialisation of a cluster (R27),
retirement and spares (R18-R26), fences, drains, partition resets and destruction (R351, R480-R484).
-/
namespace Sys2Proof.Machine
open Reg

/-! ### Halts and semaphores (R524-R528) -/

/-- Compute threads that are HALTED (R30). -/
def haltedThreads (s : State) : Nat := (s.threads.filter (fun e => thrState s e.1 == 7)).length

/-- Is a Plinth core halted (R526)? -/
def pairHalted (s : State) (b : Bool) : Bool := if b then isSet s PLN_DBGCTL_HALTED_B else isSet s PLN_DBGCTL_HALTED_A

/-- Do the Plinth watchdog and the hold timers pause (R526)? -/
def timersPause (s : State) : Bool := (pairHalted s false || pairHalted s true) && !isSet s PLN_DBGCTL_WDOG_RUN

/-- Hold time of a semaphore in ticks of 10 ns (R527). -/
def holdTicks (s : State) (n : Nat) : Nat :=
  match tfind n s.sec.sems with
  | some x => x.1 + (if timersPause s then 0 else s.time - x.2)
  | none => 0

/-- The hold timers counted up to now, so that a pause can begin or end (R526). -/
def settleTimers (s : State) : State :=
  { s with sec := { s.sec with sems := s.sec.sems.map (fun e => (e.1, holdTicks s e.1, s.time)) } }

/-- A semaphore freed (R527). -/
def freeSem (s : State) (n : Nat) : State :=
  wr { s with sec := { s.sec with sems := tdel n s.sec.sems } } (PLN_SEM_HELD n) 0

/-- The debug session closes; the debugger's semaphores are released (R524). -/
def closeSession (s : State) : State :=
  let mine := (List.range 32).filter (fun n => isSet s (PLN_SEM_HELD n) && rd s (PLN_SEM_OWNER n) == 2)
  wr (wr (mine.foldl freeSem s) SEC_DBG_STAT_ACTIVE 0) SEC_DBG_CTRL_END 0

/-- Is a Plinth core or a compute thread halted (SEC_DBG_STAT.HALTS)? -/
def anyHalted (s : State) : Bool := pairHalted s false || pairHalted s true || decide (haltedThreads s ≠ 0)

/-- A session whose end has been asked for closes once nothing is halted (R524). -/
def settleSession (s : State) : State := if isSet s SEC_DBG_CTRL_END && !anyHalted s then closeSession s else s

/-! ### Clusters (R27, R28) -/

/-- What a cluster's memories, threads, cores, queues and engines held is gone: its words are zero, and only what the
retirement rules remember of it stays (R18). -/
def clearCluster (s : State) (n : Nat) : State :=
  let lo := 0x40000000 + n * 0x1000000
  let inMem := fun (a : Nat) => decide (lo + 0x100000 ≤ a) && decide (a < lo + 0x1000000)
  let u := clu s n
  let s := setClu s n { powerGood := u.powerGood, initPend := u.initPend, doomed := u.doomed, ueTimes := u.ueTimes,
                        ueWords := u.ueWords, ceTimes := u.ceTimes, lastSweep := s.time }
  let s := { s with mem := tdrop inMem s.mem, poison := s.poison.filter (fun w => !inMem (8 * w)),
                    upsets := tdrop (fun w => inMem (8 * w)) s.upsets,
                    cores := tdrop (fun k => k / 64 == n) s.cores, threads := tdrop (fun k => k / 512 == n) s.threads,
                    moves := tdrop (fun k => k / 68 == n) s.moves, moveWait := tdel n s.moveWait }
  let s := clearFaults (resetRegs s (fun a => decide (lo + 0x100 ≤ a) && decide (a < lo + 0x200))) n
  settleSession (refreshDma s n)

/-- The cluster is gated (R27). -/
def gateCluster (s : State) (n : Nat) : State :=
  let s := clearCluster s n
  let s := setClu s n { clu s n with powerGood := false, initPend := false }
  wr (wr (wr (wr s (CLU_STAT_STATE n) 0) (CLU_CTRL_POWER n) 0) (CLU_CTRL_INIT n) 0) (CLU_CTRL_QUIESCE n) 0

/-- The cluster is ungated and passes INIT once power is good (R21, R27). -/
def ungateInit (s : State) (n : Nat) : State :=
  setClu (wr (wr s (CLU_CTRL_POWER n) 1) (CLU_CTRL_INIT n) 1) n { clu s n with initPend := true }

/-- The cluster enters INIT (R27); its error and sweep counts clear (R52, R54). -/
def enterInit (s : State) (n : Nat) : State :=
  let base := 0x40000000 + n * 0x1000000
  let s := resetRegs s (fun a => (decide (base + 0x10 ≤ a) && decide (a < base + 0x24)) || a == base + 0x44)
  let s := setClu (clearCluster s n) n { clu (clearCluster s n) n with initPend := false }
  wr (wr (wr s (CLU_STAT_STATE n) 1) (CLU_CTRL_INIT n) 1) (CLU_CTRL_QUIESCE n) 0

/-- The end of QUIESCING of a cluster that no partition holds any more: it goes on into INIT (R28). -/
def settleInit (s : State) (n : Nat) : State :=
  if rd s (CLU_STAT_STATE n) = 2 ∧ (clu s n).initPend = true then enterInit s n else s

/-- A cluster leaves its partition for good: through QUIESCING, then INIT (R28); an OFF one has nothing to lose. -/
def leaveCluster (s : State) (n : Nat) : State :=
  let st := rd s (CLU_STAT_STATE n)
  let s := wr s (CLU_MAP_PART n) 0
  if st = 2 ∨ st = 3 ∨ st = 4 then
    let s := setClu s n { clu s n with initPend := true }
    settleInit (settleCluster (wr (wr s (CLU_STAT_STATE n) 4) (CLU_CTRL_QUIESCE n) 1) n) n
  else s

/-- An event record to a partition's owner and to the PF, once when they are one function (R397). -/
def partState (s : State) (p detail : Nat) : State :=
  let o := ownerOf s p
  let s := event s o 2 p detail
  if o = 0 then s else event s 0 2 p detail

/-! ### What a partition's work meets -/

/-- A training step ends: its entry is freed and its packet completes (R124, R371). -/
def endTrain (s : State) (t : Train) (status : Nat) (x : Result) : State :=
  let s := (unitsWhere s (fun u => u.kind == .train t.cmd.fn t.cmd.ring t.cmd.sqIdx)).foldl stopUnit s
  let s := { s with srv := { s.srv with trains := s.srv.trains.filter (fun y => y.entry != t.entry) } }
  finish (endReq s t.entry status) t.cmd status x

/-- Every live request of a batch ends with a status, and the batch with it. -/
def failBatch (s : State) (b status : Nat) : State :=
  match batch? s b with
  | none => s
  | some x => settleBatch ((x.rows.filterMap (·.req)).foldl (fun s e => endReq s e status) (abandonStep s b)) b

/-- A batch's step abandoned by a retirement (R21): replayed once, then every request ends with UNCORRECTABLE. -/
def retireBatch (s : State) (b : Nat) : State :=
  match batch? s b with
  | none => s
  | some x => if x.replay then failBatch s b 0x61 else setBatch (abandonStep s b) b { x with running := false, replay := true }

/-- The work in flight on a partition when one of its clusters is retired (R21): the running step of every batch, the frames in
work, which drop, and the running training steps, which end. -/
def abandonWork (s : State) (p : Nat) : State :=
  let s := (s.srv.batches.filter (fun e => e.2.part == p && e.2.running)).foldl (fun s e => retireBatch s e.1) s
  let s := (unitsWhere s (fun u => u.part == p && (match u.kind with | .frame _ _ => true | _ => false))).foldl stopUnit s
  let s := s.cam.foldl (fun s e => (e.2.frames.filter (fun f => f.bind.part == p && f.stage == .working)).foldl
    (fun s f => dropFrame s e.1 f.no 6) s) s
  (s.srv.trains.filter (fun t => t.part == p && t.running)).foldl (fun s t => endTrain s t 0x61 {}) s

/-! ### WM images (R337) -/

/-- The WM of core `c` of physical cluster `n` cast from core `i` of a maquette's WM image (R22, R43, R337). -/
def castWm (s : State) (m : Manifest) (i n c : Nat) : State :=
  let base := memBase n 0 c
  let s := (List.range 32768).foldl (fun s o => wb s (base + o) (BitVec.ofNat 8 (Config.wmByte m.maqDigest i o))) s
  wroteRange s base 32768

/-- The same for every core of a cluster, which takes the place `i` among the maquette's clusters. -/
def castCluster (s : State) (m : Manifest) (i n : Nat) : State :=
  (List.range 64).foldl (fun s c => castWm s m (i * 64 + c) n c) s

/-- Logical clusters a maquette occupies in its partition (R321 CL_BASE, SHAPE_CL). -/
def occupies (x : Part) (m : Manifest) : List Nat := (x.logical.drop m.clBase).take m.shapeCl

/-- A maquette's WM image whole in the cores it occupies (R337). -/
def castImage (s : State) (p : Nat) (m : Manifest) : State :=
  match tfind p s.parts with
  | none => s
  | some x =>
    ((occupies x m).zipIdx).foldl (fun s e => match physOf s e.1 with | none => s | some n => castCluster s m e.2 n) s

/-- The WM images of a partition's RESIDENT handles (R372, R483 step 3). -/
def recastHandles (s : State) (p : Nat) : State :=
  (s.handles.filter (fun e => e.2.part == p && e.2.st == 1 && e.2.wm)).foldl (fun s e => castImage s p e.2.man) s

/-- The display maquette whose weights P0's cluster with logical number `l` holds, and the cluster's place in it: the cluster's
place in the Armature, or else among P0's clusters, counted from CL_BASE (R321, R337). -/
def displayPlace (s : State) (l : Nat) : Option (Manifest × Nat) :=
  let at' := fun (ls : List Nat) => ls.findIdx? (fun x => x == l)
  let i := match at' s.dsp.clusters with
    | some i => some i
    | none => at' (p0Clusters s)
  i.bind (fun i => (s.handles.find? (fun e => e.2.part == 0 && e.2.st == 1 && e.2.wm && decide (e.2.man.clBase ≤ i) &&
    decide (i < e.2.man.clBase + e.2.man.shapeCl))).map (fun e => (e.2.man, i - e.2.man.clBase)))

/-- P0's display weights cast into the cluster behind a logical number (R22, R26). -/
def castDisplay (s : State) (l : Nat) : State :=
  match displayPlace s l, physOf s l with
  | some x, some n => castCluster s x.1 x.2 n
  | _, _ => s

/-! ### Fences (R480-R482) -/

/-- FLT_PROG_n.STATE. -/
def setProg (s : State) (p v : Nat) : State := wr s (FLT_PROG_STATE p) v

/-- A fence is raised on a partition (R480, R482). For a hang the record's DETAIL names the first hung unit's logical cluster
and core in a layout the spec does not give: a free value (R475). -/
def raiseFence (s : State) (p : Nat) (hang : Bool) : State :=
  let s := setProg (setPart s p (fun x => { x with fence := .draining, fenceDue := false, hangFence := x.hangFence || hang,
                                                   cast := x.cast.map (fun k => { k with heldAt := some k.ready }) })) p 2
  let s := dropPartFrames s p 5
  let d := if hang then fresh s else (0, s)
  let s := report (partState d.2 p 0) (48 + p) clsPartition 0x11 p 0xFF d.1
  if hang ∧ p = 0 then raiseCause s 2 else s

/-- A fence that a command asks for goes up at the next quantum boundary (R480). -/
def askFence (s : State) (p : Nat) : State := setPart s p (fun x => { x with fenceDue := true })

/-- The fences asked for since the last quantum boundary (R480). -/
def raiseDue (s : State) : State :=
  (s.parts.filter (fun e => e.2.fenceDue && e.2.fence == .none)).foldl (fun s e => raiseFence s e.1 false) s

/-- Physical clusters a partition holds. -/
def partPhys (s : State) (p : Nat) : List Nat := (List.range 34).filter (fun n => cluPart s n == p)

/-- The layer a cast is at (R344): the one that failed, else the next to be read, else the next to be swapped. -/
def castLayer (s : State) (k : Cast) : Nat :=
  match k.failed with
  | some f => f.2
  | none => match tfind k.handle s.handles with
    | some h => if k.ready < h.man.layers.length then k.ready else k.swapped
    | none => k.ready

/-- What a command that a reset ends shows beside its status: a BATCH_SUBMIT its batch and the rows admitted (R406), a MAQ_CAST
the layer it was at (R344). -/
def endResult (s : State) (c : Cmd) : Result :=
  match s.srv.batches.find? (fun b => b.2.cmd == some c), (part? s c.part).bind (·.cast) with
  | some b, _ => { r2 := b.1, detail := b.2.admitted }
  | none, some k => if k.cmd = c then { detail := castLayer s k } else {}
  | none, none => {}

/-- The partition's outstanding commands but those that wait on its fence, reset or destruction complete (R481). -/
def endCommands (s : State) (p : Nat) : State :=
  (s.hif.cmds.filter (fun c => c.part == p && c.opcode != 0x12 && c.opcode != 0x13 && c.opcode != 0x14)).foldl
    (fun s c => complete s c 0x11 (endResult s c)) s

/-! ### Partition reset (R372, R483) -/

/-- What a reset does to a request (R372). -/
def resetRequest (s : State) (e : Nat) : State :=
  let r := req s e
  if r.state = .active then endReq s e 0x11
  else if r.state = ReqState.pausing ∨ r.state = ReqState.resuming then
    let r := { r with state := .paused, due := s.time + r.ttl * 100000000,
                      charge4 := if r.state = ReqState.pausing then 0 else r.charge4,
                      charge := if r.state = ReqState.resuming then r.charge - r.extra else r.charge, extra := 0 }
    let old := req s e
    let s := credit4 (credit2 s r.part (old.charge - r.charge)) r.part (old.charge4 - r.charge4)
    let s := setReq s e { r with pauseCmd := none, resumeCmd := none }
    if r.cancelCmd.isSome then endReq s e 0x12 else if r.releaseCmd.isSome then endReq s e (reqDone s e) else s
  else s

/-- Steps 2 to 5 of a partition reset (R483). -/
def finishReset (s : State) (p : Nat) : State :=
  let s := (partEntries s p).foldl resetRequest s
  let s := (s.srv.batches.filter (fun b => b.2.part == p)).foldl (fun s b => settleBatch s b.1) s
  let s := (s.srv.trains.filter (fun t => t.part == p)).foldl (fun s t => endTrain s t 0x11 {}) s
  let s := unwindCast s p 0x11 0xFFFF
  let cmds := match tfind p s.parts with | some x => x.resetCmds ++ x.fenceCmds | none => []
  let s := setPart s p (fun x => { x with satAcc := 0, satOut := 0, nonfinite := 0, fence := .none, hung := false,
                                          hangFence := false, resetCmds := [], fenceCmds := [], initLeft := [] })
  let s := recastHandles s p
  let s := if p = 0 then dropCause ((p0Clusters s).foldl castDisplay s) 2 else s
  let s := partState (partState (setProg s p 0) p 1) p 3
  cmds.foldl (fun s c => finish s c 0 {}) s

/-- Step 1 of a partition reset (R483): its work is abandoned, its clusters go through OFF and INIT. -/
def startReset (s : State) (p : Nat) : State :=
  let s := (unitsWhere s (fun u => u.part == p)).foldl stopUnit s
  let s := { s with srv := { s.srv with batches := s.srv.batches.map (fun b =>
    if b.2.part = p then (b.1, { b.2 with running := false }) else b) } }
  let l := partPhys s p
  let s := l.foldl (fun s n => ungateInit (gateCluster s n) n) s
  let s := setProg (setPart s p (fun x => { x with fence := .resetting, initLeft := l })) p 3
  let s := if p = 0 then raiseCause s 2 else s
  if l.isEmpty then finishReset s p else s

/-! ### Destroying a partition (R351) -/

/-- Granules of a partition lose their entries (R351 step 6). -/
def freeGranules (s : State) (p : Nat) : State :=
  { s with dram := { s.dram with
      gtab := tdrop (fun g => gV (gEntry s g) && !gPln (gEntry s g) && !gDisp (gEntry s g) && gPart (gEntry s g) == p) s.dram.gtab,
      fills := s.dram.fills.filter (fun g => !(gPart (gEntry s g) == p && gV (gEntry s g))) } }

/-- Bindings to a partition that have not taken effect end with their commands (R481). -/
def dropBinds (s : State) (p : Nat) : State :=
  let mine := fun (w : Cmd × Option Binding) => match w.2 with | some b => b.part == p | none => false
  s.cam.foldl (fun s e =>
    let x := ctx s e.1
    let c := (x.waiting.filter mine).foldl (fun n w => n + (match w.2 with | some b => b.charge | none => 0)) 0
    credit2 (setCtx s e.1 { x with waiting := x.waiting.filter (fun w => !mine w),
                                   bindCmd := x.bindCmd.filter (fun c => c.part != p) }) p c) s

/-- A context bound to the partition returns to OPEN (R219). -/
def unbindPart (s : State) (p : Nat) : State :=
  s.cam.foldl (fun s e =>
    match e.2.bind with
    | some b =>
      if b.part = p then
        wr (setCtx s e.1 { ctx s e.1 with bind := none, bindCmd := none, held := [] }) (CAM_CTX_CFG_STATE e.1) 1
      else s
    | none => s) s

/-- Steps 6 and 7 of R351: granules, areas, pages and rings are released, the slots the partition filled pass to the PF, and its
PART_DESTROY completes. -/
def completeDestroy (s : State) (p : Nat) : State :=
  let cmds := match tfind p s.parts with | some x => x.destroyCmds ++ x.fenceCmds ++ x.resetCmds | none => []
  let s := freeGranules s p
  let s := { s with flash := { s.flash with slots := s.flash.slots.map (fun e =>
    if e.2.part = p then (e.1, { e.2 with part := 0xFF }) else e) }, parts := tdel p s.parts }
  cmds.foldl (fun s c => finish s c 0 {}) (setProg s p 0)

/-- Steps 2 to 5 of R351; its clusters pass QUIESCING and INIT before the steps that follow. With `noRecords` the commands are
dropped instead of completed (R423, R485). -/
def endPartWork (s : State) (p : Nat) (noRecords : Bool) : State :=
  let s := if noRecords then dropCmds s (fun c => c.part == p) else s
  let s := (partEntries s p).foldl (fun s e => endReq s e 0x12) s
  let s := dropBinds (endCommands s p) p
  let s := (s.srv.trains.filter (fun t => t.part == p)).foldl (fun s t => endTrain s t 0x11 {}) s
  let s := { s with srv := { s.srv with batches := s.srv.batches.filter (fun b => b.2.part != p) } }
  let s := unbindPart (dropPartFrames s p 5) p
  let s := (unitsWhere s (fun u => u.part == p)).foldl stopUnit s
  let s := { s with handles := s.handles.filter (fun e => e.2.part != p), repl := s.repl.filter (fun r => r.part != p) }
  let l := partPhys s p
  let s := l.foldl leaveCluster s
  setPart s p (fun x => { x with ending := true, logical := x.logical ++ x.leaving, leaving := [], joining := [], resize := none,
                                 cast := none, adapters := [],
                                 initLeft := l.filter (fun n => rd s (CLU_STAT_STATE n) == 1 || rd s (CLU_STAT_STATE n) == 4) })

/-- Steps 2 to 7 of R351, once the drain has ended. -/
def finishDestroy (s : State) (p : Nat) (noRecords : Bool) : State :=
  match tfind p s.parts with
  | none => s
  | some x =>
    if x.ending then s
    else
      let s := endPartWork s p noRecords
      match tfind p s.parts with
      | none => s
      | some y => if y.initLeft.isEmpty then completeDestroy s p else s

/-- The end of a fence's drain (R481): outstanding commands end; then the destruction, the reset, or a fence that stays. -/
def drainEnd (s : State) (p : Nat) : State :=
  match tfind p s.parts with
  | none => s
  | some x =>
    if x.fence ≠ .draining then s
    else if x.destroying then finishDestroy s p x.noRecords
    else
      let s := dropBinds (endCommands s p) p
      let s := x.fenceCmds.foldl (fun s c => finish s c 0 {}) (setPart s p (fun x => { x with fenceCmds := [] }))
      if x.hangFence ∨ x.resetCmds ≠ [] then startReset s p
      else setProg (setPart s p (fun x => { x with fence := .up })) p 1

/-- A cluster has passed INIT or is retired (R27, R351, R483): a destruction or reset waiting for the last of its clusters goes on. -/
def initPassed (s : State) (n : Nat) : State :=
  s.parts.foldl (fun s e =>
    match tfind e.1 s.parts with
    | none => s
    | some x =>
      if (x.ending = true ∨ x.fence = .resetting) ∧ x.initLeft.contains n = true then
        let l := x.initLeft.filter (fun m => m != n)
        let s := setPart s e.1 (fun x => { x with initLeft := l })
        if !l.isEmpty then s else if x.ending then completeDestroy s e.1 else finishReset s e.1
      else s) s

/-! ### Retirement (R18-R26) -/

/-- Retired clusters as the cluster-map record holds them. -/
def retiredMask (s : State) : Nat := ((List.range 34).filter (fun n => rd s (CLU_STAT_STATE n) == 5)).foldl (fun m n => m + 2 ^ n) 0

/-- A good, unmapped cluster no replacement has taken (R15). -/
def isSpare (s : State) (n : Nat) : Bool :=
  !isSet s (CLU_MAP_MAPPED n) && rd s (CLU_STAT_STATE n) != 5 && !(s.repl.any (fun r => r.spare == n))

/-- The spare for cluster `n`: the lowest of its half, else of the other (R20). -/
def spareFor (s : State) (n : Nat) : Option Nat :=
  let north := decide (n ≤ 16)
  match (List.range 34).find? (fun m => isSpare s m && decide (m ≤ 16) == north) with
  | some m => some m
  | none => (List.range 34).find? (isSpare s)

/-- A partition loses a logical number for good (R23, R25). -/
def shrinkPart (s : State) (p l : Nat) : State :=
  match tfind p s.parts with
  | none => s
  | some x =>
    let s := partState (setPart s p (fun x => { x with logical := x.logical.filter (fun m => m != l) })) p 2
    if x.logical.filter (fun m => m != l) = [] then
      let s := (s.srv.trains.filter (fun t => t.part == p)).foldl (fun s t => endTrain s t 0x31 {}) s
      let s := ((partEntries s p).filter (fun e => (req s e).state == .active)).foldl (fun s e => endReq s e 0x31) s
      let s := (s.srv.batches.filter (fun b => b.2.part == p)).foldl (fun s b => settleBatch s b.1) s
      dropPartFrames s p 7
    else s

/-- P0's neural path needs the Armature's clusters, each place of it held by one of P0's (R22, R26, R186 cause CLUSTERS). -/
def checkClusters (s : State) : State :=
  match activeArm s with
  | none => s
  | some a =>
    if (p0Clusters s).length < a.clusters ∨ s.repl.any (fun r => r.part == 0) = true ∨
       s.dsp.clusters.any (fun l => !(p0Clusters s).contains l || (physOf s l).isNone) = true then raiseCause s 5 else s

/-- A spare is sent for a logical number, or the partition shrinks (R20, R22, R23). A P0 cluster takes the spare that
another partition waits for. -/
def replaceCluster (s : State) (n l p : Nat) : State :=
  match spareFor s n with
  | some m => ungateInit { s with repl := s.repl ++ [⟨m, l, p⟩] } m
  | none =>
    match (if p = 0 then s.repl.find? (fun r => r.part != 0) else none) with
    | some r =>
      shrinkPart { s with repl := s.repl.map (fun e => if e = r then ⟨r.spare, l, 0⟩ else e) } r.part r.logical
    | none => if p = 0xFF then s else shrinkPart s p l

/-- Packets whose moves a cluster's engine serves complete with UNCORRECTABLE when the cluster is lost (log entry 22). -/
def failPacketMoves (s : State) (n : Nat) : State :=
  ((List.range 68).flatMap (fun q => moveQueue s n q) ++ tget [] s.moveWait n).foldl (fun s m =>
    match m.owner with
    | .packet c => finish s c 0x61 {}
    | _ => s) s

/-- A physical cluster is retired (R18, R19, R51): recorded, its units abandoned, its place taken by a spare or given up. -/
def retireCluster (s : State) (n status : Nat) : State :=
  if rd s (CLU_STAT_STATE n) = 5 then s
  else
    let p := cluPart s n
    let l := rd s (CLU_MAP_LOGICAL n)
    let mapped := isSet s (CLU_MAP_MAPPED n)
    let leaving := match tfind p s.parts with
      | some x => x.leaving.contains l
      | none => false
    let repl := s.repl.find? (fun r => r.spare == n)
    let s := report s n clsDevice status p 0xFF (eccDetail s n)
    let s := (unitsWhere s (fun u => u.threads.any (fun k => k / 512 == n))).foldl stopUnit s
    let s := abandonWork s p
    let s := failPacketMoves s n
    let s := wr (wr (gateCluster s n) (CLU_STAT_STATE n) 5) (CLU_CTRL_RETIRE n) 1
    let s := wr s (CLU_MAP_MAPPED n) 0
    let s := setClu s n { clu s n with doomed := false }
    let s := writeDevRec s (.clusterMap (retiredMask s))
    let s := { s with repl := s.repl.filter (fun r => r.spare != n) }
    let s := match repl with
      | some r => replaceCluster s n r.logical r.part
      | none =>
        if !mapped then s
        else if leaving then setPart s p (fun x => { x with leaving := x.leaving.filter (fun m => m != l) })
        else replaceCluster s n l p
    checkClusters (initPassed s n)

/-- A cluster that has met a condition of R18's table is retired. -/
def settleDoomed (s : State) (n : Nat) : State := if (clu s n).doomed then retireCluster s n 0x61 else s

/-- The same for every cluster: a move's words may lie in another cluster than its engine's. -/
def settleAllDoomed (s : State) : State := (List.range 34).foldl settleDoomed s

end Sys2Proof.Machine
end

