-- ==== Sys2Proof/Machine/Train.lean ====
section
/-!
DEFINITION. Sys2Proof/Machine/Train.lean: the arithmetic of a training step: the gradient sum of ACCUMULATE and the new copy
that UPDATE writes (spec/03_number_formats.md R119, R121-R123).
-/
namespace Sys2Proof.Machine
open Reg

/-- Integer square root: `b` further bits of the root of `n` above `r`. -/
def isqrt (n : Nat) : Nat → Nat → Nat
  | 0, r => r
  | b + 1, r => if (r + 2 ^ b) * (r + 2 ^ b) ≤ n then isqrt n b (r + 2 ^ b) else isqrt n b r

/-- The square root as a datum good for one later rounding: 32 bits or more of the root and a sticky bit; of a negative value it
is NaN, of a zero the zero (IEEE 754). -/
def flSqrt : Fl → Fl
  | .nan => .nan
  | .inf neg => if neg then .nan else .inf false
  | .fin neg m e =>
    if m = 0 then .fin neg 0 0
    else if neg then .nan
    else
      let h := (e - 64 - e % 2) / 2
      let n := m * 2 ^ (e - 2 * h).toNat
      let r := isqrt n (bitLen n / 2 + 1) 0
      .fin false (2 * r + (if r * r = n then 0 else 1)) (h - 1)

/-- FP32 square root by RNE. -/
def fsqrt (x : Nat) : Nat := toFp32 (flSqrt (ofFp32 x))

/-- Magnitude of a datum. -/
def flAbs : Fl → Fl
  | .nan => .nan
  | .inf _ => .inf false
  | .fin _ m e => .fin false m e

/-- A datum times a power of two. -/
def flScale (k : Int) : Fl → Fl
  | .fin neg m e => .fin neg m (e + k)
  | x => x

/-! ### The gradient sum (R119, R121) -/

/-- An element of the gradient sum: E5M2 times 2^(X - 127). -/
def gradValue (code x : Nat) : Fl := flScale ((x : Int) - 127) (decodeIeee fmtE5m2 code)

/-- A block's X: the smallest value from 1 to 254 for which every element's magnitude divided by 2^(X - 127) is at most 57,344;
254 when there is none (R121). -/
def gradExp (l : List Nat) : Nat :=
  ((List.range 254).find? (fun (i : Nat) => l.all (fun v => !flLess (flScale ((i : Int) - 126) (.fin false 57344 0)) (flAbs (ofFp32 v))))).getD 253 + 1

/-- A new FP32 gradient added to an element of the sum. -/
def gradAdd (code x g : Nat) : Nat := toFp32 (flAdd (gradValue code x) (ofFp32 g))

/-- The elements of a block stored under its X, rounded stochastically; the 16 bits that decide are free (log entry 152). -/
def gradStore (s : State) (x : Nat) : List Nat → List Nat × State
  | [] => ([], s)
  | v :: t =>
    let p := fresh s
    let c := (convertTo 5 true p.1 (flScale (127 - (x : Int)) (ofFp32 v))).code
    let r := gradStore p.2 x t
    (c :: r.1, r.2)

/-- ACCUMULATE of block `b` of the gradient sum of `n` parameters: its new codes and X. -/
def gradBlock (s : State) (a : Adapter) (grads : List Nat) (b n : Nat) : List Nat × Nat × State :=
  let l := (List.range (min 32 (n - 32 * b))).map (fun i =>
    gradAdd (a.grad.getD (32 * b + i) 0) (a.gradX.getD b 1) (grads.getD (32 * b + i) 0))
  let x := gradExp l
  let r := gradStore s x l
  (r.1, x, r.2)

/-- ACCUMULATE (R121): every block, and ACC_COUNT. -/
def accumulate (s : State) (a : Adapter) (grads : List Nat) (n : Nat) : Adapter × State :=
  let r := (List.range (ceilDiv n 32)).foldl (fun (acc : List (List Nat) × List Nat × State) b =>
    let r := gradBlock acc.2.2 a grads b n
    (acc.1 ++ [r.1], acc.2.1 ++ [r.2.1], r.2.2)) ([], [], s)
  ({ a with grad := r.1.flatten, gradX := r.2.1, acc := a.acc + 1 }, r.2.2)

/-- The gradient sum and ACC_COUNT cleared (R121, R123). -/
def clearGrad (a : Adapter) (n : Nat) : Adapter :=
  { a with grad := List.replicate n 0, gradX := List.replicate (ceilDiv n 32) 1, acc := 0 }

/-! ### UPDATE (R122) -/

/-- FP32 code of 1. -/
def one32 : Nat := 0x3F800000

/-- min(1, clip / global_norm); 1 when clip = 0. -/
def clipFactor (clip norm : Nat) : Nat :=
  if clip % 2 ^ 31 = 0 then one32
  else
    let q := fdiv clip norm
    if flLess (ofFp32 q) (ofFp32 one32) then q else one32

/-- A stored moment: its INT8 code times its block's BF16 scale, as FP32. -/
def momentOf (codes scales : List Nat) (i : Nat) : Nat :=
  toFp32 (flMul (flOfInt (signExt 8 (codes.getD i 0))) (elemFl 6 (scales.getD (i / 256) 0)))

/-- One parameter's new weight (FP32), first moment and root of the second (R122). -/
def updateOne (t : TrainParams) (a : Adapter) (cf i : Nat) : Nat × Nat × Nat :=
  let sum := toFp32 (gradValue (a.grad.getD i 0) (a.gradX.getD (i / 32) 1))
  let g := fmul (fdiv sum (fOfInt a.acc)) cf
  let sq := momentOf a.cur.v a.cur.vScale i
  let m := fadd (fmul t.beta1 (momentOf a.cur.m a.cur.mScale i)) (fmul (fsub one32 t.beta1) g)
  let v := fadd (fmul t.beta2 (fmul sq sq)) (fmul (fmul (fsub one32 t.beta2) g) g)
  let mh := fdiv m (fsub one32 (Config.fpow t.beta1 t.stepNo % 2 ^ 32))
  let vh := fdiv v (fsub one32 (Config.fpow t.beta2 t.stepNo % 2 ^ 32))
  let w := toFp32 (elemFl 6 (a.cur.w.getD i 0))
  let d := fadd (fdiv mh (fadd (fsqrt vh) t.eps)) (fmul t.wd w)
  (fsub w (fmul t.lr d), m, fsqrt v)

/-- A finite positive datum rounded up to BF16. -/
def bf16Up : Fl → Nat
  | .fin _ m e =>
    let qe := lastPlace fmtBf16 m e
    let q := if qe ≤ e then m * 2 ^ (e - qe).toNat else ceilDiv m (2 ^ (qe - e).toNat)
    let r := if q = 256 then (128, qe + 1) else (q, qe)
    if beyondIeee fmtBf16 r.1 r.2 then 0x7F80 else encodeFin fmtBf16 false r.1 r.2
  | _ => 0x7F80

/-- The largest magnitude of a list of FP32 codes. -/
def maxAbs32 (l : List Nat) : Fl :=
  l.foldl (fun x v => if flLess x (flAbs (ofFp32 v)) then flAbs (ofFp32 v) else x) (.fin false 0 0)

/-- A block of moments stored: its scale and codes (R122). A block that holds a NaN or an infinity, or whose scale leaves BF16,
has no stated codes: they are free (log entry 152). -/
def storeMoments (s : State) (l : List Nat) : Nat × List Nat × State :=
  let sc := bf16Up (flDiv (maxAbs32 l) (flOfInt 127))
  if l.any nonfiniteFp32 ∨ sc = 0x7F80 then
    let r := l.foldl (fun (acc : List Nat × State) _ => let p := fresh acc.2; (acc.1 ++ [p.1 % 256], p.2)) ([], s)
    let p := fresh r.2
    (p.1 % 2 ^ 16, r.1, p.2)
  else if sc = 0 then (0, l.map (fun _ => 0), s)
  else (sc, l.map (fun v => (convertTo 0 false 0 (flDiv (ofFp32 v) (elemFl 6 sc))).code), s)

/-- The moments of every block. -/
def storeAllMoments : State → Nat → List Nat → List Nat × List Nat × State
  | s, 0, _ => ([], [], s)
  | s, b + 1, l =>
    let r := storeMoments s (l.take 256)
    let t := storeAllMoments r.2.2 b (l.drop 256)
    (r.1 :: t.1, r.2.1 ++ t.2.1, t.2.2)

/-- The master weights stored in BF16, rounded stochastically; the bits that decide are free (log entry 152). -/
def storeWeights (s : State) : List Nat → List Nat × State
  | [] => ([], s)
  | v :: t =>
    let p := fresh s
    let r := storeWeights p.2 t
    ((convertTo 6 true p.1 (ofFp32 v)).code :: r.1, r.2)

/-- UPDATE (R122, R121): the next copy is written from the current one and becomes current; the gradient sum and ACC_COUNT
clear. `norm`: the global gradient norm before clipping. -/
def updateAdapter (s : State) (t : TrainParams) (a : Adapter) (norm n : Nat) : Adapter × State :=
  let l := (List.range n).map (updateOne t a (clipFactor t.clip norm))
  let w := storeWeights s (l.map (·.1))
  let m := storeAllMoments w.2 (ceilDiv n 256) (l.map (·.2.1))
  let v := storeAllMoments m.2.2 (ceilDiv n 256) (l.map (·.2.2))
  let next : AdapterCopy := { w := w.1, m := m.2.1, mScale := m.1, v := v.2.1, vScale := v.1 }
  (clearGrad { a with cur := next, nxt := a.cur } n, v.2.2)

/-- What a step that has run its phases leaves of the adapter (R121-R123): a gradient with a NaN or an infinity is discarded, and
with APPLY = 1 the gradient sum clears and the current copy stays. -/
def trainResult (s : State) (t : TrainParams) (a : Adapter) (grads : List Nat) (norm n : Nat) : Adapter × State :=
  if grads.any nonfiniteFp32 then (if t.apply then clearGrad a n else a, s)
  else
    let r := accumulate s a grads n
    if t.apply then updateAdapter r.2 t r.1 norm n else r

/-- A new adapter (R119, R419): the current copy's weights from INIT_ADDR; moments and gradient sum zero (log entry 152). -/
def newAdapter (s : State) (digest rank charge n addr : Nat) : Adapter :=
  let w := (List.range n).map (fun i => (devRb s (addr + 2 * i)).toNat + 256 * (devRb s (addr + 2 * i + 1)).toNat)
  let z := List.replicate n 0
  let zs := List.replicate (ceilDiv n 256) 0
  clearGrad { digest, rank, acc := 0, charge, cur := { w, m := z, mScale := zs, v := z, vScale := zs },
              nxt := { w, m := z, mScale := zs, v := z, vScale := zs } } n

end Sys2Proof.Machine
end

