-- ==== Sys2Proof/Machine/Attention.lean ====
section
/-!
DEFINITION. Sys2Proof/Machine/Attention.lean: keys and values written into pages, scores, key-axis segments and their merge
(spec/07_attention_kv.md R224-R226, R233-R239).
-/
namespace Sys2Proof.Machine
open Reg

/-! ### The exponential (R233, R239: FP32, RNE; log entry 160) -/

/-- ln 2 in units of 2^-320. -/
def ln2Fixed : Int := 1480553391661173448385607439722553250922680800745876974795605978609098082859138712941075737848984

/-- Terms `k`, `k + 1`, … of the exponential series of `r` in units of 2^-320, from term `t` on. -/
def expSeries (r : Int) : Nat → Nat → Int → Int
  | 0, _, _ => 0
  | n + 1, k, t => t + expSeries r n (k + 1) (t * r / 2 ^ 320 / (k + 1 : Nat))

/-- e^x as a datum good for one later rounding to FP32. -/
def flExp : Fl → Fl
  | .nan => .nan
  | .inf neg => if neg then .fin false 0 0 else .inf false
  | .fin neg m e =>
    if m = 0 then .fin false 1 0
    else if 8 < e + (bitLen m : Int) then .fin false 1 (if neg then -400 else 400)
    else
      let x := signed neg (if 0 ≤ e + 320 then m * 2 ^ (e + 320).toNat else m / 2 ^ (-(e + 320)).toNat)
      let n := (2 * x + ln2Fixed) / (2 * ln2Fixed)
      let y := expSeries (x - n * ln2Fixed) 80 0 (2 ^ 320)
      .fin false (2 * y.toNat + 1) (n - 321)

/-- FP32 exponential by RNE. -/
def fexp (x : Nat) : Nat := toFp32 (flExp (ofFp32 x))

/-! ### Keys and values in their pages (R224-R226) -/

/-- A key or value as its layer stores it (R226); `scale` is KSCALE or VSCALE of its head. -/
def kvConvert (a : AttnLayer) (scale x : Nat) : Conv :=
  if a.bf16 then convertTo 6 false 0 (ofFp32 x) else convertTo 4 false 0 (flDiv (ofFp32 x) (ofFp32 scale))

/-- The datum of a stored element. -/
def kvDatum (a : AttnLayer) (code : Nat) : Fl := elemFl (if a.bf16 then 6 else 4) code

/-- Byte offset of key element (h, p, d) in a page, and of the value element (R225). -/
def keyOff (r : Req) (a : AttnLayer) (h p d : Nat) : Nat := ((h * r.p + p) * a.dim + d) * elemBytes a
def valueOff (r : Req) (a : AttnLayer) (h p d : Nat) : Nat := keyOff r a h p d + r.p * a.heads * a.dim * elemBytes a

/-- The keys or values of one position of a layer, converted head by head; an element the step did not give is free. -/
def convertRow (s : State) (a : AttnLayer) (scales : List Nat) (l : List (BitVec 32)) : List Conv × State :=
  (List.range (a.heads * a.dim)).foldl (fun (z : List Conv × State) i =>
    match l[i]? with
    | some x => (z.1 ++ [kvConvert a (scales.getD (i / a.dim) 0x3F800000) x.toNat], z.2)
    | none => let p := fresh z.2; (z.1 ++ [⟨p.1 % (if a.bf16 then 65536 else 256), false, false⟩], p.2)) ([], s)

/-- Bytes of a stored element. -/
def elemLe (a : AttnLayer) (code : Nat) : List Byte :=
  if a.bf16 then [BitVec.ofNat 8 code, BitVec.ofNat 8 (code / 256)] else [BitVec.ofNat 8 code]

/-- Saturated and non-finite elements of stored keys and values counted in the partition's totals (R109, R113, R226). -/
def countKv (s : State) (p : Nat) (l : List Conv) : State :=
  let m := 2 ^ 32 - 1
  setPart s p (fun x => { x with satOut := satAdd m x.satOut (l.filter (·.sat)).length,
                                 nonfinite := satAdd m x.nonfinite (l.filter (·.nonfinite)).length })

/-- The key and value of one position of a layer written into its page (R224-R226); a page that is immutable is not written (R232). -/
def writePosition (s : State) (e l pos : Nat) (a : AttnLayer) (k v : List (BitVec 32)) : State :=
  let r := req s e
  match pageOf r l (pos / r.p) with
  | none => s
  | some g =>
    let ks := convertRow s a a.kscale k
    let vs := convertRow ks.2 a a.vscale v
    let put := fun (off : Nat → Nat → Nat → Nat) (l : List Conv) (s : State) =>
      (l.zipIdx).foldl (fun s c => pageWrite s r.part g (off (c.2 / a.dim) (pos % r.p) (c.2 % a.dim)) (elemLe a c.1.code)) s
    put (valueOff r a) vs.1 (put (keyOff r a) ks.1 (countKv vs.2 r.part (ks.1 ++ vs.1)))

/-- Every layer's keys and values of the `n` positions a step writes for a request, from position `from'` on (R224). -/
def writeKv (s : State) (e row from' n : Nat) (kv : List KvRow) : State :=
  match reqMan s e with
  | none => s
  | some m =>
    (m.attention.zipIdx).foldl (fun s a =>
      (List.range n).foldl (fun s j =>
        let x := kv.find? (fun x => x.row == row && x.layer == a.2 && x.pos == j)
        writePosition s e a.2 (from' + j) a.1 (match x with | some x => x.k | none => []) (match x with | some x => x.v | none => [])) s) s

/-! ### Attended positions and segments (R234, R235, R237) -/

/-- The first position of position `p`'s window. -/
def windowStart (a : AttnLayer) (p : Nat) : Nat := match a.window with | some w => p + 1 - w | none => 0

/-- The window of `n` positions from `lo` on, cut into segments (R237). -/
def windowSegments (lo n : Nat) : List (List Nat) :=
  let k := min 64 (ceilDiv n 512)
  let len := 64 * ceilDiv n (64 * k)
  ((List.range k).map (fun i => (List.range (min len (n - i * len))).map (fun j => lo + i * len + j))).filter (fun l => l != [])

/-- The segments of position `p` of a request: the global positions below its window as one, numbered 0, then the window's. -/
def segmentsAt (r : Req) (a : AttnLayer) (p : Nat) : List (List Nat) :=
  let lo := windowStart a p
  let g := if a.window.isSome then r.globals.filter (fun x => decide (x < lo)) else []
  (if g = [] then [] else [g]) ++ windowSegments lo (p + 1 - lo)

/-! ### Scores, weights and partial results (R233, R238; the order of the sums: log entry 160) -/

/-- An FP32 result that saturates (R91, R233): the code and whether it saturated. -/
def satFp32 (x : Fl) : Nat × Bool :=
  match x with
  | .fin neg _ _ => if overflowsFp32 x then (maxFp32 neg, true) else (toFp32 x, false)
  | _ => (toFp32 x, false)

/-- Sum of the products of up to 8 pairs in cell-row order (R90). -/
def dot8 (l : List (Fl × Fl)) : Nat × Bool :=
  (l.foldl (fun (t : Option (Nat × Bool)) x =>
    let y := flMul x.1 x.2
    match t with
    | none => some (arrayAddFl 0x80000000 y)
    | some (v, o) => let z := arrayAddFl v y; some (z.1, o || z.2)) none).getD (0, false)

/-- An inner product as the array's passes accumulate it in FP32, 8 elements a pass (R58, R90): the value and saturated writes. -/
def dotFp32 (l : List (Fl × Fl)) : Nat × Nat :=
  (List.range (ceilDiv l.length 8)).foldl (fun z i =>
    let y := dot8 ((l.drop (8 * i)).take 8)
    let w := if i = 0 then y else let t := arrayAddFl z.1 (ofFp32 y.1); (t.1, y.2 || t.2)
    (w.1, z.2 + b2n w.2)) (0, 0)

/-- A stored element of a page. -/
def kvRead (s : State) (a : AttnLayer) (g : KvPage) (off : Nat) : Fl :=
  match g.addr with
  | some x => kvDatum a ((devRb s (x + off)).toNat + (if a.bf16 then 256 * (devRb s (x + off + 1)).toNat else 0))
  | none => kvDatum a (Config.freeNat (s.free + off))

/-- The stored key and value rows of a position of KV head `h`. -/
def keyAt (s : State) (r : Req) (a : AttnLayer) (l h p : Nat) : List Fl :=
  match pageOf r l (p / r.p) with
  | some g => (List.range a.dim).map (fun d => kvRead s a g (keyOff r a h (p % r.p) d))
  | none => []
def valueAt (s : State) (r : Req) (a : AttnLayer) (l h p : Nat) : List Fl :=
  match pageOf r l (p / r.p) with
  | some g => (List.range a.dim).map (fun d => kvRead s a g (valueOff r a h (p % r.p) d))
  | none => []

/-- A layer's scale of a KV head (R226); BF16 keys and values have none. -/
def headScale (a : AttnLayer) (l : List Nat) (h : Nat) : Nat := if a.bf16 then 0x3F800000 else l.getD h 0x3F800000

/-- The score of a query and a key (R233): the product accumulated in FP32, then QSCALE, KSCALE and 1 ÷ √D, each by RNE. -/
def score (a : AttnLayer) (kscale : Nat) (x : AttnRow) (k : List Fl) : Nat × Nat :=
  let q := x.q.map (fun y => kvDatum a (if a.bf16 then (convertTo 6 false 0 (flDiv (ofFp32 y.toNat) (ofFp32 x.qscale.toNat))).code
    else (convertTo 4 false 0 (flDiv (ofFp32 y.toNat) (ofFp32 x.qscale.toNat))).code))
  let t := dotFp32 (q.zip k)
  let u := satFp32 (flMul (ofFp32 t.1) (ofFp32 x.qscale.toNat))
  let v := satFp32 (flMul (ofFp32 u.1) (ofFp32 kscale))
  let w := satFp32 (flDiv (ofFp32 v.1) (ofFp32 (fsqrt (fOfInt a.dim))))
  (w.1, t.2 + b2n u.2 + b2n v.2 + b2n w.2)

/-- FP32 minus infinity. -/
def negInf : Nat := 0xFF800000

/-- The larger of two FP32 codes; a NaN does not exceed anything. -/
def fmaxOf (x y : Nat) : Nat := if flLess (ofFp32 x) (ofFp32 y) then y else x

/-- The weight of a score under a maximum (R233), as its datum. -/
def weightOf (a : AttnLayer) (m s : Nat) : Fl :=
  let e := fexp (fsub s m)
  if a.bf16 then kvDatum a (convertTo 6 false 0 (ofFp32 e)).code
  else flScale (-8) (kvDatum a (convertTo 4 false 0 (flScale 8 (ofFp32 e))).code)

/-- A segment's partial result (R238). -/
structure Partial where
  m : Nat
  l : Nat
  o : List Nat
deriving DecidableEq, Repr

/-- The partial result of a segment whose scores are `ss` and whose value rows are `vs` (R238), and the saturated writes. -/
def partialOf (a : AttnLayer) (vscale : Nat) (ss : List Nat) (vs : List (List Fl)) : Partial × Nat :=
  let m := ss.foldl fmaxOf negInf
  if m = negInf then (⟨negInf, 0, List.replicate a.dim 0⟩, 0)
  else
    let ws := ss.map (weightOf a m)
    let sums := (List.range a.dim).map (fun d => dotFp32 (ws.zip (vs.map (fun v => v.getD d .nan))))
    (⟨m, ws.foldl (fun n w => toFp32 (flAdd (ofFp32 n) w)) 0, sums.map (fun t => fmul t.1 vscale)⟩,
     sums.foldl (fun n t => n + t.2) 0)

/-- exp(x - y) in FP32, where -∞ less -∞ counts as a term of weight 0 (R239). -/
def expDiff (x y : Nat) : Nat := if x = negInf then 0 else fexp (fsub x y)

/-- One turn of the merge (R239). -/
def mergeOne (z x : Partial) : Partial :=
  let mn := fmaxOf z.m x.m
  let a := expDiff z.m mn
  let b := expDiff x.m mn
  ⟨mn, fadd (fmul z.l a) (fmul x.l b), (z.o.zip x.o).map (fun e => fadd (fmul e.1 a) (fmul e.2 b))⟩

/-- The merged output of the partial results in ascending segment order (R239); of a wholly masked row it is 0 (R244). -/
def mergeAll (dim : Nat) : List Partial → List Nat
  | [] => List.replicate dim 0
  | z :: t =>
    let r := t.foldl mergeOne z
    if r.m = negInf then List.replicate dim 0 else r.o.map (fun x => fdiv x r.l)

/-- The attention of one query of a request (R233-R239): its output and the saturated sums. -/
def attend (s : State) (r : Req) (a : AttnLayer) (x : AttnRow) (p : Nat) : List Nat × Nat :=
  let h := x.head / max 1 a.group
  let parts := (segmentsAt r a p).map (fun seg =>
    let ss := seg.map (fun j => if x.masked.contains j then (negInf, 0) else score a (headScale a a.kscale h) x (keyAt s r a x.layer h j))
    let z := partialOf a (headScale a a.vscale h) (ss.map Prod.fst) (seg.map (valueAt s r a x.layer h))
    (z.1, z.2 + ss.foldl (fun n t => n + t.2) 0))
  (mergeAll a.dim (parts.map Prod.fst), parts.foldl (fun n z => n + z.2) 0)

/-! ### The attention of a step (R43, R244) -/

/-- Pages a query reads. -/
def pagesRead (r : Req) (a : AttnLayer) (l p : Nat) : List KvPage :=
  (((segmentsAt r a p).flatten.map (· / r.p)).eraseDups).filterMap (pageOf r l)

/-- The words of a page a query of KV head `h` reads, of its positions `js`. -/
def wordsRead (r : Req) (a : AttnLayer) (g : KvPage) (h : Nat) (js : List Nat) : List Nat :=
  match g.addr with
  | none => []
  | some x => js.flatMap (fun j => (List.range a.dim).flatMap (fun d => [x + keyOff r a h (j % r.p) d, x + valueOff r a h (j % r.p) d]))

/-- Why the reads of a query fail, if they do: a poisoned word (R43), or an access the DRAM controller refuses (R250). -/
def attnFault (s : State) (r : Req) (a : AttnLayer) (x : AttnRow) (p : Nat) : Option Nat :=
  let js := (segmentsAt r a p).flatten
  let h := x.head / max 1 a.group
  let l := (pagesRead r a x.layer p).flatMap (fun g => wordsRead r a g h (js.filter (fun j => j / r.p == g.idx)))
  if l.any (fun b => (accessKind s (.part r.part) (granOf b) false) == some 3) then some 0x42
  else if l.any (fun b => (accessKind s (.part r.part) (granOf b) false).isSome) then some 0x21
  else if l.any (poisoned s) then some 0x61 else none

/-- FP32 words written into CM where the program puts an attention output. -/
def writeOutput (s : State) (p : Nat) (x : AttnRow) (l : List Nat) : State :=
  match physOf s x.cl with
  | none => s
  | some n =>
    if cluPart s n = p ∧ x.off + 4 * l.length ≤ 1048576 then
      let b := memBase n 4 0 + x.off
      wroteRange ((l.zipIdx).foldl (fun s v => wrN s (b + 4 * v.2) 4 v.1) s) b (4 * l.length)
    else s

/-- The attention queries of one request's row in a step whose first position is `from'` (R233-R239, R244): the state, or the
status its work unit fails with. -/
def attendRow (s : State) (e row from' : Nat) (l : List AttnRow) : State × Option Nat :=
  match reqMan s e with
  | none => (s, none)
  | some m =>
    (l.filter (fun x => x.row == row)).foldl (fun (z : State × Option Nat) x =>
      if z.2.isSome then z
      else
        match m.attention[x.layer]? with
        | none => z
        | some a =>
          let r := req z.1 e
          match attnFault z.1 r a x (from' + x.pos) with
          | some st => (z.1, some st)
          | none =>
            let y := attend z.1 r a x (from' + x.pos)
            (writeOutput (setPart z.1 r.part (fun p => { p with satAcc := satAdd (2 ^ 32 - 1) p.satAcc y.2 })) r.part x y.1, none)) (s, none)

end Sys2Proof.Machine
end

