-- ==== Sys2Proof/Machine/Vector.lean ====
section
/-!
DEFINITION. Sys2Proof/Machine/Vector.lean: output scale sets, counters, the vector unit and the max-abs collectors
(spec/03_number_formats.md; vector queues of spec/01 R33).
-/
namespace Sys2Proof.Machine
open Reg

/-- SETQ (R107): a ready thread loads an output scale set entry from an AM word; a word delivered poisoned faults it (R43). -/
def setq (t : ThreadId) (entry : Fin 64) (addr : Fin 4096) (ecc : Ecc) (s : State) : State :=
  let k := tno t
  if canIssue s k then
    let z := readWord (addEcc s (memBase t.cluster 1 t.core + 8 * addr) ecc) t.cluster 1 t.core addr
    if z.2 then threadFault (noteIssue z.1 k) k 0x61 true
    else
      let s := z.1
      let c := core s (k / 8)
      advancePc (setCore s (k / 8) { c with qset := tput 0 c.qset entry (rdWord s t.cluster 1 t.core addr) }) k false
  else s

/-- A register of a thread written. -/
def setReg (s : State) (k rdx : Nat) (v : BitVec 32) : State :=
  let t := thr s k
  setThr s k { t with g := tput 0 t.g rdx v }

/-- CNT_RD (R113): SAT_ACC, SAT_OUT or NONFINITE of the core, or of the cluster's vector unit, into a register. -/
def execCntRd (t : ThreadId) (which : Fin 3) (vector : Bool) (rdx : Fin 32) (s : State) : Out :=
  let k := tno t
  if canIssue s k then
    let c := core s (k / 8)
    let u := clu s (k / 512)
    let v := if vector then (if which = 0 then u.satAcc else if which = 1 then u.satOut else u.nonfinite)
      else (if which = 0 then c.satAcc else if which = 1 then c.satOut else c.nonfinite)
    .next (advancePc (setReg s k rdx (BitVec.ofNat 32 v)) k false)
  else .next s

/-! ### Vector queues -/

/-- The vector queue of a core. -/
def vecQueue (s : State) (cn : Nat) : List VecEntry := tget [] (clu s (cn / 64)).vecq (cn % 64)
def setVecQueue (s : State) (cn : Nat) (l : List VecEntry) : State :=
  let c := clu s (cn / 64)
  setClu s (cn / 64) { c with vecq := tput [] c.vecq (cn % 64) l }

/-- Issue an entry into the core's vector queue, or wait in WAIT_VECTOR while its two entries are taken (R33). -/
def issueVec (s : State) (k tag : Nat) (e : VecEntry) : State :=
  let q := vecQueue s (k / 8)
  if 2 ≤ q.length then setThrState s k 4 .vectorQueue
  else advancePc (setVecQueue (setTag s k tag .pendVector) (k / 8) (q ++ [e])) k false

/-- The front entry leaves the queue; threads waiting for a place can issue; a QUIESCING cluster may end (R27, R148). -/
def popVec (s : State) (cn : Nat) : State :=
  settleCluster (wakeCore (setVecQueue s cn (vecQueue s cn).tail) cn .vectorQueue) (cn / 64)

/-- The byte address of a region of a core (R115, R136). -/
def regionAddr (cn : Nat) (r : Region) : Nat :=
  (if r.inCm then memBase (cn / 64) 4 0 else memBase (cn / 64) 1 (cn % 64)) + r.offset

/-- Does a region of `n` bytes lie inside its memory? -/
def regionOk (r : Region) (n : Nat) : Bool := decide (r.offset + n ≤ if r.inCm then 1048576 else 32768)

/-- Bits of an element of a format: codes of R62, 8 FP32 and 9 INT32. -/
def fmtBits (fmt : Nat) : Nat := if fmt = 1 then 4 else if fmt = 6 then 16 else if 8 ≤ fmt then 32 else 8

/-- Element `i` of a packed array of `w`-bit elements at byte address `a`. -/
def rdElem (s : State) (a w i : Nat) : Nat :=
  if w = 4 then bits (rb s (a + i / 2)).toNat (4 * (i % 2)) 4 else rdN s (a + i * (w / 8)) (w / 8)

/-- Element `i` of a packed array written. -/
def wrElem (s : State) (a w i v : Nat) : State :=
  if w = 4 then
    let b := (rb s (a + i / 2)).toNat
    wb s (a + i / 2) (BitVec.ofNat 8 (if i % 2 = 0 then b / 16 * 16 + v % 16 else b % 16 + v % 16 * 16))
  else wrN s (a + i * (w / 8)) (w / 8) v

/-- Sources of a vector command by kind, and the bits of its destination's elements. -/
def vecSources (c : VecCmd) : List Region :=
  match c.kind with
  | .add | .mul | .max => [c.a, c.b]
  | .fma => [c.a, c.b, c.c]
  | _ => [c.a]

def vecDstBits (c : VecCmd) : Nat :=
  match c.kind with
  | .convert _ f _ => fmtBits f
  | _ => 32

/-- The output scale set entry a vector command converts with (R107); 0 for the other kinds. -/
def vecEntry (s : State) (k : Nat) (c : VecCmd) : Nat :=
  match c.kind with
  | .convert _ _ q => tget 0 (core s (k / 8)).qset q
  | _ => 0

/-- An undefined vector instruction (R36, R107): no such operation, a format or scale set entry that converts nothing, or a
region past its memory. -/
def vecUndefined (s : State) (k : Nat) (c : VecCmd) : Bool :=
  (match c.kind with
   | .undefined => true
   | .convert _ f _ => !(f == 0 || f == 1 || f == 2 || f == 4 || f == 5 || f == 6 || f == 8) || !qsetOk (vecEntry s k c)
   | _ => false) ||
  !(vecSources c).all (fun r => regionOk r (4 * c.count)) || !regionOk c.dst (ceilDiv (vecDstBits c * c.count) 8)

/-- VECTOR_OP (R33): an undefined instruction faults; a full queue makes the thread wait; otherwise the operation is
queued and its tag awaits completion. DESIGN CHOICE (log entry 149): a conversion uses the output scale set entry in force at
its issue, as an array instruction does. -/
def execVectorOp (t : ThreadId) (op : VecCmd) (s : State) : Out :=
  let k := tno t
  if canIssue s k then
    if vecUndefined s k op then .next (issueFault s k 0x7F)
    else .next (issueVec s k op.tag (.vec k op (vecEntry s k op)))
  else .next s

/-- Counters of a cluster's vector unit raised (R113). -/
def addVecCounts (s : State) (n satO nonf : Nat) : State :=
  let c := clu s n
  setClu s n { c with satOut := satAdd 65535 c.satOut satO, nonfinite := satAdd 65535 c.nonfinite nonf }

/-- An FP32 code the device may produce: its NaNs are canonical (R88). -/
def canonFp32 (x : Nat) : Nat := if ofFp32 (x % 2 ^ 32) = .nan then nanFp32 else x % 2 ^ 32

/-- Element `i` of a vector operation computed and written (R47, R88, R108-R111); `e` is the output scale set entry. DESIGN
CHOICE (log entry 149): a maximum with a NaN, which the spec does not state, is a free value; element i has the per-channel scale of output column i, and lane i mod 256. -/
def vecElem (cn : Nat) (c : VecCmd) (e : Nat) (s : State) (i : Nat) : State :=
  let x := rdElem s (regionAddr cn c.a) 32 i
  let y := rdElem s (regionAddr cn c.b) 32 i
  let z := rdElem s (regionAddr cn c.c) 32 i
  let d := regionAddr cn c.dst
  match c.kind with
  | .add => wrElem s d 32 i (fadd x y)
  | .mul => wrElem s d 32 i (fmul x y)
  | .max =>
    if ofFp32 x = .nan ∨ ofFp32 y = .nan then
      let p := fresh s
      wrElem p.2 d 32 i (canonFp32 p.1)
    else wrElem s d 32 i (if flLess (ofFp32 x) (ofFp32 y) then y else x)
  | .fma => wrElem s d 32 i (ffma x y z)
  | .convert int f _ =>
    let ch := chanScale s cn e i
    let s := ch.2
    let v := scaleSum (if int then fOfInt (toInt32 x) else x) (bits e 0 32) ch.1 (bit e 34)
    if f = 8 then wrElem s d 32 i v
    else
      let stoch := bits e 32 2 == 1
      let u := clu s (cn / 64)
      let l := lfsrStep (tget 0 u.lfsr (i % 256))
      let s := if stoch then setClu s (cn / 64) { u with lfsr := tput 0 u.lfsr (i % 256) l } else s
      let r := convertTo f stoch l (ofFp32 v)
      addVecCounts (wrElem s d (fmtBits f) i r.code) (cn / 64) (b2n r.sat) (b2n r.nonfinite)
  | _ =>
    let p := fresh s
    wrElem p.2 d 32 i (canonFp32 p.1)

/-! ### Collectors (R115-R117) -/

def coll (s : State) (n i : Nat) : Collector := tget {} (clu s n).collectors i
def setColl (s : State) (n i : Nat) (c : Collector) : State :=
  let k := clu s n
  setClu s n { k with collectors := tput {} k.collectors i c }

/-- Threads of a cluster that wait for a collector become READY. -/
def wakeCollector (s : State) (n : Nat) : State := (List.range 64).foldl (fun s c => wakeCore s (coreNo n c) .collector) s

/-- The collector released (R117). -/
def releaseColl (s : State) (n i : Nat) : State := wakeCollector (setColl s n i {}) n

/-- Is a feed to the collector in flight in the cluster? -/
def feedInFlight (s : State) (n i : Nat) : Bool :=
  (clu s n).vecq.any (fun e => e.2.any (fun v => match v with | .feed _ j _ _ _ _ => j == i | _ => false))

/-- STAT_ACQ (R115): the lowest free collector is taken, its values zeroed; with none free the thread waits in
WAIT_VECTOR; a channel count outside 1 to 1,024 is an undefined instruction. -/
def execStatAcq (t : ThreadId) (perChannel : Bool) (channels : Nat) (decay : BitVec 8) (s : State) : Out :=
  let k := tno t
  let n := k / 512
  if canIssue s k then
    if perChannel = true ∧ (channels = 0 ∨ 1024 < channels) then .next (issueFault s k 0x7F)
    else
      match (List.range 8).find? (fun i => (coll s n i).owner.isNone) with
      | none => .next (setThrState s k 4 .collector)
      | some i => .next (advancePc (setColl s n i
          { owner := some (cluPart s n), perChannel, channels := if perChannel then channels else 1, decay := decay.toNat }) k false)
  else .next s

/-- STAT_FEED (R115): the region is queued for the collector; an unknown format, a collector nobody holds or a region past
its memory is an undefined instruction. -/
def execStatFeed (t : ThreadId) (collector : Fin 8) (fmt : Fin 16) (src : Region) (count : Nat) (tag : Fin 8) (s : State) : Out :=
  let k := tno t
  if canIssue s k then
    if !(fmt.val == 0 || fmt.val == 1 || fmt.val == 4 || fmt.val == 5 || fmt.val == 6 || fmt.val == 8 || fmt.val == 9) ||
       (coll s (k / 512) collector).owner.isNone || !regionOk src (ceilDiv (fmtBits fmt * count) 8) then
      .next (issueFault s k 0x7F)
    else .next (issueVec s k tag (.feed k collector fmt src count tag))
  else .next s

/-- One fed element (R115): its FP32 value; NaN and infinities are skipped and counted. -/
def feedElem (cn i fmt : Nat) (src : Region) (s : State) (e : Nat) : State :=
  let raw := rdElem s (regionAddr cn src) (fmtBits fmt) e
  let v := if fmt = 8 then raw else if fmt = 9 then fOfInt (toInt32 raw) else toFp32 (elemFl fmt raw)
  if nonfiniteFp32 v then addVecCounts s (cn / 64) 0 1
  else
    let c := coll s (cn / 64) i
    let ch := if c.perChannel then e % c.channels else 0
    setColl s (cn / 64) i { c with fed := tput 0 c.fed ch (max (tget 0 c.fed ch) (v % 2 ^ 31)) }

/-- A ready thread acts on a collector its partition holds; otherwise the instruction is undefined. -/
def onCollector (t : ThreadId) (i : Fin 8) (s : State) (f : State → Collector → State) : Out :=
  let k := tno t
  if canIssue s k then
    let c := coll s (k / 512) i
    if c.owner.isNone then .next (issueFault s k 0x7F) else .next (advancePc (f s c) k false)
  else .next s

/-- The committed value of a channel (R116): max(o, RNE(d * m)), d = (256 - DECAY) / 256. -/
def commitValue (decay o m : Nat) : Nat := max o (fmul (toFp32 (.fin false (256 - decay) (-8))) m)

/-- STAT_COMMIT (R116). -/
def execStatCommit (t : ThreadId) (collector : Fin 8) (s : State) : Out :=
  onCollector t collector s (fun s c =>
    setColl s t.cluster collector { c with
      kept := (List.range c.channels).foldl (fun l ch => tput 0 l ch (commitValue c.decay (tget 0 c.fed ch) (tget 0 c.kept ch))) c.kept,
      fed := [] })

/-- STAT_READ (R116): the committed values in FP32; a region past its memory faults the thread. -/
def execStatRead (t : ThreadId) (collector : Fin 8) (dst : Region) (s : State) : Out :=
  let k := tno t
  if canIssue s k && !regionOk dst (4 * (coll s t.cluster collector).channels) then .next (issueFault s k 0x7F)
  else
    onCollector t collector s (fun s c =>
      wroteRange ((List.range c.channels).foldl (fun s ch => wrElem s (regionAddr (k / 8) dst) 32 ch (tget 0 c.kept ch)) s)
        (regionAddr (k / 8) dst) (4 * c.channels))

/-- STAT_FREE (R117): the collector is released, once any feed to it that is in flight has completed. -/
def execStatFree (t : ThreadId) (collector : Fin 8) (s : State) : Out :=
  onCollector t collector s (fun s c =>
    if feedInFlight s t.cluster collector then setColl s t.cluster collector { c with freeing := true }
    else releaseColl s t.cluster collector)

/-! ### Completion (R33, R43) -/

/-- The words `n` bytes of a region of a core lie in, as (memory, core, word). -/
def regionWords (cn : Nat) (r : Region) (n : Nat) : List (Nat × Nat × Nat) :=
  if n = 0 then []
  else (List.range ((r.offset + n - 1) / 8 - r.offset / 8 + 1)).map (fun i =>
    if r.inCm then (4, 0, r.offset / 8 + i) else (1, cn % 64, r.offset / 8 + i))

/-- The words a vector operation reads: its sources, and the channel scales a conversion uses. -/
def vecReads (cn : Nat) (c : VecCmd) (e : Nat) : List (Nat × Nat × Nat) :=
  (vecSources c).flatMap (fun r => regionWords cn r (4 * c.count)) ++
    (match c.kind with
     | .convert _ _ _ =>
       if bit e 35 then ((List.range (ceilDiv c.count 2)).filter (fun i => decide (bits e 36 12 + i < 4096))).map (fun i =>
         (1, cn % 64, bits e 36 12 + i)) else []
     | _ => [])

/-- A collector whose release waits for a feed in flight is released once none is left (R117). -/
def settleFeed (s : State) (cl i : Nat) : State :=
  if (coll s cl i).freeing = true ∧ feedInFlight s cl i = false then releaseColl s cl i else s

/-- VECTOR_COMPLETE (R33): the operation at the front of the core's vector queue ends: its elements are computed and its
tag is set; a source word delivered poisoned sets the tag with the error, and its thread faults at its WAIT (R43). -/
def vectorComplete (cl : Fin 34) (c : Fin 64) (errs : List WordErr) (s : State) : State :=
  let cn := coreNo cl c
  let s := addErrs s cl errs
  match vecQueue s cn with
  | .vec k cmd e :: _ =>
    let z := readWords cl (vecReads cn cmd e) s
    if z.2 then popVec (completeTag z.1 k cmd.tag false 0x61) cn
    else
      let s := (List.range cmd.count).foldl (vecElem cn cmd e) z.1
      let s := wroteRange s (regionAddr cn cmd.dst) (ceilDiv (vecDstBits cmd * cmd.count) 8)
      popVec (completeTag s k cmd.tag true 0) cn
  | .feed k i fmt src count tag :: _ =>
    let z := readWords cl (regionWords cn src (ceilDiv (fmtBits fmt * count) 8)) s
    if z.2 then settleFeed (popVec (completeTag z.1 k tag false 0x61) cn) cl i
    else settleFeed (popVec (completeTag ((List.range count).foldl (feedElem cn i fmt src) z.1) k tag true 0) cn) cl i
  | _ => s

end Sys2Proof.Machine
end

