-- ==== Sys2Proof/Machine/Image.lean ====
section
/-!
DEFINITION. Sys2Proof/Machine/Image.lean: the pooling and resample engine (spec/04_image_operators.md R135-R148).
-/
namespace Sys2Proof.Machine
open Reg

/-- ENG (R137): a ready thread queues an engine operation; the command's AM word address must be a multiple of 4 inside
AM. -/
def execEng (t : ThreadId) (addr : Nat) (tag : Fin 8) (s : State) : Out :=
  let k := tno t
  if canIssue s k then
    if addr % 4 = 0 ∧ addr + 4 ≤ 4096 then .next (issueVec s k tag (.eng k addr tag))
    else .next (issueFault s k 0x7F)
  else .next s

/-- The fields every engine command has (R139). -/
structure EngF where
  op : Nat
  fmt : Nat
  h : Nat
  w : Nat
  c : Nat
  src : Nat
  dst : Nat
  e : Nat
  w0 : Nat
  w3 : Nat
deriving DecidableEq, Repr

def engFields (l : List Nat) : EngF :=
  let w0 := l.getD 0 0
  let w1 := l.getD 1 0
  let w2 := l.getD 2 0
  { op := bits w0 56 8, fmt := bits w0 52 4, h := bits w1 48 16, w := bits w1 32 16, c := bits w1 20 12 + 1,
    src := bits w2 44 20, dst := bits w2 24 20, e := if bits w0 52 4 = 6 then 2 else 1, w0, w3 := l.getD 3 0 }

/-- Factor of a REGROUP (R139). -/
def regroupF (f : EngF) : Nat := 2 ^ bits f.w0 48 2

/-- Bytes an engine operation writes from DST. -/
def engOutBytes (f : EngF) : Nat :=
  f.e * (if f.op = 1 then bits f.w3 16 16 * bits f.w3 0 16 * f.c
    else if f.op = 2 then bits f.w0 9 11 * (bits f.w0 44 6 + 1) * (bits f.w0 38 6 + 1) * f.c
    else if bit f.w0 51 then f.h * f.w * f.c
    else ceilDiv f.h (regroupF f) * ceilDiv f.w (regroupF f) * (regroupF f * regroupF f * f.c))

/-- R140: the operation is undefined. -/
def engUndefined (l : List Nat) : Bool :=
  let f := engFields l
  let w1 := l.getD 1 0
  let w2 := l.getD 2 0
  let rsvd := bits w1 0 20 != 0 || bits w2 0 24 != 0 ||
    (if f.op = 1 then bits f.w0 0 20 != 0
     else if f.op = 2 then bits f.w0 36 2 != 0 || bits f.w0 0 9 != 0 || bits f.w3 0 44 != 0
     else bit f.w0 50 || bits f.w0 0 48 != 0 || f.w3 != 0)
  let own :=
    if f.op = 1 then bits f.w0 50 2 == 3
    else if f.op = 2 then decide (1024 < bits f.w0 9 11) || decide (1048576 < bits f.w3 44 20 + 16 * bits f.w0 9 11) ||
      decide (bits f.w3 44 20 % 4 ≠ 0)
    else bits f.w0 48 2 == 0 ||
      (if bit f.w0 51 then decide (f.c % (regroupF f * regroupF f) ≠ 0) else decide (4096 < regroupF f * regroupF f * f.c))
  !(f.op == 1 || f.op == 2 || f.op == 3) || !(f.fmt == 0 || f.fmt == 4 || f.fmt == 5 || f.fmt == 6) || rsvd || own ||
    decide (1048576 < f.src + f.h * f.w * f.c * f.e) || decide (1048576 < f.dst + engOutBytes f) ||
    decide (f.src % f.e ≠ 0) || decide (f.dst % f.e ≠ 0)

/-- Code of source element (y, x, c) (R136). -/
def engElem (s : State) (n : Nat) (f : EngF) (y x c : Nat) : Nat :=
  rdN s (memBase n 4 0 + f.src + ((y * f.w + x) * f.c + c) * f.e) f.e

/-- Destination element `i` written. -/
def engPut (s : State) (n : Nat) (f : EngF) (i v : Nat) : State := wrN s (memBase n 4 0 + f.dst + i * f.e) f.e v

/-- The canonical NaN of a format (R88). -/
def nanCode (fmt : Nat) : Nat := if fmt = 6 then 0x7FC0 else 0x7F

/-- A result converted to FMT by RNE and written, with the vector unit's counters (R142). -/
def engConvert (s : State) (n : Nat) (f : EngF) (i v : Nat) : State :=
  let z := convertTo f.fmt false 0 (ofFp32 v)
  addVecCounts (engPut s n f i z.code) n (b2n z.sat) (b2n z.nonfinite)

/-- What the positions of POOL output (oy, ox)'s window read, in raster order (R127, R141): a constant, or the source pixel
y * W + x; nothing for a position that takes no value. -/
def poolTaps (f : EngF) (oy ox : Nat) : List TapSrc :=
  let pmode := bits f.w0 48 2
  let valid := bits f.w0 50 2 == 2
  (List.range (bits f.w0 45 3 + 1)).flatMap (fun wy => (List.range (bits f.w0 42 3 + 1)).filterMap (fun wx =>
    let iy : Int := signExt 16 (bits f.w3 48 16) + (oy * (bits f.w0 39 3 + 1) + wy : Nat)
    let ix : Int := signExt 16 (bits f.w3 32 16) + (ox * (bits f.w0 36 3 + 1) + wx : Nat)
    let inY := decide (0 ≤ iy) && decide (iy < f.h)
    let inX := decide (0 ≤ ix) && decide (ix < f.w)
    if inY && inX then some (.row (iy.toNat * f.w + ix.toNat))
    else if valid then none
    else if pmode = 0 then some (.const 0)
    else if pmode = 1 then some (.const (bits f.w0 20 16 % 2 ^ (8 * f.e)))
    else
      let y := if inY then iy else if pmode = 2 then mirror iy f.h else clampTo iy f.h
      let x := if inX then ix else if pmode = 2 then mirror ix f.w else clampTo ix f.w
      some (.row (y.toNat * f.w + x.toNat))))

/-- Code a tap reads for channel c. -/
def tapCode (s : State) (n : Nat) (f : EngF) (c : Nat) : TapSrc → Nat
  | .const v => v
  | .row p => rdN s (memBase n 4 0 + f.src + (p * f.c + c) * f.e) f.e
  | .outside => 0

/-- POOL output element (R141, R142). An average's sum is the first value and then one rounded addition per value. DESIGN
CHOICE (log entry 150): of a +0 and a −0 that are both the largest, MAX gives the first in raster order. -/
def poolElem (n : Nat) (f : EngF) (s : State) (oy ox c i : Nat) : State :=
  let vals := (poolTaps f oy ox).map (tapCode s n f c)
  let ptype := bits f.w0 50 2
  if ptype = 0 then
    let best := vals.foldl (fun (b : Option Nat) v =>
      if elemFl f.fmt v = .nan then b
      else match b with
        | none => some v
        | some u => if flLess (elemFl f.fmt u) (elemFl f.fmt v) then some v else some u) none
    let v := best.getD (nanCode f.fmt)
    addVecCounts (engPut s n f i v) n 0 (b2n (nonfiniteFp32 (toFp32 (elemFl f.fmt v))))
  else
    let sum := match vals.map (fun v => toFp32 (elemFl f.fmt v)) with
      | [] => 0
      | v :: t => t.foldl fadd v
    let count := if ptype = 1 then (bits f.w0 45 3 + 1) * (bits f.w0 42 3 + 1) else vals.length
    if count = 0 then engPut s n f i 0 else engConvert s n f i (fdiv sum (fOfInt count))

/-- POOL (R141). -/
def runPool (n : Nat) (f : EngF) (s : State) : State :=
  let ow := bits f.w3 0 16
  (List.range (bits f.w3 16 16)).foldl (fun s oy => (List.range ow).foldl (fun s ox => (List.range f.c).foldl (fun s c =>
    poolElem n f s oy ox c ((oy * ow + ox) * f.c + c)) s) s) s

/-- FP32 codes of one half and one. -/
def halfFp32 : Nat := 0x3F000000
def oneFp32 : Nat := 0x3F800000

/-- What a sample position reads (R144): the clamped pixel when EXT = 0, PCONST outside the image when EXT = 1. -/
def sampleTap (f : EngF) (y x : Int) : TapSrc :=
  let inside := decide (0 ≤ y) && decide (y < f.h) && decide (0 ≤ x) && decide (x < f.w)
  if !inside && bit f.w0 50 then .const (bits f.w0 20 16 % 2 ^ (8 * f.e))
  else .row ((clampTo y f.h).toNat * f.w + (clampTo x f.w).toNat)

/-- The sampled value of position (y, x) of channel c in FP32. -/
def sampleAt (s : State) (n : Nat) (f : EngF) (y x : Int) (c : Nat) : Nat :=
  toFp32 (elemFl f.fmt (tapCode s n f c (sampleTap f y x)))

/-- The sample coordinate of output index i (R144): a + (i + 0.5) * (b - a) / n - 0.5 with each operation rounded. -/
def sampleCoord (a b i n : Nat) : Nat :=
  fsub (fadd a (fdiv (fmul (fadd (fOfInt i) halfFp32) (fsub b a)) (fOfInt n))) halfFp32

/-- The pixels an output samples (R144): one, or the four of a bilinear sample; none where the FP32 arithmetic on finite box
coordinates gives no finite position. -/
def samplePixels (f : EngF) (sy sx : Nat) : List (Int × Int) :=
  if bit f.w0 51 then
    if nonfiniteFp32 sy || nonfiniteFp32 sx then []
    else
      let ya := flFloor (ofFp32 sy)
      let xa := flFloor (ofFp32 sx)
      [(ya, xa), (ya + 1, xa), (ya, xa + 1), (ya + 1, xa + 1)]
  else
    let ry := fadd sy halfFp32
    let rx := fadd sx halfFp32
    if nonfiniteFp32 ry || nonfiniteFp32 rx then [] else [(flFloor (ofFp32 ry), flFloor (ofFp32 rx))]

/-- RESAMPLE output element (R144). DESIGN CHOICE (log entry 150): where finite box coordinates give no finite sample position
the spec states no result, and the value is free. -/
def resampleElem (n : Nat) (f : EngF) (s : State) (sy sx c i : Nat) : State :=
  match samplePixels f sy sx with
  | [] =>
    let p := fresh s
    engConvert p.2 n f i (canonFp32 p.1)
  | [p] => engConvert s n f i (sampleAt s n f p.1 p.2 c)
  | l =>
    let v := fun i => (fun (p : Int × Int) => sampleAt s n f p.1 p.2 c) (l.getD i (0, 0))
    let fy := fsub sy (fOfInt (l.getD 0 (0, 0)).1)
    let fx := fsub sx (fOfInt (l.getD 0 (0, 0)).2)
    let gy := fsub oneFp32 fy
    let left := fadd (fmul gy (v 0)) (fmul fy (v 1))
    let right := fadd (fmul gy (v 2)) (fmul fy (v 3))
    engConvert s n f i (fadd (fmul left (fsub oneFp32 fx)) (fmul right fx))

/-- A box of the list: Y0, X0, Y1, X1 (R143), and whether a coordinate is infinite or NaN (R145). -/
structure Box where
  y0 : Nat
  x0 : Nat
  y1 : Nat
  x1 : Nat
  bad : Bool
deriving DecidableEq, Repr

def boxAt (s : State) (n : Nat) (f : EngF) (b : Nat) : Box :=
  let a := memBase n 4 0 + bits f.w3 44 20 + 16 * b
  let v := fun i => rdN s (a + 4 * i) 4
  ⟨v 0, v 1, v 2, v 3, nonfiniteFp32 (v 0) || nonfiniteFp32 (v 1) || nonfiniteFp32 (v 2) || nonfiniteFp32 (v 3)⟩

/-- Output grid of a RESAMPLE. -/
def gridH (f : EngF) : Nat := bits f.w0 44 6 + 1
def gridW (f : EngF) : Nat := bits f.w0 38 6 + 1

/-- RESAMPLE (R143-R145): a box with a non-finite coordinate writes PCONST converted to FMT, and counts once in NONFINITE. -/
def runResample (n : Nat) (f : EngF) (s : State) : State :=
  let oh := gridH f
  let ow := gridW f
  (List.range (bits f.w0 9 11)).foldl (fun s b =>
    let x := boxAt s n f b
    let s := if x.bad then addVecCounts s n 0 1 else s
    (List.range oh).foldl (fun s i => (List.range ow).foldl (fun s j => (List.range f.c).foldl (fun s c =>
      let at' := (((b * oh + i) * ow + j) * f.c + c)
      if x.bad then
        let z := convertTo f.fmt false 0 (elemFl f.fmt (bits f.w0 20 16))
        addVecCounts (engPut s n f at' z.code) n (b2n z.sat) 0
      else resampleElem n f s (sampleCoord x.y0 x.y1 i oh) (sampleCoord x.x0 x.x1 j ow) c at') s) s) s) s

/-- REGROUP (R135). -/
def runRegroup (n : Nat) (f : EngF) (s : State) : State :=
  let k := regroupF f
  if bit f.w0 51 then
    let cc := f.c / (k * k)
    (List.range (k * f.h)).foldl (fun s y => (List.range (k * f.w)).foldl (fun s x => (List.range cc).foldl (fun s c =>
      engPut s n f ((y * (k * f.w) + x) * cc + c) (engElem s n f (y / k) (x / k) ((y % k * k + x % k) * cc + c))) s) s) s
  else
    let ow := ceilDiv f.w k
    (List.range (ceilDiv f.h k)).foldl (fun s y => (List.range ow).foldl (fun s x =>
      (List.range (k * k * f.c)).foldl (fun s ch =>
        let dy := ch / f.c / k
        let dx := ch / f.c % k
        let sy := k * y + dy
        let sx := k * x + dx
        engPut s n f ((y * ow + x) * (k * k * f.c) + ch)
          (if sy < f.h ∧ sx < f.w then engElem s n f sy sx (ch % f.c) else 0)) s) s) s

/-! ### What an operation reads (R43, R148) -/

/-- Does the operation read source pixel p? -/
def readsPixel (s : State) (n : Nat) (f : EngF) (p : Nat) : Bool :=
  if f.op = 1 then
    (List.range (bits f.w3 16 16)).any (fun oy => (List.range (bits f.w3 0 16)).any (fun ox => (poolTaps f oy ox).contains (.row p)))
  else if f.op = 2 then
    (List.range (bits f.w0 9 11)).any (fun b =>
      let x := boxAt s n f b
      !x.bad && (List.range (gridH f)).any (fun i => (List.range (gridW f)).any (fun j =>
        (samplePixels f (sampleCoord x.y0 x.y1 i (gridH f)) (sampleCoord x.x0 x.x1 j (gridW f))).any (fun q =>
          sampleTap f q.1 q.2 == .row p))))
  else true

/-- Does the operation read CM word w: of its box list, or of a source pixel it takes? -/
def readsWord (s : State) (n : Nat) (f : EngF) (w : Nat) : Bool :=
  (f.op == 2 && decide (bits f.w3 44 20 < 8 * w + 8) && decide (8 * w < bits f.w3 44 20 + 16 * bits f.w0 9 11)) ||
  (decide (f.src < 8 * w + 8) && decide (8 * w < f.src + f.h * f.w * f.c * f.e) &&
    (List.range 8).any (fun i => decide (f.src ≤ 8 * w + i) && decide (8 * w + i < f.src + f.h * f.w * f.c * f.e) &&
      readsPixel s n f ((8 * w + i - f.src) / (f.c * f.e))))

/-- The CM words with an error that the operation reads, box list first, ascending; each counts once. -/
def engBadWords (s : State) (n : Nat) (f : EngF) : List (Nat × Nat × Nat) :=
  let base := memBase n 4 0 / 8
  let l := (s.poison ++ s.upsets.map Prod.fst).filter (fun w => decide (base ≤ w) && decide (w < base + 131072))
  (((l.foldl (fun t w => tset (w - base) () t) []).map Prod.fst).filter (readsWord s n f)).map (fun w => (4, 0, w))

/-- The core whose queue the engine serves next (R137): in round-robin order after the one it served last, the first with an
engine operation at the front of its vector queue. -/
def nextEng (s : State) (cl : Nat) : Option Nat :=
  ((List.range 64).map (fun i => ((clu s cl).lastEng + 1 + i) % 64)).find? (fun c =>
    match vecQueue s (coreNo cl c) with
    | .eng _ _ _ :: _ => true
    | _ => false)

/-- ENGINE_OP_START (R137, R138, R145): an idle engine takes the engine operation at the front of the named core's vector
queue, when it is that core's turn; it reads the command and loads the configuration it needs; a RESAMPLE without boxes sets
its tag at once. -/
def engineStart (cl : Fin 34) (c : Fin 64) (errs : List WordErr) (s : State) : State :=
  let cn := coreNo cl c
  let s := addErrs s cl errs
  match (clu s cl).engine, vecQueue s cn with
  | none, .eng k addr tag :: _ =>
    if nextEng s cl ≠ some c.val then s
    else
      let z := readWords cl ((List.range 4).map (fun i => (1, c.val, addr + i))) s
      let s := setClu z.1 cl { clu z.1 cl with lastEng := c }
      if z.2 then popVec (completeTag s k tag false 0x61) cn
      else
        let words := (List.range 4).map (fun i => rdWord s cl 1 c (addr + i))
        let f := engFields words
        let u := clu s cl
        let load := if f.op = 2 then true else if f.op = 1 then false else u.resampleLoaded
        if engUndefined words = false ∧ f.op = 2 ∧ bits f.w0 9 11 = 0 then
          popVec (completeTag (setClu s cl { u with resampleLoaded := load }) k tag true 0) cn
        else setClu s cl { u with resampleLoaded := load, engine := some ⟨c, k, tag, words⟩ }
  | _, _ => s

/-- ENGINE_OP_COMPLETE (R137, R140-R145, R148): the executing operation writes its results and sets its tag; an undefined
operation or a source word delivered poisoned faults the issuing thread at its WAIT; results of an overlap of DST and SRC
are undefined. -/
def engineComplete (cl : Fin 34) (errs : List WordErr) (s : State) : State :=
  let s := addErrs s cl errs
  let u := clu s cl
  match u.engine with
  | none => s
  | some o =>
    let cn := coreNo cl o.core
    let f := engFields o.words
    let dst := memBase cl 4 0 + f.dst
    let s := setClu s cl { u with engine := none }
    if engUndefined o.words then popVec (completeTag s o.thread o.tag false 0x7F) cn
    else
      let z := readWords cl (engBadWords s cl f) s
      if z.2 then popVec (completeTag z.1 o.thread o.tag false 0x61) cn
      else
        let s := z.1
        let s :=
          if f.src < f.dst + engOutBytes f ∧ f.dst < f.src + f.h * f.w * f.c * f.e then
            let p := fresh s
            let a := fresh p.2
            let b := fresh a.2
            addVecCounts (wrN b.2 dst (engOutBytes f) p.1) cl a.1 b.1
          else if f.op = 1 then runPool cl f s
          else if f.op = 2 then runResample cl f s
          else runRegroup cl f s
        popVec (completeTag (wroteRange s dst (engOutBytes f)) o.thread o.tag true 0) cn

end Sys2Proof.Machine
end

