-- ==== Sys2Proof/Machine/Cluster.lean ====
section
/-!
DEFINITION. Sys2Proof/Machine/Cluster.lean: threads, scrubbers and cluster registers (spec/01_clusters_cores_threads.md), and
the completions of the array, the vector unit and the engine, after which a cluster may have to be retired (R18).
-/
namespace Sys2Proof.Machine
open Reg

/-! ### Array instructions and completions of the core's units -/

/-- A command at a core of cluster `n` whose reads find the stored errors an operand names; the cluster is retired when a
condition of R18 is met. -/
def checked (n : Nat) (errs : List WordErr) (f : State → State) (s : State) : Out := .next (settleDoomed (f (addErrs s n errs)) n)

/-- MATMUL (R66). -/
def execMatmul (t : ThreadId) (word : BitVec 120) (s : State) : Out :=
  checked t.cluster [] (fun s => issueArray s (tno t) (word.toNat + 0x20 * 2 ^ 120)) s

/-- CONV (R130); `errs`: errors in the window descriptor it reads when it starts (R126). -/
def execConv (t : ThreadId) (word : BitVec 120) (errs : List WordErr) (s : State) : Out :=
  checked t.cluster errs (fun s => issueArray s (tno t) (word.toNat + 0x21 * 2 ^ 120)) s

/-- STREAM (R70). -/
def execStream (t : ThreadId) (word : BitVec 120) (errs : List WordErr) (s : State) : Out :=
  checked t.cluster errs (fun s => issueArray s (tno t) (word.toNat + 0x22 * 2 ^ 120)) s

/-- ARR_CREDIT (R71). -/
def execArrCredit (t : ThreadId) (output : Bool) (n : Nat) (errs : List WordErr) (s : State) : Out :=
  checked t.cluster errs (fun s =>
    if canIssue s (tno t) then addCredit (advancePc s (tno t) false) (tno t / 8) output n else s) s

/-- SETQ (R43, R107). -/
def execSetq (t : ThreadId) (entry : Fin 64) (addr : Fin 4096) (ecc : Ecc) (s : State) : Out :=
  checked t.cluster [] (setq t entry addr ecc) s

/-- ARRAY_INSTRUCTION_COMPLETE (R65, R66, R130). -/
def execArrayInstructionComplete (cl : Fin 34) (c : Fin 64) (errs : List WordErr) (s : State) : Out :=
  checked cl [] (arrayComplete cl c errs) s

/-- STREAM_END (R72). -/
def execStreamEnd (cl : Fin 34) (c : Fin 64) (stopped : Bool) (errs : List WordErr) (s : State) : Out :=
  checked cl errs (streamEnd cl c stopped) s

/-- ARRAY_STALL (R73-R76). -/
def execArrayStall (cl : Fin 34) (c : Fin 64) (links : List (Fin 16)) (s : State) : Out := checked cl [] (arrayStall cl c links) s

/-- FREEZE_END (R75, R76). -/
def execFreezeEnd (cl : Fin 34) (c : Fin 64) (s : State) : Out := checked cl [] (freezeEnd cl c) s

/-- The cluster goes IDLE, and on into INIT where its partition is gone (R28, R148). -/
def settleUnits (n : Nat) (s : State) : State := settleInit (settleCluster s n) n

/-- VECTOR_COMPLETE (R33, R43). -/
def execVectorComplete (cl : Fin 34) (c : Fin 64) (errs : List WordErr) (s : State) : Out :=
  checked cl [] (fun s => settleUnits cl (vectorComplete cl c errs s)) s

/-- ENGINE_OP_START (R137, R138, R145). -/
def execEngineOpStart (cl : Fin 34) (c : Fin 64) (errs : List WordErr) (s : State) : Out :=
  checked cl [] (fun s => settleUnits cl (engineStart cl c errs s)) s

/-- ENGINE_OP_COMPLETE (R137, R140-R145, R148). -/
def execEngineOpComplete (cl : Fin 34) (errs : List WordErr) (s : State) : Out :=
  checked cl [] (fun s => settleUnits cl (engineComplete cl errs s)) s

/-! ### Scalar instructions, loads and stores (R31, R36, R41-R43) -/

/-- A general register written (R30). -/
def setG (s : State) (k r : Nat) (v : BitVec 32) : State := setThr s k { thr s k with g := tput 0 (thr s k).g r v }

/-- SCALAR_OP (R31, R36): a ready thread writes a register or branches; an undefined instruction faults it. -/
def execScalarOp (t : ThreadId) (op : ScalarCmd) (s : State) : Out :=
  let k := tno t
  if canIssue s k then
    match op with
    | .set r v => .next (advancePc (setG s k r v) k false)
    | .branch a => .next (setThr (noteIssue s k) k { thr s k with pc := a.toNat })
    | .undefined => .next (settleDoomed (issueFault s k 0x7F) t.cluster)
  else .next s

/-- Does an access of a thread lie inside a scratchpad it may name (R29, R36)? -/
def accessOk (m : CoreMem) (addr len : Nat) (write : Bool) : Bool :=
  decide (addr + len ≤ memSize (memNo m)) && decide (0 < len) && (if write then m == .am || m == .pm else m != .im)

/-- First and last word of an access. -/
def wordsOf (addr len : Nat) : List Nat := (List.range ((addr + len - 1) / 8 - addr / 8 + 1)).map (fun i => addr / 8 + i)

/-- The register after a load of `len` bytes: the bytes loaded; register bits the load does not name are free (log entry 1). -/
def loadValue (s : State) (a len : Nat) : BitVec 32 × State :=
  if len = 4 then (BitVec.ofNat 32 (rdN s a 4), s)
  else
    let p := fresh s
    (BitVec.ofNat 32 (rdN s a (min len 4) + p.1 * 2 ^ (8 * len)), p.2)

/-- THREAD_LOAD (R29, R36, R41, R43, R52): each word of the access is read; a corrected one is delivered and counted, a poisoned
or uncorrectable one faults the thread. `ecc`: an error in the first word. -/
def execThreadLoad (t : ThreadId) (m : CoreMem) (addr len : Nat) (r : Fin 32) (ecc : Ecc) (s : State) : Out :=
  let k := tno t
  let mem := memNo m
  if !canIssue s k then .next s
  else if !accessOk m addr len false then .next (settleDoomed (issueFault s k 0x7F) t.cluster)
  else
    let base := memBase t.cluster mem t.core
    let z := readWords t.cluster ((wordsOf addr len).map (fun w => (mem, t.core.val, w))) (addEcc s (base + addr) ecc)
    if z.2 then .next (settleDoomed (threadFault (noteIssue z.1 k) k 0x61 true) t.cluster)
    else
      let v := loadValue z.1 (base + addr) len
      .next (settleDoomed (advancePc (setG v.2 k r v.1) k false) t.cluster)

/-- The bytes a store writes: the register's; past its 32 bits they are free (log entry 1). -/
def storeValue (s : State) (v : BitVec 32) (len : Nat) : Nat × State :=
  if len ≤ 4 then (v.toNat % 2 ^ (8 * len), s)
  else
    let p := fresh s
    (v.toNat + p.1 * 2 ^ 32, p.2)

/-- THREAD_STORE (R29, R36, R42, R45): a full word clears its poison; a shorter store reads, corrects and merges, and where its
read finds an uncorrectable error it writes its bytes and leaves the word poisoned. `ecc`: an error in the first word. -/
def execThreadStore (t : ThreadId) (m : CoreMem) (addr len : Nat) (r : Fin 32) (ecc : Ecc) (s : State) : Out :=
  let k := tno t
  let mem := memNo m
  if !canIssue s k then .next s
  else if !accessOk m addr len true then .next (settleDoomed (issueFault s k 0x7F) t.cluster)
  else
    let a := memBase t.cluster mem t.core + addr
    let v := storeValue (addEcc s a ecc) (tget 0 (thr s k).g r) len
    .next (settleDoomed (advancePc (wroteRange (wrN v.2 a len v.1) a len) k false) t.cluster)

/-! ### Sync instructions (R30, R34, R35) -/

/-- A ready thread whose next WAIT or barrier must fault, because another thread of its unit faulted while it waited at a
barrier (R35): it faults at the instruction it issues. -/
def dueFault (s : State) (k : Nat) : Out := .next (settleDoomed (issueFault s k 0x7F) (k / 512))

/-- WAIT (R34): the thread goes on when the tag is set, faults when it carries an error or a fault is due (R35), and waits
otherwise. A poisoned word was reported where it was read (R43, R473). -/
def execWait (t : ThreadId) (tag : Fin 8) (s : State) : Out :=
  let k := tno t
  if !canIssue s k then .next s
  else if (thr s k).faultDue then dueFault s k
  else
    match tagOf s k tag with
    | .done => .next (advancePc s k false)
    | .error st => .next (settleDoomed (threadFault (noteIssue s k) k st (st == 0x61)) t.cluster)
    | .pendVector => .next (setThrState (advancePc s k false) k 4 (.tag tag))
    | _ => .next (setThrState (advancePc s k false) k 2 (.tag tag))

/-- CORE_BARRIER (R35). -/
def execCoreBarrier (t : ThreadId) (s : State) : Out :=
  let k := tno t
  if !canIssue s k then .next s
  else if (thr s k).faultDue then dueFault s k
  else .next (settleCoreBarrier (setThrState (advancePc s k false) k 5 .coreBarrier) (k / 8))

/-- Cores of a cluster that have reached a barrier counter: those with a thread that waits there (R35). -/
def arrivedCores (s : State) (n counter : Nat) : Nat :=
  ((List.range 64).filter (fun c => (List.range 8).any (fun i => (thr s (coreNo n c * 8 + i)).wait == .clusterBarrier counter))).length

/-- CLUSTER_BARRIER (R35): the core arrives at a counter; the named number of cores releases all that wait there. -/
def execClusterBarrier (t : ThreadId) (counter : Fin 16) (cores : Nat) (s : State) : Out :=
  let k := tno t
  let n := t.cluster.val
  if !canIssue s k then .next s
  else if (thr s k).faultDue then dueFault s k
  else
    let s := setThrState (advancePc s k false) k 5 (.clusterBarrier counter)
    if cores ≤ arrivedCores s n counter then .next ((List.range 64).foldl (fun s c => wakeCore s (coreNo n c) (.clusterBarrier counter)) s)
    else .next s

/-- END (R30): the thread stops; the last thread of its work unit ends the work unit (R27). -/
def execThreadEnd (t : ThreadId) (s : State) : Out :=
  let k := tno t
  if !canIssue s k then .next s
  else
    let s := settleCoreBarrier (setThrState (noteIssue s k) k 0 .none) (k / 8)
    match (thr s k).unit with
    | some u => .next (settleInit (endUnit s u) t.cluster)
    | none => .next s

/-! ### Scrubbing (R44, R45, R54) -/

/-- One scrub read (R44, R45): an uncorrectable error marks the word poisoned and the scrubber advances; a correctable one waits
for its write-back. -/
def scrubRead (s : State) (n mem c b : Nat) (ecc : Ecc) : State :=
  let w := (tget {} (clu s n).scrub (bankKey mem c b)).next * memBanks mem + b
  let a := memBase n mem c + 8 * w
  let s := addEcc s a ecc
  let x := upset s a
  let z := readWord s n mem c w
  if z.2 then settleDoomed (scrubAdvance (setPoison z.1 a) n mem c b) n
  else if x.isSome then
    let u := clu z.1 n
    let y := tget {} u.scrub (bankKey mem c b)
    settleDoomed (setClu z.1 n { u with scrub := tput {} u.scrub (bankKey mem c b) { y with writeBack := some w } }) n
  else scrubAdvance z.1 n mem c b

/-- The write-back of a corrected word (R45): the word has good check bits, and the scrubber advances. -/
def scrubWrites (s : State) (n mem c b w : Nat) : State := scrubAdvance (dropUpset s (memBase n mem c + 8 * w)) n mem c b

/-- Is the bank one the cluster has, in a cluster that is scrubbed (R46)? -/
def scrubbed (s : State) (b : BankId) : Bool :=
  decide (b.bank.val < memBanks b.mem) && rd s (CLU_STAT_STATE b.cluster) != 0 && rd s (CLU_STAT_STATE b.cluster) != 5

/-- A bank's scrubber. -/
def scrubber (s : State) (b : BankId) : Scrubber := tget {} (clu s b.cluster).scrub (bankKey b.mem b.core b.bank)

/-- SCRUB_READ (R44): no read while a corrected word waits for its write-back (R45). -/
def execScrubRead (b : BankId) (ecc : Ecc) (s : State) : Out :=
  if scrubbed s b && (scrubber s b).writeBack.isNone then .next (scrubRead s b.cluster b.mem b.core b.bank ecc) else .next s

/-- The forced interval of a cluster in ticks (R44): FORCE_INT times 100 us; 0 and 11 to 15 act as 10. -/
def forcedInterval (s : State) (n : Nat) : Nat :=
  let v := rd s (CLU_SCRUB_CFG_FORCE_INT n)
  10000 * (if v = 0 ∨ 10 < v then 10 else v)

/-- Has a bank's scrubber not advanced for one forced interval of device time (R44)? Before its first advance the time since the
cluster's INIT counts. -/
def forcedDue (s : State) (b : BankId) : Bool :=
  decide (max (scrubber s b).last (if (scrubber s b).last = 0 then (clu s b.cluster).lastSweep else 0) +
    forcedInterval s b.cluster ≤ s.time)

/-- FORCED_SCRUB_SLOT (R44, R45): a slot that is due takes a waiting write-back, or reads a word. -/
def execForcedScrubSlot (b : BankId) (ecc : Ecc) (s : State) : Out :=
  if scrubbed s b && forcedDue s b then
    match (scrubber s b).writeBack with
    | some w => .next (scrubWrites s b.cluster b.mem b.core b.bank w)
    | none => .next (scrubRead s b.cluster b.mem b.core b.bank ecc)
  else .next s

/-- SCRUB_WRITE_BACK (R45): the corrected word is written and the scrubber advances. -/
def execScrubWriteBack (b : BankId) (s : State) : Out :=
  if scrubbed s b then
    match (scrubber s b).writeBack with
    | some w => .next (scrubWrites s b.cluster b.mem b.core b.bank w)
    | none => .next s
  else .next s

/-! ### Cluster states and registers (R27, R49-R55) -/

/-- CLUSTER_POWER_GOOD (R27): an INIT that waits for power takes the cluster into INIT. -/
def execClusterPowerGood (cl : Fin 34) (s : State) : Out :=
  if rd s (CLU_STAT_STATE cl) = 0 ∧ isSet s (CLU_CTRL_POWER cl) = true then
    let s := setClu s cl { clu s cl with powerGood := true }
    if (clu s cl).initPend then .next (enterInit s cl) else .next s
  else .next s

/-- QUIESCE_TIMEOUT (R18, R27): a cluster still QUIESCING is retired. -/
def execQuiesceTimeout (cl : Fin 34) (s : State) : Out :=
  if rd s (CLU_STAT_STATE cl) = 4 then .next (retireCluster s cl 0) else .next s

/-- CLU_MAP_WRITE (R50). -/
def cluMapWrite (s : State) (n v : Nat) : State :=
  let l := bits v 0 5
  let clash := bit v 8 && (List.range 34).any (fun m => m != n && isSet s (CLU_MAP_MAPPED m) && rd s (CLU_MAP_LOGICAL m) == l)
  if rd s (CLU_STAT_STATE n) = 2 ∧ clash = false then
    wr (wr (wr s (CLU_MAP_LOGICAL n) l) (CLU_MAP_MAPPED n) (bits v 8 1)) (CLU_MAP_PART n) (bits v 16 4)
  else wr s (CLU_STAT_MAP_REJ n) 1

/-- CLU_MAP_WRITE (R50). -/
def execCluMapWrite (cl : Fin 34) (value : BitVec 32) (s : State) : Out := .next (cluMapWrite s cl value.toNat)

/-- CLU_CTRL.POWER written (R27, R51). -/
def cluPower (s : State) (n : Nat) (on : Bool) : State :=
  let st := rd s (CLU_STAT_STATE n)
  if on then (if st = 5 then wr s (CLU_STAT_CTRL_REJ n) 1 else wr s (CLU_CTRL_POWER n) 1)
  else if st = 0 ∨ st = 2 then gateCluster s n
  else wr s (CLU_STAT_CTRL_REJ n) 1

/-- CLU_CTRL.INIT set (R27, R51). -/
def cluInit (s : State) (n : Nat) : State :=
  let st := rd s (CLU_STAT_STATE n)
  if st = 2 ∨ (st = 0 ∧ (clu s n).powerGood = true) then enterInit s n
  else if st = 0 ∧ isSet s (CLU_CTRL_POWER n) = true then setClu (wr s (CLU_CTRL_INIT n) 1) n { clu s n with initPend := true }
  else wr s (CLU_STAT_CTRL_REJ n) 1

/-- CLU_CTRL.QUIESCE set (R27, R51): the cluster is QUIESCING until no work unit is left on it. -/
def cluQuiesce (s : State) (n : Nat) : State :=
  let st := rd s (CLU_STAT_STATE n)
  if st = 2 ∨ st = 3 then settleCluster (wr (wr s (CLU_STAT_STATE n) 4) (CLU_CTRL_QUIESCE n) 1) n
  else wr s (CLU_STAT_CTRL_REJ n) 1

/-- CLU_CTRL_POWER (R27, R51). -/
def execCluCtrlPower (cl : Fin 34) (on : Bool) (s : State) : Out := .next (cluPower s cl on)

/-- CLU_CTRL_INIT (R27, R51). -/
def execCluCtrlInit (cl : Fin 34) (s : State) : Out := .next (cluInit s cl)

/-- CLU_CTRL_QUIESCE (R27, R51). -/
def execCluCtrlQuiesce (cl : Fin 34) (s : State) : Out := .next (cluQuiesce s cl)

/-- CLU_CTRL_RETIRE (R51): accepted in every state. -/
def execCluCtrlRetire (cl : Fin 34) (s : State) : Out := .next (retireCluster s cl 0)

/-- CLU_ECC_CNT_READ (R52): both counts are returned and clear. -/
def execCluEccCntRead (cl : Fin 34) (m : Fin 5) (s : State) : Out :=
  .next (emit (wr (wr s (CLU_ECC_CNT_UE cl m) 0) (CLU_ECC_CNT_CE cl m) 0)
    (.value (rd s (CLU_ECC_CNT_UE cl m) * 2 ^ 16 + rd s (CLU_ECC_CNT_CE cl m))))

/-- CLU_DMA_STAT_READ (R10, R49): the register is returned and ERR_CNT clears. -/
def execCluDmaStatRead (cl : Fin 34) (s : State) : Out :=
  .next (emit (wr s (CLU_DMA_STAT_ERR_CNT cl) 0)
    (.value (rd s (CLU_DMA_STAT_ACTIVE_Q cl) * 2 ^ 16 + rd s (CLU_DMA_STAT_ERR_CNT cl) * 2 ^ 8 + rd s (CLU_DMA_STAT_BUSY cl))))

end Sys2Proof.Machine
end

