-- ==== Sys2Proof/Machine/Moves.lean ====
section
/-!
DEFINITION. Sys2Proof/Machine/Moves.lean: moves, their segments and ends, the tensor packets, DRAM training, the granule
table (spec/08_memory_tiers.md, spec/01 R33, R43, R48).
-/
namespace Sys2Proof.Machine
open Reg

/-! ### Issuing a move (R33, R252) -/

/-- The flash pages a move reads are asked of their dies (R259, R294). -/
def askFlash (s : State) (cl : Nat) (m : Move) : State :=
  if m.desc.srcTier = 3 ∧ isFill m.desc = false then
    match moveEnds s cl m, slotAt s m.desc.src with
    | some e, some x =>
      let first := (e.1.base - x.2.base) / 16384
      let last := (e.1.base - x.2.base + needSrc m.desc - 1) / 16384
      let l := setChans x.2.set
      (List.range (last - first + 1)).foldl (fun s i => enqueueDie s (l.getD ((first + i) % l.length) 0) .read) s
    | _, _ => s
  else s

/-- MOVE (R31, R33, R34, R252): the move enters the core's queue and its tag awaits it; with 8 moves queued the thread
waits. -/
def execMoveOp (t : ThreadId) (d : Desc) (tag : Fin 8) (s : State) : Out :=
  let k := tno t
  let n := t.cluster.val
  if !canIssue s k then .next s
  else if 8 ≤ (moveQueue s n t.core).length then .next (setThrState s k 2 .moveQueue)
  else
    let m : Move := { desc := d, owner := .thread k tag }
    .next (askFlash (queueMove (setTag (advancePc s k false) k tag .pendMove) n t.core m) n m)

/-! ### Segments (R41, R43, R48, R250, R262) -/

/-- DRAM channel of a T2 offset (R258). -/
def dramChannel (off : Nat) : Nat :=
  let x := fun i => bits off (4 * i) 4
  ((((((x 2 ^^^ x 3) ^^^ x 4) ^^^ x 5) ^^^ x 6) ^^^ x 7) ^^^ x 8)

/-- A link ECC event captured (R287). -/
def leccCapture (s : State) (off : Nat) (ue : Bool) : State :=
  let s := wr s (if ue then MEM_EVT_STAT_LECC_UE else MEM_EVT_STAT_LECC_CE) 1
  if !isSet s MEM_LECC_LAST_VALID || (ue && !isSet s MEM_LECC_LAST_UE) then
    wr (wr (wr (wr s MEM_LECC_LAST_VALID 1) MEM_LECC_LAST_UE (b2n ue)) MEM_LECC_LAST_CH (dramChannel off)) MEM_LECC_LAST_ADDR (bits off 9 26)
  else s

/-- What the memory system found in a segment's reads (R43, R52, R262): the state and whether the data is poisoned. An error of
a cluster memory is one stored in its word. `p`: the partition the report names. -/
def segEvent (s : State) (p : Nat) : SegEvent → State × Bool
  | .ok => (s, false)
  | .sram b w ue => (addErrs s b.cluster [⟨b.mem, b.core, w * memBanks b.mem + b.bank, ue⟩], false)
  | .linkCorrected off =>
    let s := leccCapture (bump (bump s MEM_LECC_CNT_CE 1) (MEM_CH_STAT_CE (dramChannel off)) 1) off false
    (report s 34 clsCorrected 0 p 0xFF 0, false)
  | .retryPassed _ => (report (bump s MEM_LECC_CNT_RETRY 1) 34 clsCorrected 0 p 0xFF 0, false)
  | .retryFailed off =>
    let s := leccCapture (bump (bump s MEM_LECC_CNT_RETRY 1) MEM_LECC_CNT_UE 1) off true
    (report s 34 clsContained 0x61 p (dramChannel off)
      (2 ^ 31 + 2 ^ 30 + rd s MEM_LECC_LAST_CH * 2 ^ 26 + rd s MEM_LECC_LAST_ADDR), true)
  | .flashPoison => (s, true)

/-- Does the move touch a granule that is being filled (R251)? -/
def moveWaits (s : State) (d : Desc) (src dst : Ep) : Bool :=
  let side := fun (e : Ep) (n : Nat) => !e.host && isT2 e.base &&
    s.dram.fills.any (fun g => decide (granOf e.base ≤ g) && decide (g ≤ granOf (e.base + n - 1)))
  (!isFill d && side src (max 1 (needSrc d))) || side dst (max 1 (needDst d))

/-- The front move with its error noted. -/
def noteErr (s : State) (cl q status : Nat) : State :=
  match moveQueue s cl q with
  | [] => s
  | m :: t => setMoveQueue s cl q ({ m with err := status } :: t)

/-- The front move with one more segment done, and the bytes it read. -/
def noteSeg (s : State) (cl q : Nat) (got : List Byte) : State :=
  match moveQueue s cl q with
  | [] => s
  | m :: t => setMoveQueue s cl q ({ m with segs := m.segs + 1, got := m.got ++ got } :: t)

/-- Can the engine serve a segment of the front move of a queue (R48, R251): segments are left, and no granule it touches is
being filled? -/
def servable (s : State) (cl q : Nat) : Bool :=
  match moveQueue s cl q with
  | [] => false
  | m :: _ =>
    m.err == 0 &&
      (match moveEnds s cl m with
       | some e => decide (m.segs < moveSegs s m.desc e.1) && !moveWaits s m.desc e.1 e.2
       | none => true)

/-- The queue the engine serves next (R48): in round-robin order after the one it served last. -/
def nextQueue (s : State) (cl : Nat) : Option Nat :=
  ((List.range 68).map (fun i => ((clu s cl).lastQueue + 1 + i) % 68)).find? (servable s cl)

/-- One segment of the front move served (R48): its checks at the first segment, the memory's events, then its bytes are read;
a word delivered poisoned is the move's error (R43). -/
def segmentDone (s : State) (cl q : Nat) (ev : SegEvent) : State :=
  match moveQueue s cl q with
  | [] => s
  | m :: _ =>
    let x := moveParty s cl m
    match moveCheck s cl x.1 x.2.1 m.desc x.2.2, moveEnds s cl m with
    | some st, _ => noteErr s cl q st
    | none, none => noteErr s cl q 0x21
    | none, some e =>
      match moveRefused s (moveRequester s cl m) m.desc e.1 e.2 with
      | some g => noteErr (refuseAccess s (moveRequester s cl m) g.1 g.2) cl q (kindStatus g.2)
      | none =>
        let lo := 4096 * m.segs
        let n := min 4096 (rawBytes s e.1 m.desc - lo)
        let z := segEvent s (x.1.getD 0xFF) ev
        let r := if z.2 then (z.1, true) else readBytes (sourceAddrs m.desc e.1 lo n) z.1
        if r.2 then noteErr r.1 cl q 0x61
        else noteSeg r.1 cl q (if plainMove m.desc then segmentBytes s m.desc e.1 lo n else [])

/-- DMA_SEGMENT_DONE (R48): a segment of the queue's front move, when it is the queue's turn. -/
def execDmaSegmentDone (cl : Fin 34) (q : Fin 68) (ev : SegEvent) (s : State) : Out :=
  if nextQueue s cl = some q.val then .next (settleAllDoomed (segmentDone (setClu s cl { clu s cl with lastQueue := q }) cl q ev))
  else .next s

/-- MOVE_COMPLETE (R34, R254): the front move is whole once its segments are done and its destination is written, or ends with
the error it met. -/
def execMoveComplete (cl : Fin 34) (q : Fin 68) (s : State) : Out :=
  match moveQueue s cl q with
  | [] => .next s
  | m :: _ =>
    if m.err ≠ 0 then .next (settleDoomed (failMove s cl q m.err) cl)
    else
      match moveAllowed s cl m with
      | none => .next (settleDoomed (failMove s cl q 0x21) cl)
      | some e =>
        if m.segs < moveSegs s m.desc e.1 then .next s
        else if plainMove m.desc then .next (settleAllDoomed (finishMove (writePlain s m.desc e.2 m.got) cl q))
        else
          let z := moveData s m.desc e.1 e.2
          .next (settleAllDoomed (if z.2 = 0 then finishMove z.1 cl q else failMove z.1 cl q z.2))

/-- Root domain of the slowest endpoint of a move (R479). -/
def slowDomain (cl : Nat) (d : Desc) : Nat :=
  let has := fun t => (!isFill d && d.srcTier == t) || d.dstTier == t
  if has 4 then 39 else if has 3 then 35 else if has 2 then 34 else cl

/-- MOVE_TIMEOUT (R479): 50 ms without a segment end the front move with INTERNAL; the elapsed time is the sender's claim. -/
def execMoveTimeout (cl : Fin 34) (q : Fin 68) (s : State) : Out :=
  match moveQueue s cl q with
  | [] => .next s
  | m :: _ =>
    let s := report s (slowDomain cl m.desc) clsContained 0x7F ((moveParty s cl m).1.getD 0xFF) 0xFF 0
    .next (failMove s cl q 0x7F)

/-! ### Tensor packets (R412, R413) -/

/-- May a packet carry this descriptor (R413)? -/
def hostDescOk (d : Desc) : Bool :=
  (isFill d || d.srcTier == 2 || d.srcTier == 4) && (d.dstTier == 2 || d.dstTier == 4) && d.comp == 0

/-- A packet's move: refused before data moves, or queued in a Plinth queue of the partition's lowest cluster (log entry 22); a
partition without a cluster has no engine to move with (R47), and the packet completes with NO_CAPACITY. -/
def tensorAct (d : Desc) (ok : Bool) (c : Cmd) (s : State) : State :=
  if !ok || !hostDescOk d then complete s c 0x21 {}
  else
    match (List.range 34).find? (fun n => cluPart s n == c.part) with
    | none => complete s c 0x31 {}
    | some n =>
      match moveCheck s n (some c.part) c.fn d true with
      | some st => complete s c st {}
      | none => queuePlinth s n { desc := d, owner := .packet c }

/-- TENSOR_MOVE (R412, R413). -/
def execTensorMove (h : Pkt) (d : Desc) (s : State) : Out := .next (withPkt s h 0x40 0 .owned false (tensorAct d true))

/-- TENSOR_FILL (R412, R413): XFORM must be FILL. -/
def execTensorFill (h : Pkt) (d : Desc) (s : State) : Out := .next (withPkt s h 0x41 0 .owned false (tensorAct d (isFill d)))

/-! ### DRAM (R260-R262, R284-R287) -/

/-- Is a MEM_CFG value a configuration of R260? -/
def memCfgOk (v : Nat) : Bool :=
  let rate := bits v 20 4
  (if bit v 16 then decide (3 ≤ rate) && decide (rate ≤ 5) else decide (rate ≤ 3)) && !(bit v 17 && bit v 18)

/-- MEM_CFG written (R284). -/
def memCfgWrite (s : State) (v : Nat) : State :=
  if isSet s MEM_STAT_READY = false ∧ isSet s MEM_CFG_START = false ∧ memCfgOk v = true then
    let s := wr (wr (wr (wr s MEM_CFG_RATE (bits v 20 4)) MEM_CFG_RANKS (bits v 18 1)) MEM_CFG_DENS (bits v 17 1)) MEM_CFG_TYPE (bits v 16 1)
    if bit v 0 then wr s MEM_CFG_START 1 else s
  else wr s MEM_STAT_CFG_REJ 1

/-- MEM_CFG_START (R284). -/
def execMemCfgStart (value : BitVec 32) (s : State) : Out := .next (memCfgWrite s value.toNat)

/-- The training that runs ends (R261, R284): READY and the size, or TRAIN_FAIL when a channel failed. -/
def trainDone (s : State) (trained : Nat) : State :=
  if isSet s MEM_CFG_START then
    let s := (List.range 16).foldl (fun s c => wr s (MEM_CH_STAT_TRAINED c) (bits trained c 1)) (wr s MEM_CFG_START 0)
    if trained = 65535 then
      wr (wr s MEM_STAT_READY 1) MEM_STAT_SIZE (16 * (rd s MEM_CFG_DENS + 1) * (rd s MEM_CFG_RANKS + 1))
    else wr s MEM_STAT_TRAIN_FAIL 1
  else s

/-- DRAM_TRAINING_DONE (R261, R284). -/
def execDramTrainingDone (trained : BitVec 16) (s : State) : Out := .next (trainDone s trained.toNat)

/-- MEM_GTAB_DATA written at the index (R251, R286). -/
def gtabWrite (s : State) (v : Nat) : State :=
  let g := rd s MEM_GTAB_IDX_GRAN
  let old := gEntry s g
  let new := bits v 0 5 + bits v 8 8 * 256
  let z := bit v 16
  let owner := fun e => (gPart e, gSlot e, gDisp e, gPln e)
  if granCount s ≤ g ∨ (gDisp new && gPln new) = true ∨ (gV old && !z && owner old != owner new) = true ∨
     (z && !s.dram.fills.isEmpty) = true then wr s MEM_STAT_GTAB_REJ 1
  else
    let s := setGran s g new
    if z then { s with dram := { s.dram with fills := [g] } } else s

/-- MEM_GTAB_DATA_WRITE (R286). -/
def execMemGtabDataWrite (value : BitVec 32) (s : State) : Out := .next (gtabWrite s value.toNat)

/-- MEM_LECC_CNT_READ (R287). -/
def execMemLeccCntRead (s : State) : Out :=
  .next (emit (wr (wr (wr s MEM_LECC_CNT_UE 0) MEM_LECC_CNT_RETRY 0) MEM_LECC_CNT_CE 0)
    (.value (rd s MEM_LECC_CNT_UE * 2 ^ 24 + rd s MEM_LECC_CNT_RETRY * 2 ^ 16 + rd s MEM_LECC_CNT_CE)))

/-- MEM_CH_STAT_READ (R287). -/
def execMemChStatRead (ch : Fin 16) (s : State) : Out :=
  .next (emit (wr s (MEM_CH_STAT_CE ch) 0)
    (.value (rd s (MEM_CH_STAT_CE ch) * 2 ^ 24 + rd s (MEM_CH_STAT_REF_RATE ch) * 2 ^ 16 + rd s (MEM_CH_STAT_TRAINED ch))))

/-- MR4_REFRESH_RATE_CHANGE (R262). -/
def execMr4RefreshRateChange (ch : Fin 16) (rate : BitVec 3) (s : State) : Out := .next (wr s (MEM_CH_STAT_REF_RATE ch) rate.toNat)

end Sys2Proof.Machine
end

