-- ==== Sys2Proof/Machine/Picture.lean ====
section
/-!
DEFINITION. Sys2Proof/Machine/Picture.lean: the parts a line tick and a frame boundary of the display engine are built from
(spec/05_line_locked_display.md): limits of a configuration (R153), the tick program (R164-R166), a line's source (R182-R187),
what happens at a frame base (R170, R184, R188, R192).
-/
namespace Sys2Proof.Machine
open Reg

/-! ### Configuration (R153, R415) -/

/-- Lane rate of a RATE code in kbit/s (DSP_TX_STAT_n). -/
def laneRate (code : Nat) : Nat :=
  ([0, 1620000, 2700000, 5400000, 8100000, 10000000, 13500000, 20000000, 2160000, 2430000, 3240000, 4320000, 6750000]).getD code 0

/-- What a link carries, in kbit/s times 33: lane rate times lanes times coding efficiency, 4/5 or 32/33 (R152, R153). -/
def linkCapacity33 (rate lanes : Nat) : Nat :=
  if rate = 5 ∨ rate = 6 ∨ rate = 7 then laneRate rate * lanes * 32 else laneRate rate * lanes * 33 * 4 / 5

/-- Bits per pixel on a link, in sixteenths. -/
def bpp16 (c : DisplayCfg) : Nat := if c.dscBpp = 0 then 48 * c.depth else c.dscBpp

/-- The limits of R153 and the encodings of R149, R150, R326 and R415; that an input beyond R149's pixel rate, a scaling or
coefficients beyond R180 are refused is DEDUCED (log entry 66). -/
def configOk (c : DisplayCfg) : Bool :=
  decide (640 ≤ c.hActive) && decide (c.hActive ≤ 7680) && decide (480 ≤ c.vActive) && decide (c.vActive ≤ 4320) &&
  decide (c.hActive ≤ c.hTotal) && decide (c.vActive + 40 ≤ c.vTotal) &&
  decide (23976 * c.hTotal * c.vTotal ≤ c.pixKhz * 1000000) && decide (c.pixKhz * 1000 ≤ 240 * c.hTotal * c.vTotal) &&
  decide (1578 * c.pixKhz ≤ c.hTotal * 1000000) &&
  (if c.hActive ≤ 3840 then c.links == 1 else c.links == 2) && decide (c.pixKhz ≤ 2500000 * c.links) &&
  decide (33 * (c.hActive / c.links) * bpp16 c * c.pixKhz ≤ 16 * c.hTotal * linkCapacity33 c.txRate c.txLanes) &&
  (c.depth == 8 || c.depth == 10 || c.depth == 12) &&
  (c.dscBpp == 0 || (decide (128 ≤ c.dscBpp) && decide (c.dscBpp ≤ 256) && (c.dscSlices == 2 || c.dscSlices == 4 || c.dscSlices == 8))) &&
  (c.txLanes == 1 || c.txLanes == 2 || c.txLanes == 4) && (c.rxLanes == 1 || c.rxLanes == 2 || c.rxLanes == 4) &&
  decide (1 ≤ c.rxRate) && decide (c.rxRate ≤ 7) &&
  (if c.edp then (decide (1 ≤ c.txRate) && decide (c.txRate ≤ 4)) || (decide (8 ≤ c.txRate) && decide (c.txRate ≤ 12))
   else decide (1 ≤ c.txRate) && decide (c.txRate ≤ 7)) &&
  decide (1 ≤ c.iw) && decide (c.iw ≤ if c.dualIn then 7680 else 3840) && decide (1 ≤ c.ih) &&
  decide (c.ih ≤ if c.dualIn then 4320 else 16383) && decide (2 * c.iw * c.ih ≤ (if c.dualIn then 10 else 5) * c.inFrameNs) &&
  decide (c.iw ≤ c.hActive) && decide (c.hActive ≤ 4 * c.iw) && decide (c.ih ≤ c.vActive) && decide (c.vActive ≤ 4 * c.ih) &&
  (match c.coef with
   | some l => l.length == 512 && (List.range 64).all (fun p => phaseOk ((l.drop (8 * p)).take 8))
   | none => true)

/-- Does the change retrain the transmit links (R193)? -/
def retrains (a b : DisplayCfg) : Bool :=
  !((a.hActive, a.vActive, a.hTotal, a.vTotal, a.pixKhz, a.txRate) == (b.hActive, b.vActive, b.hTotal, b.vTotal, b.pixKhz, b.txRate) &&
    (a.txLanes, a.depth, a.dscBpp, a.dscSlices, a.links, a.edp) == (b.txLanes, b.depth, b.dscBpp, b.dscSlices, b.links, b.edp))

/-- An Armature's output mode equals a configuration's (R168). -/
def modeEq (a : Armature) (c : DisplayCfg) : Bool :=
  (a.hActive, a.vActive, a.hTotal, a.vTotal, a.pixKhz, a.links) == (c.hActive, c.vActive, c.hTotal, c.vTotal, c.pixKhz, c.links) &&
    (a.depth, a.dscBpp, a.dscSlices, a.edp) == (c.depth, c.dscBpp, c.dscSlices, c.edp)

/-- The input pace condition (R159) for a super-resolution Armature: its input size, and the input's measured line period in ticks
of the configuration's output timing; an input not yet measured passes (log entry 67). -/
def paceOk (s : State) (a : Armature) (c : DisplayCfg) : Bool :=
  !(a.p == a.q) || (a.iw == c.iw && a.ih == c.ih && decide (s.dsp.linePeriod * 256 * c.pixKhz ≤ a.inPeriod * c.hTotal * 10 ^ 9))

/-- Links a configuration uses. -/
def linksOf (c : DisplayCfg) : List Nat := List.range c.links

/-- A transmit link goes untrained (R193, R194). -/
def untrainTx (s : State) (n : Nat) : State :=
  let s := wr (wr (wr (wr s (DSP_TX_STAT_TRAINED n) 0) (DSP_TX_STAT_RATE n) 0) (DSP_TX_STAT_LANES n) 0) (DSP_TX_STAT_DSC n) 0
  wr (wr s (DSP_TX_STAT_VIDEO n) 0) (if n = 0 then DSP_STAT_TX_UP_0 else DSP_STAT_TX_UP_1) 0

/-- Input line-lock state: relock with cause INPUT (R158, R192). -/
def relock (s : State) (lock : Nat) : State :=
  raiseCause (wr (setDsp s (fun d => { d with lockRun := 0 })) DSP_STAT_LOCK lock) 6

/-! ### The tick program (R164-R166) -/

/-- The program a tick of the current frame starts: the phase-zero map for a phase of exactly 0 (R174). -/
def tickProgram (s : State) (a : Armature) (t : Nat) : List ArmEntry :=
  let l := if !superRes s && contentPhase s == 0 && !a.pzTicks.isEmpty then a.pzTicks else a.ticks
  match l[t]? with
  | some p => (a.progs[p]?).getD []
  | none => []

/-- The entry at the front of the tick program taken. -/
def popEntry (s : State) : State := setDsp s (fun d => { d with prog := d.prog.tail })

/-- DSP_OVERRUN_CNT raised (R166, R182). -/
def overrun (s : State) : State := wr (bump s DSP_OVERRUN_CNT_COUNT 1) DSP_EVT_STAT_OVERRUN 1

/-- A DISPATCH entry (R166): a halted thread drops it; a running unit is abandoned, and what it
would have written of a line is lost; the new one starts with seed 0. -/
def dispatchEntry (s : State) (cluster c thread im : Nat) (param : BitVec 32) : State :=
  match armPhys s cluster with
  | none => s
  | some n =>
    let k := coreNo n c * 8 + thread
    let st := rd s (CLU_STAT_STATE n)
    if thrState s k = 7 then overrun s
    else if st ≠ 2 ∧ st ≠ 3 then s
    else
      let s := if thrState s k = 0 ∨ thrState s k = 6 then s
        else
          match (thr s k).unit with
          | some u => setDsp (stopUnit (overrun s) u) (fun d => { d with stale := k / 8 :: d.stale })
          | none => overrun s
      startUnit s { part := 0, kind := .armature, threads := [k], priv := true } 0 [im] (some param)

/-- The two words of a FRAME entry (R165). -/
def frameWords (s : State) : Nat × Nat :=
  (contentFrame s % 2 ^ 32 + rd s DSP_FRAME_CNT_FRAMES * 2 ^ 32,
   rd s DSP_PHASE_PHASE + b2n (contentPhase s == 0) * 2 ^ 16)

/-- A FRAME entry (R165). -/
def frameEntry (s : State) (off : Nat) : State :=
  let w := frameWords s
  s.dsp.clusters.foldl (fun s l =>
    match physOf s l with
    | none => s
    | some n =>
      let a := memBase n 4 0 + off
      wroteBytes (wrN (wrN s a 8 w.1) (a + 8) 8 w.2) ((List.range 16).map (fun i => a + i))) s

/-- One segment offered to the line buffer (R182): accepted for a line not yet checked and at most 31 lines ahead. -/
def acceptSegment (s : State) (y k : Nat) (l : List Pixel) : State :=
  if s.dsp.checked ≤ y ∧ y < s.dsp.checked + 32 then
    setDsp s (fun d => { d with segs := tset y (tset k l ((tfind y d.segs).getD [])) d.segs })
  else overrun s

/-! ### A line's source (R182-R187) -/

/-- Line y chosen at its check (R182): source 0 fill, 1 fallback, 2 neural, or a repeat. -/
def chooseLine (s : State) (y source : Nat) (l : Option (List Pixel)) : State :=
  setDsp s (fun d => { d with linkBuf := tset y (source, l) d.linkBuf })

/-- A line of the fill colour at the output depth (R185). -/
def fillLine (s : State) (c : DisplayCfg) : List Pixel × State :=
  let p : Pixel := ⟨widen 10 (rd s DSP_FILL_RED), widen 10 (rd s DSP_FILL_GREEN), widen 10 (rd s DSP_FILL_BLUE)⟩
  depthLine c.depth (List.replicate c.hActive p) s

/-- A line of the fill colour chosen (R185). -/
def chooseFill (s : State) (c : DisplayCfg) (y : Nat) : State :=
  let f := fillLine s c
  chooseLine (bump f.2 DSP_NOSRC_LINES_LINES 1) y 0 (some f.1)

/-- The columns of a line that a link carries (R155). -/
def linkHalf (c : DisplayCfg) (n : Nat) (l : List Pixel) : List Pixel :=
  if c.links = 2 then (if n = 0 then l.take (c.hActive / 2) else l.drop (c.hActive / 2)) else l

/-- A line leaves on one link (R156): the last resort is the last line sent on that link in the frame, or the fill colour when there
is none (R185); source 3 is a repeat. -/
def sendOn (c : DisplayCfg) (y source : Nat) (l : Option (List Pixel)) (s : State) (n : Nat) : State :=
  let x : Nat × List Pixel × State := match l, tfind n s.dsp.lastLines with
    | some l, _ => (source, linkHalf c n l, s)
    | none, some l => (3, l, s)
    | none, none => let f := fillLine s c; (0, linkHalf c n f.1, f.2)
  emit (setDsp x.2.2 (fun d => { d with lastLines := tset n x.2.1 d.lastLines })) (.line y x.1 n (c.dscBpp != 0) x.2.1)

/-- Line y leaves on every trained link of the configuration at the start of its active period (R156, R179). -/
def sendLine (s : State) (c : DisplayCfg) (y : Nat) : State :=
  match tfind y s.dsp.linkBuf with
  | none => s
  | some x =>
    let s := ((linksOf c).filter (fun n => isSet s (DSP_TX_STAT_TRAINED n))).foldl (sendOn c y x.1 x.2) s
    setDsp s (fun d => { d with linkBuf := tdel y d.linkBuf })

/-- The fallback line chosen, or the last resort when it is incomplete; `read`: the display region's read completed. A line sent
from the scaler is counted as a LATE or a takeover substitution (R182, R183); a last resort is not one (R185). -/
def sendFallback (s : State) (c : DisplayCfg) (y : Nat) (read late : Bool) : State :=
  match (if superRes s || read then fallbackLine s c y else none) with
  | none => chooseLine (bump s DSP_NOSRC_LINES_LINES 1) y 3 none
  | some l =>
    let s := if late then setDsp s (fun d => { d with late := d.late + 1 })
      else if neuralChosen s && s.dsp.takeover then setDsp s (fun d => { d with taken := d.taken + 1 }) else s
    let d := depthLine c.depth l s
    chooseLine d.2 y 1 (some d.1)

/-- The neural line when every segment of it is in the buffer. -/
def neuralReady (s : State) (c : DisplayCfg) (a : Armature) (y : Nat) (read : Bool) : Option (List Pixel) :=
  let g := (tfind y s.dsp.segs).getD []
  if g.length = a.segs then
    if a.direct then some (neuralLine a [] g)
    else (if superRes s || read then fallbackLine s c y else none).map (fun f => neuralLine a f g)
  else none

/-- The check of line y (R182, R185, R187); in the orderly power-down every line is the fill colour (R560). -/
def checkLine (s : State) (c : DisplayCfg) (y : Nat) (read : Bool) : State :=
  if s.dsp.inLost || s.boot.down.isSome then chooseFill s c y
  else
    match (if neuralChosen s && !s.dsp.takeover then activeArm s else none) with
    | none => sendFallback s c y read false
    | some a =>
      match neuralReady s c a y read with
      | some l =>
        let d := depthLine c.depth l s
        chooseLine d.2 y 2 (some d.1)
      | none => sendFallback s c y read true

/-- Ticks of active lines on links that are not trained (R193). -/
def countLinkLost (s : State) (c : DisplayCfg) : State :=
  bump s DSP_LINK_LOST_LINES_LINES ((linksOf c).filter (fun n => !isSet s (DSP_TX_STAT_TRAINED n))).length

/-- A partition's smoothing settings as PWR_SMOOTH_n holds them (R83). -/
def smoothCode (s : State) (p : Nat) : Nat :=
  rd s (PWR_SMOOTH_FILL_EN p) * 2 ^ 15 + rd s (PWR_SMOOTH_RAMP_UP p) * 2 ^ 12 + rd s (PWR_SMOOTH_RAMP_DOWN p) * 2 ^ 8 +
    rd s (PWR_SMOOTH_GAP_LIMIT p) * 2 ^ 4

/-! ### At a frame base (R170, R184, R188, R192) -/

/-- Publication of the frame that ended and the thresholds (R184). -/
def publishFrame (s : State) : State :=
  let d := s.dsp
  let s := wr (wr s DSP_SUBST_FRAME_LATE_LINES (min d.late 65535)) DSP_SUBST_FRAME_TAKEOVER_LINES (min d.taken 65535)
  let s := bump s DSP_SUBST_TOTAL_LINES (d.late + d.taken)
  let s := wr s DSP_SUBST_MAX_MAX (max (rd s DSP_SUBST_MAX_MAX) (min 65535 (d.late + d.taken)))
  let warn := rd s DSP_SUBST_THR_WARN
  let s := if warn ≠ 0 ∧ warn ≤ d.late + d.taken then wr s DSP_EVT_STAT_SUBST_WARN 1 else s
  let thr := rd s DSP_SUBST_THR_TAKEOVER
  let n := if thr ≠ 0 ∧ thr ≤ d.late then d.lateFrames + 1 else 0
  if n = 2 then raiseCause (setDsp s (fun d => { d with lateFrames := 0, sinceLate := 0 })) 1
  else setDsp s (fun d => { d with lateFrames := n, sinceLate := if hasCause s 1 then d.sinceLate + 1 else d.sinceLate })

/-- The counters of R197 cleared, when DSP_CNT_CLR.CLR asks for it. -/
def clearCounters (s : State) : State :=
  if isSet s DSP_CNT_CLR_CLR then
    let s := wr (wr (wr s DSP_SUBST_TOTAL_LINES 0) DSP_SUBST_MAX_MAX 0) DSP_TAKEOVER_CNT_COUNT 0
    let s := wr (wr (wr s DSP_NOSRC_LINES_LINES 0) DSP_LINK_LOST_LINES_LINES 0) DSP_OVERRUN_CNT_COUNT 0
    let s := ([0, 1]).foldl (fun s n => wr (wr s (DSP_RX_STAT_ERR_CNT n) 0) (DSP_TX_STAT_ERR_CNT n) 0) s
    wr s DSP_CNT_CLR_CLR 0
  else s

/-- One DISPLAY_MODE takes effect (R161, R192); with the neural path no longer chosen a takeover ends (R183). -/
def applyMode (s : State) (m : DisplayMode) : State :=
  let was := isSet s DSP_CTRL_NEURAL_EN
  let ratio := s.dsp.p != m.p || s.dsp.q != m.q
  let s := wr (wr s DSP_CTRL_NEURAL_EN (b2n m.neural)) DSP_CTRL_FORCE_FALLBACK (b2n m.force)
  let s := setDsp s (fun d => { d with p := m.p, q := m.q, phi0 := m.phi0 })
  let s := if m.swap then wr s DSP_STAT_ARM_PEND 1 else s
  let s := if !m.neural then setDsp (wr s DSP_STAT_LINE_LOCKED 0) (fun d => { d with floorLost := false })
    else if was then s
    else if hasCause s 4 then setDsp s (fun d => { d with floorLost := true })
    else wr s DSP_STAT_LINE_LOCKED 1
  let s := if s.dsp.takeover && !neuralChosen s then endTakeover s else s
  if ratio then relock s 1 else s

/-- The DISPLAY_MODEs accepted at least 100 µs ago take effect, in order (R192); `frame` is the frame they start with. -/
def applyModes (s : State) (frame : Nat) : State :=
  let due := s.dsp.modes.filter (fun m => decide (m.2.2 + 10000 ≤ s.time))
  let s := setDsp s (fun d => { d with modes := d.modes.filter (fun m => !decide (m.2.2 + 10000 ≤ s.time)) })
  due.foldl (fun s m => finish (applyMode s m.2.1) m.1 0 { r2 := frame }) s

/-- Work of the Armature ends at a bank swap (R170): its units, its moves still queued, the entries still due. -/
def dropArmWork (s : State) : State :=
  let s := (unitsWhere s (fun u => u.kind == .armature)).foldl stopUnit s
  let keep := fun (m : Move) => m.owner != .entry
  let s := s.moves.foldl (fun s e => if e.2.all keep then s else setMoveQueue s (e.1 / 68) (e.1 % 68) (e.2.filter keep)) s
  setDsp { s with moveWait := s.moveWait.map (fun e => (e.1, e.2.filter keep)) }
    (fun d => { d with prog := [], lineMove := none, stale := [] })

/-- Was the active bank loaded since the last chip reset (R171, R186)? -/
def freshBank (s : State) : Bool := if isSet s DSP_STAT_ARM_BANK then s.dsp.fresh1 else s.dsp.fresh0

/-- A pending bank swap (R170): the standby bank is active, with P0's first clusters, and no work of the old Armature remains; a
chip reset's takeover ends when the host has loaded the Armature since (R171, R186). -/
def swapBank (s : State) : State :=
  if isSet s DSP_STAT_ARM_PEND then
    let s := wr (wr s DSP_STAT_ARM_PEND 0) DSP_STAT_ARM_BANK (1 - rd s DSP_STAT_ARM_BANK)
    let s := dropArmWork (wr s DSP_EVT_STAT_ARM_SWAPPED 1)
    match activeArm s with
    | none => setDsp (wr s DSP_ARM_ID_ID 0) (fun d => { d with clusters := [] })
    | some a =>
      let s := setDsp (wr s DSP_ARM_ID_ID a.armId) (fun d => { d with clusters := (p0Clusters s).take a.clusters })
      if freshBank s then dropCause s 3 else s
  else s

/-- A lost cluster's place in the Armature goes to a remaining P0 cluster, into which the display weights are cast (R26); at the
first frame boundary after that cast, or after that of a spare, cause CLUSTERS ends (R22, R186). -/
def restoreClusters (s : State) : State :=
  match activeArm s with
  | none => dropCause s 5
  | some a =>
    let have' := p0Clusters s
    let keep := s.dsp.clusters
    if have'.length < a.clusters ∨ s.repl.any (fun r => r.part == 0) = true then s
    else if keep.all (fun l => have'.contains l) then dropCause s 5
    else
      let spare := have'.filter (fun l => !keep.contains l)
      let place := keep.foldl (fun (acc : List Nat × List Nat) l =>
        if have'.contains l then (acc.1 ++ [l], acc.2)
        else (acc.1 ++ [acc.2.headD l], acc.2.tail)) ([], spare)
      let s := setDsp s (fun d => { d with clusters := place.1 })
      (place.1.filter (fun l => !keep.contains l)).foldl castDisplay s

/-- The cores of P0 a word of whose WM was found uncorrectable or is poisoned: their display weights are cast again (R43). -/
def recastPoison (s : State) : State :=
  let words := s.poison ++ s.clusters.flatMap (fun e => (e.2.ueWords.filter (fun w => w.2 == 1)).map Prod.fst)
  let hit := (words.filterMap (fun w =>
    match cellOf (8 * w) with
    | some (n, m, c, _) => if m = 0 ∧ cluPart s n = 0 then some (n, c) else none
    | none => none)).eraseDups
  hit.foldl (fun s x =>
    match displayPlace s (rd s (CLU_MAP_LOGICAL x.1)) with
    | some y => castWm s y.1 (y.2 * 64 + x.2) x.1 x.2
    | none => s) s

/-- The neural path returns when no cause remains (R188), or begins its takeover when a cause is there; once no POWER_FLOOR
takeover stands the line lock returns (R161). -/
def neuralReturn (s : State) : State :=
  let s :=
    if s.dsp.takeover then
      (if !neuralChosen s then endTakeover s
       else if rd s DSP_STAT_CAUSE_SET = 0 then wr (endTakeover s) DSP_EVT_STAT_NEURAL_RETURN 1 else s)
    else if rd s DSP_STAT_CAUSE_SET ≠ 0 then
      beginTakeover s (((List.range 7).find? (fun i => hasCause s (i + 1))).getD 0 + 1)
    else s
  if s.dsp.floorLost && !s.dsp.takeover && !hasCause s 4 then
    setDsp (wr s DSP_STAT_LINE_LOCKED 1) (fun d => { d with floorLost := false })
  else s

/-- Receive ports of the picture (R149): both for a dual-port input, else RX0. -/
def picturePorts (s : State) : List Nat := match s.dsp.cfg with | some c => if c.dualIn then [0, 1] else [0] | none => [0]

/-- Is video present on the picture's ports? -/
def inputOk (s : State) : Bool := (picturePorts s).all (fun n => isSet s (if n = 0 then DSP_STAT_IN_OK_0 else DSP_STAT_IN_OK_1))

/-- Does the measured input frame period lie within 0.3 % of the nominal one (R158)? One not yet measured does. -/
def inTrack (s : State) : Bool :=
  match s.dsp.cfg with
  | none => true
  | some c =>
    let nom := c.inFrameNs * 1000
    s.dsp.inPeriod == 0 || decide (1000 * ((s.dsp.inPeriod : Int) - nom).natAbs ≤ 3 * nom)

/-- The error of B(j) at `base` ps against the time R157 gives
the frame that starts, in 1/256 line tick, clamped to 16 bits: S(j), or S(0) + (t_j + 1)
* Tin, with S and Tin those of the last input frame (R157, R158). -/
def lockError (s : State) (c : DisplayCfg) (base : Nat) : Int :=
  let tin : Int := if s.dsp.inPeriod = 0 then c.inFrameNs * 1000 else s.dsp.inPeriod
  let e : Int := (base : Int) - s.dsp.inStart
  let err : Int :=
    if superRes s then (if 2 * e > tin then e - tin else e)
    else
      let d : Nat := 65536 * s.dsp.p
      let t : Int := ((contentPos s + s.dsp.q * 65536 + d : Nat) : Int) - ((s.dsp.inFrames - 1 : Nat) : Int) * d
      e - rneDiv (t * tin) d
  let x := rneDiv (err * 256 * c.pixKhz) (c.hTotal * 10 ^ 9)
  max (-32768) (min 32767 x)

/-- The lock error of a frame base (R158): 8 frames within a quarter tick reach LOCKED. -/
def noteLock (s : State) (err : Int) : State :=
  let s := wr s DSP_LOCK_ERR_PHASE_ERR (err % 65536).toNat
  let run := if inputOk s && inTrack s && decide (0 < s.dsp.inFrames) && decide (err.natAbs ≤ 64) then s.dsp.lockRun + 1 else 0
  let s := setDsp s (fun d => { d with lockRun := run })
  if rd s DSP_STAT_LOCK = 1 ∧ 8 ≤ run then dropCause (wr (wr s DSP_STAT_LOCK 2) DSP_EVT_STAT_LOCKED 1) 6 else s

/-- A new frame starts: its number, phase and empty counts. -/
def startFrame (s : State) (peak mean : Nat) : State :=
  let s := wr s DSP_FRAME_CNT_FRAMES (rd s DSP_FRAME_CNT_FRAMES + 1)
  let s := wr s DSP_PHASE_PHASE (rneDiv (contentPhase s) s.dsp.p).toNat
  let s := wr (wr s DSP_DRAM_USE_PEAK peak) DSP_DRAM_USE_MEAN mean
  setDsp s (fun d => { d with tick := 0, checked := 0, late := 0, taken := 0, lastLines := [], linkBuf := [], segs := [], prog := [],
                              lineMove := none })

end Sys2Proof.Machine
end

