-- ==== Sys2Proof/Machine/Partition.lean ====
section
/-!
DEFINITION. Sys2Proof/Machine/Partition.lean: creating, resizing, fencing, resetting and destroying partitions
(spec/11_partitions_serving.md R345-R354, spec/15 R480-R484).
-/
namespace Sys2Proof.Machine
open Reg

/-! ### What is free (R269, R347, R348) -/

/-- Logical numbers some partition holds, awaits or is giving up. -/
def heldLogical (s : State) : List Nat := s.parts.flatMap (fun e => e.2.logical ++ e.2.leaving ++ e.2.joining)

/-- Logical numbers mapped and unassigned, ascending (R348). -/
def unassigned (s : State) : List Nat :=
  (List.range 32).filter (fun l => (physOf s l).isSome && !(heldLogical s).contains l && !(s.repl.any (fun r => r.logical == l)))

/-- Free granules, ascending (R249, R269). -/
def freeGrans (s : State) : List Nat :=
  (List.range (granCount s - s.dsp.region)).filter (fun g => decide (128 ≤ g) && !gV (gEntry s g) && !s.dram.fills.contains g)

/-- Granules a T2 quota needs. -/
def quotaGrans (q2 : Nat) : Nat := ceilDiv q2 2097152

/-- Bytes of the usable maquette area (R1). -/
def usableT3 : Nat := psCount * 32 * 2 ^ 24

/-- Q3 held by partitions other than `p`. -/
def otherQ3 (s : State) (p : Nat) : Nat := (s.parts.filter (fun e => e.1 != p)).foldl (fun n e => n + e.2.quota.q3) 0

/-- Are the T4 areas well-formed and large enough (R346)? -/
def areasOk (q4 : Nat) (l : List (Nat × Nat)) : Bool :=
  decide (l.length ≤ 4) && l.all (fun a => a.1 % 4096 == 0 && a.2 % 4096 == 0) && decide (q4 ≤ l.foldl (fun n a => n + a.2) 0)

/-- Granules assigned to a partition under its key slot, and their zero-fills asked for (R251, R269). -/
def giveGrans (s : State) (p slot : Nat) (l : List Nat) : State :=
  let s := l.foldl (fun s g => setGran s g (2 ^ 15 + p * 256 + slot)) s
  { s with dram := { s.dram with fills := s.dram.fills ++ l } }

/-- An OFF cluster that is about to be used is ungated and initialised (R353). -/
def wakeLogical (s : State) (l : Nat) : State :=
  match physOf s l with
  | some n => if rd s (CLU_STAT_STATE n) = 0 ∧ (clu s n).initPend = false then ungateInit s n else s
  | none => s

/-- CLU_MAP.PART of the cluster behind a logical number (R348). -/
def setOwner (s : State) (l p : Nat) : State :=
  match physOf s l with
  | some n => wr s (CLU_MAP_PART n) p
  | none => s

/-- A logical number put into an ascending list. -/
def insertNat (x : Nat) : List Nat → List Nat
  | [] => [x]
  | y :: t => if x < y then x :: y :: t else if x = y then y :: t else y :: insertNat x t

/-! ### Pending resizes (R350, R352-R354) -/

/-- One leaving cluster: once no work unit runs on it, it passes QUIESCING and INIT and is unassigned (R28, R352). -/
def settleLeaving (s : State) (p l : Nat) : State :=
  let out := fun (s : State) => setPart s p (fun x => { x with leaving := x.leaving.filter (fun m => m != l) })
  match physOf s l with
  | none => out s
  | some n =>
    let st := rd s (CLU_STAT_STATE n)
    let s := if st = 2 ∨ st = 3 then cluQuiesce s n else s
    let st := rd s (CLU_STAT_STATE n)
    if st = 2 then out (wr (enterInit s n) (CLU_MAP_PART n) 0)
    else if st = 0 ∨ st = 1 then out (wr s (CLU_MAP_PART n) 0)
    else s

/-- One joining cluster: once it has passed INIT it is the partition's (R353, R354); one that is retired waits for its spare (R20). -/
def settleJoining (s : State) (p l : Nat) : State :=
  match physOf s l with
  | none => if s.repl.any (fun r => r.logical == l) then s else setPart s p (fun x => { x with joining := x.joining.filter (fun m => m != l) })
  | some n =>
    if rd s (CLU_STAT_STATE n) = 2 then
      wr (setPart s p (fun x => { x with joining := x.joining.filter (fun m => m != l), logical := insertNat l x.logical }))
        (CLU_MAP_PART n) p
    else wakeLogical s l

/-- Granules that leave after a lower Q2 (R269): the highest, until the quota's number is left; pages in them move first. -/
def settleGrans (s : State) (p : Nat) : State :=
  match tfind p s.parts with
  | none => s
  | some x =>
    let l := (partGrans s p).drop (quotaGrans x.quota.q2)
    l.foldl (fun s g => setGran s g 0) (clearGrans s p l)

/-- A boundary at which a partition's clusters change: joins, leaves when `leave`, and the end of its PART_RESIZE (R350). -/
def settleResize (s : State) (p : Nat) (leave : Bool) : State :=
  match tfind p s.parts with
  | none => s
  | some x =>
    let s := x.joining.foldl (fun s l => settleJoining s p l) s
    let s := if leave then x.leaving.foldl (fun s l => settleLeaving s p l) s else s
    match x.resize with
    | none => s
    | some r =>
      let s := if r.fills = [] then
          settleGrans (match r.q2 with
            | some q => setPart s p (fun x => { x with quota := { x.quota with q2 := q } })
            | none => s) p
        else s
      match tfind p s.parts with
      | none => s
      | some y =>
        if y.joining = [] ∧ y.leaving = [] ∧ r.fills = [] then
          finish (setPart s p (fun x => { x with resize := none,
                                                  clSet := match r.clusters with | some n => n | none => x.clSet })) r.cmd 0 {}
        else s

/-- Does any step, frame or training step of the partition run? -/
def partBusy (s : State) (p : Nat) : Bool :=
  s.units.any (fun e => e.2.part == p && unitRunning s e.2) || s.srv.batches.any (fun e => e.2.part == p && e.2.running) ||
    s.srv.trains.any (fun t => t.part == p && t.running)

/-- A partition other than P0 with nothing running changes its clusters at once (R352, R353). -/
def settleIdle (s : State) (p : Nat) : State := if p = 0 ∨ partBusy s p = true then s else settleResize s p true

/-- CLUSTER_INIT_DONE (R18, R27): the cluster is IDLE, or retired when its self-test failed; what waits for it goes on. -/
def execClusterInitDone (cl : Fin 34) (passed : Bool) (s : State) : Out :=
  if rd s (CLU_STAT_STATE cl) = 1 then
    let s := if passed then initPassed (wr (wr s (CLU_STAT_STATE cl) 2) (CLU_CTRL_INIT cl) 0) cl else retireCluster s cl 0
    .next ((s.parts.map Prod.fst).foldl settleIdle s)
  else .next s

/-! ### PART_CREATE and PART_RESIZE -/

/-- The first failing check of PART_CREATE (R347); a key slot of another function than OWNER is refused with the other BAD_PARAM
causes (R515, log entry 40). -/
def createFailure (s : State) (q : PartParams) : Option Nat :=
  let exist := fun p => (tfind p s.parts).isSome
  let others := (s.parts.filter (fun e => e.1 != 0)).length
  if q.part ≠ 0xFF ∧ exist q.part = true then some 0x21
  else if 15 ≤ others then some 0x31
  else if 15 < q.owner ∨ s.hif.numVfs < q.owner ∨ (q.owner ≠ 0 ∧ s.parts.any (fun e => e.2.owner == q.owner) = true) then some 0x21
  else if !((q.part == 0xFF || (decide (1 ≤ q.part) && decide (q.part ≤ 15))) && decide (1 ≤ q.clusters) && decide (q.clusters ≤ 32) &&
            q.q2 % 2097152 == 0 && q.wres % 2097152 == 0 && decide (q.wres ≤ q.q2) && q.q3 % 2 ^ 24 == 0 && q.q4 % 4096 == 0 &&
            areasOk q.q4 q.areas && decide (1 ≤ q.ringCount) && decide (q.ringFirst + q.ringCount ≤ 1024) &&
            decide (1 ≤ q.keySlot) && decide (q.keySlot ≤ 31) && decide (q.minRate ≤ 64)) then some 0x21
  else if s.parts.any (fun e => (e.2.owner == q.owner && decide (e.2.ringFirst < q.ringFirst + q.ringCount) &&
            decide (q.ringFirst < e.2.ringFirst + e.2.ringCount)) || e.2.keySlot == q.keySlot) then some 0x21
  else if tget 0 s.sec.owners q.keySlot ≠ 0 ∧ tget 0 s.sec.owners q.keySlot ≠ q.owner + 1 then some 0x21
  else if tget 0 s.dram.keys q.keySlot = 0 then some 0x42
  else if (unassigned s).length < q.clusters then some 0x31
  else if (freeGrans s).length < quotaGrans q.q2 ∨ usableT3 < q.q3 + otherQ3 s 0xFF then some 0x31
  else none

/-- PART_CREATE's checks and effect (R347, R525): clusters and granules assigned, the fills asked for; DONE when they are done. -/
def createPart (q : PartParams) (c : Cmd) (s : State) : State :=
  match createFailure s q with
  | some st => complete s c st {}
  | none =>
    let p := if q.part = 0xFF then ((List.range 16).find? (fun p => decide (1 ≤ p) && (tfind p s.parts).isNone)).getD 1 else q.part
    let l := (unassigned s).take q.clusters
    let g := (freeGrans s).take (quotaGrans q.q2)
    let x : Part := { owner := q.owner, logical := l, clSet := q.clusters, keySlot := q.keySlot,
                      quota := ⟨q.q2, q.wres, q.q3, q.q4, q.areas⟩, ringFirst := q.ringFirst, ringCount := q.ringCount,
                      minRate := q.minRate, createCmd := if g = [] then none else some c }
    let s := wr { s with parts := tset p x s.parts } SEC_DBG_TOUCH_PART (clearBit (rd s SEC_DBG_TOUCH_PART) p)
    let s := l.foldl (fun s l => setOwner (wakeLogical s l) l p) s
    let s := giveGrans (setProg s p 0) p q.keySlot g
    if g = [] then complete s c 0 { r2 := p } else s

/-- PART_CREATE (R347). -/
def execPartCreate (h : Pkt) (q : PartParams) (s : State) : Out := .next (withPkt s h 0x10 0 .admin true (createPart q))

/-- Is a resize value outside its range in R346 (R350)? -/
def resizeBad (x : Part) (q : ResizeParams) : Bool :=
  let q2 := q.q2.getD x.quota.q2
  !q.zeroOk || (match q.clusters with | some n => n == 0 || decide (32 < n) | none => false) ||
  (match q.q2 with | some n => n % 2097152 != 0 | none => false) ||
  (match q.wres with | some n => n % 2097152 != 0 || decide (q2 < n) | none => decide (q2 < x.quota.wres)) ||
  (match q.q3 with | some n => n % 2 ^ 24 != 0 | none => false) ||
  (match q.q4 with | some n => n.1 % 4096 != 0 || !areasOk n.1 n.2 | none => false) ||
  (match q.minRate with | some n => decide (64 < n) | none => false)

/-- The first failing check of PART_RESIZE (R350). -/
def resizeFailure (s : State) (p : Nat) (q : ResizeParams) : Option Nat :=
  match tfind p s.parts with
  | none => some 0x21
  | some x =>
    let n := q.clusters.getD x.logical.length
    let need := (s.handles.filter (fun e => e.2.part == p && e.2.st == 1)).foldl (fun m e => max m (e.2.man.clBase + e.2.man.shapeCl)) 0
    if resizeBad x q then some 0x21
    else if q.q2.getD x.quota.q2 < x.c2 ∨ q.q3.getD x.quota.q3 < x.c3 ∨ (q.q4.map Prod.fst).getD x.quota.q4 < x.c4 then some 0x30
    else if q.clusters.isSome ∧ (n < need ∨ (p = 0 ∧ (n < 4 ∨ 12 < n))) then some 0x21
    else if x.resize.isSome then some 0x21
    else if (unassigned s).length < n - x.logical.length then some 0x31
    else if (freeGrans s).length < quotaGrans (q.q2.getD x.quota.q2) - quotaGrans x.quota.q2 then some 0x31
    else if usableT3 < q.q3.getD x.quota.q3 + otherQ3 s p then some 0x31
    else none

/-- PART_RESIZE's checks and effect (R350, R352-R354). -/
def resizePart (q : ResizeParams) (c : Cmd) (s : State) : State :=
  let p := c.part
  match resizeFailure s p q, tfind p s.parts with
  | some st, _ => complete s c st {}
  | none, none => complete s c 0x21 {}
  | none, some x =>
    let n := q.clusters.getD x.logical.length
    let join := (unassigned s).take (n - x.logical.length)
    let leave := x.logical.drop n
    let raise := decide (x.quota.q2 < q.q2.getD x.quota.q2)
    let g := if raise then (freeGrans s).take (quotaGrans (q.q2.getD 0) - quotaGrans x.quota.q2) else []
    let s := setPart s p (fun x =>
      { x with quota := { q2 := if raise then x.quota.q2 else q.q2.getD x.quota.q2, wres := q.wres.getD x.quota.wres,
                          q3 := q.q3.getD x.quota.q3, q4 := (q.q4.map Prod.fst).getD x.quota.q4,
                          areas := (q.q4.map Prod.snd).getD x.quota.areas },
               minRate := q.minRate.getD x.minRate, logical := x.logical.take n, leaving := leave, joining := join,
               clSet := if leave = [] then x.clSet else n,
               resize := some { cmd := c, clusters := q.clusters, q2 := q.q2, fills := g } })
    let s := join.foldl (fun s l => wakeLogical s l) (giveGrans s p x.keySlot g)
    if p = 0 then (if leave = [] ∧ join = [] then settleResize s p false else s)
    else if partBusy s p then (if leave = [] ∧ join = [] ∧ q.q2.isNone = true then settleResize s p false else s)
    else settleResize s p true

/-- PART_RESIZE (R350). -/
def execPartResize (h : Pkt) (q : ResizeParams) (s : State) : Out := .next (withPkt s h 0x11 0 .admin true (resizePart q))

/-- ZERO_FILL_DONE (R251): the granule in progress is zero; a PART_CREATE or PART_RESIZE that waited for its last fill goes
on (R347, R350). -/
def execZeroFillDone (s : State) : Out :=
  match s.dram.fills with
  | [] => .next s
  | g :: t =>
    let s := zeroGranule { s with dram := { s.dram with fills := t } } g
    let p := gPart (gEntry s g)
    let left := t.any (fun g => gPart (gEntry s g) == p && gV (gEntry s g))
    match tfind p s.parts with
    | none => .next s
    | some x =>
      let s := setPart s p (fun x => { x with resize := x.resize.map (fun r => { r with fills := r.fills.filter (fun h => h != g) }) })
      let s := if left then s
        else
          match x.createCmd with
          | some c => finish (setPart s p (fun x => { x with createCmd := none })) c 0 { r2 := p }
          | none => s
      .next (if p = 0 then (if x.leaving = [] ∧ x.joining = [] then settleResize s p false else s) else settleResize s p (!partBusy s p))

/-! ### Fence, reset, destroy (R351, R480-R484) -/

/-- Requests that are not ACTIVE end at once when a partition is destroyed (R351 step 2); a spill in progress ends
first (R376). -/
def endIdleRequests (s : State) (p : Nat) : State :=
  ((partEntries s p).filter (fun e => let st := (req s e).state
    st == .held || st == .paused || st == .ready || st == .resuming)).foldl (fun s e => endReq s e 0x12) s

/-- PART_DESTROY's effect (R351): refused for P0; it joins one that runs; otherwise the partition is fenced at the quantum boundary
and its work ends at the end of the drain. -/
def destroyPart (c : Cmd) (s : State) : State :=
  let p := c.part
  match (if p = 0 then none else tfind p s.parts) with
  | none => complete s c 0x21 {}
  | some x =>
    let s := setPart s p (fun x => { x with destroyCmds := x.destroyCmds ++ [c], destroying := true })
    if x.destroying then s
    else
      let s := endIdleRequests s p
      if x.fence = .none then askFence s p
      else if x.fence = .draining then s
      else finishDestroy s p false

/-- PART_DESTROY (R351). -/
def execPartDestroy (h : Pkt) (s : State) : Out := .next (withPkt s h 0x12 0 .admin true destroyPart)

/-- PART_FENCE's effect (R480, R481): the fence goes up at the quantum boundary, and the packet completes at the end of the drain. -/
def fencePart (c : Cmd) (s : State) : State :=
  match tfind c.part s.parts with
  | none => complete s c 0x21 {}
  | some x =>
    if x.fence = .up then complete s c 0 {}
    else
      let s := setPart s c.part (fun x => { x with fenceCmds := x.fenceCmds ++ [c] })
      if x.fence = .none then askFence s c.part else s

/-- PART_FENCE (R480). -/
def execPartFence (h : Pkt) (s : State) : Out := .next (withPkt s h 0x13 0 .control false fencePart)

/-- PART_RESET's effect (R480, R483): it joins a reset that runs, and follows the drain of a fence. -/
def resetPart (c : Cmd) (s : State) : State :=
  match tfind c.part s.parts with
  | none => complete s c 0x21 {}
  | some x =>
    let s := setPart s c.part (fun x => { x with resetCmds := x.resetCmds ++ [c] })
    if x.fence = .none then askFence s c.part
    else if x.fence = .up ∧ x.ending = false then startReset s c.part
    else s

/-- PART_RESET (R483). -/
def execPartReset (h : Pkt) (s : State) : Out := .next (withPkt s h 0x14 0 .control false resetPart)

/-- DRAIN_END (R481): 20 ms have passed, or only hung units remain (the sender's claim). -/
def execDrainEnd (p : Fin 16) (s : State) : Out := .next (drainEnd s p)

end Sys2Proof.Machine
end

