-- ==== Sys2Proof/Machine/Camera.lean ====
section
/-!
DEFINITION. Sys2Proof/Machine/Camera.lean: camera ports, stream contexts, their ticks and frames
(spec/06_camera_stream_intake.md).
-/
namespace Sys2Proof.Machine
open Reg

def ctxState (s : State) (c : Nat) : Nat := rd s (CAM_CTX_CFG_STATE c)
def setCtxState (s : State) (c v : Nat) : State := wr s (CAM_CTX_CFG_STATE c) v

/-- The state of a context by its binding (R203, R204). -/
def settleCtxState (s : State) (c : Nat) : State := setCtxState s c (if (ctx s c).bind.isSome then 2 else 1)

/-! ### Pipes (R207) -/

/-- Contexts admitted to a pipe. -/
def pipeCtxs (s : State) (p : Nat) : List Nat :=
  (List.range 48).filter (fun c => ctxState s c != 0 && isSet s (CAM_CTX_CFG_RAW c) && rd s (CAM_CTX_CFG_PIPE c) == p)

/-- A pipe's load in Mpixel/s, exact, as numerator and denominator. -/
def pipeLoad (s : State) (p : Nat) : Nat × Nat :=
  (pipeCtxs s p).foldl (fun (n : Nat × Nat) c =>
    let x := ctx s c
    (n.1 * x.tp + x.w * x.h * n.2, n.2 * x.tp)) (0, 1)

/-- CAM_PIPE_STAT follows the contexts; its rc field clears when no stream is left (R221). -/
def refreshPipe (s : State) (p : Nat) : State :=
  let l := pipeLoad s p
  let s := wr (wr s (CAM_PIPE_STAT_STREAMS p) (pipeCtxs s p).length) (CAM_PIPE_STAT_LOAD p) (l.1 / l.2)
  if (pipeCtxs s p).isEmpty then wr s (CAM_PIPE_STAT_OVF_CNT p) 0 else s

/-- The pipe of the lowest admitted load that has room for a stream of `wh` pixels per `tp` µs. -/
def admitPipe (s : State) (wh tp : Nat) : Option Nat :=
  let room := (List.range 4).filter (fun p =>
    let l := pipeLoad s p
    decide (l.1 * tp + wh * l.2 ≤ 600 * l.2 * tp) && decide ((pipeCtxs s p).length < 8))
  room.find? (fun p => room.all (fun q => decide ((pipeLoad s p).1 * (pipeLoad s q).2 ≤ (pipeLoad s q).1 * (pipeLoad s p).2)))

/-! ### Closing and binding (R204, R205) -/

/-- Open contexts of a camera port. -/
def portCtxs (s : State) (p : Nat) : List Nat :=
  (List.range 32).map (· + 2) |>.filter (fun c => ctxState s c != 0 && rd s (CAM_CTX_CFG_PORT c) == p)

/-- CAM_PORT_STAT.VCS, and an unconfigured port once its last context is closed, its rc fields clear (R200, R221). -/
def refreshPort (s : State) (p : Nat) : State :=
  let l := portCtxs s p
  let s := wr s (CAM_PORT_STAT_VCS p) ((l.map (fun c => rd s (CAM_CTX_CFG_VC c))).eraseDups).length
  if l.isEmpty then
    let s := wr (wr (wr (wr s (CAM_PORT_CFG_RATE p) 0) (CAM_PORT_CFG_ENABLE p) 0) (CAM_PORT_CFG_LANES p) 0) (CAM_PORT_CFG_PHY p) 0
    wr (wr (wr s (CAM_PORT_STAT_CRC_ERR p) 0) (CAM_PORT_STAT_ECC_CORR p) 0) (CAM_PORT_STAT_ECC_UNCORR p) 0
  else s

/-- The STREAM_BIND that waits for its first frame completes with a frame number (R204). -/
def finishBind (s : State) (c k : Nat) : State :=
  match (ctx s c).bindCmd with
  | some cmd => finish (setCtx s c { ctx s c with bindCmd := none }) cmd 0 { r2 := k }
  | none => s

/-- A closing context with no open frame left is CLOSED (R205): buffers freed, the command done; a binding that still waits ends with
BAD_PARAM. -/
def settleClose (s : State) (c : Nat) : State :=
  let x := ctx s c
  match x.closing with
  | none => s
  | some cmd =>
    if x.frames = [] then
      let s := match x.bind with | some b => credit2 s b.part b.charge | none => s
      let s := x.waiting.foldl (fun s w => finish (match w.2 with | some b => credit2 s b.part b.charge | none => s) w.1 0x21 {}) s
      let port := rd s (CAM_CTX_CFG_PORT c)
      let pipe := rd s (CAM_CTX_CFG_PIPE c)
      let s := setCtxState (setCtx s c {}) c 0
      let s := if 2 ≤ c ∧ c < 34 then refreshPipe (refreshPort s port) pipe else s
      finish s cmd 0 {}
    else s

/-- One waiting binding or closing takes effect at tick `k` (R204, R205, R219); a binding completes when a frame opens under it, one
under which none can open any more with the number of this tick (log entry 158). -/
def applyWaiting (c k : Nat) (s : State) (w : Cmd × Option Binding) : State :=
  let x := ctx s c
  match w.2 with
  | some b =>
    let s := finishBind (match x.bind with | some o => credit2 s o.part o.charge | none => s) c k
    let s := setCtx s c { ctx s c with bind := some b, bindCmd := some w.1 }
    let s := wr s (CAM_CTX_CFG_PART c) b.part
    if ctxState s c = 3 then s else settleCtxState s c
  | none => finishBind (setCtx s c { x with closing := some w.1 }) c k

/-! ### Ticks and frames (R209-R214) -/

/-- Frames whose close tick is `k` are dropped: late, or damaged when no Frame End came (R211, R212). -/
def closeFrames (s : State) (c k : Nat) : State :=
  ((ctx s c).frames.filter (fun f => f.close == k)).foldl (fun s f =>
    dropFrame s c f.no (if f.stage = .receiving ∧ 2 ≤ c ∧ c < 34 then 3 else 2)) s

/-- Does a partition hold no cluster (R25)? -/
def noClusters (s : State) (p : Nat) : Bool := match tfind p s.parts with | some x => x.logical.isEmpty | none => true

/-- Does a cast's barrier stand in a partition (R339)? A binding made behind it waits. -/
def castRuns (s : State) (p : Nat) : Bool := match (tfind p s.parts).bind (·.cast) with | some c => c.replace.isSome | none => false

/-- A tick of a context (R209-R211): close ticks, waiting commands, then the frame it opens, when one is due: in a bound
context that is not closing, whose partition is not fenced; without clusters or a free buffer the frame is dropped at once.
`ticks` is how many ticks after it the frame closes. -/
def camTick (s : State) (c : Nat) (synth opens : Bool) (ticks : Nat) (desc : Option PushDesc) : State :=
  let k := (rd s (CAM_CTX_TICKS_TICKS c) + 1) % 2 ^ 32
  let s := closeFrames (wr s (CAM_CTX_TICKS_TICKS c) k) c k
  let w := (ctx s c).waiting
  let behind := fun (w : Cmd × Option Binding) => match w.2 with | some b => castRuns s b.part | none => false
  let s := (w.filter (fun w => !behind w)).foldl (applyWaiting c k) (setCtx s c { ctx s c with waiting := w.filter behind })
  let x := ctx s c
  match x.bind with
  | none => settleClose s c
  | some b =>
    if x.closing.isSome || !opens || fenced s b.part then settleClose (if x.closing.isSome then finishBind s c k else s) c
    else
      let f : Frame := { no := k, time := s.time, close := (k + ticks) % 2 ^ 32, buf := (freeBuf x b.gen).getD 3, bind := b,
                         stage := .receiving, flags := if synth then 16 else 0, user := match desc with | some d => d.user | none => 0, desc }
      let s := finishBind (setCtx s c { x with frames := x.frames ++ [f], block := [] }) c k
      if noClusters s b.part then dropFrame s c k 7
      else if (freeBuf x b.gen).isNone then dropFrame s c k 8
      else trace s 1 b.part

/-- Mark a damage flag of a frame (R212). -/
def markFrame (s : State) (c no flag : Nat) : State :=
  modFrame s c no (fun f => { f with flags := f.flags ||| flag })

/-- The frame being received: the newest that has had no Frame End. -/
def receiving (s : State) (c : Nat) : Option Frame := (ctx s c).frames.reverse.find? (fun f => f.stage == .receiving)

/-- A frame is released (R210, R212): a damaged one is dropped here when the context says so. -/
def releaseFrame (s : State) (c no flags : Nat) : State :=
  match frameOf s c no with
  | none => s
  | some f =>
    if f.flags % 16 ≠ 0 ∧ isSet s (CAM_CTX_CFG_DROP_DAMAGED c) = true then dropFrame s c no 3
    else modFrame s c no (fun f => { f with stage := .released, released := s.time + 1, flags := f.flags ||| flags })

/-! ### Packets of a camera port (R198-R201) -/

/-- Does a port receive? -/
def portOn (s : State) (p : Nat) : Bool := isSet s (CAM_PORT_CFG_ENABLE p)

/-- Contexts of a port's virtual channel. -/
def vcCtxs (s : State) (p vc : Nat) : List Nat := (portCtxs s p).filter (fun c => rd s (CAM_CTX_CFG_VC c) == vc)

/-- The frames being received on a virtual channel damaged (R201, R212). -/
def markChannel (s : State) (p vc flag : Nat) : State :=
  (vcCtxs s p vc).foldl (fun s c => match receiving s c with | some f => markFrame s c f.no flag | none => s) s

/-- The header check of a packet (R201): its counters. -/
def packetHeader (s : State) (p : Nat) (header : Ecc) : State :=
  let s := wr s (CAM_PORT_STAT_ACTIVE p) 1
  match header with
  | .clean => s
  | .corrected => wr (bump s (CAM_PORT_STAT_ECC_CORR p) 1) CAM_EVT_STAT_PORT_ERR 1
  | .uncorrectable => wr (bump s (CAM_PORT_STAT_ECC_UNCORR p) 1) CAM_EVT_STAT_PORT_ERR 1

/-- The same, and the frame the packet belongs to damaged (R201; log entry 156). -/
def headerMarked (s : State) (p vc : Nat) (header : Ecc) : State :=
  let s := packetHeader s p header
  if header = .clean then s else markChannel s p vc 2

/-- Bytes written into a frame's buffer from an offset on (R204, R250). The Plinth places the buffers in the partition's T2; where is
free, and a byte that would fall elsewhere is not written (log entry 157). -/
def writeBuf (s : State) (f : Frame) (off : Nat) (l : List (BitVec 8)) : State :=
  let base := f.bind.bufs.getD f.buf 0 + off
  let put := (l.zipIdx).filter (fun e => bufReach s f.bind.part (base + e.2) true)
  wroteBytes (put.foldl (fun s e => devWb s (base + e.2) e.1) s) (put.map (fun e => base + e.2))

/-- `n` bytes whose values the spec does not state. -/
def writeFree (s : State) (f : Frame) (off n : Nat) : State :=
  (List.range n).foldl (fun s i => let p := fresh s; writeBuf p.2 f (off + i) [BitVec.ofNat 8 p.1]) s

/-- Bytes of a received line of YUV 4:2:2, 8 or 10 bits (R198). -/
def lineBytes (s : State) (c : Nat) : Nat :=
  if rd s (CAM_CTX_CFG_DT c) = 0x1F then ceilDiv (5 * (ctx s c).w) 2 else 2 * (ctx s c).w

/-- A field of a pipe parameter block (R208), little-endian. -/
def blockField (l : List Nat) (off n : Nat) : Nat := (List.range n).foldl (fun v i => v + l.getD (off + i) 0 * 256 ^ i) 0

/-- Does a pipe parameter block keep its ranges and rsvd bytes (R208)? -/
def blockOk (l : List Nat) : Bool :=
  l.length == 256 && decide (blockField l 0 1 ≤ 3) && decide (blockField l 1 1 ≤ 2) && decide (blockField l 2 1 ≤ 2) &&
    decide (blockField l 3 1 ≤ 15) && (l.drop 0x38).all (fun b => b == 0)

/-- Bytes a pipe writes for a frame (R206, R208): NV12, RGB or luma at full, half or quarter size; of a block out of range, the most. -/
def pipeBytes (x : Ctx) : Nat :=
  let k := if blockOk x.block then 2 ^ blockField x.block 2 1 else 1
  let n := (x.w / k) * (x.h / k)
  if blockOk x.block = false ∨ blockField x.block 1 1 = 1 then 3 * n else if blockField x.block 1 1 = 0 then ceilDiv (3 * n) 2 else n

/-- The pipe parameter block read for the frame that opens (R208). -/
def readBlock (s : State) (c : Nat) : State :=
  match (ctx s c).bind with
  | some b =>
    if isSet s (CAM_CTX_CFG_RAW c) && (List.range 256).all (fun i => bufReach s b.part (b.pipe + i) false) then
      setCtx s c { ctx s c with block := (List.range 256).map (fun i => (devRb s (b.pipe + i)).toNat) }
    else s
  | none => s

/-- A Frame Start for one context (R209, R212): the frame before it is short; a lost source is back. -/
def frameStart (c : Nat) (s : State) : State :=
  let s := match receiving s c with | some f => markFrame s c f.no 4 | none => s
  let s := if ctxState s c = 3 then settleCtxState s c else s
  readBlock (camTick s c false true 2 none) c

/-- FRAME_START_PACKET (R198, R201, R209). -/
def execFrameStartPacket (p : Fin 4) (vc : Fin 16) (header : Ecc) (s : State) : Out :=
  if !portOn s p then .next s
  else
    let s := packetHeader s p header
    let s := if header = .uncorrectable then s else (vcCtxs s p vc).foldl (fun s c => frameStart c s) s
    .next (if header = .clean then s else markChannel s p vc 2)

/-- A Frame End for one context (R210, R212). -/
def frameEnd (c : Nat) (s : State) : State :=
  match receiving s c with
  | none => s
  | some f =>
    let s := if f.lines = (ctx s c).h then s else markFrame s c f.no 4
    if isSet s (CAM_CTX_CFG_RAW c) then modFrame s c f.no (fun f => { f with stage := .ended })
    else releaseFrame (modFrame s c f.no (fun f => { f with stage := .ended })) c f.no 0

/-- FRAME_END_PACKET (R198, R201, R212). -/
def execFrameEndPacket (p : Fin 4) (vc : Fin 16) (header : Ecc) (s : State) : Out :=
  if !portOn s p then .next s
  else
    let s := headerMarked s p vc header
    if header = .uncorrectable then .next s else .next ((vcCtxs s p vc).foldl (fun s c => frameEnd c s) s)

/-- A line of a frame (R206, R207, R212): YUV data is written as received; an overflow of the pipe damages the frame. -/
def frameLine (overflow : Bool) (payload : List (BitVec 8)) (c : Nat) (s : State) : State :=
  match receiving s c with
  | none => s
  | some f =>
    let s := if isSet s (CAM_CTX_CFG_RAW c) then s else writeBuf s f (f.lines * lineBytes s c) (payload.take (lineBytes s c))
    let s := modFrame s c f.no (fun f => { f with lines := f.lines + 1 })
    if overflow && isSet s (CAM_CTX_CFG_RAW c) then
      let s := if f.flags / 8 % 2 = 0 then bump s (CAM_PIPE_STAT_OVF_CNT (rd s (CAM_CTX_CFG_PIPE c))) 1 else s
      wr (markFrame s c f.no 8) CAM_EVT_STAT_PIPE_OVF 1
    else s

/-- Is a data type received (R198)? -/
def listedType (dt : Nat) : Bool := dt == 0x2B || dt == 0x2C || dt == 0x1E || dt == 0x1F

/-- LONG_PACKET (R199, R201, R212): a packet of a data type not listed or a channel that is not mapped is discarded; a payload whose
CRC fails is kept, counted, and damages the frames of its channel. -/
def execLongPacket (p : Fin 4) (vc : Fin 16) (dt : Fin 64) (header : Ecc) (crcOk overflow : Bool) (payload : List (BitVec 8)) (s : State) :
    Out :=
  if !portOn s p then .next s
  else
    let s := headerMarked s p vc header
    if header = .uncorrectable ∨ listedType dt = false ∨ vcCtxs s p vc = [] then .next s
    else
      let s := if crcOk then s else markChannel (wr (bump s (CAM_PORT_STAT_CRC_ERR p) 1) CAM_EVT_STAT_PORT_ERR 1) p vc 1
      .next (((vcCtxs s p vc).filter (fun c => rd s (CAM_CTX_CFG_DT c) == dt)).foldl (fun s c => frameLine overflow payload c s) s)

/-- DESKEW (R198): the port calibrates; what a program can see of it is the port's activity. -/
def execDeskew (p : Fin 4) (s : State) : Out := if portOn s p then .next (wr s (CAM_PORT_STAT_ACTIVE p) 1) else .next s

/-- SOURCE_LOST (R209). -/
def execSourceLost (c : Fin 48) (s : State) : Out :=
  if rd s (CAM_CTX_CFG_KIND c) = 1 ∧ (ctxState s c = 1 ∨ ctxState s c = 2) then
    .next (wr (setCtxState s c 3) CAM_EVT_STAT_SOURCE_LOST 1)
  else .next s

/-- SYNTHETIC_TICK (R209). -/
def execSyntheticTick (c : Fin 48) (s : State) : Out := if ctxState s c = 3 then .next (camTick s c true true 2 none) else .next s

/-! ### Host-pushed streams (R216, R217) -/

/-- The descriptor at index `i` of a frame ring (R216). -/
def pushDesc (s : State) (fn rg i : Nat) : PushDesc :=
  let a := (ring s fn rg).cfg.sqBase + 64 * i
  let f := fun o n => hrdN s fn (a + o) n
  { addr := f 0 8, tier := f 8 1, width := f 12 2, height := f 14 2, stride := f 16 4, fmt := f 9 1, user := f 20 4,
    ok := (f 8 1 == 2 || f 8 1 == 4) && decide (f 9 1 ≤ 2) && f 10 2 == 0 && decide (1 ≤ f 12 2) && decide (f 12 2 ≤ 8192) &&
          decide (1 ≤ f 14 2) && decide (f 14 2 ≤ 8192) && f 16 4 % 64 == 0 && f 24 40 == 0 }

/-- Bytes of a pushed frame (R216). -/
def pushBytes (d : PushDesc) : Nat := if d.fmt = 0 then 3 * d.width * d.height else if d.fmt = 1 then 3 * d.width * d.height / 2 else 2 * d.width * d.height

/-- Bytes of a line of a pushed frame, and its lines of bytes: NV12 has half as many chroma lines after its luma lines. -/
def pushLine (d : PushDesc) : Nat := if d.fmt = 0 then 3 * d.width else if d.fmt = 1 then d.width else 2 * d.width
def pushLines (d : PushDesc) : Nat := if d.fmt = 1 then d.height + d.height / 2 else d.height

/-- Does a descriptor's T2 frame lie in the partition (R216)? -/
def pushReach (s : State) (p : Nat) (d : PushDesc) : Bool :=
  d.tier != 2 || (List.range ((pushLines d - 1) * d.stride + pushLine d)).all (fun i => bufReach s p (d.addr + i) false)

/-- The copy of a pushed frame into its buffer, its lines one after another (R210, R216, R217; log entry 157). -/
def copyPushed (s : State) (c : Nat) (f : Frame) (d : PushDesc) : State :=
  (List.range (pushLines d)).foldl (fun s y =>
    writeBuf s f (y * pushLine d) ((List.range (pushLine d)).map (fun x =>
      let a := d.addr + y * d.stride + x
      if d.tier = 2 then devRb s a else hrb s (ctx s c).fn a))) s

/-- A descriptor that never becomes a frame of work: its record at once (R216, R217). -/
def pushDrop (s : State) (c fate : Nat) (d : PushDesc) : State :=
  match (ctx s c).bind with
  | none => s
  | some b =>
    decideFrame s c { no := rd s (CAM_CTX_TICKS_TICKS c), time := s.time, close := 0, buf := 3, bind := b, stage := .receiving,
                      user := d.user } fate 0

/-- A host-pushed tick (R216): the newest descriptor posted since the last tick is the frame, older ones are superseded. -/
def pushTick (s : State) (c : Nat) : State :=
  let x := ctx s c
  let r := ring s x.fn x.ring
  let n := (r.sqTail + 2 ^ r.cfg.sqLog2 - r.sqHead) % 2 ^ r.cfg.sqLog2
  let ds := (List.range n).map (fun i => pushDesc s x.fn x.ring ((r.sqHead + i) % 2 ^ r.cfg.sqLog2))
  let s := setRing s x.fn x.ring { r with sqHead := r.sqTail }
  match ds.reverse with
  | [] => camTick s c false false 1 none
  | d :: old =>
    let next := ((x.waiting.filterMap (·.2)).getLast?.or x.bind).map (·.part)
    let bad := !d.ok || decide (3 * x.w * x.h < pushBytes d) || (match next with | some p => !pushReach s p d | none => false)
    let s := camTick s c false (!bad) 1 (some d)
    let x := ctx s c
    let live := x.closing.isNone && (match x.bind with | some b => !fenced s b.part | none => false)
    if live then
      let s := old.reverse.foldl (fun s o => pushDrop s c 4 o) s
      if bad then pushDrop s c 3 d else s
    else s

/-- HOST_PUSHED_TICK (R216). -/
def execHostPushedTick (c : Fin 48) (s : State) : Out :=
  if rd s (CAM_CTX_CFG_KIND c) = 2 ∧ ctxState s c ≠ 0 then .next (pushTick s c) else .next s

/-! ### Releases (R207, R210) -/

/-- PIPE_FRAME_RELEASE (R206, R207): the oldest ended frame of a raw stream is written, its statistics of 5 KiB behind it, and
released. The stages' arithmetic is not stated bit by bit: the bytes are free (log entry 57). -/
def execPipeFrameRelease (c : Fin 48) (s : State) : Out :=
  match (ctx s c).frames.find? (fun f => f.stage == .ended) with
  | some f => .next (releaseFrame (writeFree s f 0 (pipeBytes (ctx s c) + 5120)) c f.no 32)
  | none => .next s

/-- PUSHED_FRAME_COPIED (R210, R216). -/
def execPushedFrameCopied (c : Fin 48) (s : State) : Out :=
  if rd s (CAM_CTX_CFG_KIND c) = 2 then
    match receiving s c with
    | some f => .next (releaseFrame (match f.desc with | some d => copyPushed s c f d | none => s) c f.no 0)
    | none => .next s
  else .next s

/-- Bytes of a tap's frame (R218): RGB, its port's picture downscaled. -/
def tapBytes (x : Ctx) (scale : Nat) : Nat := 3 * (x.w / 2 ^ scale) * (x.h / 2 ^ scale)

/-- TAP_FRAME_WRITTEN (R218): the tapped frame as RGB; neither the downscaling nor the rounding to 8 bits is stated: the bytes are
free (log entry 57). -/
def execTapFrameWritten (c : Fin 48) (s : State) : Out :=
  if rd s (CAM_CTX_CFG_KIND c) = 0 then
    match (ctx s c).frames.find? (fun f => f.stage == .receiving) with
    | some f => .next (releaseFrame (writeFree s f 0 (tapBytes (ctx s c) f.bind.scale)) c f.no 0)
    | none => .next s
  else .next s

/-- The tick of a display tap at the start of an input frame (R202, R218): one frame in D opens. -/
def tapTick (s : State) (c : Nat) : State :=
  if ctxState s c = 0 then s
  else
    let x := ctx s c
    let d := match x.waiting.reverse.find? (fun w => w.2.isSome), x.bind with
      | some w, _ => (match w.2 with | some b => b.d | none => 1)
      | none, some b => b.d
      | none, none => 1
    let due := x.waiting.any (fun w => w.2.isSome) || decide (d ≤ x.skipped + 1)
    camTick (setCtx s c { x with skipped := if due then 0 else x.skipped + 1 }) c false due 2 none

/-- CAM_PORT_STAT_READ (R221). -/
def execCamPortStatRead (p : Fin 4) (s : State) : Out :=
  let v := rd s (CAM_PORT_STAT_CRC_ERR p) * 2 ^ 24 + rd s (CAM_PORT_STAT_ECC_CORR p) * 2 ^ 16 +
    rd s (CAM_PORT_STAT_ECC_UNCORR p) * 2 ^ 8 + rd s (CAM_PORT_STAT_ACTIVE p) * 2 ^ 7 + rd s (CAM_PORT_STAT_VCS p)
  .next (emit (wr (wr (wr s (CAM_PORT_STAT_CRC_ERR p) 0) (CAM_PORT_STAT_ECC_CORR p) 0) (CAM_PORT_STAT_ECC_UNCORR p) 0) (.value v))

/-- CAM_PIPE_STAT_READ (R221). -/
def execCamPipeStatRead (p : Fin 4) (s : State) : Out :=
  let v := rd s (CAM_PIPE_STAT_OVF_CNT p) * 2 ^ 24 + rd s (CAM_PIPE_STAT_STREAMS p) * 2 ^ 20 + rd s (CAM_PIPE_STAT_LOAD p)
  .next (emit (wr s (CAM_PIPE_STAT_OVF_CNT p) 0) (.value v))

/-! ### STREAM_OPEN, STREAM_CLOSE, STREAM_BIND -/

/-- The contexts' common start (R203, R215): OPEN, with its ticks and counters at 0. -/
def openCtx (s : State) (c : Nat) (x : Ctx) (drop : Bool) : State :=
  let s := setCtxState (setCtx s c x) c 1
  let s := wr (wr s (CAM_CTX_TICKS_TICKS c) 0) (CAM_CTX_CFG_DROP_DAMAGED c) (b2n drop)
  wr (wr (wr (wr s (CAM_CTX_DROP_LATE c) 0) (CAM_CTX_DROP_DAMAGED c) 0) (CAM_CTX_MISC_SUPERSEDED c) 0) (CAM_CTX_MISC_OTHER c) 0

/-- Is a data type one that passes a pipe (R198)? -/
def rawType (dt : Nat) : Bool := dt == 0x2B || dt == 0x2C

/-- Is the camera setting legal, and the port free or set the same way (R198, R200, R203)? -/
def openOk (s : State) (p : StreamOpen) : Bool :=
  decide (p.port < 4) && decide (p.phy ≤ 1) && decide (p.lanes ≤ 2) && decide (4 ≤ p.rate) &&
  decide (p.rate ≤ if p.phy = 0 then 90 else 120) && decide (p.vc < 16) &&
  (rawType p.dt || p.dt == 0x1E || p.dt == 0x1F) && decide (1 ≤ p.w) && decide (1 ≤ p.h) &&
  decide (1000 ≤ p.period) && decide (p.period ≤ 1000000) &&
  ((portCtxs s p.port).isEmpty || (rd s (CAM_PORT_CFG_PHY p.port) == p.phy && rd s (CAM_PORT_CFG_LANES p.port) == p.lanes &&
     rd s (CAM_PORT_CFG_RATE p.port) == p.rate))

/-- A camera context opened (R200, R203, R207). -/
def openCamera (s : State) (h : Pkt) (p : StreamOpen) (c : Cmd) : State :=
  let vcs := (portCtxs s p.port).map (fun c => rd s (CAM_CTX_CFG_VC c))
  if !openOk s p then complete s c 0x21 {}
  else if !vcs.contains p.vc && decide (8 ≤ vcs.eraseDups.length) then complete s c 0x31 {}
  else
    match (if rawType p.dt then admitPipe s (p.w * p.h) p.period else some 0) with
    | none => complete s c 0x31 {}
    | some pipe =>
      let s := openCtx s p.ctx { w := p.w, h := p.h, tp := p.period, fn := h.fn, ring := p.ring } p.dropDamaged
      let s := wr (wr (wr s (CAM_CTX_CFG_PORT p.ctx) p.port) (CAM_CTX_CFG_VC p.ctx) p.vc) (CAM_CTX_CFG_DT p.ctx) p.dt
      let s := wr (wr s (CAM_CTX_CFG_RAW p.ctx) (b2n (rawType p.dt))) (CAM_CTX_CFG_PIPE p.ctx) pipe
      let s := wr (wr (wr (wr s (CAM_PORT_CFG_RATE p.port) p.rate) (CAM_PORT_CFG_LANES p.port) p.lanes)
        (CAM_PORT_CFG_PHY p.port) p.phy) (CAM_PORT_CFG_ENABLE p.port) 1
      complete (refreshPipe (refreshPort s p.port) pipe) c 0 {}

/-- STREAM_OPEN's checks and effect (R202, R203). -/
def openStream (h : Pkt) (p : StreamOpen) (c : Cmd) (s : State) : State :=
  if p.ctx < 2 ∨ 48 ≤ p.ctx then complete s c 0x21 {}
  else if ctxState s p.ctx ≠ 0 ∨ (p.ctx < 34 ∧ h.fn.val ≠ 0) then complete s c 0x21 {}
  else if p.ctx < 34 then openCamera s h p c
  else
    let r := ring s h.fn p.ring
    if p.period < 1000 ∨ 10000000 < p.period ∨ p.w = 0 ∨ p.h = 0 ∨ 1024 ≤ p.ring ∨ r.state ≠ .enabled ∨ r.cfg.kind ≠ 1 then
      complete s c 0x21 {}
    else complete (openCtx s p.ctx { w := p.w, h := p.h, tp := p.period, fn := h.fn, ring := p.ring } p.dropDamaged) c 0 {}

/-- STREAM_OPEN (R203). -/
def execStreamOpen (h : Pkt) (p : StreamOpen) (s : State) : Out := .next (withPkt s h 0x50 p.ctx .any false (openStream h p))

/-- STREAM_CLOSE's effect (R205): at the stream's next tick; a second one before the first has completed is BAD_PARAM (log entry 158). -/
def closeStream (h : Pkt) (c : Nat) (cmd : Cmd) (s : State) : State :=
  let x := ctx s c
  if c < 2 ∨ 48 ≤ c ∨ ctxState s c = 0 ∨ x.fn ≠ h.fn.val ∨ x.closing.isSome = true ∨ x.waiting.any (fun w => w.2.isNone) = true then
    complete s cmd 0x21 {}
  else setCtx s c { x with waiting := x.waiting ++ [(cmd, none)] }

/-- STREAM_CLOSE (R205). -/
def execStreamClose (h : Pkt) (c : Fin 256) (s : State) : Out := .next (withPkt s h 0x51 c .any false (closeStream h c))

/-- Bytes of the largest output frame of a context (R204): RGB for a raw, pushed or tapped stream, as received for YUV. -/
def frameBytes (s : State) (c : Nat) (scale : Nat) : Nat :=
  let x := ctx s c
  if c < 2 then tapBytes x scale
  else if c < 34 ∧ isSet s (CAM_CTX_CFG_RAW c) = false then
    (if rd s (CAM_CTX_CFG_DT c) = 0x1F then ceilDiv (5 * x.w * x.h) 2 else 2 * x.w * x.h)
  else 3 * x.w * x.h

/-- Is a forced eviction of the handle in progress (R343)? The packet's key is 2 * handle + FORCE. -/
def forcedOut (x : Handle) : Bool := match x.evict with | some c => c.key % 2 == 1 | none => false

/-- Can the handle and entry carry a stream (R204, R337)? A VISION maquette must hold its WM image. -/
def bindOk (s : State) (part handle entry : Nat) : Bool :=
  match tfind handle s.handles with
  | some x => x.part == part && x.st == 1 && decide (entry < x.man.roles.length) && x.man.roles.getD entry 3 == 1 &&
      (x.man.kind != 2 || x.wm) && !forcedOut x
  | none => false

/-- STREAM_BIND's checks and effect (R202, R204, R208): a raw stream's pipe block lies in the partition's T2; the buffers are charged;
the binding waits for the next tick. -/
def bindStream (h : Pkt) (p : StreamBind) (c : Cmd) (s : State) : State :=
  let bytes := 3 * up4k (frameBytes s p.ctx p.scale + 5120)
  if c.part = 0 ∨ 48 ≤ p.ctx then complete s c 0x21 {}
  else if ctxState s p.ctx = 0 ∨ (ctx s p.ctx).closing.isSome = true ∨
      (isSet s (CAM_CTX_CFG_RAW p.ctx) = true ∧ (List.range 256).all (fun i => bufReach s c.part (p.pipe + i) false) = false) ∨ (p.ctx < 2 ∧ (h.fn.val ≠ 0 ∨ p.d < 1 ∨ 16 < p.d ∨ 3 < p.scale)) ∨ 1024 ≤ p.ring ∨
      (34 ≤ p.ctx ∧ (ctx s p.ctx).fn ≠ h.fn.val) then complete s c 0x21 {}
  else if !bindOk s c.part p.handle p.entry then complete s c 0x21 {}
  else if noClusters s c.part then complete s c 0x31 {}
  else if !fitsT2 s c.part bytes then complete s c 0x30 {}
  else
    let a := fresh s
    let b := fresh a.2
    let d := fresh b.2
    let s := charge2 d.2 c.part bytes
    let bind : Binding := { gen := s.free, part := c.part, handle := p.handle, entry := p.entry, fn := h.fn, ring := p.ring, d := max 1 p.d,
                            scale := p.scale, pipe := p.pipe, bufs := [a.1, b.1, d.1], charge := bytes }
    let x := ctx s p.ctx
    setCtx s p.ctx { x with waiting := x.waiting ++ [(c, some bind)] }

/-- STREAM_BIND (R204). -/
def execStreamBind (h : Pkt) (p : StreamBind) (s : State) : Out := .next (withPkt s h 0x52 p.ctx .owned false (bindStream h p))

end Sys2Proof.Machine
end

