-- ==== Sys2Proof/Machine/Span.lean ====
section
/-!
DEFINITION. Sys2Proof/Machine/Span.lean: the Span link (spec/17_span_chaining.md): training, flits and replay, halos, time
alignment, the pace sweep.
-/
namespace Sys2Proof.Machine
open Reg

def port (s : State) (n : Nat) : SpanPort := tget {} s.span.ports n
def setPort (s : State) (n : Nat) (p : SpanPort) : State := { s with span := { s.span with ports := tput {} s.span.ports n p } }
def setSpan (s : State) (f : Span → Span) : State := { s with span := f s.span }

def portUp (s : State) (n : Nat) : Bool := rd s (SPN_PORT_STAT_STATE n) == 4
def portEn (s : State) (n : Nat) : Bool := isSet s (if n = 0 then SPN_CTRL_EN_0 else SPN_CTRL_EN_1)
def position (s : State) : Nat := rd s SPN_CTRL_POSITION
def isMaster (s : State) : Bool := rd s SPN_CTRL_ROLE == 1
def isMember (s : State) : Bool := rd s SPN_CTRL_ROLE == 2

/-- The time in ns: the time base times 10 plus the PHY's fine count (R539). -/
def nowNs (s : State) (fine : Nat) : Nat := s.time * 10 + fine

/-! ### Sending (R536, R537, R539) -/

/-- Bytes each payload field of a flit type takes (R539, R540). -/
def fieldBytes (kind : Nat) : List Nat :=
  match kind with
  | 0x01 => [2]
  | 0x02 => [1, 1, 1, 1, 2]
  | 0x10 => [4, 2, 1, 1]
  | 0x20 => [8]
  | 0x21 => [8, 8, 8]
  | 0x22 => [4, 2, 2, 8, 4]
  | 0x30 | 0x33 => [4]
  | 0x31 => [4, 1, 1]
  | 0x32 => [4, 1, 3, 8]
  | _ => []

/-- A flit's payload bytes: its fields, little-endian; a halo's pixel components follow in 16-bit containers (R540). -/
def payloadBytes (kind : Nat) (body : List Nat) : List Nat :=
  ((body.zip (fieldBytes kind ++ List.replicate body.length 2)).flatMap (fun e => toLe e.1 e.2)).take 244

/-- One bit of the CRC-32C division, least significant bit first. -/
def crcBit (c : Nat) : Nat := if c % 2 = 1 then c / 2 ^^^ 0x82F63B78 else c / 2

/-- CRC-32C of bytes (log entry 164). -/
def crc32c (l : List Nat) : Nat :=
  l.foldl (fun c b => crcBit (crcBit (crcBit (crcBit (crcBit (crcBit (crcBit (crcBit (c ^^^ b))))))))) 0xFFFFFFFF ^^^ 0xFFFFFFFF

/-- Is a flit of a type outside the sequence (R537; log entry 164): IDLE, NAK, HELLO and the timing flits? -/
def unseqKind (kind : Nat) : Bool := decide (kind < 0x10) || (decide (0x20 ≤ kind) && decide (kind ≤ 0x22))

/-- The 256 bytes of a flit (R536). -/
def flitBytes (f : HeldFlit) (ack : Nat) : List Nat :=
  let p := payloadBytes f.kind f.body
  let l := [f.kind, b2n f.relay + 2 * b2n (unseqKind f.kind), f.src * 16 + f.dst, p.length] ++ toLe f.seq 2 ++ toLe ack 2 ++ p ++
    List.replicate (244 - p.length) 0
  l ++ toLe (crc32c l) 4

/-- The ACK a port sends: the last SEQ received in order. -/
def ackOf (s : State) (n : Nat) : Nat := ((port s n).expect + 65535) % 65536

/-- A flit put on the link. -/
def putFlit (s : State) (n : Nat) (f : HeldFlit) : State := emit s (.flit n (flitBytes f (ackOf s n)))

/-- A flit of this device outside the sequence. -/
def sendUnseq (s : State) (n kind : Nat) (relay : Bool) (dst : Nat) (body : List Nat) : State :=
  putFlit s n { seq := 0, kind, relay, dst, src := position s, body }

/-- Waiting flits go out while the replay buffer of 64 has room (R537). -/
def pumpPort (n : Nat) : Nat → State → State
  | 0, s => s
  | k + 1, s =>
    let p := port s n
    match p.queue with
    | [] => s
    | f :: t =>
      if p.held.length < 64 then
        let f := { f with seq := p.nextSeq }
        pumpPort n k (putFlit (setPort s n { p with queue := t, held := p.held ++ [f], nextSeq := (p.nextSeq + 1) % 65536 }) n f)
      else s

/-- A flit that waits takes its place: a halo goes before the pace flits (R539). -/
def placeFlit (l : List HeldFlit) (f : HeldFlit) : List HeldFlit :=
  if f.kind = 0x10 then l.filter (fun x => x.kind == 0x10) ++ [f] ++ l.filter (fun x => x.kind != 0x10) else l ++ [f]

/-- A sequenced flit sent on a port that is UP. -/
def queueFlit (s : State) (n : Nat) (f : HeldFlit) : State :=
  if portUp s n then
    let p := port s n
    pumpPort n (p.queue.length + 1) (setPort s n { p with queue := placeFlit p.queue f })
  else s

/-- A sequenced flit of this device. -/
def sendSeq (s : State) (n kind : Nat) (relay : Bool) (dst : Nat) (body : List Nat) : State :=
  queueFlit s n { seq := 0, kind, relay, dst, src := position s, body }

/-- A sequenced flit to every device, on each port that is UP. -/
def broadcast (s : State) (kind : Nat) (body : List Nat) : State := sendSeq (sendSeq s 0 kind true 0xF body) 1 kind true 0xF body

/-- The active Armature's HALO_IN and NTICK; 0 with none. -/
def haloIn (s : State) : Nat := match activeArm s with | some a => a.haloIn | none => 0
def armTicks (s : State) : Nat := match activeArm s with | some a => a.ntick | none => 0

/-- HELLO sent (R535). -/
def sendHello (s : State) (n : Nat) : State :=
  sendUnseq s n 0x02 false 0xF [rd s SPN_CTRL_ROLE, position s, rd s SPN_CTRL_COUNT_M1 + 1, haloIn s, armTicks s]

/-! ### Link state (R535, R538, R548) -/

/-- A port starts training. -/
def startTraining (s : State) (n : Nat) : State :=
  let s := setPort s n { before := (port s n).before }
  bump (wr (wr s (SPN_PORT_STAT_STATE n) 2) (SPN_PORT_STAT_WIDTH n) 0) (SPN_PORT_STAT_RETRAIN n) 1

/-- ALIGNED goes to 0 (R544, R548). -/
def loseAlign (s : State) : State :=
  if isSet s SPN_STAT_ALIGNED && !isMaster s then wr (wr s SPN_STAT_ALIGNED 0) SPN_EVT_STAT_ALIGN_LOST 1 else s

/-- A pending commit is dropped (R546). -/
def dropCommit (s : State) : State := setSpan (wr s SPN_STAT_SWEEP_PEND 0) (fun x => { x with commit := none })

/-- PACE_SWEEPs complete with the pace in force (R547). -/
def endSweeps (s : State) (l : List Cmd) (discarded : Bool) : State :=
  l.foldl (fun s c => finish s c 0 { r2 := rd s PWR_PACE_COMMITTED, detail := b2n discarded }) s

/-- PACE_SWEEPs whose sweep has ended complete (R547). -/
def endSweepCmds (s : State) (discarded : Bool) : State :=
  endSweeps (setSpan s (fun x => { x with running := [] })) s.span.running discarded

/-- PACE_SWEEPs whose first sweep will not run complete as one that was discarded (log entry 165). -/
def endWaitingSweeps (s : State) : State := endSweeps (setSpan s (fun x => { x with cmds := [] })) s.span.cmds true

/-- The master's running sweep, or its commit, is discarded (R546). -/
def discardSweep (s : State) : State :=
  if s.span.reports.isSome || s.span.commit.isSome then
    endSweepCmds (wr (setSpan (dropCommit s) (fun x => { x with reports := none })) SPN_EVT_STAT_SWEEP_DISCARD 1) true
  else s

/-- A member has no UP path to the master (R548). -/
def cutOff (s : State) : State :=
  setSpan (loseAlign (wr (wr s SPN_STAT_CUT_OFF 1) SPN_EVT_STAT_ALIGN_LOST 1))
    (fun x => { x with cutLock := true, goodFrames := 0, rejoin := true, step := none })

/-- A port goes DOWN and retrains (R538, R546, R548). -/
def spanDown (s : State) (n : Nat) : State :=
  let s := report (wr s SPN_EVT_STAT_SPAN_DOWN 1) 41 clsDevice 0 0xFF n 0
  let s := startTraining s n
  let s := sendSeq s (1 - n) 0x33 true 0xF [s.span.sweep]
  let s := if isMaster s then discardSweep s else dropCommit s
  if isMember s && n == 0 then cutOff s else s

/-- SPAN_TRAINING_DONE (R535): width code 0 is a failure; otherwise HELLO is exchanged. -/
def execSpanTrainingDone (n : Fin 2) (width : Fin 4) (reversed : Bool) (s : State) : Out :=
  if rd s (SPN_PORT_STAT_STATE n) = 2 then
    if width.val = 0 then .next (wr s (SPN_PORT_STAT_STATE n) 1)
    else
      let s := wr (wr (wr s (SPN_PORT_STAT_STATE n) 3) (SPN_PORT_STAT_WIDTH n) width) (SPN_PORT_STAT_REVERSED n) (b2n reversed)
      .next (sendHello (setPort s n { before := (port s n).before }) n)
  else .next s

/-- SPAN_TRAIN_RETRY (R535). -/
def execSpanTrainRetry (n : Fin 2) (s : State) : Out :=
  if rd s (SPN_PORT_STAT_STATE n) = 1 ∧ portEn s n = true then .next (startTraining s n) else .next s

/-- SPAN_ACK_TIMEOUT (R538): sequenced flits are held and no ACK has progressed for 10 µs. -/
def execSpanAckTimeout (n : Fin 2) (s : State) : Out :=
  if rd s (SPN_PORT_STAT_STATE n) = 4 ∧ (port s n).held ≠ [] then .next (spanDown s n) else .next s

/-- BLOCK_LOCK_LOST (R538). -/
def execBlockLockLost (n : Fin 2) (s : State) : Out := if 3 ≤ rd s (SPN_PORT_STAT_STATE n) then .next (spanDown s n) else .next s

/-! ### Receiving (R537, R539) -/

/-- Is the flit `seq` at or before the acknowledged one, modulo 65,536? -/
def acked (seq ack : Nat) : Bool := decide ((ack + 65536 - seq) % 65536 < 32768)

/-- Flits that the far end has are freed and waiting ones go out. -/
def takeAck (s : State) (n ack : Nat) : State :=
  let p := port s n
  let s := setPort s n { p with held := p.held.filter (fun f => !acked f.seq ack) }
  pumpPort n p.queue.length s

/-- A flit dropped on its CRC or its sequence (R537): counted; a sequenced one is answered with a NAK. -/
def dropFlit (s : State) (n : Nat) (sequenced : Bool) : State :=
  let s := bump s (SPN_PORT_ERR_CRC_ERR n) 1
  if sequenced then sendUnseq s n 0x01 false 0xF [(port s n).expect] else s

/-- FLIT_CRC_ERROR (R537). -/
def execFlitCrcError (n : Fin 2) (sequenced : Bool) (s : State) : Out :=
  if 3 ≤ rd s (SPN_PORT_STAT_STATE n) then .next (dropFlit s n sequenced) else .next s

/-- A flit for others is forwarded on the other port (R539). -/
def relayFlit (s : State) (n : Nat) (hd : FlitHead) (kind : Nat) (body : List Nat) (seq : Bool) : State :=
  if hd.relay && hd.dst.val != position s then
    let f : HeldFlit := { seq := 0, kind, relay := true, dst := hd.dst, src := hd.src, body }
    if seq then queueFlit s (1 - n) f
    else if portUp s (1 - n) then putFlit s (1 - n) f else s
  else s

/-- Is a flit for this device? -/
def forMe (s : State) (hd : FlitHead) : Bool := !hd.relay || hd.dst.val == position s || hd.dst.val == 15

/-- A sequenced flit received on a port that is UP (R537): in order, it is accepted, relayed and acted on, and an IDLE of the time
that follows carries the ACK (R539; log entry 164). -/
def recvSeq (s : State) (n : Nat) (hd : FlitHead) (kind : Nat) (body : List Nat) (act : State → State) : State :=
  if portUp s n then
    let s := takeAck s n hd.ack
    if hd.seq.val = (port s n).expect then
      let s := setPort s n { port s n with expect := ((port s n).expect + 1) % 65536 }
      let s := relayFlit s n hd kind body true
      sendUnseq (if forMe s hd then act s else s) n 0x00 false 0xF []
    else dropFlit s n true
  else s

/-- A flit outside the sequence received on a port that is UP. -/
def recvUnseq (s : State) (n : Nat) (hd : FlitHead) (act : State → State) : State :=
  if portUp s n then
    let s := takeAck s n hd.ack
    if forMe s hd then act s else s
  else s

/-- IDLE (R537): its ACK. -/
def execIdleFlit (n : Fin 2) (hd : FlitHead) (s : State) : Out := .next (if portUp s n then takeAck s n hd.ack else s)

/-- Every held flit from a SEQ onward sent again (R537). -/
def replayFrom (s : State) (n expected : Nat) : State :=
  let p := port s n
  let due := fun (f : HeldFlit) => decide ((f.seq + 65536 - expected) % 65536 < 32768)
  let held := p.held.map (fun f => if due f then { f with replays := f.replays + 1 } else f)
  let again := held.filter due
  let s := setPort s n { p with held }
  let s := again.foldl (fun s f => wr (bump (putFlit s n f) (SPN_PORT_ERR_REPLAY n) 1) SPN_EVT_STAT_RETRY 1) s
  if again.any (fun f => decide (8 ≤ f.replays)) then spanDown s n else s

/-- NAK (R537, R538). -/
def execNak (n : Fin 2) (_hd : FlitHead) (expected : Fin 65536) (s : State) : Out :=
  if portUp s n then .next (replayFrom (takeAck s n ((expected.val + 65535) % 65536)) n expected) else .next s

/-- HELLO (R535): the port is UP when the far end's place and count agree, else MISMATCH. A member whose SPAN0 meets the master has
a path to it (R548; log entry 166). -/
def execHello (n : Fin 2) (_hd : FlitHead) (_role pos count halo : Fin 256) (ntick : Fin 65536) (s : State) : Out :=
  if 3 ≤ rd s (SPN_PORT_STAT_STATE n) then
    let s := wr s (SPN_PORT_STAT_FAR_POS n) pos
    let good := count.val == rd s SPN_CTRL_COUNT_M1 + 1 && (if n.val = 0 then pos.val + 1 == position s else pos.val == position s + 1)
    if good then
      let same := halo.val == haloIn s && ntick.val == armTicks s
      let was := portUp s n
      let s := if same then s else wr s SPN_EVT_STAT_CFG_MISMATCH 1
      let s := setPort s n { port s n with haloOk := same, haloWait := (port s n).before && isMember s, before := true }
      let s := if was then s else wr (wr s (SPN_PORT_STAT_STATE n) 4) SPN_EVT_STAT_SPAN_UP 1
      .next (if n.val = 0 && isMember s && pos.val == 0 then wr s SPN_STAT_CUT_OFF 0 else s)
    else .next (wr (wr s (SPN_PORT_STAT_STATE n) 5) SPN_EVT_STAT_CFG_MISMATCH 1)
  else .next s

/-! ### Halos (R540-R542) -/

/-- Key of a row's halo. -/
def haloKey (n frame row : Nat) : Nat := n * 2 ^ 48 + frame % 2 ^ 32 * 65536 + row

/-- Pixels as the HALO payload holds them (R540). -/
def pixelWords (l : List Pixel) : List Nat := l.flatMap (fun p => [p.a, p.b, p.c])

/-- The halo of a received row sent across each shared edge that is UP (R540). -/
def sendHalos (s : State) (frame row : Nat) (l : List Pixel) : State :=
  let k := haloIn s
  let one := fun (s : State) (n : Nat) =>
    let p := port s n
    if portUp s n && p.haloOk && !p.haloWait then
      let px := if n = 0 then l.take k else l.drop (l.length - k)
      sendSeq s n 0x10 false 0xF ([frame % 2 ^ 32, row, (if n = 0 then 1 else 0), k] ++ pixelWords px)
    else s
  one (one s 0) 1

/-- HALO (R535, R540, R541, R549): kept beside the device's own columns unless its deadline has passed or the edge exchanges none. -/
def execHalo (n : Fin 2) (hd : FlitHead) (frame : BitVec 32) (row : Fin 65536) (edge : Fin 2) (pixels : List Pixel) (s : State) : Out :=
  let key := haloKey n frame.toNat row
  .next (recvSeq s n hd 0x10 ([frame.toNat, row.val, edge.val, pixels.length] ++ pixelWords pixels) (fun s =>
    if s.span.missed.contains key || !(port s n).haloOk || (port s n).haloWait then s else setSpan s (fun x => { x with halos := tset key pixels x.halos })))

/-- HALO_DEADLINE (R541): one line tick after the row's own reception; mirrored edge columns take the place of a halo that is
not in. -/
def execHaloDeadline (n : Fin 2) (row : Fin 65536) (s : State) : Out :=
  let frame := s.dsp.inFrames - 1
  let key := haloKey n frame row
  if !portEn s n || haloIn s == 0 || (tfind key s.span.halos).isSome || s.span.missed.contains key then .next s
  else
    match s.dsp.cfg.bind (fun c => storedRow s c frame row.val) with
    | none => .next s
    | some l =>
      let k := haloIn s
      let px := if n.val = 0 then ((l.drop 1).take k).reverse else ((l.dropLast).drop (l.length - 1 - k)).reverse
      let s := setSpan s (fun x => { x with halos := tset key px x.halos, missed := x.missed ++ [key] })
      .next (wr (bump s (SPN_HALO_MISS n) 1) SPN_EVT_STAT_HALO_MISS 1)

/-- Halos of earlier frames are gone. -/
def dropHalos (s : State) (frame : Nat) : State :=
  let old := fun (k : Nat) => decide (k % 2 ^ 48 / 65536 + 2 < frame)
  setSpan s (fun x => { x with halos := tdrop old x.halos, missed := x.missed.filter (fun k => !old k) })

/-! ### Time (R543, R544, R549) -/

/-- DELAY_MEASUREMENT (R543): a member asks toward the master. -/
def execDelayMeasurement (fine : Fin 10) (s : State) : Out :=
  if isMember s && portUp s 0 then .next (sendUnseq s 0 0x20 false 0xF [nowNs s fine]) else .next s

/-- DELAY_REQ (R543): answered at once. -/
def execDelayReq (n : Fin 2) (hd : FlitHead) (t1 : BitVec 64) (fine : Fin 10) (s : State) : Out :=
  .next (recvUnseq s n hd (fun s => sendUnseq s n 0x21 false 0xF [t1.toNat, nowNs s fine, nowNs s fine]))

/-- DELAY_RESP (R543): the hop delay, shown in 0.1 ns. -/
def execDelayResp (n : Fin 2) (hd : FlitHead) (t1 t2 t3 : BitVec 64) (fine : Fin 10) (s : State) : Out :=
  .next (recvUnseq s n hd (fun s =>
    let d : Int := ((nowNs s fine : Int) - t1.toNat) - ((t3.toNat : Int) - t2.toNat)
    wr (setPort s n { port s n with hop := d / 2 }) (SPN_DELAY_DELAY n) (5 * d % 65536).toNat))

/-- TICK_SYNC (R543, R544, R548, R549): relayed with the delay added; a member has a path to the master, takes its offset, steps or
slews, and realigns. -/
def execTickSync (n : Fin 2) (hd : FlitHead) (frame : BitVec 32) (line : Fin 65536) (timeNs : BitVec 64) (corr : BitVec 32)
    (fine : Fin 10) (residence : BitVec 32) (s : State) : Out :=
  .next (recvUnseq s n hd (fun s =>
    let p := port s n
    let s := relayFlit s n hd 0x22
      [frame.toNat, line.val, 0, timeNs.toNat, ((corr.toNat + residence.toNat + p.hop) % 2 ^ 32).toNat] false
    if isMember s then
      let off : Int := (timeNs.toNat : Int) + corr.toNat + p.hop - nowNs s fine
      let s := wr (wr s SPN_OFFSET_OFFSET (off % 2 ^ 32).toNat) SPN_STAT_CUT_OFF 0
      let s := if off.natAbs ≤ 20 then s else loseAlign (setSpan s (fun x => { x with frameOk := false, goodFrames := 0 }))
      if p.synced then s
      else
        let again := s.span.rejoin
        let s := setSpan (setPort s n { p with synced := true }) (fun x => { x with rejoin := false })
        let s := if again && decide (off.natAbs ≤ 1000) then s else setSpan s (fun x => { x with step := some off })
        if isSet s DSP_CTRL_ENABLE then relock s 1 else s
    else s))

/-- A time-base step that waits applies at a quantum boundary (R544): whole ticks of the offset; the count of R13 has 64 bits. -/
def applyStep (s : State) : State :=
  match s.span.step with
  | none => s
  | some off =>
    { setSpan s (fun x => { x with step := none }) with time := (((s.time : Int) + off / 10) % 2 ^ 64).toNat }

/-- What a frame boundary does to the alignment and the edges (R544, R548, R549). -/
def alignFrame (s : State) : State :=
  let s := if s.span.cutLock then setSpan (wr (setDsp s (fun d => { d with lockRun := 0 })) DSP_STAT_LOCK 1) (fun x => { x with cutLock := false }) else s
  if isMember s && portUp s 0 && (port s 0).synced then
    let s := if isSet s SPN_STAT_ALIGNED then ([0, 1]).foldl (fun s n => setPort s n { port s n with haloWait := false }) s else s
    let x := s.span
    let n := if x.frameOk then x.goodFrames + 1 else 0
    let s := setSpan s (fun x => { x with goodFrames := n, frameOk := true })
    if 8 ≤ n then wr s SPN_STAT_ALIGNED 1 else s
  else s

/-! ### The pace sweep (R545-R547) -/

/-- The commit of a sweep: broadcast and held (R545). -/
def commitSweep (s : State) (pace : Nat) : State :=
  let at' := ceilDiv (s.time + 50000) 25000 * 25000
  let s := broadcast s 0x32 [s.span.sweep, pace, at']
  setSpan (wr s SPN_STAT_SWEEP_PEND 1) (fun x => { x with reports := none, commit := some (x.sweep, pace, at') })

/-- A sweep begins at a frame boundary of the master (R545). -/
def startSweep (s : State) (own : Nat) : State :=
  let n := (s.span.sweep + 1) % 2 ^ 32
  let s := setSpan s (fun x => { x with sweep := n, since := 0, reports := some [], running := x.cmds, cmds := [] })
  let s := wr (wr s SPN_STAT_SWEEP n) PWR_PACE_SUST own
  let s := broadcast s 0x30 [n]
  if rd s SPN_CTRL_COUNT_M1 = 0 then commitSweep s own else s

/-- A frame boundary of the master counts toward the next sweep (R545). -/
def sweepFrame (s : State) (own : Nat) : State :=
  if isMaster s && s.span.period != 0 then
    if s.span.period ≤ s.span.since + 1 then
      (if s.span.reports.isSome || s.span.commit.isSome then setSpan s (fun x => { x with since := x.since + 1 }) else startSweep s own)
    else setSpan s (fun x => { x with since := x.since + 1 })
  else s

/-- PACE_REQ (R465, R545): a member reports the point it can sustain. -/
def execPaceReq (n : Fin 2) (hd : FlitHead) (sweep : BitVec 32) (sust : Fin 7) (s : State) : Out :=
  .next (recvSeq s n hd 0x30 [sweep.toNat] (fun s =>
    if isMember s then
      let s := setSpan (wr (wr s SPN_STAT_SWEEP sweep.toNat) PWR_PACE_SUST sust) (fun x => { x with sweep := sweep.toNat })
      sendSeq s n 0x31 true 0 [sweep.toNat, position s, sust.val]
    else s))

/-- PACE_REPORT (R545): with every member's report in, the master commits the lowest point, its own included. -/
def execPaceReport (n : Fin 2) (hd : FlitHead) (sweep : BitVec 32) (pos op : Fin 256) (own : Fin 7) (s : State) : Out :=
  .next (recvSeq s n hd 0x31 [sweep.toNat, pos.val, op.val] (fun s =>
    match s.span.reports with
    | none => s
    | some l =>
      if isMaster s && s.span.sweep == sweep.toNat && pos.val != 0 && decide (pos.val ≤ rd s SPN_CTRL_COUNT_M1) then
        let l := tset pos.val op.val l
        if l.length = rd s SPN_CTRL_COUNT_M1 then commitSweep s (l.foldl (fun m e => min m e.2) own.val)
        else setSpan s (fun x => { x with reports := some l })
      else s))

/-- PACE_COMMIT (R545). -/
def execPaceCommit (n : Fin 2) (hd : FlitHead) (sweep : BitVec 32) (pace : Fin 256) (applyAt : BitVec 64) (s : State) : Out :=
  .next (recvSeq s n hd 0x32 [sweep.toNat, pace.val, applyAt.toNat] (fun s =>
    if isMember s then
      setSpan (wr s SPN_STAT_SWEEP_PEND 1) (fun x => { x with commit := some (sweep.toNat, pace.val, applyAt.toNat) })
    else s))

/-- PACE_ABORT (R546, R548; log entry 166): the master discards its sweep and tells the devices it still reaches; a member drops
its commit, and one that hears it on SPAN0 from another member has lost the path to the master. -/
def execPaceAbort (n : Fin 2) (hd : FlitHead) (sweep : BitVec 32) (s : State) : Out :=
  .next (recvSeq s n hd 0x33 [sweep.toNat] (fun s =>
    if isMaster s then broadcast (discardSweep s) 0x33 [sweep.toNat]
    else
      let s := dropCommit s
      if isMember s && n == 0 && hd.src != 0 then cutOff (setPort s 0 { port s 0 with synced := false }) else s))

/-- PACE_REPORT_TIMEOUT (R545, R546): a report is missing 1 ms after PACE_REQ. -/
def execPaceReportTimeout (s : State) : Out :=
  if isMaster s && s.span.reports.isSome then .next (discardSweep s) else .next s

/-- PACE_APPLY (R465, R545): the commit is the cap from APPLY_AT on. -/
def execPaceApply (s : State) : Out :=
  match s.span.commit with
  | none => .next s
  | some c =>
    if s.time < c.2.2 then .next s
    else
      let changed := rd s PWR_PACE_COMMITTED != c.2.1
      let s := wr (tick (dropCommit s) PWR_PACE_SWEEPS) PWR_PACE_COMMITTED c.2.1
      let s := if changed then wr s PWR_EVT_STAT_PACE_CHANGED 1 else s
      .next (endSweepCmds s false)

/-! ### Packets and registers -/

/-- Does PORTS enable exactly the ports of R533 at a position? -/
def portsFit (role pos count ports : Nat) : Bool :=
  if role = 0 then ports == 0 else ports == (if pos = 0 then 0 else 1) + (if pos + 1 = count then 0 else 2)

/-- SPN_CTRL's new values taken (R534, R546, R550): a change of role discards the sweep or commit; enabled ports train; on a
device that stands alone no pace is committed. -/
def applySpan (s : State) (role pos countM1 ports : Nat) : State :=
  let changes := rd s SPN_CTRL_ROLE != role
  let s := if changes then (if isMaster s then discardSweep (endWaitingSweeps s) else dropCommit s) else s
  let s := wr (wr (wr s SPN_CTRL_ROLE role) SPN_CTRL_POSITION pos) SPN_CTRL_COUNT_M1 countM1
  let s := wr (wr s SPN_CTRL_EN_0 (bits ports 0 1)) SPN_CTRL_EN_1 (bits ports 1 1)
  let s := wr s PWR_PACE_CHAINED (if role = 0 then 0 else 1)
  let s := if changes then wr (wr s SPN_STAT_ALIGNED (b2n (role == 1))) SPN_STAT_CUT_OFF 0 else s
  let s := if role = 0 then wr s PWR_PACE_COMMITTED 7 else s
  let s := if role = 1 then wr s SPN_OFFSET_OFFSET 0 else s
  ([0, 1]).foldl (fun s n =>
    if portEn s n then (if changes || decide (rd s (SPN_PORT_STAT_STATE n) = 0) then startTraining s n else s)
    else wr (wr (setPort s n {}) (SPN_PORT_STAT_STATE n) 0) (SPN_PORT_STAT_WIDTH n) 0) s

/-- SPAN_CONFIG's checks and effect (R534, R550). -/
def configSpan (role pos count ports : Nat) (c : Cmd) (s : State) : State :=
  if 2 < role ∨ 3 < pos ∨ count = 0 ∨ 4 < count ∨ (role = 1 ∧ pos ≠ 0) ∨ (role = 2 ∧ pos = 0) ∨ (role = 0 ∧ (count ≠ 1 ∨ ports ≠ 0)) ∨
     count ≤ pos ∨ portsFit role pos count ports = false then complete s c 0x21 {}
  else complete (applySpan s role pos (count - 1) ports) c 0 {}

/-- SPAN_CONFIG (R534). -/
def execSpanConfig (h : Pkt) (role pos count ports : Fin 256) (s : State) : Out :=
  .next (withPkt s h 0x80 0 .any true (configSpan role pos count ports))

/-- PACE_SWEEP's checks and effect (R547). -/
def sweepPace (period : Nat) (c : Cmd) (s : State) : State :=
  let down := (portEn s 0 && !portUp s 0) || (portEn s 1 && !portUp s 1)
  if !isMaster s || down || decide (65535 < period) then complete s c 0x21 {}
  else if period = 0 then
    complete (endWaitingSweeps (setSpan s (fun x => { x with period := 0 }))) c 0 { r2 := rd s PWR_PACE_COMMITTED }
  else setSpan s (fun x => { x with period, since := 0, cmds := x.cmds ++ [c] })

/-- PACE_SWEEP (R547). -/
def execPaceSweep (h : Pkt) (period : BitVec 32) (s : State) : Out := .next (withPkt s h 0x81 0 .any true (sweepPace period.toNat))

/-- SPN_PORT_STAT_READ (R552). -/
def execSpnPortStatRead (n : Fin 2) (s : State) : Out :=
  let v := rd s (SPN_PORT_STAT_STATE n) * 2 ^ 29 + rd s (SPN_PORT_STAT_WIDTH n) * 2 ^ 27 + rd s (SPN_PORT_STAT_REVERSED n) * 2 ^ 26 +
    rd s (SPN_PORT_STAT_RETRAIN n) * 2 ^ 8 + rd s (SPN_PORT_STAT_FAR_POS n) * 2 ^ 4
  .next (emit (wr s (SPN_PORT_STAT_RETRAIN n) 0) (.value v))

/-- SPN_PORT_ERR_READ (R552). -/
def execSpnPortErrRead (n : Fin 2) (s : State) : Out :=
  .next (emit (wr (wr s (SPN_PORT_ERR_CRC_ERR n) 0) (SPN_PORT_ERR_REPLAY n) 0)
    (.value (rd s (SPN_PORT_ERR_CRC_ERR n) * 2 ^ 16 + rd s (SPN_PORT_ERR_REPLAY n))))

/-- SPN_HALO_READ (R552). -/
def execSpnHaloRead (n : Fin 2) (s : State) : Out := .next (emit (wr s (SPN_HALO_MISS n) 0) (.value (rd s (SPN_HALO_MISS n))))

end Sys2Proof.Machine
end

