-- ==== Sys2Proof/Machine/Display.lean ====
section
/-!
DEFINITION. Sys2Proof/Machine/Display.lean: the commands of the line-locked display engine: line ticks and the entries of the
tick programs, frame boundaries, the input side, the links, the three display packets (spec/05_line_locked_display.md).
-/
namespace Sys2Proof.Machine
open Reg

/-! ### The line tick (R154, R164, R182, R544) -/

/-- The master's TICK_SYNC of a line tick (R544). -/
def tickSync (s : State) (t fine : Nat) : State :=
  if isMaster s && t % 16 == 0 then
    ([0, 1]).foldl (fun s n =>
      if portUp s n then sendUnseq s n 0x22 true 0xF [rd s DSP_FRAME_CNT_FRAMES, t, 0, nowNs s fine, 0] else s) s
  else s

/-- The check a tick makes: that of line t - 37, which is then closed for segments (R179, R182). -/
def tickCheck (s : State) (c : DisplayCfg) (t : Nat) (read : Bool) : State :=
  if 37 ≤ t ∧ t < 37 + c.vActive then
    let y := t - 37
    setDsp (checkLine s c y read) (fun d => { d with checked := y + 1, segs := tdel y d.segs })
  else s

/-- What an active line period t - 40 does: the line leaves, a link that is not trained is counted (R156, R179, R193). -/
def tickSend (s : State) (c : DisplayCfg) (t : Nat) : State :=
  if 40 ≤ t ∧ t < 40 + c.vActive then countLinkLost (sendLine s c (t - 40)) c else s

/-- LINE_TICK (R154, R164, R179, R182): the tick's program is due, line t - 37 is checked, line t - 40 leaves. `dramLate`: a read of
the display region that the line needed did not complete in time (R185, R190); `ev`: what link ECC found in these reads (R195, R262). -/
def execLineTick (dramLate : Bool) (ev : SegEvent) (fine : Fin 10) (s : State) : Out :=
  match s.dsp.cfg with
  | none => .next s
  | some c =>
    let t := s.dsp.tick
    if !isSet s DSP_CTRL_ENABLE || rd s BMC_STAT_STAGE == 7 || rd s DSP_FRAME_CNT_FRAMES == 0 || decide (c.vTotal ≤ t) then .next s
    else
      let s := match activeArm s with
        | some a => setDsp s (fun d => { d with prog := d.prog ++ tickProgram s a t })
        | none => s
      let s := if dramLate then wr (wr s DSP_EVT_STAT_DRAM_LATE 1) MEM_EVT_STAT_DISP_MISS 1 else s
      let e := segEvent s 0 ev
      let s := tickSend (tickCheck e.1 c t (!dramLate && !e.2)) c t
      .next (refreshSource (tickSync (setDsp s (fun d => { d with tick := t + 1, floorWait := false })) t fine))

/-! ### Entries of a tick program (R164-R166, R182): each acts when it is the next entry due -/

/-- DISPATCH (R166). -/
def execDispatch (s : State) : Out :=
  match s.dsp.prog with
  | .dispatch cl c t im p :: _ => .next (dispatchEntry (popEntry s) cl c t im p)
  | _ => .next s

/-- Cluster whose engine serves a MOVE entry: that of its T0 or T1 endpoint, else P0's first. -/
def entryCluster (s : State) (d : Desc) : Option Nat :=
  if d.dstTier ≤ 1 then physOf s (bits d.dst 20 5)
  else if d.srcTier ≤ 1 then physOf s (bits d.src 20 5)
  else armPhys s 0

/-- A component as the network takes it, in bytes (R172): IN_FMT 6 BF16, else INT8. -/
def inBytes (inFmt c : Nat) : List Nat :=
  if inFmt = 6 then toLe (convertTo 6 false 0 (flDiv (flOfInt c) (flOfInt 4095))).code 2
  else [((max (-127) (min 127 (rneDiv (c : Int) 16 - 128))) % 256).toNat]

/-- The halo columns of a row at a shared edge (R540, R541): none of them at an edge that is not shared, `none` while they are not
in. -/
def haloCols (s : State) (port n y : Nat) : Option (List Pixel) :=
  if portEn s port && haloIn s != 0 then tfind (haloKey port n y) s.span.halos else some []

/-- A row in the line store as an Armature reads it: in a chain the halo columns lie beside the device's own (R540; log entry
167). -/
def chainRow (s : State) (c : DisplayCfg) (n y : Nat) : Option (List Pixel) :=
  match haloCols s 0 n y, storedRow s c n y, haloCols s 1 n y with
  | some a, some l, some b => some (a ++ l ++ b)
  | _, _, _ => none

/-- The pixels a feed reads from a column on (R164, R172): from the display region in interpolation, else from the line store. -/
def feedRow (s : State) (c : DisplayCfg) (f : Feed) : Option (List Pixel) :=
  let n := contentFrame s + b2n f.later
  (if superRes s then chainRow s c n f.row else readRegionRow s c n f.row).map (fun l => l.drop f.col)

/-- The display DMA's move from the input to a P0 memory (R164, R172, R256): the destination of the descriptor takes the pixels' R, G
and B in turn (DESIGN CHOICE, log entry 153); bytes the input does not give are free. -/
def feedMove (s : State) (n : Nat) (a : Armature) (c : DisplayCfg) (d : Desc) (f : Feed) : State :=
  match (if descBad d false then none else endpoint s n (some 0) 0 d.dstTier d.dst) with
  | none => s
  | some e =>
    if d.dstTier ≤ 1 ∧ isCopy d ∧ d.comp = 0 ∧ needDst d ≤ e.room then
      let l := ((feedRow s c f).getD []).flatMap (fun p : Pixel => inBytes a.inFmt p.a ++ inBytes a.inFmt p.b ++ inBytes a.inFmt p.c)
      let k := descBytes d
      let x := (List.range (k - l.length)).foldl (fun (acc : List Nat × State) _ => let p := fresh acc.2; (acc.1 ++ [p.1], p.2)) (l.take k, s)
      let s := writePlain x.2 d e (x.1.map (BitVec.ofNat 8))
      if bit d.flags 0 then addCredit s (coreNo n (bits d.dst 14 6)) (bit d.flags 1) (max 1 d.creditN) else s
    else s

/-- MOVE_ENTRY (R164): a display DMA move from the input (`feed`), the display DMA move that the SEGMENT after it declares, or a
cluster DMA move in a queue of the Plinth's (log entries 79, 153). -/
def execMoveEntry (feed : Option Feed) (s : State) : Out :=
  match s.dsp.prog with
  | .move i :: next =>
    let s := popEntry s
    match activeArm s, s.dsp.cfg with
    | some a, some c =>
      (match a.descs[i]? with
       | none => .next s
       | some d =>
         match next, entryCluster s d with
         | .segment .. :: _, _ => .next (setDsp s (fun x => { x with lineMove := some d }))
         | _, none => .next s
         | _, some n =>
           match feed with
           | some f => .next (feedMove s n a c d f)
           | none => .next (queuePlinth s n { desc := d, owner := .entry }))
    | _, _ => .next s
  | _ => .next s

/-- CREDIT_ENTRY (R71, R164). -/
def execCreditEntry (s : State) : Out :=
  match s.dsp.prog with
  | .credit cl c out n :: _ =>
    let s := popEntry s
    match armPhys s cl with
    | none => .next s
    | some p => .next (addCredit s (coreNo p c) out n)
  | _ => .next s

/-- The pixels in the bytes a display DMA move reads: R, G and B of each in turn, an INT8 or a BF16 code each (R173; log entry
153). -/
def codePixels (direct : Bool) : List Nat → List Pixel
  | a :: b :: c :: t =>
    if direct then
      (match t with
       | d :: e :: f :: t => ⟨a + 256 * b, c + 256 * d, e + 256 * f⟩ :: codePixels direct t
       | _ => [])
    else ⟨a, b, c⟩ :: codePixels direct t
  | _ => []

/-- Core whose memory a T0 source is in. -/
def sourceCore (s : State) (d : Desc) : Option Nat :=
  if d.srcTier = 0 then (physOf s (bits d.src 20 5)).map (fun n => coreNo n (bits d.src 14 6)) else none

/-- The bytes of a line's segment (R164, R166): none when the unit that should have made them was abandoned or has failed, or a
word is poisoned (R43, R195; their cores until a new unit starts there: DEDUCED, log entry 154). -/
def segmentData (s : State) (d : Desc) : Option (List Nat) × State :=
  match entryCluster s d with
  | none => (none, s)
  | some n =>
    let lost := match sourceCore s d with | some cn => s.dsp.stale.contains cn | none => false
    match (if lost || descBad { d with dst := 0, dstTier := 1, flags := 0 } false || !isCopy d || d.comp != 0 then none
           else endpoint s n (some 0) 0 d.srcTier d.src) with
    | none => (none, s)
    | some e =>
      if e.host ∨ e.room < needSrc d then (none, s)
      else
        let r := readBytes (sourceAddrs d e 0 (descBytes d)) s
        (if r.2 then none else some ((List.range (descBytes d)).map (fun k => (epRb s e (srcOff d k)).toNat)), settleAllDoomed r.1)

/-- SEGMENT (R164, R173, R182): the move before it writes its source's pixels as segment k of line y, or in a two-line entry half of
them of each of the lines y and y + 1. `wrote`: false, the move wrote nothing. -/
def execSegment (wrote : Bool) (s : State) : Out :=
  match s.dsp.prog with
  | .segment y k two :: _ =>
    let mv := s.dsp.lineMove
    let s := setDsp (popEntry s) (fun x => { x with lineMove := none })
    match activeArm s, (if wrote then mv else none) with
    | some a, some d =>
      let r := segmentData s d
      (match r.1 with
       | none => .next r.2
       | some bytes =>
         let l := codePixels a.direct bytes
         if two then .next (acceptSegment (acceptSegment r.2 y k (l.take (l.length / 2))) (y + 1) k (l.drop (l.length / 2)))
         else .next (acceptSegment r.2 y k l))
    | _, _ => .next s
  | _ => .next s

/-- FRAME (R165). -/
def execFrame (s : State) : Out :=
  match s.dsp.prog with
  | .frame off :: _ => .next (frameEntry (popEntry s) off)
  | _ => .next s

/-! ### The frame boundary (R158, R162, R170, R184, R188, R192) -/

/-- The region takes `need` granules at the top of T2, DISP set and V clear (R191, R250; log entry 155). -/
def setRegion (s : State) (need : Nat) : State :=
  let top := granCount s
  let s := (List.range (s.dsp.region - need)).foldl (fun s i => setGran s (top - s.dsp.region + i) 0) s
  let s := (List.range need).foldl (fun s i => setGran s (top - need + i) (2 ^ 14)) s
  setDsp s (fun d => { d with region := need })

/-- A configuration takes effect (R158, R191, R193, R202): the fill colour, the coefficients, the taps' sizes, a smaller region; an
input period beyond the tracking range relocks. -/
def applyCfg (s : State) (c : DisplayCfg) : State :=
  let moved := match s.dsp.cfg with
    | some o => decide (3 * o.inFrameNs < 1000 * (if o.inFrameNs ≤ c.inFrameNs then c.inFrameNs - o.inFrameNs else o.inFrameNs - c.inFrameNs))
    | none => false
  let other := match s.dsp.cfg with
    | some o => (o.iw, o.ih, o.dualIn) != (c.iw, c.ih, c.dualIn) || regionNeed o != regionNeed c
    | none => true
  let s := setDsp s (fun d => { d with cfg := some c, next := none, coef := match c.coef with | some l => some l | none => d.coef })
  let s := setRegion (if other then setDsp s (fun d => { d with rows := [], rxRow := [], fallback := [], regionRows := [] }) else s) (regionNeed c)
  let s := wr (wr (wr s DSP_FILL_RED (bits c.fill 20 10)) DSP_FILL_GREEN (bits c.fill 10 10)) DSP_FILL_BLUE (bits c.fill 0 10)
  let s := ([0, 1]).foldl (fun s n =>
    let w := if c.dualIn then c.iw / 2 else c.iw
    if ctxState s n = 0 then openCtx s n { w, h := c.ih, tp := c.inFrameNs / 1000 } false
    else setCtx s n { ctx s n with w, h := c.ih, tp := c.inFrameNs / 1000 }) s
  if moved then relock s (if inputOk s then 1 else 0) else s

/-- Does a bank swap wait: at the next boundary, or in a DISPLAY_MODE accepted? -/
def swapWaits (s : State) : Bool := isSet s DSP_STAT_ARM_PEND || s.dsp.modes.any (fun m => m.2.1.swap)

/-- P0's clusters may leave at this frame boundary (R162): the neural path is off and no swap waits, or the swap just made
brought an Armature that fits. -/
def mayLeave (s : State) (swapped : Bool) : Bool :=
  (!isSet s DSP_CTRL_NEURAL_EN && !swapWaits s) ||
    (swapped && (match activeArm s, tfind 0 s.parts with
      | some a, some x => decide (a.clusters ≤ x.logical.length)
      | _, _ => false))

/-- A requested retry (R186). -/
def retryNow (s : State) : State := if isSet s DSP_CTRL_RETRY_NOW then dropCause (wr s DSP_CTRL_RETRY_NOW 0) 1 else s

/-- What changes hands at a frame base: modes, configuration, banks, clusters, causes (R162, R170, R186, R192, R193). -/
def frameChanges (s : State) : State :=
  let s := applyModes s (rd s DSP_FRAME_CNT_FRAMES + 1)
  let s := match s.dsp.next with | some c => applyCfg s c | none => s
  let swapped := isSet s DSP_STAT_ARM_PEND
  let s := checkClusters (checkArmature (swapBank s))
  let s := restoreClusters (settleResize s 0 (mayLeave s swapped))
  retryNow s

/-- P0's smoothing settings as its registers stand take effect (R84). -/
def smoothP0 (s : State) : State := { s with pwr := { s.pwr with smooth := tset 0 (smoothCode s 0) s.pwr.smooth } }

/-- The DSP registers at their offsets in the PF's window (R196, R425). -/
def dspMirror (s : State) : List (Nat × Nat) :=
  (List.range 64).map (fun i => (0x1000 + 4 * i,
    ((fieldsAt (0x31000000 + 4 * i)).map (fun f => if f.acc = .wo then 0 else rd s f * 2 ^ f.lo)).foldl (· + ·) 0))

/-- The published copy of a window with the DSP mirror as it stands now (R196, R382); a Plinth that restarts publishes nothing. -/
def publishMirror (s : State) : State :=
  if isSet s (HIF_STAT_STALE 0) then s
  else
    let f := fnSt s 0
    setFn s 0 { f with pub := f.pub.filter (fun e => decide (e.1 < 0x1000)) ++ dspMirror s }

/-- OUTPUT_FRAME_BOUNDARY (R157, R184, R170, R188): `base` is the moment of B(j) in ps, `peak` and `mean` the DRAM use of the frame
that ended, `sust` the point this device can sustain (R545), `errs0` and `errs1` the symbol errors of the transmit links since the last
boundary (R197). -/
def execOutputFrameBoundary (base : Nat) (peak mean : BitVec 16) (sust : Fin 7) (errs0 errs1 : Nat) (s : State) : Out :=
  match s.dsp.cfg with
  | none => .next s
  | some _ =>
    if !isSet s DSP_CTRL_ENABLE then .next s
    else
      let s := if rd s DSP_FRAME_CNT_FRAMES = 0 then s else publishFrame s
      let s := frameChanges (clearCounters (bump (bump s (DSP_TX_STAT_ERR_CNT 0) errs0) (DSP_TX_STAT_ERR_CNT 1) errs1))
      let s := recastPoison s
      let s := match s.dsp.cfg with | some c => noteLock s (lockError s c base) | none => s
      let s := smoothP0 s
      .next (publishMirror (refreshSource (startFrame (sweepFrame (alignFrame (neuralReturn s)) sust.val) peak.toNat mean.toNat)))

/-- LATE_RETRY (R186): AUTO_RETRY * 16 frames after the takeover. -/
def execLateRetry (s : State) : Out :=
  let n := rd s DSP_CTRL_AUTO_RETRY
  if hasCause s 1 && n != 0 && decide (16 * n ≤ s.dsp.sinceLate) then .next (dropCause s 1) else .next s

/-- RETRY_NOW (R186): at the next frame boundary. -/
def execRetryNow (s : State) : Out := .next (wr s DSP_CTRL_RETRY_NOW 1)

/-- DSP_CNT_CLR (R197): at the next frame boundary. -/
def execDspCntClr (s : State) : Out := .next (wr s DSP_CNT_CLR_CLR 1)

/-- DSP_CTRL.ENABLE (R156, R165, R190): output starts with frame count 0 and input frames count from 0. -/
def dspEnable (s : State) (on : Bool) : State :=
  let was := isSet s DSP_CTRL_ENABLE
  let s := wr (wr s DSP_CTRL_ENABLE (b2n on)) MEM_STAT_DISP_LIVE (b2n on)
  let s := if on && !was then
      setDsp (wr s DSP_FRAME_CNT_FRAMES 0) (fun d =>
        { d with
          inFrames := 0, inFrames1 := 0, tick := 0, checked := 0, late := 0, taken := 0, lateFrames := 0, segs := [], prog := [],
          lineMove := none, rows := [], rxRow := [], fallback := [], regionRows := [], lastLines := [], linkBuf := [] })
    else s
  refreshSource s

/-- DSP_ENABLE (R156). -/
def execDspEnable (on : Bool) (s : State) : Out := .next (dspEnable s on)

/-! ### The input (R149, R157, R158, R172, R176-R178, R202) -/

/-- The input leaves the tracking range (R158, R186): the output runs free. -/
def unlockInput (s : State) : State := relock (wr s DSP_EVT_STAT_INPUT_UNLOCKED 1) 0

/-- A frame of the picture's input begins at `start` ps (R157, R158): its period is measured; one in range starts the lock, one out
of range ends it. -/
def pictureFrame (s : State) (start linePeriod : Nat) : State :=
  let d := s.dsp
  let inPeriod := if d.inFrames = 0 ∨ d.inLost = true ∨ start ≤ d.inStart then 0 else start - d.inStart
  let s := setDsp s (fun d => { d with inFrames := d.inFrames + 1, inStart := start, inPeriod, linePeriod, inLost := d.inLost && !inputOk s })
  let s := if !inTrack s then unlockInput s else if rd s DSP_STAT_LOCK = 0 then wr s DSP_STAT_LOCK 1 else s
  refreshSource (dropHalos s (s.dsp.inFrames - 1))

/-- INPUT_FRAME_START (R157, R158, R197, R202): S(n) of a receive port at `start` ps, with the measured line period in ps, the symbol
errors since its last frame, and whether the stream is compressed. The picture's frames are those of RX0. -/
def execInputFrameStart (rx : Fin 2) (start linePeriod errs : Nat) (dsc : Bool) (s : State) : Out :=
  let s := wr (wr s (if rx.val = 0 then DSP_STAT_IN_OK_0 else DSP_STAT_IN_OK_1) 1) (DSP_RX_STAT_VIDEO rx.val) 1
  let s := bump (wr s (DSP_RX_STAT_DSC rx.val) (b2n dsc)) (DSP_RX_STAT_ERR_CNT rx.val) errs
  let s := if rx.val = 0 then pictureFrame s start linePeriod
    else refreshSource (setDsp s (fun d => { d with inFrames1 := d.inFrames1 + 1, inLost := d.inLost && !inputOk s }))
  .next (tapTick s rx.val)

/-- A row of the picture at 12 bits from one port (R172, R176, R181, R540): into the line store; with it the fallback lines it
completes, in interpolation the display region, and its edge columns to the neighbours. -/
def takeRow (s : State) (c : DisplayCfg) (rx y : Nat) (l : List Pixel) : State :=
  let f := if rx = 0 then s.dsp.inFrames else s.dsp.inFrames1
  if f = 0 ∨ c.ih ≤ y ∨ (picturePorts s).contains rx = false then s
  else
    let n := f - 1
    let s := storeRow s rx n y (l.take (if c.dualIn then c.iw / 2 else c.iw))
    match storedRow s c n y with
    | none => s
    | some row =>
      let s := if superRes s then formFallback s c n y else if c.interp then writeRegionRow s c n y row else s
      sendHalos s n y row

/-- A received row: one of a 4:2:0 picture's odd rows waits for the row below it, whose chroma it also takes (R172). -/
def receiveRow (s : State) (c : DisplayCfg) (rx : Nat) (x : RxRow) : State :=
  if x.kind.sampling ≠ .s420 then takeRow (setDsp s (fun d => { d with rxRow := tdel rx d.rxRow })) c rx x.row (rgbRow x.kind x.depth x.pixels x.pixels x.pixels)
  else
    let last := tfind rx s.dsp.rxRow
    let s := setDsp s (fun d => { d with rxRow := tset rx x d.rxRow })
    if x.row % 2 = 0 then
      let s := match last with
        | some o => if o.row + 1 = x.row then takeRow s c rx o.row (rgbRow o.kind o.depth o.pixels o.above x.pixels) else s
        | none => s
      takeRow s c rx x.row (rgbRow x.kind x.depth x.pixels x.pixels x.pixels)
    else
      let above := match last with | some o => if o.row + 1 = x.row then o.pixels else [] | none => []
      if x.row + 1 = c.ih then takeRow s c rx x.row (rgbRow x.kind x.depth x.pixels above [])
      else setDsp s (fun d => { d with rxRow := tset rx { x with above } d.rxRow })

/-- INPUT_ROW_RECEIVED (R149, R151, R172, R176, R540): an active row of a receive port, its pixels as decoded from the link. -/
def execInputRowReceived (rx : Fin 2) (row : Fin 16384) (kind : PixelKind) (depth : Nat) (pixels : List Pixel) (s : State) : Out :=
  match s.dsp.cfg with
  | none => .next s
  | some c => .next (receiveRow s c rx { row, kind, depth, pixels, above := [] })

/-- INPUT_LOST (R158, R185, R186): input video stopped. -/
def execInputLost (rx : Fin 2) (s : State) : Out :=
  let s := wr (wr s (if rx.val = 0 then DSP_STAT_IN_OK_0 else DSP_STAT_IN_OK_1) 0) (DSP_RX_STAT_VIDEO rx.val) 0
  if (picturePorts s).contains rx.val then
    let s := setDsp (wr s DSP_EVT_STAT_INPUT_LOST 1) (fun d => { d with inLost := true })
    .next (refreshSource (relock s 0))
  else .next s

/-- INPUT_UNLOCKED (R158, R186): the input's last measured period is outside the tracking range. -/
def execInputUnlocked (s : State) : Out := if inTrack s then .next s else .next (refreshSource (unlockInput s))

/-- Blocks of the motion field of an input (R177, R178). -/
def fieldBlocks (c : DisplayCfg) : Nat := ceilDiv c.iw 32 * ceilDiv c.ih 32

/-- Are an entry's vectors within the search's reach (R177): at most 128 pixels horizontally and 64 vertically? -/
def vectorsOk (e : Nat) : Bool :=
  let fits := fun (w lo lim : Nat) => let v := signExt w (bits e lo w); decide (-(lim : Int) ≤ v) && decide (v ≤ lim)
  fits 10 54 128 && fits 9 45 64 && fits 10 35 128 && fits 9 26 64

/-- MOTION_FIELD_DONE (R177, R178): the field of the last two input frames (bits 63-10 of its entries; the search's results, whose
matching and refinement R177 does not give bit by bit, are the operand) lies in the display region after the frames (log entries 9,
71). -/
def execMotionFieldDone (field : List (BitVec 54)) (s : State) : Out :=
  match s.dsp.cfg with
  | none => .next s
  | some c =>
    let l := (List.range (fieldBlocks c)).map (fun i => (field.getD i 0).toNat * 1024)
    if c.interp && !superRes s && decide (2 ≤ s.dsp.inFrames) && l.all vectorsOk then
      let base := regionBase s c + 3 * c.iw * c.ih * 4
      let s := setDsp s (fun d => { d with field := l })
      let s := (l.zipIdx).foldl (fun s e => (List.range 8).foldl (fun s i =>
        devWb s (base + 8 * e.2 + i) (BitVec.ofNat 8 (bits e.1 (8 * i) 8))) s) s
      .next (wroteRange s base (8 * l.length))
    else .next s

/-! ### The links (R149, R193, R194) -/

/-- TX_LINK_LOST (R194): the engine retrains the link on its own. -/
def execTxLinkLost (n : Fin 2) (s : State) : Out := .next (wr (untrainTx s n) DSP_EVT_STAT_TX_RETRAIN 1)

/-- TX_LINK_TRAINED (R150, R193, R194): the link carries the configuration's rate, lanes and compression. -/
def execTxLinkTrained (n : Fin 2) (s : State) : Out :=
  match s.dsp.cfg with
  | none => .next s
  | some c =>
    if c.links ≤ n.val then .next s
    else
      let s := wr (wr (wr s (DSP_TX_STAT_TRAINED n) 1) (DSP_TX_STAT_RATE n) c.txRate) (DSP_TX_STAT_LANES n) (if c.txLanes = 4 then 3 else c.txLanes)
      let s := wr (wr (wr s (DSP_TX_STAT_DSC n) (b2n (c.dscBpp != 0))) (DSP_TX_STAT_EDP n) (b2n c.edp)) (DSP_TX_STAT_ERR_CNT n) 0
      .next (wr (wr s (DSP_TX_STAT_VIDEO n) (rd s DSP_CTRL_ENABLE)) (if n.val = 0 then DSP_STAT_TX_UP_0 else DSP_STAT_TX_UP_1) 1)

/-- RX_LINK_RETRAIN (R149, R197): a receive link trains at a rate and a lane code; rate 0 leaves it untrained. -/
def execRxLinkRetrain (n : Fin 2) (rate : Fin 8) (lanes : Fin 4) (s : State) : Out :=
  let s := wr (wr s (DSP_RX_STAT_RATE n) rate) (DSP_RX_STAT_LANES n) (if rate.val = 0 then 0 else lanes)
  .next (wr (wr (wr s (DSP_RX_STAT_TRAINED n) (b2n (rate.val != 0))) (DSP_RX_STAT_ERR_CNT n) 0) DSP_EVT_STAT_RX_RETRAIN 1)

/-! ### The packets (R153, R168, R169, R191-R193) -/

/-- May the region grow downward to `need` granules (R191)? -/
def regionFits (s : State) (need : Nat) : Bool :=
  decide (need ≤ granCount s) &&
    (List.range (need - s.dsp.region)).all (fun (i : Nat) => !gV (gEntry s (granCount s - need + i)))

/-- DISPLAY_CONFIG's checks and effect (R153, R159, R191, R193): a larger region is taken at once, a smaller one at the boundary;
coefficients that an earlier configuration still waiting has brought stay. -/
def configDisplay (c : DisplayCfg) (cmd : Cmd) (s : State) : State :=
  let paced := match activeArm s with | some a => paceOk s a c | none => true
  if !configOk c || !paced then complete s cmd 0x21 {}
  else if !regionFits s (regionNeed c) then complete s cmd 0x31 {}
  else
    let now := match s.dsp.cfg with | some o => regionNeed o | none => 0
    let s := setRegion s (max now (regionNeed c))
    let c := match c.coef, s.dsp.next with
      | none, some o => { c with coef := o.coef }
      | _, _ => c
    let retrain := match s.dsp.cfg with | some o => retrains o c | none => true
    let s := if retrain then applyCfg (([0, 1]).foldl untrainTx s) c
      else if isSet s DSP_CTRL_ENABLE then setDsp s (fun d => { d with next := some c })
      else applyCfg s c
    complete (dspEnable s c.enable) cmd 0 {}

/-- DISPLAY_CONFIG (R152, R153, R415). -/
def execDisplayConfig (h : Pkt) (c : DisplayCfg) (s : State) : Out := .next (withPkt s h 0x58 0 .any true (configDisplay c))

/-- The bank that is not active loaded or emptied (R169). -/
def setStandby (s : State) (a : Option Armature) : State :=
  setDsp s (fun d => if isSet s DSP_STAT_ARM_BANK then { d with bank0 := a, fresh0 := a.isSome } else { d with bank1 := a, fresh1 := a.isSome })

/-- Does an entry of a tick program keep its bounds (R164, R165, R327)? -/
def entryOk (a : Armature) : ArmEntry → Bool
  | .dispatch l c t im _ => decide (l < 32) && decide (c < 64) && decide (t < 8) && decide (im < 1024)
  | .move i => decide (i < a.descs.length)
  | .credit l c _ n => decide (l < 32) && decide (c < 64) && decide (1 ≤ n) && decide (n ≤ 255)
  | .segment y k _ => decide (y < 16384) && decide (k < 256)
  | .frame o => o % 16 == 0 && decide (o < 2 ^ 20)

/-- Does an Armature section keep the ranges of R163, R326 and R327? `formatOk`: its magic, offsets and rsvd bytes do. -/
def armatureOk (m : Manifest) (a : Armature) : Bool :=
  let map' := fun (l : List Nat) => l.length == a.ntick && l.all (fun p => p == 65535 || decide (p < a.progs.length))
  a.formatOk && a.armId != 0 && decide (a.modeIdx < m.nmode) && decide (4 ≤ a.clusters) && decide (a.clusters ≤ 12) && decide (a.haloIn ≤ 16) &&
  decide (a.rshift ≤ 4) && (a.inFmt == 0 || a.inFmt == 6) && decide (1 ≤ a.segs) && decide (a.segs ≤ 256) &&
  (a.links == 1 || a.links == 2) && (a.depth == 8 || a.depth == 10 || a.depth == 12) &&
  decide (1 ≤ a.p) && decide (a.p ≤ 255) && decide (1 ≤ a.q) && decide (a.q ≤ 255) && a.ntick == a.vTotal &&
  decide (1 ≤ a.progs.length) && decide (a.progs.length ≤ 4096) && decide (a.descs.length ≤ 4096) &&
  a.progs.all (fun p => decide (1 ≤ p.length) && decide (p.length ≤ 1024) && p.all (entryOk a)) &&
  map' a.ticks && (a.pzTicks.isEmpty || map' a.pzTicks)

/-- The first failing check of R168, in its table's order; a handle or mode index that names nothing of P0's, or a handle no command
may name (R339, R343), is BAD_PARAM. -/
def scheduleFailure (s : State) (handle modeIdx : Nat) : Nat ⊕ Armature :=
  match tfind handle s.handles with
  | none => .inl 0x21
  | some x =>
    match x.man.arms.find? (fun a => a.modeIdx == modeIdx) with
    | none => .inl 0x21
    | some a =>
      if x.man.kind ≠ 3 ∨ x.part ≠ 0 ∨ x.st = 2 ∨ forcedOut x = true then .inl 0x21
      else if !x.verified || x.st != 1 || a.binding != x.man.content then .inl 0x41
      else if a.proofOp ≠ 2 ∨ 850 < a.proofUtil ∨ 2400 < a.dramBudget then .inl 0x21
      else
        match s.dsp.cfg with
        | none => .inl 0x21
        | some c =>
          if !modeEq a c || !paceOk s a c then .inl 0x21
          else if (p0Clusters s).length < a.clusters then .inl 0x31
          else if !armatureOk x.man a then .inl 0x22
          else .inr a

/-- DISPLAY_SCHEDULE's checks and effect (R168, R169): a refusal leaves the standby bank empty. -/
def scheduleDisplay (handle modeIdx : Nat) (cmd : Cmd) (s : State) : State :=
  match scheduleFailure s handle modeIdx with
  | .inl st => complete (setStandby s none) cmd st {}
  | .inr a => complete (setStandby s (some a)) cmd 0 {}

/-- DISPLAY_SCHEDULE (R152, R168). -/
def execDisplaySchedule (h : Pkt) (handle modeIdx : Fin 256) (s : State) : Out :=
  .next (withPkt s h 0x59 0 .any true (scheduleDisplay handle modeIdx))

/-- Does every phase but 0 of an interpolation setting leave time for reception (R175): phi * Tin >= A_in + 64 ticks, in ps times
65,536 P and the pixel rate? A_in is the active rows at the measured line period. -/
def phasesOk (s : State) (c : DisplayCfg) (m : DisplayMode) : Bool :=
  (m.p == m.q && m.phi0 == 0) ||
    (List.range m.p).all (fun (j : Nat) =>
      let phi := (m.phi0 * m.p + j * m.q * 65536) % (65536 * m.p)
      phi == 0 ||
        decide ((c.ih * s.dsp.linePeriod * c.pixKhz + 64 * c.hTotal * 10 ^ 9) * (65536 * m.p) ≤ phi * (c.inFrameNs * 1000) * c.pixKhz))

/-- DISPLAY_MODE's checks and effect (R174, R175, R192): it waits for its frame boundary. -/
def modeDisplay (m : DisplayMode) (cmd : Cmd) (s : State) : State :=
  match s.dsp.cfg with
  | none => complete s cmd 0x21 {}
  | some c =>
    if m.p = 0 ∨ 255 < m.p ∨ m.q = 0 ∨ m.p < m.q ∨ 5 * m.q < m.p ∨ 65535 < m.phi0 ∨ phasesOk s c m = false then complete s cmd 0x21 {}
    else setDsp s (fun d => { d with modes := d.modes ++ [(cmd, m, s.time)] })

/-- DISPLAY_MODE (R152, R192). -/
def execDisplayMode (h : Pkt) (m : DisplayMode) (s : State) : Out := .next (withPkt s h 0x5A 0 .any true (modeDisplay m))

end Sys2Proof.Machine
end

