-- ==== Sys2Proof/Machine/Maquette.lean ====
section
/-!
DEFINITION. Sys2Proof/Machine/Maquette.lean: publisher keys, staging, verification, casting layer by layer, eviction, and the
packets that store and erase maquettes (spec/10_maquettes_casting.md, spec/09_weight_flash.md R300-R303).
-/
namespace Sys2Proof.Machine
open Reg

/-! ### Publisher keys (R328-R330, R418) -/

/-- Is a signature by a listed key that is not revoked (R330)? -/
def keyListed (s : State) (keyId : Nat) : Bool := s.flash.pubs.any (fun k => k.keyId == keyId && !k.revoked)

/-- Is an authorisation valid: a registered ADMIN key that is not revoked, and a signature that verifies (R329)? -/
def authorised (s : State) (authKey : Nat) (sigOk : Bool) : Bool :=
  sigOk && s.flash.pubs.any (fun k => k.keyId == authKey && k.admin && !k.revoked)

/-- The list changed: LIST_SEQ goes up and the record is written (R313, R329). -/
def changePubs (s : State) (l : List PubKey) (c : Cmd) : State :=
  let n := (s.flash.listSeq + 1) % 2 ^ 64
  let s := { s with flash := { s.flash with pubs := l, listSeq := n } }
  complete (writeDevRec s .publisherKeys) c 0 { r1 := n }

/-- PUB_ADD's checks and effect (R329). -/
def addPub (listSeq : Nat) (e : PubKey) (authKey : Nat) (sigOk : Bool) (c : Cmd) (s : State) : State :=
  if listSeq ≠ s.flash.listSeq then complete s c 0x21 {}
  else if !(s.flash.pubs.isEmpty && e.admin) && !authorised s authKey sigOk then complete s c 0x40 {}
  else if s.flash.pubs.any (fun k => k.keyId == e.keyId) then complete s c 0x21 {}
  else if 16 ≤ s.flash.pubs.length then complete s c 0x31 {}
  else changePubs s (s.flash.pubs ++ [e]) c

/-- PUB_ADD (R329); the signature's verdict is an operand. -/
def execPubAdd (h : Pkt) (listSeq : BitVec 64) (entry : PubKey) (authKey : Nat) (sigOk : Bool) (s : State) : Out :=
  .next (withPkt s h 0x70 0 .any true (addPub listSeq.toNat entry authKey sigOk))

/-- PUB_REVOKE's checks and effect (R329): a revoked entry keeps its place. -/
def revokePub (listSeq keyId authKey : Nat) (sigOk : Bool) (c : Cmd) (s : State) : State :=
  if listSeq ≠ s.flash.listSeq then complete s c 0x21 {}
  else if !authorised s authKey sigOk then complete s c 0x40 {}
  else if !s.flash.pubs.any (fun k => k.keyId == keyId) then complete s c 0x21 {}
  else changePubs s (s.flash.pubs.map (fun k => if k.keyId = keyId then { k with revoked := true } else k)) c

/-- PUB_REVOKE (R329). -/
def execPubRevoke (h : Pkt) (listSeq : BitVec 64) (keyId authKey : Nat) (sigOk : Bool) (s : State) : Out :=
  .next (withPkt s h 0x70 0 .any true (revokePub listSeq.toNat keyId authKey sigOk))

/-- PUB_CLEAR's checks and effect (R329). -/
def clearPubs (listSeq : Nat) (c : Cmd) (s : State) : State :=
  if listSeq ≠ s.flash.listSeq ∨ s.handles ≠ [] then complete s c 0x21 {} else changePubs s [] c

/-- PUB_CLEAR (R329). -/
def execPubClear (h : Pkt) (listSeq : BitVec 64) (s : State) : Out := .next (withPkt s h 0x70 0 .any true (clearPubs listSeq.toNat))

/-! ### Staging and verification (R331-R334) -/

/-- Handles not in use (R331). -/
def freeHandles (s : State) : List Nat := (List.range 64).filter (fun n => (tfind n s.handles).isNone)

/-- A new STAGED handle; its number is the device's choice (log entry 1). -/
def newHandle (s : State) (x : Handle) (c : Cmd) : State :=
  let p := pick s (freeHandles s)
  match p.1 with
  | none => complete p.2 c 0x31 {}
  | some n => complete { p.2 with handles := tset n x p.2.handles } c 0 { r2 := n }

/-- Does a range lie in one T4 area of a partition (R248, R332)? -/
def inArea (s : State) (p addr len : Nat) : Bool :=
  match tfind p s.parts with
  | some x => x.quota.areas.any (fun a => decide (a.1 ≤ addr) && decide (addr + len ≤ a.1 + a.2))
  | none => false

/-- Do the manifest's own fields keep R320 to R323 (R332 step 1)? -/
def manifestOk (m : Manifest) : Bool :=
  let n := m.layers.length
  let display := m.kind == 3
  let within := fun (lo hi v : Nat) => decide (lo ≤ v) && decide (v ≤ hi)
  within 1 (2 ^ 36) m.totalLen && within 1 3 m.kind && within 1 4096 m.sects.length && within 1 1024 n &&
  (if display then within 4 12 m.shapeCl && within 1 8 m.nmode else within 1 32 m.shapeCl && m.nmode == 0) &&
  (m.kind != 1 || m.clBase == 0) && within 1 64 m.roles.length && m.roles.all (fun r => decide (r ≤ 2)) &&
  m.train == m.sects.any (fun x => x.ty == 5) && m.order.length == n && (List.range n).all (fun l => m.order.contains l) &&
  m.sects.all (fun x => within 1 5 x.ty && (decide (x.layer < n) || x.layer == 0xFFFF) && (x.comp || x.rawLen == x.len) && (x.ty != 4 || display))

/-- MAQ_STAGE's checks and effect (R332), in order. -/
def stageHost (addr len : Nat) (m : Manifest) (format : Verdict) (sigOk digestsOk : Bool) (c : Cmd) (s : State) : State :=
  if !inArea s c.part addr len then complete s c 0x21 {}
  else if (freeHandles s).isEmpty then complete s c 0x31 {}
  else
    match format with
    | .fails st => complete s c st {}
    | .ok =>
      if !manifestOk m then complete s c 0x22 {}
      else if m.totalLen ≠ len then complete s c 0x21 {}
      else if !keyListed s m.keyId || !sigOk then complete s c 0x40 {}
      else if !fitsT2 s c.part (rawSize m) then complete s c 0x30 {}
      else if !digestsOk then complete s c 0x41 {}
      else
        newHandle (charge2 s c.part (rawSize m))
          { part := c.part, slot := none, man := m, st := 0, verified := false, inT2 := [], wm := false, evict := none } c

/-- MAQ_STAGE (R332): what the device reads from host memory, and the verdicts of its checks, are operands. -/
def execMaqStage (h : Pkt) (addr len : Nat) (man : Manifest) (format : Verdict) (sigOk digestsOk : Bool) (s : State) : Out :=
  .next (withPkt s h 0x20 0 .owned false (stageHost addr len man format sigOk digestsOk))

/-- MAQ_STAGE from a store slot (R331, R333): nothing is charged or copied, and the handle is verified. -/
def stageSlot (slot : Nat) (manOk sigOk : Bool) (c : Cmd) (s : State) : State :=
  match tfind slot s.flash.slots with
  | none => complete s c 0x21 {}
  | some x =>
    if (freeHandles s).isEmpty then complete s c 0x31 {}
    else if !manOk then complete s c 0x41 {}
    else if !keyListed s x.man.keyId || !sigOk then complete s c 0x40 {}
    else
      newHandle s { part := c.part, slot := some slot, man := x.man, st := 0, verified := true, inT2 := [], wm := false, evict := none } c

/-- MAQ_STAGE_SLOT (R333). -/
def execMaqStageSlot (h : Pkt) (slot : Fin 256) (manOk sigOk : Bool) (s : State) : Out :=
  .next (withPkt s h 0x20 0 .owned false (stageSlot slot manOk sigOk))

/-- The bytes of a section as stored (R322, R325). -/
def sectBytes (m : Manifest) (x : Sect) : Bytes := fun i => Config.maqByte m.maqDigest (x.off + i) % 256

/-- Do the sections lie in the maquette without overlap, on 16 KiB, and agree with the tables (R320-R323, R334)? -/
def sectionsOk (m : Manifest) : Bool :=
  let rec apart : List Sect → Bool
    | a :: b :: t => decide (a.off + a.len ≤ b.off) && apart (b :: t)
    | _ => true
  apart m.sects && m.sects.all (fun x => x.off % 16384 == 0 && decide (x.off + x.len + 128 ≤ m.totalLen)) &&
  (m.layers.zipIdx).all (fun l => l.1 == (m.sects.filter (fun x => x.layer == l.2)).foldl (fun n x => n + x.rawLen) 0) &&
  m.arms.length == m.nmode && (m.sects.filter (fun x => x.ty == 4)).length == m.nmode &&
  (m.sects.filter (fun x => x.ty == 4)).all (fun x => decide (x.rawLen ≤ 2 ^ 20))

/-- Is every narrow tensor well-formed and every compressed stream's header and index consistent (R102, R274, R334)? -/
def tensorsOk (m : Manifest) : Bool :=
  m.sects.all (fun x =>
    let g := sectBytes m x
    (!x.comp || (streamHeaderOk g && streamRaw g == x.rawLen)) &&
    (!x.narrow || (if x.comp then (match expand g with | some l => narrowOk (fun i => l.getD i 0) | none => true) else narrowOk g)))

/-- Does every compressed block expand (R278, R334)? -/
def blocksOk (m : Manifest) : Bool := m.sects.all (fun x => !x.comp || (expand (sectBytes m x)).isSome)

/-- The first failing check of R334 on what the maquette's bytes say. -/
def verifyFailure (m : Manifest) : Option Nat :=
  if !sectionsOk m || !tensorsOk m then some 0x22
  else if !blocksOk m then some 0x60
  else if !m.arms.all (armatureOk m) || (m.arms.map (·.modeIdx)).eraseDups.length != m.arms.length then some 0x22
  else none

/-- A partition's handle. -/
def handleIn (s : State) (p n : Nat) : Option Handle := (tfind n s.handles).filter (fun x => x.part == p)

/-- MAQ_VERIFY's effect (R102, R334); a handle staged from a slot is verified already (R333). -/
def verifyHandle (n : Nat) (v : Verdict) (c : Cmd) (s : State) : State :=
  match handleIn s c.part n with
  | none => complete s c 0x21 {}
  | some x =>
    match x.slot, verifyFailure x.man, v with
    | none, some st, _ => complete s c st {}
    | none, none, .fails st => complete s c st {}
    | _, _, _ => complete { s with handles := tset n { x with verified := true } s.handles } c 0 {}

/-- MAQ_VERIFY (R334): what the reads of the staged copy met (a word that stays uncorrectable, a container byte the manifest does not
carry) is an operand. -/
def execMaqVerify (h : Pkt) (handle : Fin 256) (v : Verdict) (s : State) : Out :=
  .next (withPkt s h 0x21 handle .owned false (verifyHandle handle v))

/-! ### MAQ_CAST (R335-R339) -/

/-- Is a stream bound to a handle, or about to be (R335, R343)? -/
def streamOn (s : State) (n : Nat) : Bool :=
  s.cam.any (fun e => (match e.2.bind with | some b => b.handle == n | none => false) ||
    e.2.waiting.any (fun w => match w.2 with | some b => b.handle == n | none => false))

/-- Digests of the sections that have no layer, in table order (R335). -/
def looseDigests (m : Manifest) : List Nat := (m.sects.filter (fun x => x.layer == 0xFFFF)).map (·.digest)

/-- Does a replacement fail R335? -/
def replaceBad (s : State) (p : Nat) (m : Manifest) (r : Nat) : Bool :=
  match handleIn s p r with
  | none => true
  | some o => o.st != 1 || forcedOut o || o.man.castClass != m.castClass || looseDigests o.man != looseDigests m

/-- Handles of a partition that count against its 8 RESIDENT ones (R331). -/
def residents (s : State) (p : Nat) : Nat := (s.handles.filter (fun e => e.2.part == p && e.2.st != 0)).length

/-- The first failing check of R335 and of the refusals of R331 and R343. -/
def castFailure (s : State) (p n r : Nat) (activate : Bool) : Option Nat :=
  match tfind p s.parts, handleIn s p n with
  | some x, some h =>
    let occ := occupies x h.man
    if !h.verified || h.st == 2 || forcedOut h || (h.st == 1 && (!activate || r != 0xFF)) then some 0x21
    else if (h.man.kind == 3) != (p == 0) then some 0x21
    else if r ≠ 0xFF ∧ replaceBad s p h.man r = true then some 0x21
    else if x.cast.isSome then some 0x21
    else if x.logical.length < h.man.clBase + h.man.shapeCl ∨ (h.st = 0 ∧ r = 0xFF ∧ 8 ≤ residents s p) then some 0x31
    else if h.man.kind = 3 ∧ isSet s DSP_CTRL_NEURAL_EN = true ∧ (activeArm s).isSome = true ∧
        occ.any (fun l => s.dsp.clusters.contains l) = true then some 0x31
    else if h.man.kind = 2 ∧ s.handles.any (fun e => e.1 != n && e.1 != r && e.2.part == p && e.2.man.kind == 2 && e.2.wm && streamOn s e.1 &&
        (occupies x e.2.man).any (fun l => occ.contains l)) = true then some 0x31
    else none
  | _, _ => some 0x21

/-- Layers a cast places in T2 (R272, R336), in residency order: each that fits Q2 - WRES less the charges; a replacement's
charges leave out the replaced layers that go at their swap and keep a reserve of the largest layer placed. -/
def placeLayers (x : Part) (m : Manifest) (old : Option Handle) : List Nat → Nat → Nat → List Nat
  | [], _, _ => []
  | l :: t, used, big =>
    let n := layerBytes m l
    let reserve := if old.isSome then max big n else 0
    if used + n + reserve ≤ x.quota.q2 - x.quota.wres then l :: placeLayers x m old t (used + n) (max big n)
    else placeLayers x m old t used big

/-- The layers MAQ_CAST places in T2 for a handle (R336). -/
def placement (s : State) (p : Nat) (h : Handle) (r : Nat) : List Nat :=
  match tfind p s.parts with
  | none => []
  | some x =>
    match h.slot with
    | none => List.range h.man.layers.length
    | some _ =>
      let old := handleIn s p r
      let freed := match old with
        | some o => (match o.slot with | some _ => o.inT2.foldl (fun n l => n + layerBytes o.man l) 0 | none => 0)
        | none => 0
      placeLayers x h.man old h.man.order (x.c2 - freed + looseBytes h.man) 0

/-- MAQ_CAST's checks and effect (R335, R339): accepted, it puts the barrier of a replacement up. -/
def castMaq (n r : Nat) (drain activate : Bool) (c : Cmd) (s : State) : State :=
  match castFailure s c.part n r activate, tfind n s.handles with
  | none, some h =>
    let before := (partEntries s c.part).map (fun e => handleOf e (req s e))
    let k : Cast := { cmd := c, handle := n, replace := if r = 0xFF then none else some r, drain, activate := h.st == 1, before,
                      started := false, ready := 0, swapped := 0, failed := none,
                      toT2 := if h.st = 1 then h.inT2 else placement s c.part h r, freed := [] }
    let s := if h.st = 0 then { s with handles := tset n { h with st := 2 } s.handles } else s
    setPart s c.part (fun x => { x with cast := some k })
  | some st, _ => complete s c st {}
  | none, none => complete s c 0x21 {}

/-- MAQ_CAST (R335). -/
def execMaqCast (h : Pkt) (handle replace : Fin 256) (drain activate : Bool) (s : State) : Out :=
  .next (withPkt s h 0x22 handle .owned false (castMaq handle replace drain activate))

/-! ### The cast, layer by layer (R338-R342, R344) -/

def setCast (s : State) (p : Nat) (k : Cast) : State := setPart s p (fun x => { x with cast := some k })

/-- The cast of a partition with its handle. -/
def castOf (s : State) (p : Nat) : Option (Cast × Handle) :=
  (part? s p).bind (fun x => x.cast.bind (fun k => (tfind k.handle s.handles).map (fun h => (k, h))))

/-- Part of a maquette's WM image written into the cores it occupies (R337, R338): which bytes that part holds lies in the sections, so
the cores' WM holds free values until the image is whole (log entry 151). -/
def scrambleWm (s : State) (p : Nat) (m : Manifest) : State :=
  match tfind p s.parts with
  | none => s
  | some x =>
    (occupies x m).foldl (fun s l =>
      match physOf s l with
      | none => s
      | some n => (List.range 64).foldl (fun s c => scramble s (memBase n 0 c) 32768) s) s

/-- Has a layer (or what has none) a section cast into WM? -/
def hasWm (m : Manifest) (l : Nat) : Bool := m.sects.any (fun x => x.wm && x.layer == l)

/-- VISION maquettes of a partition whose WM image a new one displaces lose it (R337). -/
def displaceWm (s : State) (p n : Nat) (m : Manifest) : State :=
  match tfind p s.parts with
  | none => s
  | some x =>
    { s with handles := s.handles.map (fun e =>
        if e.1 ≠ n ∧ e.2.part = p ∧ e.2.wm = true ∧ (occupies x e.2.man).any (fun l => (occupies x m).contains l) = true
        then (e.1, { e.2 with wm := false }) else e) }

/-- Work that names a replaced handle goes on with the handle that replaced it (R340, R341). -/
def renameHandle (s : State) (o n : Nat) : State :=
  let b := fun (x : Binding) => if x.handle = o then { x with handle := n } else x
  { s with
    srv := { s.srv with reqs := s.srv.reqs.map (fun e => if e.2.handle = o ∧ e.2.state ≠ .free then (e.1, { e.2 with handle := n }) else e)
                        batches := s.srv.batches.map (fun e => if e.2.handle = o then (e.1, { e.2 with handle := n }) else e) }
    cam := s.cam.map (fun e => (e.1, { e.2 with bind := e.2.bind.map b, waiting := e.2.waiting.map (fun w => (w.1, w.2.map b)) })) }

/-- The cast commits (R341): the handle is RESIDENT, the replaced one released, the barrier lifts, MAQ_CAST completes. -/
def commitCast (s : State) (p : Nat) : State :=
  match castOf s p with
  | none => s
  | some (k, h) =>
    let m := h.man
    let wm := m.sects.any (·.wm)
    let s := setPart s p (fun x => { x with cast := none })
    let s := { s with handles := tset k.handle { h with st := 1, inT2 := k.toT2, wm } s.handles }
    let s := if wm then displaceWm (castImage s p m) p k.handle m else s
    let s := match k.replace with
      | some o => releaseHandle (renameHandle s o k.handle) o
      | none => s
    finish s k.cmd 0 { r0 := placedT2 m h.slot k.toT2, r1 := placedT3 m h.slot k.toT2, detail := 0xFFFF }

/-- The end of a cast that failed at layer `f` (R342, R344): an ACTIVATE leaves the handle RESIDENT without a WM image. -/
def endFailed (s : State) (p st f : Nat) : State :=
  match castOf s p with
  | none => s
  | some (k, h) =>
    if k.activate then
      let s := setPart s p (fun x => { x with cast := none })
      finish { s with handles := tset k.handle { h with wm := false } s.handles } k.cmd st { detail := f }
    else unwindCast s p st f

/-- CAST_START (R338, R339, R480): at a step boundary of a partition without a fence, with DRAIN once every request admitted before the barrier has completed;
the sections that have no layer come first. -/
def execCastStart (p : Fin 16) (v : Verdict) (s : State) : Out :=
  match castOf s p with
  | none => .next s
  | some (k, h) =>
    if k.started || k.heldAt.isSome || (k.drain && k.before.any (fun r => (findReq s r).isSome)) then .next s
    else
      let s := setCast s p { k with started := true }
      let s := if h.slot.isSome && !k.activate then charge2 s p (looseBytes h.man) else s
      match v with
      | .fails st => .next (endFailed s p st 0xFFFF)
      | .ok => .next (if hasWm h.man 0xFFFF then scrambleWm s p h.man else s)

/-- A fence has risen since the cast's present layer was begun: no further layer starts (R480). -/
def layerHeld (k : Cast) : Bool := match k.heldAt with | some n => decide (n < k.ready) | none => false

/-- CAST_LAYER_READY (R338, R342): the next layer has passed its digests and is written to its places, or has failed. A
cast without replacement commits after its last layer. -/
def execCastLayerReady (p : Fin 16) (v : Verdict) (s : State) : Out :=
  match castOf s p with
  | none => .next s
  | some (k, h) =>
    if !k.started || k.failed.isSome || decide (h.man.layers.length ≤ k.ready) || layerHeld k then .next s
    else
      match v with
      | .fails st =>
        if k.swapped = 0 then .next (endFailed s p st k.ready) else .next (setCast s p { k with failed := some (st, k.ready) })
      | .ok =>
        let s := if h.slot.isSome && !k.activate && k.toT2.contains k.ready then charge2 s p (layerBytes h.man k.ready) else s
        let s := setCast s p { k with ready := k.ready + 1 }
        match k.replace with
        | some _ => .next s
        | none =>
          let s := if hasWm h.man k.ready then scrambleWm s p h.man else s
          .next (if h.man.layers.length ≤ k.ready + 1 then commitCast s p else s)

/-- LAYER_SWAP (R340, R341): the next ready layer of a replacement; the replaced layer's T2 space is freed when a T3 copy of
it is committed; the last swap commits. That no step is inside the layer is the sender's claim. -/
def execLayerSwap (p : Fin 16) (s : State) : Out :=
  match castOf s p with
  | none => .next s
  | some (k, h) =>
    match k.replace with
    | none => .next s
    | some o =>
      if k.failed.isSome || decide (k.ready ≤ k.swapped) then .next s
      else
        let l := k.swapped
        let s := match tfind o s.handles with
          | some x =>
            if x.slot.isSome && x.inT2.contains l then
              credit2 { s with handles := tset o { x with inT2 := x.inT2.filter (fun y => y != l) } s.handles } p (layerBytes x.man l)
            else s
          | none => s
        let s := setCast s p { k with swapped := l + 1, freed := k.freed ++ [l] }
        let s := if hasWm h.man l then scrambleWm s p h.man else s
        .next (if h.man.layers.length ≤ l + 1 then commitCast s p else s)

/-- LAYER_SWAP_BACK (R342): the highest swapped layer of a failed cast goes back; with the last one the cast is unwound. -/
def execLayerSwapBack (p : Fin 16) (s : State) : Out :=
  match castOf s p with
  | none => .next s
  | some (k, h) =>
    match k.failed with
    | none => .next s
    | some f =>
      if k.swapped = 0 then .next s
      else
        let s := setCast s p { k with swapped := k.swapped - 1 }
        let s := if hasWm h.man (k.swapped - 1) then scrambleWm s p h.man else s
        let old := (k.replace.bind (fun o => tfind o s.handles)).map (·.man)
        let back := fun (s : State) => match old with | some m => if m.sects.any (·.wm) then castImage s p m else s | none => s
        .next (if k.swapped = 1 then endFailed (back s) p f.1 f.2 else s)

/-! ### Eviction (R343) -/

/-- Does a live request name the handle? -/
def requestOn (s : State) (n : Nat) : Bool := s.srv.reqs.any (fun e => e.2.state != .free && e.2.handle == n)

/-- Does a running cast name the handle? -/
def castOn (s : State) (n : Nat) : Bool :=
  s.parts.any (fun e => match e.2.cast with | some k => k.handle == n || k.replace == some n | none => false)

/-- Is an Armature bound to the handle's maquette active with the neural path on? -/
def armatureOn (s : State) (x : Handle) : Bool :=
  x.man.kind == 3 && isSet s DSP_CTRL_NEURAL_EN && (match activeArm s with | some a => a.binding == x.man.content | none => false)

/-- MAQ_EVICT's checks and effect (R343): a STAGED handle goes at once, a RESIDENT one at a step boundary. -/
def evictMaq (n : Nat) (force : Bool) (c : Cmd) (s : State) : State :=
  match handleIn s c.part n with
  | none => complete s c 0x21 {}
  | some x =>
    if x.st = 0 then complete (releaseHandle s n) c 0 {}
    else if x.st = 2 ∨ x.evict.isSome = true ∨ (force = false ∧ requestOn s n = true) ∨ streamOn s n = true ∨ castOn s n = true ∨ armatureOn s x = true then
      complete s c 0x21 {}
    else { s with handles := tset n { x with evict := some c } s.handles }

/-- MAQ_EVICT (R343). -/
def execMaqEvict (h : Pkt) (handle : Fin 256) (force : Bool) (s : State) : Out :=
  .next (withPkt s h 0x23 (2 * handle.val + b2n force) .owned false (evictMaq handle force))

/-- A forced eviction ends the requests that name the handle and are in no running step with CANCELLED (R343). -/
def cancelForced (s : State) (n : Nat) : State :=
  let runs := fun (r : Req) => match batch? s r.batch with | some b => b.running && !r.train | none => false
  let es := (s.srv.reqs.filter (fun e => e.2.state != .free && e.2.handle == n && !e.2.train && !runs e.2)).map Prod.fst
  let s := es.foldl (fun s e => endReq s e 0x12) s
  (s.srv.batches.filter (fun b => b.2.handle == n)).foldl (fun s b => settleBatch s b.1) s

/-- EVICT_RELEASE (R303, R343): the step boundary after the last user. -/
def execEvictRelease (n : Fin 256) (s : State) : Out :=
  match tfind n s.handles with
  | none => .next s
  | some x =>
    match x.evict with
    | none => .next s
    | some c =>
      let s := if forcedOut x then cancelForced s n else s
      if requestOn s n || streamOn s n then .next s else .next (finish (releaseHandle s n) c 0 {})

/-! ### MAQ_STORE and MAQ_ERASE (R300-R303, R408) -/

/-- Store slots taken: committed maquettes, old versions still resident, and stores under way (R291, R302). -/
def slotsTaken (s : State) : Nat :=
  s.flash.slots.length + s.flash.oldSets.length + (s.flash.jobs.filter (·.store)).length

/-- MAQ_STORE's checks and effect (R302): the charge is taken and the job queued. -/
def storeMaq (n slot set : Nat) (c : Cmd) (s : State) : State :=
  match handleIn s c.part n, tfind c.part s.parts with
  | some x, some q =>
    if 64 ≤ slot ∨ set = 0 ∨ x.slot.isSome = true ∨ x.verified = false then complete s c 0x21 {}
    else if q.quota.q3 < q.c3 + rawSize x.man then complete s c 0x30 {}
    else if 64 ≤ slotsTaken s then complete s c 0x31 {}
    else
      let s := setPart s c.part (fun y => { y with c3 := y.c3 + rawSize x.man })
      let j : FlashJob := { cmd := some c, store := true, slot, part := c.part, set, man := some x.man, handle := n }
      startJob (setJobs s (s.flash.jobs ++ [j]))
  | _, _ => complete s c 0x21 {}

/-- MAQ_STORE (R300, R302). -/
def execMaqStore (h : Pkt) (handle slot : Fin 256) (set : BitVec 32) (s : State) : Out :=
  .next (withPkt s h 0x24 handle .owned false (storeMaq handle slot set.toNat))

/-- MAQ_ERASE's checks and effect (R303). -/
def eraseMaq (slot : Nat) (c : Cmd) (s : State) : State :=
  match tfind slot s.flash.slots with
  | none => complete s c 0x21 {}
  | some x =>
    if slotHeld s slot ∨ (c.fn ≠ 0 ∧ ((tfind x.part s.parts).isSome = false ∨ ownerOf s x.part ≠ c.fn)) then complete s c 0x21 {}
    else
      let j : FlashJob := { cmd := some c, store := false, slot, part := x.part, set := x.set, man := none, handle := 0xFF }
      startJob (setJobs s (s.flash.jobs ++ [j]))

/-- MAQ_ERASE (R303, R408): the PF, or the owner of the partition that stored the slot. -/
def execMaqErase (h : Pkt) (slot : Fin 256) (s : State) : Out := .next (withPkt s h 0x25 slot .any false (eraseMaq slot))

end Sys2Proof.Machine
end

