-- ==== Sys2Proof/Machine/Serving.lean ====
section
/-!
DEFINITION. Sys2Proof/Machine/Serving.lean: batches, requests and training steps: admission, steps, candidate records,
cancellation, pause, resume and expiry (spec/07_attention_kv.md, spec/11_partitions_serving.md R355-R376, spec/03 R118-R124).
-/
namespace Sys2Proof.Machine
open Reg

/-! ### Admission (R227, R228, R234, R235, R240, R241, R360, R370) -/

/-- Bytes of a candidate-record slot (R411). -/
def slotBytes (kmax : Nat) : Nat := 16 + 8 * kmax

/-- The longest K of a batch's rows. -/
def kMax (rows : List RowParams) : Nat := rows.foldl (fun n r => max n r.k) 0

/-- Is a list strictly ascending? -/
def ascending : List Nat → Bool
  | a :: b :: t => decide (a < b) && ascending (b :: t)
  | _ => true

/-- Do a row's own fields keep R227, R234, R235, R240, R241 and R358, with `e` its expected length? -/
def rowOk (m : Manifest) (r : RowParams) (e : Nat) : Bool :=
  (r.pageLog2 == 0 || (decide (4 ≤ r.pageLog2) && decide (r.pageLog2 ≤ 10))) &&
  decide (1 ≤ r.promptLen) && decide (1 ≤ r.maxNew) && decide (r.maxNew ≤ 131072) &&
  decide (e ≤ (if m.attention.any (fun a => a.window.isNone) then 32768 else 131072)) &&
  decide (r.globals.length ≤ 64) && ascending r.globals &&
  decide (1 ≤ r.k) && decide (r.k ≤ 256) && decide (r.k ≤ m.vocab) &&
  decide (r.bias.length ≤ 64) && r.bias.all (fun b => decide (b.1 < m.vocab))

/-- The record of a refused row (R360, R396). -/
def refuseRow (s : State) (c : Cmd) (id i tag status : Nat) : State :=
  let x := reqRec s 0 0 i status 1 tag id
  postRec s c.fn c.ring x

/-- A batch's row without a request. -/
def padRow (k : Nat) : Row := { req := none, k, pos := 0, stopped := false }

/-- A NEW row admitted: entry, page size, reservation (R227, R228, R362). -/
def admitNew (s : State) (c : Cmd) (m : Manifest) (handle id i : Nat) (held : Bool) (r : RowParams) : Row × State :=
  let e := r.promptLen + r.maxNew
  if !rowOk m r e then (padRow r.k, refuseRow s c id i r.tag 0x21)
  else
    let p := pageSize m e r.pageLog2
    let n := reserveBytes m e p r.globals
    if !fitsT2 s c.part n then (padRow r.k, refuseRow s c id i r.tag 0x30)
    else
      let q : Req := { part := c.part, state := if held then .held else .active, handle, tag := r.tag, fn := c.fn, ring := c.ring,
                       batch := id, row := i, e, p, charge := n, k := r.k, bias := r.bias, globals := r.globals, stops := r.stops }
      match newReq s q with
      | none => (padRow r.k, refuseRow s c id i r.tag 0x31)
      | some x => ({ req := some x.1, k := r.k, pos := 0, stopped := false }, charge2 x.2 c.part n)

/-- A CONTINUE row admitted (R368, R370): a READY request whose reservation is extended to its new E. -/
def admitContinue (s : State) (c : Cmd) (m : Manifest) (handle id i : Nat) (held : Bool) (r : RowParams) : Row × State :=
  match findReq s r.req with
  | none => (padRow r.k, refuseRow s c id i r.tag (if expiredHandle s r.req then 0x13 else 0x21))
  | some e =>
    let q := req s e
    let len := q.written + r.promptLen + r.maxNew
    if q.part ≠ c.part ∨ q.state ≠ .ready ∨ q.train = true ∨ q.handle ≠ handle ∨ rowOk m r len = false then
      (padRow r.k, refuseRow s c id i r.tag 0x21)
    else
      let n := reserveBytes m len q.p r.globals
      if !fitsT2 s c.part (n - q.charge) then (padRow r.k, refuseRow s c id i r.tag 0x30)
      else
        let s := charge2 (credit2 s c.part q.charge) c.part (max n q.charge)
        let q := { q with state := if held then .held else .active, tag := r.tag, fn := c.fn, ring := c.ring, batch := id, row := i,
                          e := len, charge := max n q.charge, due := if held then q.due else 0, k := r.k, bias := r.bias,
                          globals := r.globals, stops := r.stops }
        ({ req := some e, k := r.k, pos := q.written - 1, stopped := false }, setReq s e q)

/-- The rows of a batch admitted or refused, each on its own (R360). -/
def admitRows (c : Cmd) (m : Manifest) (handle id : Nat) (held : Bool) : Nat → List RowParams → State → List Row × State
  | _, [], s => ([], s)
  | i, r :: t, s =>
    let x := if r.kind = 2 then (padRow 0, s)
      else if r.kind = 0 then admitNew s c m handle id i held r
      else admitContinue s c m handle id i held r
    let y := admitRows c m handle id held (i + 1) t x.2
    (x.1 :: y.1, y.2)

/-- Does a partition's cast hold new work back (R339)? -/
def barrierUp (s : State) (p : Nat) : Bool := castRuns s p

/-- A handle that a batch or training step may name (R331, R343): RESIDENT, and no forced eviction in progress. -/
def usable (s : State) (p n role entry : Nat) : Option Handle :=
  (handleIn s p n).filter (fun x => x.st == 1 && !forcedOut x && decide (entry < x.man.roles.length) && x.man.roles.getD entry 3 == role)

/-- BATCH_SUBMIT's checks before any row, and its effect (R358, R360, R411). -/
def submitBatch (b : BatchHead) (rows : List RowParams) (listsOk : Bool) (c : Cmd) (s : State) : State :=
  match usable s c.part b.handle 0 b.entry with
  | none => complete s c 0x21 {}
  | some x =>
    let n := rows.length
    let need := (if b.mode = 1 then b.steps else 1) * n * slotBytes (kMax rows)
    if n = 0 ∨ 64 < n ∨ 1 < b.mode ∨ (b.mode = 1 ∧ (b.steps = 0 ∨ 4096 < b.steps)) ∨ 3 < b.prio ∨ b.tokLen = 0 ∨ listsOk = false ∨
        b.out % 8 ≠ 0 ∨ b.outLen < need then complete s c 0x21 {}
    else if noClusters s c.part then complete s c 0x31 {}
    else
      let id := pick s ((List.range 4097).filter (fun i => (batch? s i).isNone))
      match id.1 with
      | none => complete id.2 c 0x31 {}
      | some id' =>
        let held := barrierUp id.2 c.part
        let r := admitRows c x.man b.handle id' held 0 rows id.2
        let s := r.2
        let y : Batch := { part := c.part, handle := b.handle, entry := b.entry, cmd := some c, fn := c.fn, ring := c.ring, rows := r.1,
                           greedy := b.mode == 1, steps := if b.mode = 1 then b.steps else 0, prio := b.prio, out := b.out,
                           kmax := kMax rows, prefill := b.tokLen, tokens := 0, mask := b.mask, tokLen := b.tokLen, done := 0, held,
                           running := false, waiting := false, replay := false, order := s.srv.order,
                           admitted := (r.1.filter (fun q => q.req.isSome)).length }
        pagesForStep (settleBatch (setBatch { s with srv := { s.srv with order := s.srv.order + 1 } } id' y) id') id'

/-- BATCH_SUBMIT (R358-R361): the packet stays in its ring while the partition or the device has too few free request
entries for its NEW rows (R360). -/
def execBatchSubmit (h : Pkt) (b : BatchHead) (rows : List RowParams) (listsOk : Bool) (s : State) : Out :=
  let new := (rows.filter (fun r => r.kind == 0)).length
  if !ringFenced s h.fn h.ring && (pktFailure s h 0x30 .owned false).isNone && !roomFor s h.part new then .next s
  else .next (withPkt s h 0x30 0 .owned false (submitBatch b rows listsOk))

/-- BATCH_SUBMIT that continues a HOST batch (R243, R410); new work is refused while the partition has no cluster (R25). -/
def continueBatch (id out outLen : Nat) (c : Cmd) (s : State) : State :=
  match batch? s id with
  | none => complete s c 0x21 {}
  | some x =>
    if x.part ≠ c.part ∨ x.greedy = true ∨ x.waiting = false ∨ out % 8 ≠ 0 ∨ outLen < x.rows.length * slotBytes x.kmax then
      complete s c 0x21 {}
    else if noClusters s c.part then complete s c 0x31 {}
    else
      let s := (x.rows.filterMap (·.req)).foldl (fun s e => setReq s e { req s e with fn := c.fn, ring := c.ring }) s
      setBatch s id { x with cmd := some c, fn := c.fn, ring := c.ring, out, waiting := false, done := 0 }

/-- BATCH_SUBMIT_CONTINUE (R243). -/
def execBatchSubmitContinue (h : Pkt) (batch : BitVec 32) (out outLen : Nat) (s : State) : Out :=
  .next (withPkt s h 0x30 0 .owned false (continueBatch batch.toNat out outLen))

/-! ### Pause and its ends (R367-R369) -/

/-- A device second in ticks of the time base (R13). -/
def secTicks : Nat := 100000000

/-- A request enters PAUSED in a tier; REQ_PAUSE completes, and a cancellation or release that waited acts (R365, R367). -/
def enterPaused (s : State) (e tier : Nat) : State :=
  let r := req s e
  let s := setReq s e { r with state := .paused, tier, due := s.time + r.ttl * secTicks, pauseCmd := none, pauseFirst := false }
  let s := finishOpt s r.pauseCmd 0 { r2 := tier }
  if r.cancelCmd.isSome then endReq s e 0x12 else if r.releaseCmd.isSome then endReq s e (reqDone s e) else s

/-- Room of a partition's T4 quota and areas for `n` more bytes (R271, R367). -/
def fitsT4 (s : State) (p n : Nat) : Bool :=
  match tfind p s.parts with
  | some x => decide (x.c4 + n ≤ x.quota.q4) && decide (x.c4 + n ≤ x.quota.areas.foldl (fun m a => m + a.2) 0)
  | none => false

/-- A request leaves its batch to be paused (R367): its pages stay in T2, or their copy to T4 begins. -/
def enterPausing (s : State) (e : Nat) : State :=
  let r := req s e
  let s := clearRow s e
  let bytes := match reqMan s e with | some m => spillBytes r m | none => 0
  if r.place ≠ 1 ∧ fitsT4 s r.part bytes = true then
    charge4 (setReq s e { r with state := .pausing, charge4 := bytes }) r.part bytes
  else enterPaused s e 2

/-- Is the request in a step that runs, or about to be replayed: does its change wait for a step boundary (R356)? -/
def inStep (s : State) (e : Nat) : Bool :=
  match batch? s (req s e).batch with
  | some x => (req s e).state == .active && (x.running || x.replay)
  | none => false

/-- What a request handle names for a command of a partition: its live entry, or the status of its refusal (R362, R368).
`late`: the command is refused with EXPIRED for an expired handle. -/
def reqOf (s : State) (p h : Nat) (late : Bool) : Nat ⊕ Nat :=
  match findReq s h with
  | some e => if (req s e).part = p then .inr e else .inl 0x21
  | none => .inl (if late && expiredHandle s h then 0x13 else 0x21)

/-- REQ_PAUSE's checks and effect (R367, R376). -/
def pauseReq (h ttl place : Nat) (c : Cmd) (s : State) : State :=
  match reqOf s c.part h true with
  | .inl st => complete s c st {}
  | .inr e =>
    let r := req s e
    if (r.state ≠ .active ∧ r.state ≠ .ready) ∨ r.train = true ∨ 86400 < ttl ∨ 2 < place ∨ r.pauseCmd.isSome = true ∨
        r.cancelCmd.isSome = true ∨ r.releaseCmd.isSome = true then complete s c 0x21 {}
    else
      let s := setReq s e { r with pauseCmd := some c, pauseFirst := true, ttl := if ttl = 0 then 600 else ttl, place }
      if inStep s e then s else settleBatch (enterPausing s e) r.batch

/-- REQ_PAUSE (R367). -/
def execReqPause (h : Pkt) (req ttl : BitVec 32) (place : Fin 256) (s : State) : Out :=
  .next (withPkt s h 0x32 0 .owned false (pauseReq req.toNat ttl.toNat place))

/-- REQ_CANCEL's and REQ_RELEASE's effect by state (R365, R366, R124, R376); `cancel`: REQ_CANCEL. -/
def dropReq (cancel : Bool) (h : Nat) (c : Cmd) (s : State) : State :=
  match reqOf s c.part h false with
  | .inl st => complete s c st {}
  | .inr e =>
    let r := req s e
    if r.cancelCmd.isSome = true ∨ r.releaseCmd.isSome = true ∨ (r.train = true ∧ cancel = false) then complete s c 0x21 {}
    else
      let t := setReq s e (if cancel then { r with cancelCmd := some c } else { r with releaseCmd := some c })
      if r.train = true ∨ inStep s e = true ∨ r.state = ReqState.pausing ∨ r.state = ReqState.resuming then t
      else settleBatch (endReq t e (if cancel then 0x12 else reqDone s e)) r.batch

/-- REQ_CANCEL (R365). -/
def execReqCancel (h : Pkt) (req : BitVec 32) (s : State) : Out := .next (withPkt s h 0x31 0 .owned false (dropReq true req.toNat))

/-- REQ_RELEASE (R366). -/
def execReqRelease (h : Pkt) (req : BitVec 32) (s : State) : Out := .next (withPkt s h 0x34 0 .owned false (dropReq false req.toNat))

/-- A PAUSED request resumes (R369): from T2 at once, from T4 once its reservation fits and its pages are copied back. -/
def resumeNow (s : State) (e : Nat) : State :=
  let r := req s e
  if r.tier = 2 then
    finishOpt (setReq s e { r with state := .ready, due := s.time + r.ttl * secTicks, resumeCmd := none }) r.resumeCmd 0 {}
  else
    let n := match reqMan s e with | some m => reserveBytes m r.e r.p r.globals - r.charge | none => 0
    if fitsT2 s r.part n then charge2 (setReq s e { r with state := .resuming, charge := r.charge + n, extra := n }) r.part n
    else finishOpt (setReq s e { r with resumeCmd := none }) r.resumeCmd 0x30 {}

/-- REQ_RESUME's checks and effect (R339, R369): behind a cast barrier it is held. -/
def resumeReq (h : Nat) (c : Cmd) (s : State) : State :=
  match reqOf s c.part h true with
  | .inl st => complete s c st {}
  | .inr e =>
    let r := req s e
    if r.state ≠ .paused ∨ r.resumeCmd.isSome = true then complete s c 0x21 {}
    else
      let s := setReq s e { r with resumeCmd := some c }
      if barrierUp s c.part then s else resumeNow s e

/-- REQ_RESUME (R369). -/
def execReqResume (h : Pkt) (req : BitVec 32) (s : State) : Out := .next (withPkt s h 0x33 0 .owned false (resumeReq req.toNat))

/-- Is a partition being destroyed? -/
def destroying (s : State) (p : Nat) : Bool := match tfind p s.parts with | some x => x.destroying | none => false

/-- PAUSE_SPILL_DONE (R232, R247, R268, R367, R376): the pages' encrypted bytes are in T4; the T2 pages and their reservation are released; the page table stays in T2. -/
def execPauseSpillDone (e : Fin 4096) (s : State) : Out :=
  let r := req s e
  if r.state ≠ .pausing then .next s
  else
    let keep := match reqMan s e with | some m => min r.charge (tableBytes m r.e r.p r.globals) | none => 0
    let s := match reqMan s e with
      | some m => movePages (setReq s e { r with tier := 4 }) e (spillPage m e)
      | none => s
    let r := req s e
    let s := enterPaused (credit2 (setReq s e { r with charge := keep }) r.part (r.charge - keep)) e 4
    .next (if destroying s r.part && (req s e).state == .paused then endReq s e 0x12 else s)

/-- RESUME_COPY_DONE (R232, R365, R369): the T4 copies are released and the request is READY. -/
def execResumeCopyDone (e : Fin 4096) (s : State) : Out :=
  let r := req s e
  if r.state ≠ .resuming then .next s
  else
    let s := match reqMan s e with
      | some m => movePages (setReq s e { r with tier := 2 }) e (restorePage m e)
      | none => s
    let r := req s e
    let s := credit4 (setReq s e { r with state := .ready, tier := 2, charge4 := 0, extra := 0, due := s.time + r.ttl * secTicks,
                                          resumeCmd := none }) r.part r.charge4
    let s := finishOpt s r.resumeCmd 0 {}
    .next (if r.cancelCmd.isSome then endReq s e 0x12
      else if r.releaseCmd.isSome then endReq s e (reqDone s e) else s)

/-- TTL_EXPIRY (R368, R369, R344): a PAUSED or READY request, or a held one that was READY; the elapsed time is the
sender's claim. -/
def execTtlExpiry (e : Fin 4096) (s : State) : Out :=
  let r := req s e
  if r.state = ReqState.paused ∨ r.state = ReqState.ready ∨ (r.state = ReqState.held ∧ r.due ≠ 0) then
    .next (settleBatch (endReq s e 0x13) r.batch)
  else .next s

/-! ### Candidate records (R240-R243, R411) -/

/-- Order of FP32 codes as numbers; a NaN ranks as -inf (R240). -/
def logitRank (x : Nat) : Int :=
  if bits x 23 8 = 255 ∧ bits x 0 23 ≠ 0 then -(0x7F800000 : Int)
  else if bit x 31 then -((x % 2 ^ 31 : Nat) : Int) else ((x % 2 ^ 31 : Nat) : Int)

/-- Is an FP32 code a NaN? -/
def isNan32 (x : Nat) : Bool := bits x 23 8 == 255 && bits x 0 23 != 0

/-- A candidate put in its place: descending logit, the lower index first among equal ones. -/
def insertCand (c : Nat × Nat) : List (Nat × Nat) → List (Nat × Nat)
  | [] => [c]
  | d :: t =>
    if logitRank d.2 < logitRank c.2 ∨ (logitRank d.2 = logitRank c.2 ∧ c.1 < d.1) then c :: d :: t else d :: insertCand c t

/-- The biased logits with their indices (R241): a NaN counts as -inf; a bias of -inf removes its entry. -/
def biasedLogits (r : Req) (l : List (BitVec 32)) : List (Nat × Nat) :=
  (l.zipIdx).filterMap (fun e =>
    let x := if isNan32 e.1.toNat then 0xFF800000 else e.1.toNat
    match r.bias.find? (fun b => b.1 == e.2) with
    | none => some (e.2, x)
    | some b => if b.2 = 0xFF800000 then none else
        let y := fadd x b.2
        some (e.2, if isNan32 y then 0xFF800000 else y))

/-- NaN logits of a row (R240). -/
def nanLogits (l : List (BitVec 32)) : Nat := (l.filter (fun x => isNan32 x.toNat)).length

/-- The K candidates of a row, in order. -/
def candidates (r : Req) (k : Nat) (l : List (BitVec 32)) : List (Nat × Nat) :=
  ((biasedLogits r l).foldl (fun acc c => (insertCand c acc).take k) [])

/-- LSE of a row: -inf when every biased logit is -inf; its value otherwise is not stated bit by bit and is free. -/
def lseOf (s : State) (c : List (Nat × Nat)) : Nat × State :=
  if c.all (fun e => e.2 == 0xFF800000) then (0xFF800000, s)
  else
    let p := fresh s
    (p.1 % 2 ^ 32, p.2)

/-- A full candidate record (R242). -/
def writeCands (s : State) (fn at' pos k : Nat) (stop : Bool) (c : List (Nat × Nat)) : State :=
  let l := lseOf s c
  let s := hwrN (hwrN (hwrN (hwrN (hwrN l.2 fn at' 4 pos) fn (at' + 4) 2 k) fn (at' + 6) 2 (2 * b2n stop)) fn (at' + 8) 4 l.1) fn (at' + 12) 4 0
  (List.range k).foldl (fun s i =>
    match (c.drop i).head? with
    | some e => hwrN (hwrN s fn (at' + 16 + 8 * i) 4 e.1) fn (at' + 20 + 8 * i) 4 e.2
    | none =>
      let p := fresh s
      hwrN p.2 fn (at' + 16 + 8 * i) 8 p.1) s

/-- A PADDING record (R411). -/
def writePadding (s : State) (fn at' pos : Nat) (stopped : Bool) : State :=
  hwrN (hwrN (hwrN (hwrN (hwrN s fn at' 4 pos) fn (at' + 4) 2 0) fn (at' + 6) 2 (1 + 2 * b2n stopped)) fn (at' + 8) 4 0) fn (at' + 12) 4 0

/-! ### STEP_BOUNDARY (R356, R359, R243, R244, R371) -/

/-- Does a row take part in the step: its request is ACTIVE, in T2, and its sequence has not stopped (R232, R359)? -/
def liveRow (s : State) (r : Row) : Option Nat :=
  match r.req with
  | some e => if (req s e).state = .active ∧ (req s e).tier = 2 ∧ r.stopped = false then some e else none
  | none => none

/-- The attention of the step's queries (R233-R239): the state, and the rows whose work it fails (R244). -/
def attendStep (s : State) (x : Batch) (attn : List AttnRow) : State × List (Nat × Nat) :=
  (x.rows.zipIdx).foldl (fun (z : State × List (Nat × Nat)) r =>
    match liveRow z.1 r.1 with
    | none => z
    | some e =>
      let y := attendRow z.1 e r.2 (req z.1 e).written attn
      (y.1, match y.2 with | some st => z.2 ++ [(r.2, st)] | none => z.2)) (s, [])

/-- The keys and values of the step's positions written into their pages (R224). -/
def writeKvs (s : State) (x : Batch) (chunk : Nat) (kv : List KvRow) : State :=
  (x.rows.zipIdx).foldl (fun s r =>
    match liveRow s r.1 with
    | none => s
    | some e => writeKv s e r.2 (req s e).written (nextCount s x chunk r.2) kv) s

/-- The positions of the step written (R222, R224). -/
def writePositions (s : State) (b : Nat) (x : Batch) (chunk : Nat) : State :=
  (x.rows.zipIdx).foldl (fun s r =>
    match liveRow s r.1 with
    | none => s
    | some e =>
      let q := req s e
      let w := q.written + nextCount s x chunk r.2
      let s := setReq s e { q with written := w }
      match batch? s b with
      | some y => setBatch s b { y with rows := y.rows.map (fun z => if z.req = some e then { z with pos := w - 1 } else z) }
      | none => s) s

/-- Does a row's sequence stop with this step's record (R243)? -/
def stopsNow (x : Batch) (q : Req) (c : List (Nat × Nat)) : Bool :=
  q.written + 1 == q.e || (x.greedy && (match c with | t :: _ => q.stops.contains t.1 | [] => false))

/-- One row's record and what its request comes to at the boundary (R243, R244, R365-R367, R371). `fail`: the row's own work
failed with a status. -/
def rowBoundary (s : State) (b : Nat) (x : Batch) (i : Nat) (r : Row) (l : List (BitVec 32)) (fail : Option Nat) : State :=
  let at' := x.out + (x.done * x.rows.length + i) * slotBytes x.kmax
  match liveRow s r with
  | none => writePadding s x.fn at' r.pos r.stopped
  | some e =>
    let q := req s e
    match fail with
    | some st => endReq (writePadding s x.fn at' r.pos r.stopped) e st
    | none =>
      let c := candidates q r.k l
      let stop := stopsNow x q c
      let cancelled := !stop && q.cancelCmd.isSome && !q.pauseFirst
      let s := if cancelled then writePadding s x.fn at' (q.written - 1) false
        else setPart (writeCands s x.fn at' (q.written - 1) r.k stop c) x.part
          (fun y => { y with nonfinite := satAdd (2 ^ 32 - 1) y.nonfinite (nanLogits l) })
      let last := x.greedy && decide (x.steps ≤ x.done + 1)
      if stop || last then
        let s := match batch? s b with
          | some y => setBatch s b { y with rows := y.rows.map (fun z => if z.req = some e then { z with stopped := stop } else z) }
          | none => s
        endReq s e (reqDone s e)
      else if cancelled then endReq s e 0x12
      else if q.pauseCmd.isSome then enterPausing s e
      else if q.releaseCmd.isSome then endReq s e (reqDone s e)
      else s

/-- Work held by a barrier that has lifted is admitted (R341). -/
def liftHeld (s : State) (p : Nat) : State :=
  if barrierUp s p then s
  else
    let batches := s.srv.batches.map (fun e => if e.2.part = p then (e.1, { e.2 with held := false }) else e)
    let reqs := s.srv.reqs.map (fun e => if e.2.part = p ∧ e.2.state = ReqState.held then (e.1, { e.2 with state := .active, due := 0 }) else e)
    let s : State := { s with srv := { s.srv with batches, reqs } }
    (s.srv.reqs.filter (fun e => e.2.part == p && e.2.state == .paused && e.2.resumeCmd.isSome)).foldl (fun s e => resumeNow s e.1) s

/-- Cancellations, releases and pauses that a step without a record still lets act (R356). -/
def rowChange (s : State) (e : Nat) : State :=
  let q := req s e
  if q.state ≠ .active then s
  else if q.pauseCmd.isSome then enterPausing s e
  else if q.cancelCmd.isSome then endReq s e 0x12
  else if q.releaseCmd.isSome then endReq s e (reqDone s e)
  else s

/-- The requests of a batch of a partition that is being destroyed end with CANCELLED at its step boundary (R351 step 2). -/
def cancelDestroyed (s : State) (p b : Nat) : State :=
  match batch? s b with
  | some x => if destroying s p then settleBatch ((x.rows.filterMap (·.req)).foldl (fun s e => endReq s e 0x12) s) b else s
  | none => s

/-- What every step boundary of a partition's batch does (R343, R350-R352); P0's clusters change at frame boundaries (R28). -/
def boundaryActs (s : State) (p b handle : Nat) : State :=
  let s := cancelDestroyed s p b
  let s := match tfind handle s.handles with
    | some h => if forcedOut h then cancelForced s handle else s
    | none => s
  liftHeld (if p = 0 then s else settleResize s p true) p

/-- A step that ended well: keys and values, attention, positions, records, requests, batch. -/
def stepEnds (s : State) (b : Nat) (x : Batch) (logits : List (List (BitVec 32))) (fails : List (Nat × Nat)) (kv : List KvRow)
    (attn : List AttnRow) : State :=
  let chunk := chunkOf s x
  let z := attendStep (writeKvs s x chunk kv) x attn
  let fails := fails ++ z.2
  let s := writePositions z.1 b x chunk
  match batch? s b with
  | none => s
  | some x' =>
    if chunk < x.prefill then
      let s := setBatch s b { x' with prefill := x.prefill - chunk, running := false, replay := false }
      let s := fails.foldl (fun s f => match (x'.rows[f.1]?).bind (liveRow s) with | some e => endReq s e f.2 | none => s) s
      pagesForStep (settleBatch ((x'.rows.filterMap (·.req)).foldl rowChange s) b) b
    else
      let s := (x'.rows.zipIdx).foldl (fun s r =>
        rowBoundary s b x' r.2 r.1 (logits.getD r.2 []) ((fails.find? (fun f => f.1 == r.2)).map Prod.snd)) s
      match batch? s b with
      | none => s
      | some y =>
        let s := setBatch s b { y with prefill := 0, done := x.done + 1, running := false, replay := false, waiting := !x.greedy,
                                       cmd := if x.greedy then y.cmd else none }
        let s := if x.greedy then s else finishOpt s x.cmd 0 { r2 := b, detail := x.admitted }
        pagesForStep (settleBatch s b) b

/-- STEP_BOUNDARY (R356): the batch's work units have ended. Shared work that failed replays the step once and then ends every
request (R244, R371). What the maquette's program computed is the sender's: `logits` are the output head's per row, `fails` the rows
whose own work failed, `kv` the keys and values of the layers, `attn` their attention queries. -/
def execStepBoundary (batch : BitVec 32) (logits : List (List (BitVec 32))) (fails : List (Nat × Nat)) (kv : List KvRow)
    (attn : List AttnRow) (s : State) : Out :=
  let b := batch.toNat
  match batch? s b with
  | none => .next s
  | some x =>
    let us := unitsWhere s (fun u => u.kind == .batch b)
    if !x.running || us.any (fun u => match tfind u s.units with | some w => unitRunning s w | none => false) then .next s
    else
      let bad := s.units.filter (fun e => e.2.kind == .batch b && e.2.failed)
      if bad.isEmpty then .next (boundaryActs (stepEnds (us.foldl endUnit s) b x logits fails kv attn) x.part b x.handle)
      else if !x.replay then
        .next (setBatch (abandonStep s b) b { x with running := false, replay := true })
      else
        .next (boundaryActs (failBatch s b (if bad.any (fun e => e.2.why == 0x61) then 0x61 else 0x7F)) x.part b x.handle)

/-! ### TRAIN_STEP (R118-R124) -/

/-- T2 bytes of an adapter's state (R119); its blocks of 256 and of 32 elements run over the adapter's parameters as a whole
(DESIGN CHOICE, log entry 152). -/
def adapterBytes (params : Nat) : Nat :=
  up4k (4 * params + 4 * (params + 2 * ceilDiv params 256) + params + ceilDiv params 32)

/-- May a partition read `n` bytes of T2 from an address? -/
def t2Readable (s : State) (p addr n : Nat) : Bool :=
  isT2 addr && (n == 0 || isT2 (addr + n - 1)) &&
    (List.range (granOf (addr + n - 1) + 1 - granOf addr)).all (fun i => (accessKind s (.part p) (granOf addr + i) false).isNone)

/-- TRAIN_STEP's checks and effect (R118, R119, R362, R419): it waits for its partition's cores. -/
def trainAct (t : TrainParams) (c : Cmd) (s : State) : State :=
  match usable s c.part t.handle 2 t.entry, tfind c.part s.parts with
  | some x, some p =>
    let n := t.rank * x.man.adaptDims
    let bytes := adapterBytes n
    let old := tfind t.adapter p.adapters
    let bound := match old with | some a => a.digest == x.man.maqDigest && a.rank == t.rank | none => false
    let free := match old with | some a => a.charge | none => 0
    if c.part = 0 ∨ x.man.train = false ∨ 7 < t.adapter ∨ (!([4, 8, 16, 32, 64].contains t.rank)) = true ∨ (t.init = false ∧ bound = false) ∨
        (t.init = true ∧ t2Readable s c.part t.initAddr (2 * n) = false) then
      complete s c 0x21 {}
    else if t.init ∧ fitsT2 (credit2 s c.part free) c.part bytes = false then complete s c 0x30 {}
    else if noClusters s c.part ∨ roomFor s c.part 1 = false then complete s c 0x31 {}
    else
      let a := newAdapter s x.man.maqDigest t.rank bytes n t.initAddr
      let s := if t.init then
          setPart (charge2 (credit2 s c.part free) c.part bytes) c.part (fun p => { p with adapters := tset t.adapter a p.adapters })
        else s
      let q : Req := { part := c.part, state := .active, handle := t.handle, tag := c.tag, fn := c.fn, ring := c.ring, train := true }
      match newReq s q with
      | none => complete s c 0x31 {}
      | some e =>
        let k : Train := { cmd := c, part := c.part, entry := e.1, digest := x.man.maqDigest, params := t, running := false, prio := 0,
                           order := s.srv.order }
        { e.2 with srv := { e.2.srv with trains := e.2.srv.trains ++ [k], order := s.srv.order + 1 } }
  | _, _ => complete s c 0x21 {}

/-- TRAIN_STEP (R118, R419). -/
def execTrainStep (h : Pkt) (p : TrainParams) (s : State) : Out := .next (withPkt s h 0x90 0 .owned false (trainAct p))

/-- The training step of a request entry. -/
def trainOf (s : State) (e : Nat) : Option Train := s.srv.trains.find? (fun t => t.entry == e)

/-- Order of the phases (R121). -/
def phaseNo : TrainPhase → Nat
  | .forward => 0
  | .backward => 1
  | .accumulate => 2
  | .update => 3

/-- Have a step's phases run (R121, R123)? A step ends after UPDATE with APPLY = 1, else after ACCUMULATE; one whose gradient is
discarded runs neither. -/
def phasesRun (t : Train) (bad : Bool) : Bool :=
  if bad then decide (1 ≤ phaseNo t.phase) else if t.params.apply then t.phase == .update else t.phase == .accumulate

/-- The adapter a step trains. -/
def adapterOf (s : State) (t : Train) : Option Adapter := (tfind t.part s.parts).bind (fun p => tfind t.params.adapter p.adapters)

/-- A step that ran its phases leaves its adapter (R121-R123), and its reply carries the sums of its work units (R114, R419). -/
def trainReply (s : State) (t : Train) (x : TrainEnd) : State :=
  let n := match tfind t.params.handle s.handles with | some h => t.params.rank * h.man.adaptDims | none => 0
  let bad := x.grads.any nonfiniteFp32
  let r := match adapterOf s t with
    | none => (0, s)
    | some a =>
      let y := trainResult s t.params a (x.grads.take n) x.norm n
      (y.1.acc, setPart y.2 t.part (fun p => { p with adapters := tset t.params.adapter y.1 p.adapters }))
  let m := 2 ^ 32
  endTrain r.2 t (doneStatus r.2 t.part)
    { r0 := x.loss % m + x.norm % m * m, r1 := t.satAcc + t.satOut * m, r2 := t.nonfinite, detail := r.1,
      flags := if t.params.apply && bad then 2 else 0 }

/-- The work units of a training step. -/
def trainUnit (t : Train) (u : WorkUnit) : Bool := u.kind == .train t.cmd.fn t.cmd.ring t.cmd.sqIdx

/-- A training step whose phases have run ends; work that failed ends it and leaves the adapter as it was (R124, R371). `loss`,
`norm` and the gradients are its program's. -/
def trainEnds (s : State) (x : TrainEnd) : State :=
  match trainOf s x.entry with
  | none => s
  | some t =>
    let us := s.units.filter (fun e => trainUnit t e.2)
    if us.any (fun e => unitRunning s e.2) then s
    else
      match us.find? (fun e => e.2.failed) with
      | some e => endTrain s t (if e.2.why = 0x61 then 0x61 else 0x7F) {}
      | none =>
        if t.running ∧ phasesRun t (x.grads.any nonfiniteFp32) then
          let s := (us.map Prod.fst).foldl endUnit s
          match trainOf s x.entry with
          | none => s
          | some t => trainReply s t x
        else s

/-- Training steps that a REQ_CANCEL has reached outside UPDATE stop at the quantum boundary (R124). -/
def trainCancels (s : State) : State :=
  s.srv.trains.foldl (fun s t =>
    if (req s t.entry).cancelCmd.isSome ∧ t.phase ≠ .update then endTrain s t 0x12 {} else s) s

/-! ### The work of a quantum boundary (R20-R22, R357, R478) -/

/-- A spare that has passed INIT takes its logical number; P0's display weights are cast into it (R20-R22). -/
def mapSpares (s : State) : State :=
  s.repl.foldl (fun s r =>
    if rd s (CLU_STAT_STATE r.spare) = 2 then
      let s := wr (wr (wr s (CLU_MAP_MAPPED r.spare) 1) (CLU_MAP_LOGICAL r.spare) r.logical) (CLU_MAP_PART r.spare) (if r.part = 0xFF then 0 else r.part)
      let s : State := { s with repl := s.repl.filter (fun e => e != r) }
      if r.part = 0 then castDisplay s r.logical else s
    else s) s

/-- Order in which work takes cores (R357): frames by close tick, then batches and training steps by priority and order; a
training step has priority 0 (DEDUCED, log entry 161). -/
def startRank (s : State) (w : WorkStart) : Nat × Nat × Nat :=
  match w.kind with
  | .frame c no => (0, (match frameOf s c no with | some f => f.close | none => 0), 0)
  | .batch b => (match batch? s b with | some x => (1, x.prio, x.order) | none => (2, 0, 0))
  | .train e _ => (match trainOf s e with | some t => (1, t.prio, t.order) | none => (2, 0, 0))
  | .other => (2, 0, 0)

/-- Is one rank before another? -/
def rankLess (a b : Nat × Nat × Nat) : Bool :=
  decide (a.1 < b.1) || (a.1 == b.1 && (decide (a.2.1 < b.2.1) || (a.2.1 == b.2.1 && decide (a.2.2 < b.2.2))))

/-- A start put in its place. -/
def insertStart (s : State) (w : WorkStart) : List WorkStart → List WorkStart
  | [] => [w]
  | v :: t => if rankLess (startRank s w) (startRank s v) then w :: v :: t else v :: insertStart s w t

/-- Does the step, frame or training step a start belongs to run already (R352)? -/
def workRuns (s : State) (w : WorkStart) : Bool :=
  match w.kind with
  | .frame c no => (match frameOf s c no with | some f => f.stage == .working | none => false)
  | .batch b => (match batch? s b with | some x => x.running | none => false)
  | .train e _ => (match trainOf s e with | some t => t.running | none => false)
  | .other => false

/-- The thread number of a start's thread, when the partition holds the cluster and the thread is free; a leaving cluster takes
work only of a step or frame that runs (`old`, R352). -/
def startThreadNo (s : State) (p : Nat) (old : Bool) (t : Nat × Nat × Nat × Nat) : Option Nat :=
  match physOf s t.1 with
  | none => none
  | some n =>
    let st := rd s (CLU_STAT_STATE n)
    let k := coreNo n (t.2.1 % 64) * 8 + t.2.2.1 % 8
    let held := match tfind p s.parts with | some x => x.logical.contains t.1 || (old && x.leaving.contains t.1) | none => false
    if held = true ∧ (st = 2 ∨ st = 3) ∧ (thrState s k = 0 ∨ thrState s k = 6) then some k else none

/-- May the work a unit belongs to start it now (R121, R211, R232, R339, R357, R480)? A training step's phases run in
order; a frame waits behind an earlier frame of its stream. -/
def mayStart (s : State) (w : WorkStart) : Bool :=
  !fenced s w.part &&
    (match w.kind with
     | .frame c no =>
       (match frameOf s c no with
        | some f => f.bind.part == w.part && (f.stage == .released || f.stage == .working) &&
            (((ctx s c).frames.find? (fun g => g.stage == .released || g.stage == .working || g.stage == .finished)).map Frame.no) == some no
        | none => false)
     | .batch b =>
       (match batch? s b with
        | some x => x.part == w.part && !x.held && !x.waiting && x.rows.any (fun r => (liveRow s r).isSome)
        | none => false)
     | .train e ph =>
       (match trainOf s e with
        | some t => t.part == w.part && (phaseNo ph == phaseNo t.phase || phaseNo ph == phaseNo t.phase + 1) &&
            (t.params.apply || ph != .update) &&
            (ph == t.phase || !s.units.any (fun e => trainUnit t e.2 && unitRunning s e.2))
        | none => false)
     | .other => (tfind w.part s.parts).isSome)

/-- The unit's kind, and the work marked as running. -/
def markStart (s : State) (w : WorkStart) : UnitKind × State :=
  match w.kind with
  | .frame c no =>
    (.frame c no, setCtx s c { ctx s c with frames := (ctx s c).frames.map (fun f => if f.no = no then { f with stage := .working } else f) })
  | .batch b =>
    (.batch b, match batch? s b with | some x => setBatch s b { x with running := true } | none => s)
  | .train e ph =>
    match trainOf s e with
    | some t =>
      (.train t.cmd.fn t.cmd.ring t.cmd.sqIdx,
       { s with srv := { s.srv with trains := s.srv.trains.map (fun y => if y.entry = e then { y with running := true, phase := ph } else y) } })
    | none => (.other, s)
  | .other => (.other, s)

/-- A work unit's seed (R112): SEED of its TRAIN_STEP, 0 for all other work. -/
def startSeed (s : State) (w : WorkStart) : Nat :=
  match w.kind with
  | .train e _ => (match trainOf s e with | some t => t.params.seed | none => 0)
  | _ => 0

/-- Is a partition's work privileged (R69): P0's, and that of a partition the firmware owns? -/
def privPart (s : State) (p : Nat) : Bool := p == 0 || (match tfind p s.parts with | some x => x.firmware | none => false)

/-- One start (R36, R69, R112, R357): it waits when its work may not run or a thread of it is not free. -/
def startWork (s : State) (w : WorkStart) : State :=
  let ks := w.threads.map (startThreadNo s w.part (workRuns s w))
  if mayStart s w && !ks.isEmpty && ks.all Option.isSome then
    let m := markStart s w
    startUnit m.2 { part := w.part, kind := m.1, threads := ks.map (fun k => k.getD 0), priv := privPart s w.part, last := w.last } (startSeed s w)
      (w.threads.map (fun t => t.2.2.2)) none
  else s

/-- Every start offered at a boundary, in the order of R357. -/
def startAll (s : State) (l : List WorkStart) : State :=
  (l.foldl (fun acc w => insertStart s w acc) []).foldl startWork s

/-- Does a thread wait on a move in progress (R478)? -/
def waitsOnMove (s : State) (k : Nat) : Bool :=
  match (thr s k).wait with
  | .tag n => tagOf s k n == .pendMove
  | .moveQueue => true
  | _ => false

/-- Unfinished threads of a unit. -/
def unfinished (s : State) (u : WorkUnit) : List Nat := u.threads.filter (fun k => thrState s k != 0 && thrState s k != 6)

/-- A unit's age at a boundary (R478). -/
def ageUnit (s : State) (u : WorkUnit) : WorkUnit :=
  let ks := unfinished s u
  let waits := !ks.isEmpty && ks.all (waitsOnMove s)
  let pcs := ks.map (fun k => (thr s k).pc)
  let still := waits && u.snap == some pcs
  let halted := ks.any (fun k => thrState s k == 7)
  { u with age := if u.exempt || still then u.age else u.age + 1, exempt := halted, snap := if waits then some pcs else none }

/-- Is a unit hung: running at the end of its second quantum (R478)? The Armature's dispatches are exempt, and privileged
STREAM work. -/
def isHung (s : State) (u : WorkUnit) : Bool :=
  decide (2 ≤ u.age) && unitRunning s u && u.kind != .armature &&
    !(u.priv && u.threads.any (fun k => match (core s (k / 8)).arr with | x :: _ => (arrFields x.word).opc == 0x22 | [] => false))

/-- The progress monitors (R478, R480, R502): units age, a hung unit marks its partition, whose fence goes up; during a Plinth
reset the mark alone stands. -/
def monitor (s : State) : State :=
  let s : State := { s with units := s.units.map (fun e => (e.1, ageUnit s e.2)) }
  s.units.foldl (fun s e =>
    if isHung s e.2 && !e.2.hung then
      let s := { s with units := tset e.1 { e.2 with hung := true } s.units }
      let s := wr (bump s (FLT_PROG_HANGS e.2.part) 1) FLT_EVT_STAT_HANG 1
      let s := wr s (FLT_PROG_LAST_CL e.2.part) (logicalOf s (e.2.threads.headD 0 / 512))
      match tfind e.2.part s.parts with
      | none => s
      | some x =>
        let s := setPart s e.2.part (fun y => { y with hung := true })
        if x.fence = .none ∧ s.boot.pln = .up then raiseFence s e.2.part true else s
    else s) s

end Sys2Proof.Machine
end

