-- ==== Sys2Proof/Machine/View.lean ====
section
/-!
DEFINITION. Sys2Proof/Machine/View.lean: what a read of a register shows without any read side effect: stored fields, and the
fields the spec defines from other state (spec/12 R425, spec/14 R468, spec/15 R503, spec/16 R526-R530, spec/18 R578-R579).
-/
namespace Sys2Proof.Machine
open Reg

/-! ### Fields shown from other state -/

/-- Owner of a tenant key slot as a nibble: 0xF where no function owns it (R530). -/
def ownNibble (s : State) (slot : Nat) : Nat := if tget 0 s.sec.owners slot = 0 then 15 else tget 0 s.sec.owners slot - 1

/-- Ticks of 24 h (R487). -/
def dayTicks : Nat := 24 * 3600 * 100000000

/-- Mismatches of a pair in the last 24 h, one just found included (R487). -/
def recentMism (s : State) (x : PairState) : List Nat := x.mism.filter (fun t => decide (s.time < t + dayTicks))

/-- Is the array held below OP2 under a POWER_FLOOR takeover (R468)? -/
def belowFloor (s : State) : Bool := hasCause s 4 && decide (rd s PWR_OP_STAT_OP < 2)

/-- The fields of the PWR, FLT, PLN, SEC, MEM, EVC and XSP blocks that follow other state. -/
def derivedField (s : State) (addr lo : Nat) : Option Nat :=
  if addr = 0x22000000 then some (if lo = 16 then s.flt.opens.length else bufCount s)
  else if addr = 0x22000028 ∧ lo = 24 then some (logUsed s 0)
  else if addr = 0x22000010 ∧ (lo = 24 ∨ lo = 28) then
    some (min 15 (recentMism s (if lo = 24 then s.flt.pairA else s.flt.pairB)).length)
  else if addr = 0x20000104 ∧ lo = 0 then some (min 255 (haltedThreads s))
  else if 0x20000200 ≤ addr ∧ addr < 0x20000280 then
    let n := (addr - 0x20000200) / 4
    if lo = 29 then some (b2n (isSet s (PLN_SEM_HELD n) && decide (rd s (PLN_SEM_OWNER n) < 2) && pairHalted s (rd s (PLN_SEM_OWNER n) == 1)))
    else if lo = 8 then some (min 65535 (holdTicks s n / 100))
    else none
  else if addr = 0x24000000 ∧ lo = 2 then some s.sec.sessions.length
  else if 0x24000020 ≤ addr ∧ addr < 0x24000030 then
    let n := (addr - 0x24000020) / 4
    some (((List.range 8).map (fun i => ownNibble s (8 * n + i) * 16 ^ i)).foldl (· + ·) 0)
  else if addr = 0x24000040 ∧ lo = 2 then some (b2n (anyHalted s))
  else if addr = 0x23000004 ∧ lo = 19 then some (b2n (decide (s.pwr.limit ≤ 100)))
  else if addr = 0x23000008 ∧ lo = 1 then some (b2n (belowFloor s))
  else if addr = 0x23000008 ∧ lo = 0 then some (rd s DSP_STAT_LINE_LOCKED)
  else if 0x23000040 ≤ addr ∧ addr < 0x23000080 ∧ lo = 8 then
    some (match tfind ((addr - 0x23000040) / 4) s.parts with | some x => x.minRate | none => 0)
  else if 0x21000010 ≤ addr ∧ addr < 0x21000020 then some (evcSum s ((addr - 0x21000010) / 4))
  else if addr = 0x33000028 then
    some (((List.range 32).map (fun k => if tget 0 s.dram.keys k = 0 then 0 else 2 ^ k)).foldl (· + ·) 0)
  else if addr = 0x36000000 ∧ lo = 3 then some (b2n s.boot.staged.isSome)
  else none

/-- A field as a read shows it. -/
def fieldView (s : State) (f : RegField) : Nat :=
  match derivedField s f.addr f.lo with
  | some v => v % 2 ^ f.width
  | none => rd s f

/-- A register of a block as a read shows it (R10, R11): `wo` fields and unlisted bits read 0. The granule entry shows
through MEM_GTAB_DATA, with ZFILL while a fill is in progress (R251, R285), a stored record through the FLT_REC slots (R475). -/
def wordView (s : State) (addr : Nat) : Nat :=
  if addr = 0x33000034 then gEntry s (rd s MEM_GTAB_IDX_GRAN) + (if s.dram.fills.isEmpty then 0 else 2 ^ 16)
  else ((fieldsAt addr).map (fun f => if f.acc = .wo then 0 else fieldView s f * 2 ^ f.lo)).foldl (· + ·) 0

/-! ### Fault Concentrator records (R475) -/

/-- A number as `n` bytes, little-endian (R9). -/
def leBytes : Nat → Nat → List Nat
  | 0, _ => []
  | n + 1, v => v % 256 :: leBytes n (v / 256)

/-- A published record as 32 bytes (R475). -/
def recBytes (r : FltRec) : List Nat :=
  leBytes 4 r.num ++ [r.domain, r.body.cls, r.body.status % 256, b2n r.lost + 2 * b2n r.body.esc] ++ leBytes 8 r.body.time ++
    leBytes 2 r.body.echo ++ [r.body.part % 256, r.body.sub % 256] ++ leBytes 4 r.body.span ++ leBytes 8 r.body.detail

/-- A word of the FLT_REC slots (R503). -/
def recWord (s : State) (addr : Nat) : Nat :=
  let i := (addr - 0x22001000) / 32
  let o := (addr - 0x22001000) % 32
  match tfind i s.flt.slots with
  | some r => ((recBytes r).drop o).take 4 |>.foldr (fun b n => b + 256 * n) 0
  | none => 0

/-! ### The window of a function (R425, R600) -/

/-- HIF_RING_STAT.STATE (R425, R480). -/
def ringStateCode (s : State) (fn r : Nat) : Nat :=
  match (ring s fn r).state with
  | .disabled => 0
  | .enabled => if ringFenced s fn r then 3 else 1
  | .draining => if ringFenced s fn r then 3 else 2

/-- A window word from the device's state, as the Plinth publishes it (R382, R425). -/
def windowWord (s : State) (fn o : Nat) : Nat :=
  let sel := rd s (HIF_RING_IDX_RING fn)
  let r := ring s fn sel
  if o = 0x0 then 0xB0 * 2 ^ 24 + fn * 2 ^ 16 + 0x8640
  else if o = 0x4 then 2 ^ 31 + 2 ^ 30 + 63 * 2 ^ 16 + 1024
  else if o = 0x8 then
    rd s (HIF_STAT_WR_DROP fn) * 2 ^ 16 + rd s (HIF_STAT_FW_SLOT fn) * 4 + rd s (HIF_STAT_STALE fn) * 2 + rd s (HIF_STAT_READY fn)
  else if o = 0xC then rd s (HIF_WIN_SEQ_SEQ fn)
  else if o = 0x10 then rd s (HIF_EVT_CFG_EN fn) * 2 ^ 31 + rd s (HIF_EVT_CFG_RING fn) * 2 ^ 16 + rd s (HIF_EVT_CFG_STAT_VEC fn)
  else if o = 0x20 then sel
  else if o = 0x24 then
    b2n (r.state == .enabled) * 2 ^ 31 + r.staged.fmt * 2 ^ 30 + r.staged.kind * 2 ^ 28 + r.staged.sqLog2 * 2 ^ 20 +
      r.staged.cqLog2 * 2 ^ 16 + r.staged.vec * 2 ^ 8
  else if o = 0x28 then r.staged.sqBase % 2 ^ 32
  else if o = 0x2C then r.staged.sqBase / 2 ^ 32
  else if o = 0x30 then r.staged.cqBase % 2 ^ 32
  else if o = 0x34 then r.staged.cqBase / 2 ^ 32
  else if o = 0x38 then r.staged.tailAddr % 2 ^ 32
  else if o = 0x3C then r.staged.tailAddr / 2 ^ 32
  else if o = 0x40 then r.staged.coalUs * 2 ^ 8 + r.staged.coalCnt
  else if o = 0x44 then
    let p := ringPart s fn sel
    ringStateCode s fn sel * 2 ^ 30 + b2n r.dbErr * 2 ^ 29 + b2n (!r.waiting.isEmpty) * 2 ^ 28 + b2n p.isSome * 2 ^ 27 +
      p.getD 0 * 2 ^ 23 + inflight s fn sel * 2 ^ 16 + r.sqHead
  else 0

/-- The window words with state behind them but the DSP mirror (R425). -/
def windowOffsets : List Nat := [0x0, 0x4, 0x8, 0xC, 0x10, 0x20, 0x24, 0x28, 0x2C, 0x30, 0x34, 0x38, 0x3C, 0x40, 0x44]

/-- A word of the MSI-X table or PBA (R383, R421). -/
def msixWord (s : State) (fn o : Nat) : Nat :=
  if o < 0xF000 then
    let e := msixEntry s fn ((o - 0xE000) / 16)
    if o % 16 = 0 then e.addr % 2 ^ 32 else if o % 16 = 4 then e.addr / 2 ^ 32 else if o % 16 = 8 then e.data % 2 ^ 32 else b2n e.masked
  else
    ((List.range 32).map (fun i => if (fnSt s fn).pba.contains ((o - 0xF000) / 4 * 32 + i) then 2 ^ i else 0)).foldl (· + ·) 0

/-- A read of a window word: the published copy, and what R383 lists live. -/
def windowRead (s : State) (fn o : Nat) : Nat :=
  if (0xE000 ≤ o ∧ o < 0xE400) ∨ (0xF000 ≤ o ∧ o < 0xF008) then msixWord s fn o
  else if o = 0xC then rd s (HIF_WIN_SEQ_SEQ fn)
  else
    let v := match tfind o (fnSt s fn).pub with
      | some v => v
      | none => if o = 0x0 ∨ o = 0x4 then windowWord s fn o else if o = 0x24 then 4 * 2 ^ 20 + 4 * 2 ^ 16 else 0
    if o = 0x8 then rd s (HIF_STAT_WR_DROP fn) * 2 ^ 16 + bits v 2 1 * 4 + rd s (HIF_STAT_STALE fn) * 2 + bits v 0 1 else v

/-! ### Board management over I3C (R578, R587) -/

/-- A BMC register as the I3C target returns it. -/
def bmcWord (s : State) (idx : Nat) : Nat :=
  if idx = 0 then
    rd s FLT_RST_CAUSE_CAUSE * 2 ^ 28 + rd s FLT_RST_CAUSE_COUNT * 2 ^ 20 + rd s BMC_STAT_HOLD_REASON * 2 ^ 16 +
      rd s BMC_STAT_STAGE * 2 ^ 12 + b2n s.pwr.trip * 2 ^ 7 + rd s FLT_DWDOG_EXPIRED * 2 ^ 6 + s.boot.slot * 2 ^ 5 +
      rd s BMC_STAT_REVERTED * 2 ^ 4
  else if idx = 4 then rd s BMC_RAILS_LAST_FAIL * 2 ^ 16 + rd s BMC_RAILS_GOOD
  else if idx = 0xC then wordView s 0x23000014
  else 0

/-- DEV_INT_N asserted (R587). -/
def devInt (s : State) : Bool :=
  rd s BMC_STAT_STAGE == 5 || rd s BMC_STAT_STAGE == 7 || s.pwr.trip || isSet s FLT_DWDOG_EXPIRED || decide (2 ≤ rd s PWR_THERM_STAT_STATE)

/-- WDOG_N asserted (R494). -/
def wdogPin (s : State) : Bool := isSet s FLT_DWDOG_EXPIRED

/-- The VDD_ARR code on VRC_VID (R444, R591): nominal code and trim of a point, clamped to 2-70. -/
def vidCode (s : State) (op : Nat) : Nat :=
  let trims := [PWR_TRIM_LO_TRIM_0, PWR_TRIM_LO_TRIM_1, PWR_TRIM_LO_TRIM_2, PWR_TRIM_LO_TRIM_3, PWR_TRIM_HI_TRIM_4,
    PWR_TRIM_HI_TRIM_5, PWR_TRIM_HI_TRIM_6]
  let t := max (-8) (min 8 (signExt 8 (rd s (trims.getD op PWR_TRIM_HI_TRIM_6))))
  let v := (10 + 10 * (op : Int)) + t
  if v < 2 then 2 else if 70 < v then 70 else v.toNat

/-- The lines VRC_VID[6:0] (R553, R591): high-impedance (none) until reset is released; the code of the present point, every line
inverted where bit 0 of the board record's VREG byte is 1. -/
def vrcVid (s : State) : Option Nat :=
  if s.boot.released then
    let v := vidCode s (rd s PWR_OP_STAT_OP)
    some (match s.boot.image with
      | some i => if bit i.board.vreg 0 then 127 - v else v
      | none => v)
  else none

end Sys2Proof.Machine
end

