-- ==== Sys2Proof/Machine/Window.lean ====
section
/-!
DEFINITION. Sys2Proof/Machine/Window.lean: doorbells, the emulated register window, rings, MSI-X and function resets
(spec/12_host_interface_ferar.md R377-R398, R421-R427).
-/
namespace Sys2Proof.Machine
open Reg

/-- HIF_STAT changed: its vector is signalled (R421). -/
def statIrq (s : State) (fn : Nat) : State := signalVec s fn (rd s (HIF_EVT_CFG_STAT_VEC fn))

/-- READY of a function changed to `v`. -/
def setReady (s : State) (fn : Nat) (v : Bool) : State :=
  if isSet s (HIF_STAT_READY fn) = v then s else statIrq (wr s (HIF_STAT_READY fn) (b2n v)) fn

/-- STALE of a function changed to `v` (R383). -/
def setStale (s : State) (fn : Nat) (v : Bool) : State :=
  if isSet s (HIF_STAT_STALE fn) = v then s else statIrq (wr s (HIF_STAT_STALE fn) (b2n v)) fn

/-! ### Doorbells (R389) -/

/-- Is a doorbell write refused on a ring of `n` entries (R389)? -/
def doorbellBad (r : Ring) (v n : Nat) : Bool := bits v 16 15 != 0 || decide (n ≤ bits v 0 16) || r.state == .disabled

/-- A refused doorbell: DB_ERR, and one report in the function's domain (R389, R472). -/
def rejectDoorbell (s : State) (fn rg : Nat) : State :=
  report (setRing s fn rg { ring s fn rg with dbErr := true }) (64 + fn) clsContained 0 0xFF 0xFF 0

/-- SQ_DOORBELL (R389): packets up to the new SQ tail become available. -/
def execSqDoorbell (fn : Fin 16) (rg : Fin 1024) (value : BitVec 31) (s : State) : Out :=
  let r := ring s fn rg
  let s := trace s 7 0xFF
  if doorbellBad r value.toNat (2 ^ r.cfg.sqLog2) then .next (rejectDoorbell s fn rg)
  else .next (setRing s fn rg { r with sqTail := bits value.toNat 0 16 })

/-- The records before a new head are consumed: their slots and the frame buffers they hold are free (R213, R389). -/
def consumeRecords (s : State) (fn rg head : Nat) : State :=
  let r := ring s fn rg
  let n := (head + 2 ^ r.cfg.cqLog2 - r.cqHead) % 2 ^ r.cfg.cqLog2
  let s := setRing s fn rg { r with cqHead := head, refs := r.refs.drop n }
  (r.refs.take n).foldl (fun s ref => freeBuffer s ref) s

/-- CQ_DOORBELL (R389, R391, R398): records are consumed, records that wait are written, then held event records. -/
def execCqDoorbell (fn : Fin 16) (rg : Fin 1024) (value : BitVec 31) (s : State) : Out :=
  let r := ring s fn rg
  let v := value.toNat
  let n := 2 ^ r.cfg.cqLog2
  let s := trace s 7 0xFF
  if doorbellBad r v n ∨ (r.cqTail + n - r.cqHead) % n < (bits v 0 16 + n - r.cqHead) % n then .next (rejectDoorbell s fn rg)
  else
    let s := consumeRecords s fn rg (bits v 0 16)
    let s := settleDrain (drainWaiting fn rg (ring s fn rg).waiting s) fn rg
    .next (if rd s (HIF_EVT_CFG_RING fn) = rg.val then flushEvents s fn else s)

/-! ### Window writes (R382-R385, R426) -/

/-- A write of the MSI-X table (R383, R421); unmasking a vector sends its pending message. -/
def msixWrite (s : State) (fn o v : Nat) : State :=
  if 0xF000 ≤ o then s
  else
    let n := (o - 0xE000) / 16
    let f := fnSt s fn
    let e := msixEntry s fn n
    let e := if o % 16 = 0 then { e with addr := e.addr / 2 ^ 32 * 2 ^ 32 + v / 4 * 4 }
             else if o % 16 = 4 then { e with addr := v * 2 ^ 32 + e.addr % 2 ^ 32 }
             else if o % 16 = 8 then { e with data := v }
             else { e with masked := bit v 0 }
    let s := setFn s fn { f with msix := tput {} f.msix n e }
    if !e.masked ∧ f.pba.contains n ∧ !f.d3hot then
      signalVec (setFn s fn { fnSt s fn with pba := f.pba.filter (fun k => k != n) }) fn n
    else s

/-- A BAR0 write (R383, R384): the MSI-X table and PBA directly, any other offset through the function's queue; a write that
finds it full is discarded and counted. -/
def bar0Write (s : State) (fn o v : Nat) : State :=
  if (0xE000 ≤ o ∧ o < 0xE400) ∨ (0xF000 ≤ o ∧ o < 0xF008) then msixWrite s fn o v
  else
    let f := fnSt s fn
    if f.wq.length < 64 then setFn s fn { f with wq := f.wq ++ [(o, v)] }
    else if rd s (HIF_STAT_WR_DROP fn) = 65535 then s
    else statIrq (bump s (HIF_STAT_WR_DROP fn) 1) fn

/-- BAR0_WRITE (R384). -/
def execBar0Write (fn : Fin 16) (word : Fin 16384) (value : BitVec 32) (s : State) : Out :=
  .next (bar0Write s fn (4 * word.val) value.toNat)

/-- Are the staged settings of a ring those a ring can be enabled with (R426)? -/
def ringCfgOk (c : RingCfg) : Bool :=
  c.sqBase != 0 && c.sqBase % 4096 == 0 && c.cqBase != 0 && c.cqBase % 4096 == 0 && decide (4 ≤ c.sqLog2) && decide (c.sqLog2 ≤ 12) &&
    decide (4 ≤ c.cqLog2) && decide (c.cqLog2 ≤ 12) && decide (c.kind ≤ 1) && !(c.kind == 1 && c.fmt == 1) && c.tailAddr % 8 == 0

/-- A ring enabled with its staged settings, heads and tails 0; a refusal sets DB_ERR and leaves it disabled (R426). -/
def enableRing (s : State) (fn rg : Nat) : State :=
  let r := ring s fn rg
  if ringCfgOk r.staged then
    flushEvents (setRing s fn rg { staged := r.staged, cfg := r.staged, state := .enabled, dbErr := r.dbErr }) fn
  else setRing s fn rg { r with dbErr := true }

/-- A ring starts to drain (R393); a vacant one is DISABLED at once. -/
def disableRing (s : State) (fn rg : Nat) : State :=
  settleDrain (setRing s fn rg { ring s fn rg with state := .draining }) fn rg

/-- A write of HIF_RING_CFG (R426): settings and ENABLE on a disabled ring, only ENABLE = 0 on an enabled one. -/
def ringCfgWrite (s : State) (fn rg v : Nat) : State :=
  let r := ring s fn rg
  match r.state with
  | .disabled =>
    let c := { r.staged with fmt := bits v 30 1, kind := bits v 28 2, sqLog2 := bits v 20 4, cqLog2 := bits v 16 4, vec := bits v 8 6 }
    let s := setRing s fn rg { r with staged := c }
    if bit v 31 then enableRing s fn rg else s
  | .enabled => if bit v 31 then s else disableRing s fn rg
  | .draining => s

/-- A write of HIF_RING_COAL: accepted in any state, and judged at once for the records that wait (R422, R426). -/
def ringCoalWrite (s : State) (fn rg v : Nat) : State :=
  let r := ring s fn rg
  let r := { r with staged := { r.staged with coalUs := bits v 8 8, coalCnt := bits v 0 8 },
                    cfg := { r.cfg with coalUs := bits v 8 8, coalCnt := bits v 0 8 } }
  if r.state != .disabled && coalDue r && r.cqHead != r.cqTail then
    signalVec (setRing s fn rg { r with sinceIrq := 0, oldest := none }) fn r.cfg.vec
  else setRing s fn rg r

/-- A base or tail address word written on a disabled ring (R426). -/
def ringAddrWrite (s : State) (fn rg o v : Nat) : State :=
  let r := ring s fn rg
  let lo := fun (x : Nat) => x / 2 ^ 32 * 2 ^ 32 + v
  let hi := fun (x : Nat) => v * 2 ^ 32 + x % 2 ^ 32
  if r.state = .disabled then
    let c := r.staged
    let c := if o = 0x28 then { c with sqBase := lo c.sqBase } else if o = 0x2C then { c with sqBase := hi c.sqBase }
             else if o = 0x30 then { c with cqBase := lo c.cqBase } else if o = 0x34 then { c with cqBase := hi c.cqBase }
             else if o = 0x38 then { c with tailAddr := lo c.tailAddr } else { c with tailAddr := hi c.tailAddr }
    setRing s fn rg { r with staged := c }
  else s

/-- The published copy of a window refreshed (R382). The DSP mirror waits for the output frame boundary (R196); while no output frame
runs it goes with the rest (log entry 162). -/
def publish (s : State) (fn : Nat) : State :=
  let f := fnSt s fn
  let dsp := if fn ≠ 0 then [] else if isSet s DSP_CTRL_ENABLE then f.pub.filter (fun e => decide (0x1000 ≤ e.1)) else dspMirror s
  setFn s fn { f with pub := windowOffsets.map (fun o => (o, windowWord s fn o)) ++ dsp }

/-- The effect of one window write (R384, R385): DB_ERR clears only where the copy has shown it. -/
def applyWindow (s : State) (fn o v : Nat) : State :=
  let sel := rd s (HIF_RING_IDX_RING fn)
  if o = 0x10 then
    flushEvents (wr (wr (wr s (HIF_EVT_CFG_EN fn) (bits v 31 1)) (HIF_EVT_CFG_RING fn) (bits v 16 10)) (HIF_EVT_CFG_STAT_VEC fn) (bits v 0 6)) fn
  else if o = 0x20 then wr s (HIF_RING_IDX_RING fn) (bits v 0 10)
  else if o = 0x24 then ringCfgWrite s fn sel v
  else if 0x28 ≤ o ∧ o < 0x40 then ringAddrWrite s fn sel o v
  else if o = 0x40 then ringCoalWrite s fn sel v
  else if o = 0x44 then
    if bit v 29 && bit (windowRead s fn 0x44) 29 then setRing s fn sel { ring s fn sel with dbErr := false } else s
  else s

/-- Does the Plinth apply a function's window writes (R384)? -/
def appliesWindow (s : State) (fn : Nat) : Bool := isSet s (HIF_STAT_READY fn) && !isSet s (HIF_STAT_STALE fn)

/-- The write at the front of a function's queue applied, published and acknowledged by HIF_WIN_SEQ (R384, R385). -/
def applyFront (s : State) (fn o v : Nat) : State :=
  let f := fnSt s fn
  let s := applyWindow (setFn s fn { f with wq := f.wq.drop 1 }) fn o v
  tick (publish s fn) (HIF_WIN_SEQ_SEQ fn)

/-- WINDOW_WRITE_APPLY (R384). -/
def execWindowWriteApply (fn : Fin 16) (s : State) : Out :=
  match (fnSt s fn).wq with
  | (o, v) :: _ => if appliesWindow s fn then .next (applyFront s fn o v) else .next s
  | [] => .next s

/-- RING_ENABLE (R426): the write at the front of the queue sets ENABLE of a disabled ring. -/
def execRingEnable (fn : Fin 16) (s : State) : Out :=
  match (fnSt s fn).wq with
  | (o, v) :: _ => if appliesWindow s fn && o == 0x24 && bit v 31 then .next (applyFront s fn o v) else .next s
  | [] => .next s

/-- RING_DISABLE (R393): the write at the front of the queue clears ENABLE. -/
def execRingDisable (fn : Fin 16) (s : State) : Out :=
  match (fnSt s fn).wq with
  | (o, v) :: _ => if appliesWindow s fn && o == 0x24 && !bit v 31 then .next (applyFront s fn o v) else .next s
  | [] => .next s

/-- Is a function's reset (R423) complete: no partition it owns is fenced? -/
def flrDone (s : State) (fn : Nat) : Bool := !(s.parts.any (fun e => e.2.owner == fn && (e.2.fence != .none || e.2.fenceDue)))

/-- WINDOW_PUBLISH (R382, R383, R427): the copy is refreshed, STALE clears, and READY returns once the Plinth has completed
the function's reset. -/
def execWindowPublish (fn : Fin 16) (s : State) : Out :=
  if s.boot.pln = .up ∧ !(pairHalted s false && pairHalted s true) then
    let s := setStale s fn false
    let f := fnSt s fn
    let s := if f.flr ∧ flrDone s fn ∧ (fn.val = 0 ∨ fn.val ≤ s.hif.numVfs) then setReady (setFn s fn { f with flr := false }) fn true else s
    .next (publish s fn)
  else .next s

/-- BAR_UNSUPPORTED_ACCESS (R381, R519): a read of `n` bytes returns all ones; a write is discarded; AER records it. -/
def execBarUnsupportedAccess (fn : Fin 16) (read : Option (Fin 64)) (s : State) : Out :=
  let s := emit s (.unsupported fn)
  match read with
  | some n => .next (emit s (.value (2 ^ (8 * n.val) - 1)))
  | none => .next s

/-- COAL_TIMEOUT (R422): the oldest record that waits in the CQ since the last interrupt is COAL_US old (the sender's claim). -/
def execCoalTimeout (fn : Fin 16) (rg : Fin 1024) (s : State) : Out :=
  let r := ring s fn rg
  if r.cfg.coalUs ≠ 0 ∧ 0 < r.sinceIrq ∧ r.cqHead ≠ r.cqTail then
    .next (signalVec (setRing s fn rg { r with sinceIrq := 0, oldest := none }) fn r.cfg.vec)
  else .next s

/-- MSIX_UNMASK (R421): the vector's mask clears and its pending message is sent. -/
def execMsixUnmask (fn : Fin 16) (vec : Fin 64) (s : State) : Out := .next (msixWrite s fn (0xE000 + 16 * vec.val + 12) 0)

/-! ### Function resets (R423, R427, R511, R515) -/

/-- A tenant slot emptied and its owner cleared (R514, R515). -/
def eraseSlot (s : State) (slot : Nat) : State :=
  let s := { s with dram := { s.dram with keys := tput 0 s.dram.keys slot 0 }, sec := { s.sec with owners := tput 0 s.sec.owners slot 0 } }
  wr s SEC_EVT_STAT_KEY_ERASED 1

/-- The slots a function that satisfies `p` owns, erased. -/
def eraseSlots (s : State) (p : Nat → Bool) : State :=
  ((s.sec.owners.filter (fun e => e.2 != 0 && p (e.2 - 1))).map Prod.fst).foldl eraseSlot s

/-- The SPDM sessions of the functions that satisfy `p` end (R511). -/
def endSessions (s : State) (p : Nat → Bool) : State :=
  { s with sec := { s.sec with sessions := s.sec.sessions.filter (fun x => !p x.fn) } }

/-- Rings, window, MSI-X table and event count of a function at their reset values, without records (R423, R427). -/
def resetFunction (s : State) (fn : Nat) : State :=
  let stale := rd s (HIF_STAT_STALE fn)
  let slot := rd s (HIF_STAT_FW_SLOT fn)
  let s := dropCmds s (fun c => c.fn == fn)
  let base := 0x30000000 + 0x10000 * fn
  let s := resetRegs s (fun a => decide (base ≤ a) && decide (a < base + 0x10000))
  let s := { s with hif := { s.hif with rings := tdrop (fun k => k / 1024 == fn) s.hif.rings } }
  let s := setFn s fn { d3hot := (fnSt s fn).d3hot, flr := true }
  wr (wr s (HIF_STAT_STALE fn) stale) (HIF_STAT_FW_SLOT fn) slot

/-- A partition of a function that is reset is reset as by PART_RESET, without a packet (R423). -/
def resetOwned (s : State) (p : Nat) : State :=
  match tfind p s.parts with
  | some x =>
    if x.ending then s
    else if x.fence = .up then startReset s p
    else setPart (if x.fence = .none then askFence s p else s) p (fun x => { x with hangFence := true })
  | none => s

/-- A partition destroyed as by PART_DESTROY, without records (R423): what remains of a drain ends first (R502). -/
def destroyOwned (s : State) (p : Nat) : State :=
  match tfind p s.parts with
  | some x =>
    let s := setPart s p (fun x => { x with destroying := true, noRecords := true, destroyCmds := [] })
    if x.fence = .none then askFence s p else finishDestroy s p true
  | none => s

/-- Partitions whose owner satisfies `p`, but P0. -/
def ownedParts (s : State) (p : Nat → Bool) : List Nat := ((s.parts.filter (fun e => e.1 != 0 && p e.2.owner)).map Prod.fst)

/-- VF Enable cleared (R423): VF-owned partitions destroyed, the VFs' sessions ended, their slots erased. -/
def clearVfs (s : State) : State :=
  let vf := fun (f : Nat) => f != 0
  let s := (ownedParts s vf).foldl destroyOwned s
  let s := eraseSlots (endSessions s vf) vf
  let s := (List.range 15).foldl (fun s i => setReady (resetFunction s (i + 1)) (i + 1) false) s
  { s with hif := { s.hif with numVfs := 0 } }

/-- FUNCTION_LEVEL_RESET (R423, R511): of a VF, or of the PF, which also clears VF Enable. -/
def execFunctionLevelReset (fn : Fin 16) (s : State) : Out :=
  let s := if fn.val = 0 then clearVfs s else s
  let s := endSessions s (fun f => f == fn.val)
  let s := resetFunction s fn
  .next ((ownedParts s (fun f => f == fn.val)).foldl resetOwned s)

/-- VF_ENABLE_SET (R379, R427): the VFs become enabled; each is ready once the Plinth has completed its reset. -/
def execVfEnableSet (numVfs : Fin 16) (s : State) : Out :=
  if s.hif.numVfs = 0 then
    let s := { s with hif := { s.hif with numVfs } }
    .next ((List.range numVfs).foldl (fun s i => setFn s (i + 1) { fnSt s (i + 1) with flr := true }) s)
  else .next s

/-- VF_ENABLE_CLEAR (R423, R515). -/
def execVfEnableClear (s : State) : Out := .next (clearVfs s)

/-- PCIE_REFCLK_LOSS (R599): the link goes down; packets wait. -/
def execPcieRefclkLoss (s : State) : Out := .next { s with hif := { s.hif with refclk := false } }

/-- PCIE_REFCLK_RETURN (R599): the link retrains. -/
def execPcieRefclkReturn (s : State) : Out := .next { s with hif := { s.hif with refclk := true } }

/-- D3HOT_TRANSITION (R597): in D3hot a function consumes no packet and sends no message; on the way back pending vectors
that are unmasked are sent (R421). -/
def execD3hotTransition (fn : Fin 16) (enter : Bool) (s : State) : Out :=
  let s := setFn s fn { fnSt s fn with d3hot := enter }
  if enter then .next s
  else
    let due := (fnSt s fn).pba.filter (fun v => !(msixEntry s fn v).masked)
    let s := setFn s fn { fnSt s fn with pba := (fnSt s fn).pba.filter (fun v => (msixEntry s fn v).masked) }
    .next (due.foldl (fun s v => signalVec s fn v) s)

/-- COMPLETION_TIMEOUT (R472): the error is reported in the function's domain. -/
def execCompletionTimeout (fn : Fin 16) (s : State) : Out := .next (report s (64 + fn.val) clsContained 0 0xFF 0xFF 0)

/-! ### NOP (R406) -/

/-- NOP (R406). -/
def execNop (h : Pkt) (s : State) : Out := .next (withPkt s h 0x01 0 .any false (answer 0))

end Sys2Proof.Machine
end

