-- ==== Sys2Proof/Machine/Faults.lean ====
section
/-!
DEFINITION. Sys2Proof/Machine/Faults.lean: the Fault Concentrator's records, the host log, the lockstep pairs and the watchdog
kicks (spec/15_faults_hangs_recovery.md).
-/
namespace Sys2Proof.Machine
open Reg

/-! ### Records (R474-R477) -/

/-- FAULT_RECORD_PUBLISH (R474, R476): the domain's open record enters the buffer, or is lost while the buffer is full. -/
def execFaultRecordPublish (domain : Fin 128) (s : State) : Out :=
  match tfind domain.val s.flt.opens with
  | none => .next s
  | some r =>
    let num := s.flt.nextNum
    let s := { s with flt := { s.flt with opens := tdel domain.val s.flt.opens, nextNum := (num + 1) % 2 ^ 32 } }
    let s := wr s FLT_EVT_STAT_RECORD 1
    if isSet s FLT_REC_PTR_FULL then
      let s := wr (bump s FLT_REC_LOST_LOST 1) FLT_EVT_STAT_BUF_FULL 1
      .next { s with flt := { s.flt with
        lostSince := if s.flt.lostSince.contains domain.val then s.flt.lostSince else s.flt.lostSince ++ [domain.val] } }
    else
      let x : FltRec := { num, domain, lost := s.flt.lostSince.contains domain.val, body := r }
      let head := rd s FLT_REC_PTR_HEAD
      let s := { s with flt := { s.flt with slots := tset head x s.flt.slots,
                                            lostSince := s.flt.lostSince.filter (fun d => d != domain.val) } }
      let s := wr s FLT_REC_PTR_HEAD (head + 1)
      .next (if rd s FLT_REC_PTR_HEAD = rd s FLT_REC_PTR_TAIL then wr s FLT_REC_PTR_FULL 1 else s)

/-- Who receives a second FAULT event record (R477): the owner of PART when a VF owns it; for domains 64-79 that function. -/
def secondRecipient (s : State) (x : FltRec) : Option Nat :=
  if 64 ≤ x.domain ∧ x.domain < 80 then (if x.domain = 64 then none else some (x.domain - 64))
  else
    match tfind x.body.part s.parts with
    | some q => if q.owner = 0 then none else some q.owner
    | none => none

/-- FAULT_RECORD_CONSUME (R477): one log record in the record's class (the level of an event is the Plinth's, log entry 138), one
FAULT event record to the PF, and a second one to the function concerned. Core faults so recorded clear (R55). -/
def execFaultRecordConsume (level : Fin 8) (s : State) : Out :=
  if bufCount s = 0 then .next s
  else
    match tfind (rd s FLT_REC_PTR_TAIL) s.flt.slots with
    | none => .next (wr (wr s FLT_REC_PTR_TAIL (rd s FLT_REC_PTR_TAIL + 1)) FLT_REC_PTR_FULL 0)
    | some x =>
      let s := wr (wr s FLT_REC_PTR_TAIL (rd s FLT_REC_PTR_TAIL + 1)) FLT_REC_PTR_FULL 0
      let code := 0x100 + x.domain
      let s := if 2 ≤ x.body.cls then logAlarm s code x.num x.body.part (.fault x)
               else logEvent s level code x.num x.body.part (.fault x)
      let detail := x.domain + x.num * 2 ^ 32
      let s := if x.domain < 34 then clearFaults s x.domain else s
      let s := event s 0 3 x.body.part detail
      .next (match secondRecipient s x with
        | some f => event s f 3 x.body.part detail
        | none => s)

/-! ### The host log (R496, R500) -/

/-- A log record as 64 bytes (R496). -/
def logBytes (r : LogRec) : List Nat :=
  let data := match r.data with
    | .none => List.replicate 40 0
    | .fault x => recBytes x ++ List.replicate 8 0
    | .summary n f l => leBytes 4 n ++ leBytes 8 f ++ leBytes 8 l ++ List.replicate 20 0
  leBytes 8 r.time ++ leBytes 4 r.seq ++ [r.cls, r.level] ++ leBytes 2 r.code ++ leBytes 4 r.fltNum ++
    [r.part % 256, 0, b2n r.prevBoot, 0] ++ data

/-- Records a host buffer of a length holds (R500). -/
def bufRecs (b : LogBuf) : Nat := (b.len - 64) / 64

/-- Has the buffer room: PROD - CONS < N, CONS as the host last wrote it (R500)? -/
def bufRoom (s : State) (b : LogBuf) : Bool :=
  decide (0 < b.len) && decide ((b.prod + 2 ^ 64 - hrdN s 0 (b.addr + 8) 8) % 2 ^ 64 < bufRecs b)

/-- One record copied into a buffer, then PROD (R500). -/
def copyRec (s : State) (b : LogBuf) (r : LogRec) : LogBuf × State :=
  let s := hwrBytes s 0 (b.addr + 64 + 64 * (b.prod % bufRecs b)) (logBytes r)
  let prod := (b.prod + 1) % 2 ^ 64
  ({ b with prod }, hwrN s 0 b.addr 8 prod)

/-- Does a record go to the trace buffer (R500)? -/
def toTrace (s : State) (r : LogRec) : Bool := decide (0 < s.flt.traceBuf.len) && decide (2 ≤ r.cls)

/-- Records copied in SEQ order; those without room stay (R500). -/
def copyLogs : List LogRec → State → List LogRec × State
  | [], s => ([], s)
  | r :: t, s =>
    let tr := toTrace s r
    let b := if tr then s.flt.traceBuf else s.flt.logBuf
    if bufRoom s b then
      let x := copyRec s b r
      let s := if tr then { x.2 with flt := { x.2.flt with traceBuf := x.1 } } else { x.2 with flt := { x.2.flt with logBuf := x.1 } }
      copyLogs t s
    else
      let y := copyLogs t s
      (r :: y.1, y.2)

/-- LOG_COPY (R500, R501): the last boot's records first, then the session's, in SEQ order. -/
def execLogCopy (s : State) : Out :=
  let x := copyLogs s.flt.prev s
  let s := { x.2 with flt := { x.2.flt with prev := x.1 } }
  if s.flt.prev.isEmpty then
    let y := copyLogs s.flt.log s
    .next { y.2 with flt := { y.2.flt with log := y.1 } }
  else .next s

/-- Is a buffer length allowed (R500)? -/
def bufLenOk (n : Nat) : Bool := n == 0 || (n % 4096 == 0 && decide (65536 ≤ n) && decide (n ≤ 16777216))

/-- A buffer set up: its 64 header bytes 0, so PROD and CONS are 0 (R500). -/
def newBuf (s : State) (addr len : Nat) : LogBuf × State :=
  ({ addr, len, prod := 0 }, if len = 0 then s else hwrBytes s 0 addr (List.replicate 64 0))

/-- LOG_CONFIG's effect (R498, R500). -/
def logConfigAct (level addr len : Nat) (c : Cmd) (s : State) : State :=
  if level < 8 ∧ bufLenOk len = true then
    let b := newBuf s addr len
    let s := b.2
    complete { s with flt := { s.flt with level, logBuf := b.1 } } c 0 {}
  else complete s c 0x21 {}

/-- LOG_CONFIG (R500). -/
def execLogConfig (h : Pkt) (level : Fin 256) (addr len : BitVec 64) (s : State) : Out :=
  .next (withPkt s h 0x78 0 .any true (logConfigAct level addr.toNat len.toNat))

/-- TRACE_CONFIG's effect (R499, R500): bits 8-63 of MASK are reserved. -/
def traceConfigAct (mask addr len : Nat) (c : Cmd) (s : State) : State :=
  if mask < 256 ∧ bufLenOk len = true then
    let b := newBuf s addr len
    let s := b.2
    complete { s with flt := { s.flt with traceMask := mask, traceBuf := b.1 } } c 0 {}
  else complete s c 0x21 {}

/-- TRACE_CONFIG (R499). -/
def execTraceConfig (h : Pkt) (mask addr len : BitVec 64) (s : State) : Out :=
  .next (withPkt s h 0x79 0 .any true (traceConfigAct mask.toNat addr.toNat len.toNat))

/-! ### Reads that clear (R504) -/

/-- FLT_REC_LOST_READ (R504). -/
def execFltRecLostRead (s : State) : Out := .next (wr (emit s (.value (rd s FLT_REC_LOST_LOST))) FLT_REC_LOST_LOST 0)

/-- FLT_SELFTEST_READ (R504): RUNS stays. -/
def execFltSelftestRead (s : State) : Out :=
  .next (wr (wr (emit s (.value (wordView s 0x22000014))) FLT_SELFTEST_FAILS_B 0) FLT_SELFTEST_FAILS_A 0)

/-- FLT_LOG_STAT_READ (R504): ALM_USED stays. -/
def execFltLogStatRead (s : State) : Out :=
  .next (wr (wr (emit s (.value (wordView s 0x22000028))) FLT_LOG_STAT_ALM_LOST 0) FLT_LOG_STAT_EV_DROP 0)

/-- FLT_LOG_TRACE_READ (R504). -/
def execFltLogTraceRead (s : State) : Out := .next (wr (emit s (.value (rd s FLT_LOG_TRACE_TR_DROP))) FLT_LOG_TRACE_TR_DROP 0)

/-- FLT_PROG_READ (R504): STATE and LAST_CL stay. -/
def execFltProgRead (p : Fin 16) (s : State) : Out :=
  .next (wr (emit s (.value (wordView s (0x22000040 + 4 * p.val)))) (FLT_PROG_HANGS p) 0)

/-- FLT_DOM_CNT_READ (R504). -/
def execFltDomCntRead (d : Fin 128) (s : State) : Out :=
  .next (wr (wr (emit s (.value (wordView s (0x22000100 + 4 * d.val)))) (FLT_DOM_CNT_REPORTS d) 0) (FLT_DOM_CNT_CORR d) 0)

/-! ### Lockstep pairs (R486-R490): false is pair A, true pair B -/

/-- State of a pair: 0 CHECKED, 1 UNCHECKED, 2 RESTARTING, 3 OFFLINE, 4 HALTED. -/
def pairState (s : State) (b : Bool) : Nat := if b then rd s FLT_LOCKSTEP_STATE_B else rd s FLT_LOCKSTEP_STATE_A

def pairOf (s : State) (b : Bool) : PairState := if b then s.flt.pairB else s.flt.pairA

def setPair (s : State) (b : Bool) (x : PairState) : State :=
  if b then { s with flt := { s.flt with pairB := x } } else { s with flt := { s.flt with pairA := x } }

/-- DEGRADED begins when both pairs are UNCHECKED, with its alarm and flag, and ends when one is CHECKED again (R490). -/
def refreshDegraded (s : State) : State :=
  let was := isSet s FLT_LOCKSTEP_DEGRADED
  let now := if was then pairState s false != 0 && pairState s true != 0 else pairState s false == 1 && pairState s true == 1
  let s := wr s FLT_LOCKSTEP_DEGRADED (b2n now)
  if now && !was then
    let p := fresh (wr s FLT_EVT_STAT_CHECKER_DEGRADED 1)
    logAlarm p.2 (p.1 % 65536) 0xFFFFFFFF 0xFF .none
  else s

/-- A pair that runs again takes the signals held for it as pending bits (R439, R440). -/
def wakePair (s : State) (b : Bool) : State :=
  if pairTakes s (b2n b) && (List.range 2048).any (fun src => deliverable s src && rd s (EVC_ROUTE_TGT src) == b2n b)
  then emit s (.pair (b2n b)) else s

/-- The state of a pair set. -/
def setPairState (s : State) (b : Bool) (v : Nat) : State :=
  let t := refreshDegraded (if b then wr s FLT_LOCKSTEP_STATE_B v else wr s FLT_LOCKSTEP_STATE_A v)
  if pairTakes s (b2n b) then t else wakePair t b

/-- The pair that holds a duty set at a quantum boundary (R487, R489, R526): its home pair; the other pair while the home pair
is out of service, or is UNCHECKED and the other CHECKED; a HALTED pair keeps its set. -/
def dutyHolder (s : State) (d : Bool) : Bool :=
  let h := pairState s d
  let o := pairState s (!d)
  if h = 0 ∨ h = 4 then d
  else if h = 1 then (if o = 0 then !d else d)
  else if o = 0 ∨ o = 1 then !d
  else d

/-- The event routes of `l` rewritten to a pair; what is pending then is delivered to it (R435, R438). -/
def moveRoutes (s : State) (l : List Nat) (to' : Bool) : State :=
  l.foldl (fun s src =>
    let s := wr s (EVC_ROUTE_TGT src) (b2n to')
    if deliverable s src then deliver s src else s) s

/-- The duty set `d` moves to pair `to'`, and its event routes with it (R435, R487). -/
def moveDuty (s : State) (d to' : Bool) : State :=
  let cur := if d then isSet s FLT_LOCKSTEP_D1_PAIR else isSet s FLT_LOCKSTEP_D0_PAIR
  if cur = to' then s
  else
    let s := if d then wr s FLT_LOCKSTEP_D1_PAIR (b2n to') else wr s FLT_LOCKSTEP_D0_PAIR (b2n to')
    let moved := if d then s.flt.movedB else s.flt.movedA
    if to' = d then
      let s := moveRoutes s moved d
      if d then { s with flt := { s.flt with movedB := [] } } else { s with flt := { s.flt with movedA := [] } }
    else
      let l := (List.range 2048).filter (fun src => rd s (EVC_ROUTE_TGT src) == b2n d &&
        !((if d then s.flt.movedA else s.flt.movedB).contains src))
      let s := moveRoutes s l (!d)
      if d then { s with flt := { s.flt with movedB := l } } else { s with flt := { s.flt with movedA := l } }

/-- The duties as they stand from a quantum boundary on (R487, R489). -/
def settleDuties (s : State) : State := moveDuty (moveDuty s false (dutyHolder s false)) true (dutyHolder s true)

/-- CHECKER_SELF_TEST (R488, R489): a test not flagged makes the pair UNCHECKED; 3 passes in a row of an UNCHECKED pair make it
CHECKED. A halted pair's test holds (R526); a pair out of service is not tested. -/
def execCheckerSelfTest (b flagged : Bool) (s : State) : Out :=
  let st := pairState s b
  if 2 ≤ st then .next s
  else
    let s := tick s FLT_SELFTEST_RUNS
    let x := pairOf s b
    if flagged then
      if st = 1 then
        if 2 ≤ x.passes then .next (setPairState (setPair s b { x with passes := 0 }) b 0)
        else .next (setPair s b { x with passes := x.passes + 1 })
      else .next s
    else
      let s := setPair (bump s (if b then FLT_SELFTEST_FAILS_B else FLT_SELFTEST_FAILS_A) 1) b { x with passes := 0 }
      if st = 1 then .next s
      else .next (setPairState (wr (report s (if b then 45 else 44) clsDevice 0 0xFF 0xFF 0) FLT_EVT_STAT_UNCHECKED 1) b 1)

/-! ### Watchdog kicks (R491, R494) -/

/-- Does a pair hold a duty set? -/
def holdsDuty (s : State) (b : Bool) : Bool := isSet s FLT_LOCKSTEP_D0_PAIR == b || isSet s FLT_LOCKSTEP_D1_PAIR == b

/-- PLINTH_WDOG_KICK (R491): the count restarts when every pair that holds a duty set has kicked. -/
def wdogKick (s : State) (b : Bool) : State :=
  let s := setPair s b { pairOf s b with kicked := true }
  if (!holdsDuty s false || s.flt.pairA.kicked) && (!holdsDuty s true || s.flt.pairB.kicked) then
    { s with flt := { s.flt with pairA := { s.flt.pairA with kicked := false }, pairB := { s.flt.pairB with kicked := false },
                                 wdogAt := s.time } }
  else s

/-- PLINTH_WDOG_KICK (R491). -/
def execPlinthWdogKick (b : Bool) (s : State) : Out := .next (wdogKick s b)

/-- FLT_DWDOG.KICK: firmware that has confirmed itself restarts the device watchdog (R494). -/
def dwdogKick (s : State) : State := if isSet s FLT_WDOG_CTRL_CONFIRMED then { s with flt := { s.flt with dwdogAt := s.time } } else s

/-- FLT_DWDOG.CLR: WDOG_N is released, while CONFIRMED = 1 (R494, R503). -/
def dwdogClr (s : State) : State := if isSet s FLT_WDOG_CTRL_CONFIRMED then wr s FLT_DWDOG_EXPIRED 0 else s

/-- DEVICE_WDOG_KICK (R494). -/
def execDeviceWdogKick (s : State) : Out := .next (dwdogKick s)

/-- DEVICE_WDOG_CLR (R494). -/
def execDeviceWdogClr (s : State) : Out := .next (dwdogClr s)

/-- DEVICE_WDOG_EXPIRY (R494): WDOG_N is asserted and latched; nothing else. -/
def execDeviceWdogExpiry (s : State) : Out := .next (wr s FLT_DWDOG_EXPIRED 1)

end Sys2Proof.Machine
end

