-- ==== Sys2Proof/Machine/Power.lean ====
section
/-!
DEFINITION. Sys2Proof/Machine/Power.lean: operating points, the power controller, the hardware limiter, the thermal response and
Patina (spec/14_power_clocks_thermal.md). Powers are in uW.
-/
namespace Sys2Proof.Machine
open Reg

def setPwr (s : State) (f : Pwr → Pwr) : State := { s with pwr := f s.pwr }

/-! ### Operating points (R443-R445) -/

/-- The point being moved to, or in force. -/
def opTarget (s : State) : Nat := rd s PWR_OP_STAT_TARGET

/-- A decision for point `k`: a transition starts, or it waits for the one in progress (R445). -/
def goOp (s : State) (k : Nat) : State :=
  if isSet s PWR_OP_STAT_BUSY then setPwr s (fun x => { x with waitOp := some k })
  else if rd s PWR_OP_STAT_OP = k then wr s PWR_OP_STAT_TARGET k
  else wr (wr s PWR_OP_STAT_TARGET k) PWR_OP_STAT_BUSY 1

/-- The point that a limiter or thermal action counts from: the last one decided. -/
def opDecided (s : State) : Nat := s.pwr.waitOp.getD (if isSet s PWR_OP_STAT_BUSY then opTarget s else rd s PWR_OP_STAT_OP)

/-! ### POWER_FLOOR (R454, R457, R459) -/

/-- A POWER_FLOOR takeover requested: the cause begins once, whoever asks (R467). -/
def requestFloor (s : State) : State :=
  if hasCause s 4 then setPwr s (fun x => { x with returning := false })
  else raiseCause (wr (setPwr s (fun x => { x with okQuanta := 0, returning := false })) PWR_EVT_STAT_POWER_FLOOR 1) 4

/-- The power controller reports that OP2 can be held: the cause ends (R186, R454). -/
def reportFloor (s : State) : State :=
  let s := setPwr s (fun x => { x with returning := false, floorCtl := false, floorLim := false, floorTherm := false,
                                       hold2 := true, okQuanta := 0 })
  dropCause (wr s PWR_EVT_STAT_POWER_FLOOR 1) 4

/-- OP_TRANSITION_DONE (R445): the new point is in force; a waiting decision applies; a raise for R454 is reported. -/
def execOpTransitionDone (s : State) : Out :=
  if isSet s PWR_OP_STAT_BUSY then
    let s := wr (wr s PWR_OP_STAT_OP (opTarget s)) PWR_OP_STAT_BUSY 0
    match s.pwr.waitOp with
    | some k => .next (goOp (setPwr s (fun x => { x with waitOp := none })) k)
    | none => .next (if s.pwr.returning && decide (2 ≤ rd s PWR_OP_STAT_OP) then reportFloor s else s)
  else .next s

/-- POWER_FLOOR_RETURN (R454): after 16 quanta in which OP2 could be held the array is raised to OP2, then that is reported. -/
def execPowerFloorReturn (s : State) : Out :=
  if hasCause s 4 ∧ 16 ≤ s.pwr.okQuanta then
    if 2 ≤ rd s PWR_OP_STAT_OP ∧ !isSet s PWR_OP_STAT_BUSY then .next (reportFloor s)
    else .next (goOp (setPwr s (fun x => { x with returning := true })) (max 2 (opDecided s)))
  else .next s

/-! ### The phase table and forecasts (R450, R451) -/

/-- s_k of R451 in thousandths. -/
def pointFactor (k : Nat) : Nat := [323, 448, 601, 784, 1000, 1252, 1541].getD k 1541

/-- The effective issue rate of a partition (R448, R449, R458). -/
def effRate (s : State) (p : Nat) : Nat :=
  if p = 0 ∧ isSet s DSP_STAT_LINE_LOCKED = true then 64
  else if rd s PWR_HWLIM_STAT_STAGE = 0 then max 1 (min 64 (rd s (PWR_RATE_RATE p)))
  else rd s (PWR_RATE_HW_RATE p)

/-- A phase's entry. -/
def phaseOf (s : State) (p h st : Nat) : Option Phase := s.pwr.phases.find? (fun x => x.part == p && x.handle == h && x.step == st)

/-- The entry a forecast uses: the phase's own, else the highest of its partition, else 1.0 W per cluster (R450). -/
def phasePower (s : State) (p h st : Nat) : Nat :=
  match phaseOf s p h st with
  | some x => x.power
  | none =>
    match s.pwr.phases.filter (fun x => x.part == p) with
    | [] => 1000000 * (match tfind p s.parts with | some x => x.logical.length | none => 0)
    | l => l.foldl (fun n x => max n x.power) 0

/-- The least recently used entry of a full table goes (R450). -/
def evictPhase (l : List Phase) : List Phase :=
  if l.length < 2048 then l
  else
    let low := l.foldl (fun n x => min n x.used) (l.foldl (fun n x => max n x.used) 0)
    match l.find? (fun x => x.used == low) with
    | some y => l.erase y
    | none => l

/-- A phase that ran updates its entry with its normalised share `m` (R450): e + (m - e) / 8; a new phase starts at m. -/
def learnPhase (s : State) (p h st m : Nat) : State :=
  match phaseOf s p h st with
  | some x =>
    let e := ((x.power : Int) + ((m : Int) - x.power) / 8).toNat
    setPwr s (fun y => { y with phases := y.phases.map (fun z => if z = x then { x with power := e, used := s.quantum } else z) })
  | none => setPwr s (fun y => { y with phases := evictPhase y.phases ++ [⟨p, h, st, m, s.quantum⟩] })

/-- The quantum's VDD_ARR and VDD_SRAM power divided by array cycles issued, normalised to OP4 at rate 64/64 (R450). -/
def learnAll (s : State) (q : Quantum) : State :=
  let total := q.ran.foldl (fun n r => n + r.2.2.2) 0
  if total = 0 then s
  else
    q.ran.foldl (fun s r =>
      let m := q.array * r.2.2.2 / total * 1000 / pointFactor (rd s PWR_OP_STAT_OP) * 64 / effRate s r.1
      learnPhase s r.1 r.2.1 r.2.2.1 m) s

/-- A forecast without correction: point `k`, rates `r` (R451). -/
def forecast (s : State) (q : Quantum) (k : Nat) (r : Nat → Nat) : Nat :=
  q.uncore + q.next.foldl (fun n x => n + phasePower s x.1 x.2.1 x.2.2 * pointFactor k * r x.1 / 64000) 0

/-- The measured average set against the last forecast (R451): quanta in a row more than 5 % above; a correction ends when the
two agree within 5 %. -/
def compareForecast (s : State) (q : Quantum) : State :=
  let m := q.avg * 1000
  let f := s.pwr.forecast
  let s := setPwr s (fun x => { x with above := if 105 * (f + x.excess) < 100 * m then x.above + 1 else 0 })
  if 100 * m ≤ 105 * f ∧ 95 * f ≤ 100 * m then setPwr s (fun x => { x with excess := 0 }) else s

/-- FORECAST_CORRECTION (R451): 4 quanta above the forecast; the excess is added to later forecasts. -/
def execForecastCorrection (s : State) : Out :=
  if 4 ≤ s.pwr.above then
    .next (setPwr s (fun x => { x with excess := rd s PWR_PKG_AVG * 1000 - x.forecast, above := 0 }))
  else .next s

/-! ### Budget, cap and floor (R452, R455, R459) -/

/-- Thresholds of the thermal states 1 to 4 in degrees (R459). -/
def thermThr (st : Nat) : Int :=
  if Config.grade = 1 then [0, 105, 111, 113, 115].getD st 115 else [0, 95, 105, 110, 115].getD st 115

/-- Tj in 0.25 degree. -/
def tj (s : State) : Int := signExt 10 (rd s PWR_THERM_STAT_TJ)

/-- The budget in uW: the limit in force less the thermal cut, at least 6.0 W (R452, R459). -/
def budget (s : State) : Nat :=
  let l := s.pwr.limit * 100000
  let above := (tj s - 4 * thermThr 1) / 4
  if s.pwr.entered.contains 1 = true ∧ 0 < above then max 6000000 (l - above.toNat * 1000000) else l

/-- MAX_OP in force (R468: 7 acts as 6). -/
def maxOpNow (s : State) : Nat := min 6 s.pwr.maxOp

/-- Does a POWER_FLOOR takeover apply (R187)? -/
def floorApplies (s : State) : Bool := hasCause s 4 && !floorWaits s

/-- The thermal cap (R459): OP2 from FORCED on; OP0 in FLOOR once the takeover applies. -/
def thermCap (s : State) : Nat :=
  let st := rd s PWR_THERM_STAT_STATE
  if 3 ≤ st ∧ floorApplies s = true then 0 else if 2 ≤ st then 2 else 6

/-- The committed pace (R466; 7: none). -/
def paceCap (s : State) : Nat := min 6 (rd s PWR_PACE_COMMITTED)

/-- Is the compact configuration in force (R455)? -/
def compactOn (s : State) : Bool := decide (s.pwr.limit ≤ 100)

/-- The cap of R452. -/
def capOf (s : State) : Nat :=
  let c := min (min (maxOpNow s) (paceCap s)) (thermCap s)
  let c := if isSet s PWR_TRIM_HI_OP6_OFF then min c 5 else c
  if compactOn s then min c 2 else c

/-- Is the OP2 floor kept for the line lock, until a takeover applies, or until the neural path returns (R6, R161, R187)? -/
def displayFloor (s : State) : Bool := isSet s DSP_STAT_LINE_LOCKED || floorWaits s || s.pwr.hold2

/-- The floor of R452, R454 and R455: OP2 while P0 is line-locked, whatever the cap (R6; log entry 163). -/
def floorOf (s : State) : Nat :=
  if floorApplies s && !s.pwr.returning then 0
  else if displayFloor s || s.pwr.returning then 2
  else if compactOn s then capOf s
  else 0

/-- The rates of level `l` with every minimum rate kept (R448, R452); P0 at 64 while it is line-locked (R449). -/
def keptRate (s : State) (l p : Nat) : Nat :=
  if p = 0 ∧ isSet s DSP_STAT_LINE_LOCKED = true then 64
  else
    let m := match tfind p s.parts with | some x => x.minRate | none => 0
    min 64 (max (max 1 m) l)

/-- The rates of level `l` with minimum rates broken. -/
def levelRate (s : State) (l p : Nat) : Nat := if p = 0 ∧ isSet s DSP_STAT_LINE_LOCKED = true then 64 else l

/-- The largest level 1-64 that satisfies `ok`, 0 if none. -/
def largestLevel (ok : Nat → Bool) : Nat := ((List.range 64).map (fun i => 64 - i)).find? ok |>.getD 0

/-- The loop of R452 from point `k` down to the floor, `n` points left: the point and the level that keeps every minimum
rate. A raise needs at most 95 % of the budget at the rates it would apply. -/
def pickPoint (s : State) (q : Quantum) : Nat → Nat → Option (Nat × Nat)
  | 0, _ => none
  | n + 1, k =>
    let fc := fun l => forecast s q k (keptRate s l) + s.pwr.excess
    let l := largestLevel (fun l => decide (fc l ≤ budget s))
    if fc 1 ≤ budget s ∧ (k ≤ rd s PWR_OP_STAT_OP ∨ 100 * fc l ≤ 95 * budget s) then some (k, l)
    else if k = 0 then none
    else pickPoint s q n (k - 1)

/-- The rates of the controller written (R452). -/
def setRates (s : State) (r : Nat → Nat) : State := s.parts.foldl (fun s e => wr s (PWR_RATE_RATE e.1) (r e.1)) s

/-- A decision applied: rates and the forecast at once, the point unless the limiter's override holds (R452, R458). -/
def applyChoice (s : State) (q : Quantum) (k : Nat) (r : Nat → Nat) : State :=
  let s := setPwr s (fun x => { x with forecast := forecast s q k r })
  let s := setRates s r
  if rd s PWR_HWLIM_STAT_STAGE = 0 then goOp s k else s

/-- The controller's choice at a quantum boundary (R452-R455). -/
def chooseOp (s : State) (q : Quantum) : State :=
  let floor := floorOf s
  match pickPoint s q (capOf s + 1 - floor) (capOf s) with
  | some (k, l) => applyChoice s q k (keptRate s l)
  | none =>
    let l := largestLevel (fun l => decide (forecast s q floor (levelRate s l) + s.pwr.excess ≤ budget s))
    if l ≠ 0 then applyChoice s q floor (levelRate s l)
    else if isSet s DSP_STAT_LINE_LOCKED then
      requestFloor (setPwr (applyChoice s q floor (levelRate s 1)) (fun x => { x with floorCtl := true }))
    else applyChoice s q floor (levelRate s 1)

/-! ### Breaches of minimum rates (R374, R453) -/

/-- A partition below its minimum rate: its breach begins (R453). -/
def breachBelow (s : State) (p : Nat) : State :=
  match tfind p s.parts with
  | none => s
  | some x =>
    if effRate s p < x.minRate ∧ x.breachOpen.any (fun e => e.1 == 4) = false then
      breachBegin (wr s PWR_EVT_STAT_MIN_BREACH 1) p 4 1
    else s

/-- At a quantum boundary a breach ends when the rate is kept again and the key slot holds a key (R375, R453). -/
def breachAbove (s : State) (p : Nat) : State :=
  match tfind p s.parts with
  | none => s
  | some x => if x.minRate ≤ effRate s p ∧ (p = 0 ∨ tget 0 s.dram.keys x.keySlot ≠ 0) then breachEnd s p 4 else s

/-- HW_RATE follows the controller's rates while no override holds (R458); P0 holds at 64 while line-locked (R449). -/
def ratesOut (s : State) : State :=
  let s := if isSet s DSP_STAT_LINE_LOCKED then wr s (PWR_RATE_RATE 0) 64 else s
  (List.range 16).foldl (fun s p => wr s (PWR_RATE_HW_RATE p) (effRate s p)) s

/-- Quanta in which OP2 could be held with every other partition at rate 1 and 10 % in hand (R454). -/
def countFloor (s : State) (q : Quantum) : State :=
  if hasCause s 4 then
    let f := forecast s q 2 (fun p => if p = 0 then 64 else 1) + s.pwr.excess
    let ok := decide (100 * f ≤ 90 * budget s) && decide (rd s PWR_THERM_STAT_STATE < 3) && rd s PWR_HWLIM_STAT_STAGE != 3
    setPwr s (fun x => { x with okQuanta := if ok then x.okQuanta + 1 else 0 })
  else s

/-! ### Patina at a boundary (R461, R462) -/

/-- The trim field of a point (R468). -/
def trimField (k : Nat) : RegField :=
  [PWR_TRIM_LO_TRIM_0, PWR_TRIM_LO_TRIM_1, PWR_TRIM_LO_TRIM_2, PWR_TRIM_LO_TRIM_3, PWR_TRIM_HI_TRIM_4, PWR_TRIM_HI_TRIM_5,
    PWR_TRIM_HI_TRIM_6].getD k PWR_TRIM_HI_TRIM_6

/-- A trim in steps of 5 mV, -8 to +8 (R468). -/
def trimOf (s : State) (k : Nat) : Int :=
  let t := signExt 8 (rd s (trimField k))
  if t < -8 then -8 else if 8 < t then 8 else t

def setTrim (s : State) (k : Nat) (t : Int) : State := wr s (trimField k) (t % 256).toNat

/-- OP6 is withdrawn for good (R461). -/
def withdrawOp6 (s : State) : State :=
  if isSet s PWR_TRIM_HI_OP6_OFF then s else wr (wr s PWR_TRIM_HI_OP6_OFF 1) PWR_EVT_STAT_OP6_WITHDRAWN 1

/-- Worst slack below 25 ps in the quantum raises the trim of the point in force (R461). -/
def patinaRaise (s : State) (slack : Nat) : State :=
  let k := rd s PWR_OP_STAT_OP
  if isSet s PWR_CTRL_PATINA_EN && decide (slack < 25) then
    if k = 6 ∧ 0 ≤ trimOf s 6 then withdrawOp6 s
    else if trimOf s k < 8 then wr (setTrim s k (trimOf s k + 1)) PWR_EVT_STAT_PATINA_RAISE 1
    else s
  else s

/-- Hours of operation since manufacture (R463). -/
def hoursNow (s : State) : Nat := s.pwr.hours + (s.time - s.pwr.hoursAt) / 360000000000

/-- PATINA_LOWER (R461): 24 h of slack above 60 ps at a point (the sender's claim) lower its trim, once in 24 h. -/
def execPatinaLower (op : Fin 7) (s : State) : Out :=
  let h := hoursNow s
  let again := match tfind op.val s.pwr.lowerAt with
    | some l => decide ((h + 256 - l % 256) % 256 < 24)
    | none => false
  if isSet s PWR_CTRL_PATINA_EN && !again && decide (-8 < trimOf s op) then
    .next (setPwr (setTrim s op (trimOf s op - 1)) (fun x => { x with lowerAt := tset op.val (h % 256) x.lowerAt }))
  else .next s

/-- PATINA_RECORD (R463): trims, FLAGS, HOURS and LOWER_AT as one device record. -/
def execPatinaRecord (s : State) : Out :=
  .next (writeDevRec s (.patina ((List.range 7).map (fun k => rd s (trimField k)) ++ [rd s PWR_TRIM_HI_OP6_OFF, hoursNow s] ++
    (List.range 7).map (fun k => (tfind k s.pwr.lowerAt).getD 0))))

/-- DROOP (R462): the half's clock cycles are stretched, and the event counted. -/
def execDroop (_south : Bool) (s : State) : Out := .next (wr (bump s PWR_CPM_STAT_DROOP_CNT 1) PWR_EVT_STAT_DROOP 1)

/-! ### The power side of a quantum boundary (R82-R84, R446-R463) -/

/-- Smoothing settings in force from this boundary on (R84); P0's change at an output frame boundary while output frames run. -/
def smoothNow (s : State) : State :=
  setPwr s (fun x => { x with smooth := (List.range 16).map (fun p =>
    (p, if p = 0 ∧ isSet s DSP_CTRL_ENABLE = true then (tfind 0 x.smooth).getD (smoothCode s 0) else smoothCode s p)) })

/-- A limit in 0.1 W as the field gives it (R468). -/
def clampLimit (v : Nat) : Nat := max 60 (min 300 v)

/-- What the power block and the controller do at a quantum boundary; `plinth`: the Plinth runs. -/
def powerBoundary (s : State) (q : Quantum) (plinth : Bool) : State :=
  let s := wr (wr s PWR_PKG_AVG (min 65535 q.avg)) PWR_PKG_PEAK (min 65535 q.peak)
  let s := wr (wr s PWR_CPM_STAT_SLACK (min 255 q.slack)) PWR_CPM_STAT_WORST q.monitor
  if s.pwr.trip then s
  else
    let s := if plinth then
        let s := smoothNow (setPwr s (fun x => { x with limit := clampLimit (rd s PWR_LIMIT_LIMIT), maxOp := rd s PWR_LIMIT_MAX_OP,
                                                        hold2 := x.hold2 && !isSet s DSP_STAT_LINE_LOCKED && neuralChosen s && !hasCause s 4 }))
        let s := compareForecast (learnAll (patinaRaise s q.slack) q) q
        let s := if isSet s PWR_CTRL_CTRL_EN then trace (chooseOp s q) 5 0xFF else s
        countFloor s q
      else s
    let s := ratesOut (wr s PWR_OP_STAT_CAP (capOf s))
    (s.parts.map Prod.fst).foldl (fun s p => breachAbove (breachBelow s p) p) s

/-! ### Policy (R417, R455, R470) -/

/-- POWER_POLICY at device scope: refused outside its ranges, and below OP2 while P0 is line-locked (R467); it takes effect at
the next quantum boundary. -/
def policyAct (limit maxOp : Nat) (c : Cmd) (s : State) : State :=
  if limit < 60 ∨ 300 < limit ∨ 6 < maxOp ∨ (maxOp < 2 ∧ isSet s DSP_STAT_LINE_LOCKED = true) then complete s c 0x21 {}
  else complete (wr (wr s PWR_LIMIT_LIMIT limit) PWR_LIMIT_MAX_OP maxOp) c 0 {}

/-- POWER_POLICY (R470). -/
def execPowerPolicy (h : Pkt) (limit : BitVec 16) (maxOp : Fin 256) (s : State) : Out :=
  .next (withPkt s h 0x60 0 .any true (policyAct limit.toNat maxOp))

/-- POWER_POLICY at partition scope writes the partition's PWR_SMOOTH_n (R83, R470). -/
def smoothAct (fill gap rampDown rampUp : Nat) (c : Cmd) (s : State) : State :=
  if 1 < fill ∨ 15 < gap ∨ 4 < rampDown ∨ 3 < rampUp then complete s c 0x21 {}
  else
    let p := c.part
    complete (wr (wr (wr (wr s (PWR_SMOOTH_FILL_EN p) fill) (PWR_SMOOTH_GAP_LIMIT p) gap) (PWR_SMOOTH_RAMP_DOWN p) rampDown)
      (PWR_SMOOTH_RAMP_UP p) rampUp) c 0 {}

/-- POWER_POLICY_PARTITION (R84, R417): of the PF or the owner. -/
def execPowerPolicyPartition (h : Pkt) (fill gap rampDown rampUp : Fin 256) (s : State) : Out :=
  .next (withPkt s h 0x60 0 .control false (smoothAct fill gap rampDown rampUp))

/-- Tj in 0.1 degree: where the quarter falls between two tenths the rounding is not stated, and is free. -/
def tjTenths (s : State) : Nat × State :=
  let t := 10 * tj s
  if t % 4 = 0 then ((t / 4 % 65536).toNat, s)
  else
    let p := fresh s
    (((t / 4 + ((p.1 % 2 : Nat) : Int)) % 65536).toNat, p.2)

/-- POWER_QUERY's reply (R417). -/
def queryPower (h : Pkt) (c : Cmd) (s : State) : State :=
  let t := tjTenths s
  let s := t.2
  replyTo s h c ([rd s PWR_OP_STAT_OP] ++ leBytes 2 (rd s PWR_LIMIT_LIMIT) ++ leBytes 4 (rd s PWR_PKG_AVG) ++ leBytes 2 t.1 ++
    List.replicate 7 0 ++ (List.range 16).map (fun p => rd s (PWR_RATE_HW_RATE p)) ++ List.replicate 32 0) {}

/-- POWER_QUERY (R417). -/
def execPowerQuery (h : Pkt) (s : State) : Out := .next (withPkt s h 0x61 0 .any false (queryPower h))

/-! ### The hardware limiter (R456-R458) -/

/-- The partitions the limiter throttles (R449, R457). -/
def throttled (s : State) : List Nat :=
  (s.parts.map Prod.fst).filter (fun p => !(p == 0 && isSet s DSP_STAT_LINE_LOCKED))

/-- LIMITER_ENGAGE (R457): the conditions shown; the first of them begins THROTTLE. -/
def execLimiterEngage (limit ceiling arr sram : Bool) (s : State) : Out :=
  if limit || ceiling || arr || sram then
    let s := wr (wr (wr (wr s PWR_HWLIM_STAT_LIMIT (b2n limit)) PWR_HWLIM_STAT_CEILING (b2n ceiling)) PWR_HWLIM_STAT_RAIL_ARR (b2n arr))
      PWR_HWLIM_STAT_RAIL_SRAM (b2n sram)
    if rd s PWR_HWLIM_STAT_STAGE = 0 then
      .next (wr (bump (wr s PWR_EVT_STAT_LIMITER 1) PWR_HWLIM_STAT_ENGAGE_CNT 1) PWR_HWLIM_STAT_STAGE 1)
    else .next s
  else .next s

/-- LIMITER_HALVE (R457): each effective rate halves, down to 1/64; a rate below its minimum is a breach (R453). -/
def execLimiterHalve (s : State) : Out :=
  if rd s PWR_HWLIM_STAT_STAGE = 0 then .next s
  else
    .next ((throttled s).foldl (fun s p => breachBelow (wr s (PWR_RATE_HW_RATE p) (max 1 (effRate s p / 2))) p) s)

/-- LIMITER_STEP (R457): every rate at 1/64, the point goes one lower, to OP2 while P0 is line-locked, else to OP0. -/
def execLimiterStep (s : State) : Out :=
  if rd s PWR_HWLIM_STAT_STAGE ≠ 0 ∧ (throttled s).all (fun p => effRate s p == 1) = true then
    let low := if isSet s DSP_STAT_LINE_LOCKED || floorWaits s then 2 else 0
    let s := wr s PWR_HWLIM_STAT_STAGE (max 2 (rd s PWR_HWLIM_STAT_STAGE))
    .next (if low < opDecided s then goOp s (opDecided s - 1) else s)
  else .next s

/-- LIMITER_FLOOR (R457): at OP2 with P0 line-locked a POWER_FLOOR takeover is requested. -/
def execLimiterFloor (s : State) : Out :=
  if rd s PWR_HWLIM_STAT_STAGE = 2 ∧ rd s PWR_OP_STAT_OP = 2 ∧ isSet s DSP_STAT_LINE_LOCKED = true then
    .next (requestFloor (setPwr (wr s PWR_HWLIM_STAT_STAGE 3) (fun x => { x with floorLim := true })))
  else .next s

/-- LIMITER_RELEASE (R457): the override ends; the controller's choices apply from the next quantum boundary. -/
def execLimiterRelease (s : State) : Out :=
  if rd s PWR_HWLIM_STAT_STAGE = 0 then .next s
  else
    let s := wr (wr (wr (wr s PWR_HWLIM_STAT_LIMIT 0) PWR_HWLIM_STAT_CEILING 0) PWR_HWLIM_STAT_RAIL_ARR 0) PWR_HWLIM_STAT_RAIL_SRAM 0
    .next (setPwr (wr s PWR_HWLIM_STAT_STAGE 0) (fun x => { x with floorLim := false }))

/-- RAIL_OC (R456): a rail without an actuator (not VDD_ARR or VDD_SRAM) above its maximum. -/
def execRailOc (rail : Fin 11) (s : State) : Out :=
  if rail.val = 0 ∨ rail.val = 2 then .next s
  else .next (report (wr s PWR_EVT_STAT_RAIL_OC 1) 36 clsDevice 0 0xFF 0xFF 0)

/-! ### Thermal response (R447, R459, R460) -/

/-- STATE shows the highest state entered, FORCED at least while fewer than 12 sensors pass, TRIPPED after the trip (R447). -/
def refreshTherm (s : State) : State :=
  let few := decide (4 < s.pwr.sensorsOut.length)
  let n := s.pwr.entered.foldl max 0
  wr s PWR_THERM_STAT_STATE (if s.pwr.trip then 4 else if few then max n 2 else n)

/-- Consecutive samples at a state's threshold, and the state entered after two (R459). -/
def enterTherm (s : State) (st : Nat) : State :=
  let at' := decide (4 * thermThr st ≤ tj s)
  let n := if at' then min 2 (tget 0 s.pwr.hot st + 1) else 0
  let s := setPwr s (fun x => { x with hot := tput 0 x.hot st n })
  if n = 2 ∧ st < 4 ∧ s.pwr.entered.contains st = false then
    let s := setPwr s (fun x => { x with entered := x.entered ++ [st] })
    wr s (if st = 1 then PWR_EVT_STAT_THERM_SOFT else if st = 2 then PWR_EVT_STAT_THERM_FORCED else PWR_EVT_STAT_THERM_FLOOR) 1
  else s

/-- The hardware's action in the state shown (R459): FORCED takes the point to OP2; FLOOR requests the takeover, and OP0 once it
applies. -/
def actTherm (s : State) : State :=
  let st := rd s PWR_THERM_STAT_STATE
  if st = 3 then
    if s.pwr.floorTherm ∧ floorApplies s = true then (if 0 < opDecided s then goOp s 0 else s)
    else requestFloor (setPwr (if 2 < opDecided s then goOp s 2 else s) (fun x => { x with floorTherm := true }))
  else if st = 2 ∧ 2 < opDecided s then goOp s 2
  else s

/-- A sensor that fails its self-check is left out and reported once; it counts again when it passes (R447). -/
def noteSensor (s : State) (i : Nat) (ok : Bool) : State :=
  if ok then setPwr s (fun x => { x with sensorsOut := x.sensorsOut.filter (fun k => k != i) })
  else if s.pwr.sensorsOut.contains i then s
  else report (setPwr s (fun x => { x with sensorsOut := x.sensorsOut ++ [i] })) 36 clsDevice 0 0xFF 0xFF 0

/-- The hottest passing sensor of a sample. -/
def hottest : List (Nat × Int) → Option (Nat × Int)
  | [] => none
  | x :: t =>
    match hottest t with
    | some y => if y.2 ≤ x.2 then some x else some y
    | none => some x

/-- A chip reset held by the trip goes on to the boot once Tj is below the FORCED threshold (R460, R558). -/
def releaseHeld (s : State) : State :=
  if s.boot.held && decide (tj s < 4 * thermThr 2) then
    let s : State := { s with boot := { s.boot with held := false } }
    if s.boot.perst || s.boot.down.isSome || !s.boot.released then s else wr s BMC_STAT_STAGE 1
  else s

/-- THERMAL_SAMPLE (R447, R459): the 16 sensors in 0.25 degree; none: its self-check fails. -/
def execThermalSample (temps : List (Option Int)) (s : State) : Out :=
  if temps.length ≠ 16 then .fault .illFormed
  else if s.pwr.trip then .next s
  else
    let s := (temps.zipIdx).foldl (fun s e => noteSensor s e.2 e.1.isSome) s
    let pass := (temps.zipIdx).filterMap (fun e => e.1.map (fun t => (e.2, t)))
    let s := wr s PWR_THERM_STAT_VALID_M1 (pass.length - 1)
    let s := match hottest pass with
      | some x => wr (wr s PWR_THERM_STAT_TJ (x.2 % 1024).toNat) PWR_THERM_STAT_SENSOR x.1
      | none => s
    let s := if pass.isEmpty then s else [1, 2, 3, 4].foldl enterTherm s
    .next (releaseHeld (actTherm (refreshTherm s)))

/-- THERMAL_STATE_EXIT (R459): Tj is 3 degrees below the state's threshold, and has been for 1 ms. -/
def execThermalStateExit (st : Fin 5) (s : State) : Out :=
  if s.pwr.entered.contains st.val = true ∧ tj s ≤ 4 * thermThr st - 12 ∧ s.pwr.trip = false then
    .next (refreshTherm (setPwr s (fun x => { x with entered := x.entered.filter (fun k => k != st.val), hot := tput 0 x.hot st 0,
                                                     floorTherm := if st.val = 3 then false else x.floorTherm })))
  else .next s

/-- What the trip does to a partition (R460): its work ends as in a reset, which waits for the chip reset. -/
def tripPart (s : State) (p : Nat) : State :=
  let s := match tfind p s.parts with
    | some x => if x.fence = .none then raiseFence s p false else s
    | none => s
  let s := if p = 0 then raiseCause s 2 else s
  let s := (unitsWhere s (fun u => u.part == p)).foldl stopUnit s
  let s := endCommands s p
  let s := (partEntries s p).foldl resetRequest s
  let s := (s.srv.batches.filter (fun b => b.2.part == p)).foldl (fun s b => settleBatch s b.1) s
  let s := (s.srv.trains.filter (fun t => t.part == p)).foldl (fun s t => endTrain s t 0x11 {}) s
  let s := unwindCast s p 0x11 0xFFFF
  setProg (setPart s p (fun x => { x with fence := .resetting, initLeft := partPhys s p })) p 3

/-- THERMAL_TRIP (R460): Tj has reached 115 degrees on two samples: THERM_TRIP_N is latched, every partition's work ends, every
cluster is gated, and the picture goes to the fallback scaler. -/
def execThermalTrip (s : State) : Out :=
  if tget 0 s.pwr.hot 4 = 2 ∧ s.pwr.trip = false then
    let s := setPwr s (fun x => { x with trip := true, floorTherm := true })
    let s := requestFloor (refreshTherm s)
    let s := (s.parts.map Prod.fst).foldl tripPart s
    .next ((List.range 34).foldl (fun s n => if rd s (CLU_STAT_STATE n) = 5 then s else gateCluster s n) s)
  else .next s

/-! ### Reads that clear (R470) -/

/-- PWR_HWLIM_STAT_READ (R470). -/
def execPwrHwlimStatRead (s : State) : Out := .next (wr (emit s (.value (wordView s 0x23000018))) PWR_HWLIM_STAT_ENGAGE_CNT 0)

/-- PWR_CPM_STAT_READ (R470). -/
def execPwrCpmStatRead (s : State) : Out := .next (wr (emit s (.value (wordView s 0x23000024))) PWR_CPM_STAT_DROOP_CNT 0)

end Sys2Proof.Machine
end

