-- ==== Sys2Proof/Machine/Query.lean ====
section
/-!
DEFINITION. Sys2Proof/Machine/Query.lean: QUERY and its replies (spec/12_host_interface_ferar.md R416).
-/
namespace Sys2Proof.Machine
open Reg

/-- Clusters that satisfy `f`, counted. -/
def countClusters (f : Nat → Bool) : Nat := ((List.range 34).filter f).length

/-- Channels that are worn, as a mask (R308). -/
def wornMask (s : State) : Nat := ((List.range 32).filter (fun c => isSet s (WFL_CH_STAT_WORN c))).foldl (fun m c => m + 2 ^ c) 0

/-- Scope 0: the device. The PCIe link's rate and width are not the model's state; each is a free one of its values. -/
def queryDevice (s : State) : List (List Nat) × State :=
  let gt := fresh s
  let wd := fresh gt.2
  let s := wd.2
  ([leBytes 2 0x8640 ++ [0xB0, Config.grade % 256] ++ leBytes 2 Config.flashGib ++ leBytes 2 (rd s MEM_STAT_SIZE) ++
    [rd s MEM_CFG_TYPE, rd s MEM_CFG_RATE, countClusters (fun n => isSet s (CLU_MAP_MAPPED n)),
      countClusters (fun n => !isSet s (CLU_MAP_MAPPED n) && rd s (CLU_STAT_STATE n) != 5), s.parts.length,
      2 ^ (3 + gt.1 % 3), 2 ^ (wd.1 % 3), rd s PWR_OP_STAT_OP] ++
    leBytes 4 (wornMask s) ++ leBytes 4 (match s.boot.image with | some i => i.version | none => 0) ++ [s.boot.slot, 0, 0, 0] ++
    leBytes 8 s.time ++ leBytes 4 (freeGrans s).length ++ leBytes 4 (psCount * 512) ++ leBytes 8 (retiredMask s) ++
    List.replicate 12 0], s)

/-- The handles of a partition in a mask, by state. -/
def handleMask (s : State) (p : Nat) (resident : Bool) : Nat :=
  (s.handles.filter (fun e => e.2.part == p && (e.2.st == 1) == resident)).foldl (fun m e => m + 2 ^ e.1) 0

/-- Scope 1: a partition. A leaving cluster is its own until it has left (R352). -/
def queryPart (s : State) (p : Nat) : List (List Nat) :=
  match tfind p s.parts with
  | none => []
  | some x =>
    [[x.owner, x.logical.length + x.leaving.length, x.clSet, x.minRate, effRate s p,
      b2n (x.fence != .none) + 2 * b2n (decide (x.logical.length < x.clSet)), 0, 0] ++
      leBytes 8 x.c2 ++ leBytes 8 x.quota.q2 ++ leBytes 8 x.c3 ++ leBytes 8 x.quota.q3 ++ leBytes 8 x.c4 ++ leBytes 8 x.quota.q4 ++
      leBytes 4 x.satAcc ++ leBytes 4 x.satOut ++ leBytes 4 x.nonfinite ++
      ((List.range 4).map (fun i => leBytes 2 (tget 0 x.breaches (i + 1)))).flatten ++
      leBytes 8 (handleMask s p true) ++ leBytes 8 (handleMask s p false) ++ List.replicate 36 0]

/-- R363's code of a request's state. -/
def reqCode : ReqState → Nat
  | .free | .held => 0
  | .active => 1
  | .pausing => 2
  | .paused => 3
  | .resuming => 4
  | .ready => 5

/-- Scope 2: the live requests of a partition. -/
def queryReqs (s : State) (p : Nat) : List (List Nat) :=
  (partEntries s p).map (fun e =>
    let r := req s e
    leBytes 4 (handleOf e r) ++ [reqCode r.state, r.tier, 0, 0] ++ leBytes 4 r.written ++
      leBytes 4 (if r.state = ReqState.paused ∨ r.state = ReqState.ready then (r.due - s.time) / 100000000 else 0))

/-- Scope 3: the contexts bound to a partition. -/
def queryStreams (s : State) (p : Nat) : List (List Nat) :=
  ((List.range 48).filter (fun c => match (ctx s c).bind with | some b => b.part == p | none => false)).map (fun c =>
    [c, rd s (CAM_CTX_CFG_STATE c), p, 0] ++ leBytes 4 (rd s (CAM_CTX_TICKS_TICKS c)) ++ leBytes 2 (rd s (CAM_CTX_DROP_LATE c)) ++
      leBytes 2 (rd s (CAM_CTX_DROP_DAMAGED c)) ++ leBytes 2 (rd s (CAM_CTX_MISC_SUPERSEDED c)) ++ leBytes 2 (rd s (CAM_CTX_MISC_OTHER c)) ++
      leBytes 4 (ctx s c).lastFrame ++ leBytes 4 0)

/-- Scope 4: the store slots in use. -/
def querySlots (s : State) : List (List Nat) :=
  s.flash.slots.map (fun e =>
    [e.1, 0, 0, 0] ++ leBytes 4 e.2.set ++ leBytes 8 e.2.base ++ leBytes 8 e.2.man.totalLen ++ leBytes 40 e.2.man.maqDigest)

/-- Bytes of a handle's maquette in T2 and in T3 (R272): a handle staged from a store slot has nothing placed before its cast. -/
def handleBytes (h : Handle) : Nat × Nat :=
  if h.slot.isNone then (rawLenSum h.man, 0)
  else if h.st = 1 then (placedT2 h.man h.slot h.inT2, placedT3 h.man h.slot h.inT2)
  else (0, 0)

/-- Scope 5: the maquettes of a partition. -/
def queryMaquettes (s : State) (p : Nat) : List (List Nat) :=
  (s.handles.filter (fun e => e.2.part == p)).map (fun e =>
    [e.1, e.2.st, b2n e.2.verified, e.2.man.kind, 0, 0, 0, 0] ++ leBytes 8 (handleBytes e.2).1 ++ leBytes 8 (handleBytes e.2).2 ++
      leBytes 48 e.2.man.maqDigest ++ leBytes 40 e.2.man.content)

/-- Scope 6: the flash channels. -/
def queryChannels (s : State) : List (List Nat) :=
  (List.range 32).map (fun c => leBytes 4 (wordView s (0x34000100 + 4 * c)) ++ leBytes 4 (wordView s (0x34000200 + 4 * c)))

/-- Does a scope name a partition (R406)? -/
def partScope (scope : Nat) : Bool := scope == 1 || scope == 2 || scope == 3 || scope == 5

/-- The entries of a scope. -/
def queryEntries (s : State) (scope p : Nat) : List (List Nat) × State :=
  if scope = 0 then queryDevice s
  else if scope = 1 then (queryPart s p, s)
  else if scope = 2 then (queryReqs s p, s)
  else if scope = 3 then (queryStreams s p, s)
  else if scope = 4 then (querySlots s, s)
  else if scope = 5 then (queryMaquettes s p, s)
  else (queryChannels s, s)

/-- Bytes of one entry of a scope (R416). -/
def entrySize (scope : Nat) : Nat := [64, 128, 16, 24, 64, 112, 8].getD scope 8

/-- QUERY's reply (R402, R416): the entries from FIRST on; DETAIL counts those that lie whole in the buffer. -/
def queryAct (h : Pkt) (scope first : Nat) (c : Cmd) (s : State) : State :=
  if 6 < scope then complete s c 0x21 {}
  else
    let q := queryEntries s scope h.part
    let l := q.1.drop first
    let room := if h.replyAddr = 0 then 0 else h.replyLen
    replyTo q.2 h c l.flatten { detail := min l.length (room / entrySize scope) }

/-- QUERY (R416). -/
def execQuery (h : Pkt) (scope : Fin 256) (first : BitVec 16) (s : State) : Out :=
  .next (withPkt s h 0x02 0 (if partScope scope then .control else .any) false (queryAct h scope first.toNat))

end Sys2Proof.Machine
end

