-- ==== Sys2Proof/Machine/Quantum.lean ====
section
/-!
DEFINITION. Sys2Proof/Machine/Quantum.lean: a quantum boundary (spec/11_partitions_serving.md R355-R357, spec/14 R452,
spec/15 R478, R486-R489, spec/18 R571).
-/
namespace Sys2Proof.Machine
open Reg

/-- Device time at the next quantum boundary: the next multiple of 25,000 ticks (R355). -/
def nextBoundary (t : Nat) : Nat := (t / 25000 + 1) * 25000 % 2 ^ 64

/-- What the Plinth does first at a boundary, when it runs: duty sets, ended and cancelled training steps, mapped spares, clusters
that join or leave a partition with nothing running, and P0 while no display is on, work a barrier no longer holds (R20, R121, R124, R341, R354, R357, R487); from the
boundary after FW_ACTIVATE on it dispatches nothing (R571). -/
def plinthBoundary (s : State) (q : Quantum) : State :=
  let s := settleDuties { s with boot := { s.boot with stopped := s.boot.activate.isSome } }
  let s := q.ends.foldl trainEnds (trainCancels s)
  let s := mapSpares s
  let s := if isSet s DSP_CTRL_ENABLE then s else settleResize s 0 true
  let s := (s.parts.map Prod.fst).foldl settleIdle s
  (s.parts.map Prod.fst).foldl liftHeld s

/-- Does the Plinth act at a boundary? Not in a reset, a power-down, or with both pairs halted (R492, R526, R559). -/
def plinthRuns (s : State) : Bool :=
  s.boot.pln == .up && s.boot.down.isNone && !(pairHalted s false && pairHalted s true)

/-- QUANTUM_BOUNDARY (R357): a chained member's step, the Plinth's housekeeping, the progress monitors, the power decision, then
the work that starts. -/
def execQuantumBoundary (q : Quantum) (s : State) : Out :=
  let s := completeFrames (applyStep { s with time := nextBoundary s.time, quantum := s.quantum + 1 })
  let plinth := plinthRuns s
  let s := if plinth then plinthBoundary s q else s
  let s := monitor s
  let s := powerBoundary (if plinth then raiseDue s else s) q plinth
  if plinth && !s.boot.stopped then .next (trace (startAll s q.starts) 0 0xFF) else .next s

end Sys2Proof.Machine
end

