-- ==== Sys2Proof/Machine/Secure.lean ====
section
/-!
DEFINITION. Sys2Proof/Machine/Secure.lean: the SPDM responder, tenant key slots and the attestation report
(spec/16_security_attestation_debug.md R505-R518).
-/
namespace Sys2Proof.Machine
open Reg

/-- The BOOT_CTL copy in force: the valid copy with the higher SEQ (R565); none: ACTIVE = A, TRIAL = 0xFF. -/
def ctlNow (s : State) : BootCtl :=
  match s.boot.flash.ctl0, s.boot.flash.ctl1 with
  | some a, some b => if a.seq < b.seq then b else a
  | some a, none => a
  | none, some b => b
  | none, none => { seq := 0, active := 0, trial := 0xFF, reverted := false, activeVer := 0 }

/-! ### Measurements and the report (R507, R512, R516-R518) -/

/-- The payload of the PUBLISHER_KEYS record (R328). -/
def pubPayload (s : State) : List Nat :=
  leBytes 8 s.flash.listSeq ++ leBytes 4 s.flash.pubs.length ++ List.replicate 4 0 ++
    (s.flash.pubs.map (fun k => leBytes 16 k.keyId ++ leBytes 4 (b2n k.admin + 2 * b2n k.revoked) ++ List.replicate 12 0 ++
      leBytes 48 k.qx ++ leBytes 48 k.qy)).flatten

/-- A digest as 48 bytes. -/
def digestBytes (d : Nat) : List Nat := leBytes 48 d

/-- The report's FLAGS, 2 bytes (R516). -/
def reportFlags (s : State) : List Nat :=
  leBytes 2 (b2n (isSet s FLT_LOCKSTEP_DEGRADED) + 2 * b2n (isSet s SEC_DBG_STAT_ACTIVE) + 4 * b2n (isSet s SEC_DBG_STAT_SINCE_RESET) +
    8 * b2n (ctlNow s).reverted)

/-- One entry of the partition map (R517). -/
def partMapEntry (s : State) (p : Nat) : List Nat :=
  match tfind p s.parts with
  | none => List.replicate 16 0
  | some x =>
    [1 + 2 * b2n (bit (rd s SEC_DBG_TOUCH_PART) p) + 4 * b2n (x.fence != .none), x.owner, x.keySlot, x.logical.length] ++
      leBytes 4 (x.logical.foldl (fun m l => m + 2 ^ l) 0) ++ leBytes 4 (rd s (SEC_KEY_GEN_GEN x.keySlot)) ++ List.replicate 4 0

/-- The partition map, 256 bytes (R516). -/
def partMap (s : State) : List Nat := ((List.range 16).map (partMapEntry s)).flatten

/-- The handles a function sees (R518), ascending. -/
def seenHandles (s : State) (fn : Nat) : List (Nat × Handle) :=
  s.handles.filter (fun e => fn == 0 || ownerOf s e.2.part == fn)

/-- One maquette entry (R518). -/
def maqEntry (e : Nat × Handle) : List Nat :=
  [e.1, e.2.part, b2n (e.2.st == 1), e.2.man.kind] ++ leBytes 4 e.2.man.versionNo ++ List.replicate 8 0 ++
    digestBytes e.2.man.maqDigest ++ digestBytes e.2.man.content

/-- The signed part of the report (R516). -/
def reportBody (s : State) (fn : Nat) (nonce : Nat) : List Nat :=
  let l := seenHandles s fn
  leBytes 4 0x5A415452 ++ leBytes 2 1 ++ reportFlags s ++ leBytes 4 (640 + 112 * l.length) ++
    [l.length, fn, 0xB0, Config.grade % 256] ++ leBytes 32 nonce ++ leBytes 8 s.time ++ leBytes 4 (rd s SEC_DBG_SESS_COUNT) ++
    leBytes 4 (wordView s 0x22000010) ++ ((List.range 4).map (fun n => leBytes 4 (rd s (SEC_IDENT_ID_ID n)))).flatten ++
    digestBytes Config.romDigest ++ digestBytes s.boot.fwDigest ++
    leBytes 4 (match s.boot.image with | some i => i.svn | none => 0) ++
    leBytes 4 (match s.boot.image with | some i => i.version | none => 0) ++ leBytes 8 s.flash.listSeq ++
    digestBytes (Config.sha384 (pubPayload s)) ++ digestBytes s.boot.boardDigest ++ partMap s ++ (l.map maqEntry).flatten

/-- The island's ECDSA P-384 signature: the key never leaves the island and no rule gives r and s, so both are free. -/
def sign (s : State) : Nat × Nat × State :=
  let r := fresh s
  let t := fresh r.2
  (r.1 % 2 ^ 384, t.1 % 2 ^ 384, t.2)

/-- ATTEST_REPORT's reply (R516). -/
def attestAct (h : Pkt) (nonce : Nat) (c : Cmd) (s : State) : State :=
  let g := sign s
  replyTo g.2.2 h c (reportBody s h.fn nonce ++ digestBytes g.1 ++ digestBytes g.2.1) {}

/-- ATTEST_REPORT (R516). -/
def execAttestReport (h : Pkt) (nonce : BitVec 256) (s : State) : Out :=
  .next (withPkt s h 0x71 0 .any false (attestAct h nonce.toNat))

/-- The measurement blocks a function sees, by index (R512). -/
def measurementBlocks (s : State) (fn : Nat) : List (Nat × List Nat) :=
  [(1, digestBytes Config.romDigest), (2, digestBytes s.boot.fwDigest), (3, digestBytes s.boot.boardDigest),
    (4, digestBytes (Config.sha384 (pubPayload s))),
    (5, reportFlags s ++ leBytes 4 (rd s SEC_DBG_SESS_COUNT) ++ leBytes 4 (wordView s 0x22000010)), (6, partMap s)] ++
    (seenHandles s fn).map (fun e => (16 + e.1, digestBytes e.2.man.maqDigest))

/-! ### The DOE mailboxes and the SPDM responder (R510, R511) -/

/-- Does a function have a mailbox that answers: the PF, or an enabled VF, with the island ready (R510)? -/
def mailbox (s : State) (fn : Nat) : Bool := (fn == 0 || decide (fn ≤ s.hif.numVfs)) && isSet s SEC_STAT_READY

/-- A request to a function's mailbox; one without a mailbox answers nothing. -/
def withMailbox (s : State) (fn : Nat) (act : State → State) : Out := .next (if mailbox s fn then act s else s)

/-- An SPDM response. -/
def spdm (s : State) (fn : Nat) (r : SpdmReply) : State := emit s (.spdm fn r)

/-- An SPDM ERROR response, counted in SEC_EVT_STAT.SPDM_ERR (R530). -/
def spdmErr (s : State) (fn : Nat) (r : SpdmReply) : State := spdm (wr s SEC_EVT_STAT_SPDM_ERR 1) fn r

/-- DOE_DISCOVERY (R510): data object types 0 Discovery, 1 SPDM, 2 Secured SPDM of vendor 0x0001 (PCI-SIG). An index beyond the
last is answered as PCI Express gives it: vendor 0xFFFF, no next index (PRESUMED). -/
def execDoeDiscovery (fn : Fin 16) (index : Fin 256) (s : State) : Out :=
  withMailbox s fn (fun s => spdm s fn (if index.val ≤ 2 then .discovery 1 index (if index.val < 2 then index + 1 else 0)
    else .discovery 0xFFFF 0xFF 0))

/-- GET_VERSION (R510): SPDM 1.2. -/
def execGetVersion (fn : Fin 16) (s : State) : Out := withMailbox s fn (fun s => spdm s fn .version)

/-- GET_CAPABILITIES (R510). -/
def execGetCapabilities (fn : Fin 16) (s : State) : Out := withMailbox s fn (fun s => spdm s fn .capabilities)

/-- NEGOTIATE_ALGORITHMS (R510): the algorithms of R510; without a common set the request is in error. -/
def execNegotiateAlgorithms (fn : Fin 16) (common : Bool) (s : State) : Out :=
  withMailbox s fn (fun s => if common then spdm s fn .algorithms else spdmErr s fn .error)

/-- The certificate chain (R505). -/
def certChain : List Nat := (List.range (min 8192 Config.certLen)).map (fun i => Config.certByte i % 256)

/-- GET_DIGESTS (R510): slot 0 alone. -/
def execGetDigests (fn : Fin 16) (s : State) : Out := withMailbox s fn (fun s => spdm s fn (.digests (Config.sha384 certChain)))

/-- GET_CERTIFICATE (R510): a part of slot 0's chain. -/
def execGetCertificate (fn : Fin 16) (slot : Fin 16) (off len : BitVec 16) (s : State) : Out :=
  withMailbox s fn (fun s =>
    if slot.val = 0 ∧ off.toNat < certChain.length then spdm s fn (.certificate ((certChain.drop off.toNat).take len.toNat))
    else spdmErr s fn .error)

/-- CHALLENGE (R510): slot 0 alone; the measurements and a signature. -/
def execChallenge (fn : Fin 16) (slot : Fin 16) (s : State) : Out :=
  withMailbox s fn (fun s =>
    if slot.val = 0 then
      let g := sign s
      spdm g.2.2 fn (.challengeAuth (measurementBlocks s fn) g.1 g.2.1)
    else spdmErr s fn .error)

/-- GET_MEASUREMENTS (R512): index 0 asks for the number of blocks, 0xFF for all (DSP0274), any other for one block. -/
def execGetMeasurements (fn : Fin 16) (index : Fin 256) (s : State) : Out :=
  withMailbox s fn (fun s =>
    let l := measurementBlocks s fn
    let g := sign s
    if index.val = 0 then spdm g.2.2 fn (.measurements l.length [] g.1 g.2.1)
    else if index.val = 255 then spdm g.2.2 fn (.measurements l.length l g.1 g.2.1)
    else
      match l.find? (fun e => e.1 == index.val) with
      | some e => spdm g.2.2 fn (.measurements 1 [e] g.1 g.2.1)
      | none => spdmErr s fn .error)

/-- Open sessions of a function. -/
def sessionsOf (s : State) (fn : Nat) : List Session := s.sec.sessions.filter (fun x => x.fn == fn)

/-- KEY_EXCHANGE (R511): at most 4 sessions per function and 32 in the device. The session's number is the model's (DESIGN CHOICE,
log entry 169). -/
def execKeyExchange (fn : Fin 16) (s : State) : Out :=
  withMailbox s fn (fun s =>
    if 4 ≤ (sessionsOf s fn).length ∨ 32 ≤ s.sec.sessions.length then spdmErr s fn .sessionLimitExceeded
    else
      let id := s.sec.nextSession
      spdm { s with sec := { s.sec with sessions := s.sec.sessions ++ [⟨id, fn, false⟩], nextSession := id + 1 } } fn (.keyExchangeRsp id))

/-- A session of a function, by its number. -/
def session? (s : State) (fn id : Nat) : Option Session := (sessionsOf s fn).find? (fun x => x.id == id)

/-- A request inside an established session of the function; any other is in error. -/
def inSession (s : State) (fn id : Nat) (act : State → State) : Out :=
  withMailbox s fn (fun s =>
    match session? s fn id with
    | some x => if x.finished then act s else spdmErr s fn .error
    | none => spdmErr s fn .error)

/-- FINISH (R510): establishes the session; `ok`: its verify data hold. -/
def execFinish (fn : Fin 16) (session : Nat) (ok : Bool) (s : State) : Out :=
  withMailbox s fn (fun s =>
    match session? s fn session with
    | some x =>
      if ok && !x.finished then
        spdm { s with sec := { s.sec with sessions := s.sec.sessions.map (fun y => if y = x then { x with finished := true } else y) } }
          fn (.finishRsp session)
      else spdmErr s fn .error
    | none => spdmErr s fn .error)

/-- END_SESSION (R511). -/
def execEndSession (fn : Fin 16) (session : Nat) (s : State) : Out :=
  inSession s fn session (fun s =>
    spdm { s with sec := { s.sec with sessions := s.sec.sessions.filter (fun y => !(y.fn == fn.val && y.id == session)) } } fn
      (.endSessionAck session))

/-- KEY_UPDATE (R510): new session keys, which nothing else shows. -/
def execKeyUpdate (fn : Fin 16) (session : Nat) (s : State) : Out := inSession s fn session (fun s => spdm s fn (.keyUpdateAck session))

/-! ### Tenant key slots (R513-R515) -/

/-- Owner of a slot as the response shows it: 0xFF none. -/
def slotOwner (s : State) (slot : Nat) : Nat := if tget 0 s.sec.owners slot = 0 then 0xFF else tget 0 s.sec.owners slot - 1

/-- The response of R513; the KEY_GEN of a slot the device does not have is not stated and is free. -/
def slotReply (s : State) (fn op slot status : Nat) : State :=
  let g := if slot < 32 then (rd s (SEC_KEY_GEN_GEN slot), s) else fresh s
  spdm g.2 fn (.vendor ([op, slot, status, 0] ++ leBytes 4 g.1 ++ [if slot < 32 then slotOwner s slot else 0xFF, 0, 0, 0]))

/-- Is a slot owned by a function other than `fn`? -/
def othersSlot (s : State) (fn slot : Nat) : Bool := slotOwner s slot != 0xFF && slotOwner s slot != fn

/-- The slot SLOT = 0xFF names: the lowest that is empty and unowned (R513). -/
def lowestSlot (s : State) : Option Nat :=
  ((List.range 31).map (· + 1)).find? (fun k => tget 0 s.sec.owners k == 0 && tget 0 s.dram.keys k == 0)

/-- The key pair loaded into a slot, which the function then owns (R514); the number stands for the pair. -/
def loadKey (s : State) (fn slot dataKey tweakKey : Nat) : State :=
  let s := { s with dram := { s.dram with keys := tput 0 s.dram.keys slot (1 + dataKey + 2 ^ 256 * tweakKey) },
                    sec := { s.sec with owners := tput 0 s.sec.owners slot (fn + 1) } }
  wr (tick s (SEC_KEY_GEN_GEN slot)) SEC_EVT_STAT_KEY_SET 1

/-- KEY_SET (R514). -/
def execKeySet (fn : Fin 16) (session : Nat) (slot : Fin 256) (dataKey tweakKey : BitVec 256) (rsvdOk : Bool) (s : State) : Out :=
  inSession s fn session (fun s =>
    if dataKey = tweakKey ∨ rsvdOk = false ∨ (slot.val ≠ 255 ∧ (slot.val = 0 ∨ 31 < slot.val)) then slotReply s fn 1 slot 0x21
    else
      match (if slot.val = 255 then lowestSlot s else some slot.val) with
      | none => slotReply s fn 1 slot 0x31
      | some k =>
        if othersSlot s fn k then slotReply s fn 1 k 0x21
        else slotReply (loadKey s fn k dataKey.toNat tweakKey.toNat) fn 1 k 0)

/-- The partitions that use a slot and have work lose their guarantee (R375). -/
def breachSlot (s : State) (slot : Nat) : State :=
  (s.parts.filter (fun e => e.2.keySlot == slot && e.1 != 0)).foldl (fun s e => if partBusy s e.1 then breachBegin s e.1 4 2 else s) s

/-- KEY_ERASE (R514): a slot no function owns is already empty. -/
def execKeyErase (fn : Fin 16) (session : Nat) (slot : Fin 256) (rsvdOk : Bool) (s : State) : Out :=
  inSession s fn session (fun s =>
    if rsvdOk = false ∨ slot.val = 0 ∨ 31 < slot.val ∨ othersSlot s fn slot = true then slotReply s fn 2 slot 0x21
    else if slotOwner s slot = 0xFF then slotReply s fn 2 slot 0
    else slotReply (breachSlot (eraseSlot s slot) slot) fn 2 slot 0)

/-- KEY_STATUS (R514): another function's slot is refused. -/
def execKeyStatus (fn : Fin 16) (session : Nat) (slot : Fin 256) (rsvdOk : Bool) (s : State) : Out :=
  inSession s fn session (fun s =>
    slotReply s fn 3 slot (if rsvdOk = false ∨ slot.val = 0 ∨ 31 < slot.val ∨ othersSlot s fn slot = true then 0x21 else 0))

end Sys2Proof.Machine
end

