-- ==== Sys2Proof/Machine/Reset.lean ====
section
/-!
DEFINITION. Sys2Proof/Machine/Reset.lean: supplies, resets and the orderly power-down (spec/15 R485, spec/18 R553-R562,
spec/19 R595-R599).
-/
namespace Sys2Proof.Machine
open Reg

def setBoot (s : State) (f : Boot → Boot) : State := { s with boot := f s.boot }

/-- BMC_STAT.STAGE: 0 RESET, 1 ROM, 2 FW_INIT, 3 RUNNING, 4 TRIAL, 5 HOLD, 6 POWERING_DOWN, 7 POWERED_DOWN (R578). -/
def stage (s : State) : Nat := rd s BMC_STAT_STAGE
def setStage (s : State) (v : Nat) : State := wr s BMC_STAT_STAGE v

/-- Is an internal address in the 16 MiB block at `base` (R601)? -/
def inBlock (base a : Nat) : Bool := decide (base ≤ a) && decide (a < base + 0x1000000)

/-! ### The weight flash at a Plinth or chip reset (R305) -/

/-- The operation in a die completes, a suspended one after it; reads and unrecorded work are abandoned, and copies of retired blocks
start again (R307). -/
def completeDie (s : State) (c : Nat) : State :=
  let one := fun (s : State) (w : Option DieWork) => match w with
    | some (.record seq) => recordDone s c seq true
    | some (.erase ps) => countErase s c ps true 0
    | some .recErase => recordErased s c true
    | _ => s
  let x := chan s c
  let s := one (one s x.suspended) x.running
  let again := (x.suspended.toList ++ x.running.toList ++ x.waiting).filter (fun w => match w with | .copy l _ => bit (mapEntry s c l) 14 | _ => false)
  refreshChan (setChan s c { chan s c with running := none, suspended := none, nested := false, waiting := again.eraseDups }) c

/-- The controller completes its operations and resets itself (R305). What the channels' block registers show comes from the
record area, which a reset does not change (R319). -/
def flashReset (s : State) : State :=
  let s := (List.range 32).foldl completeDie s
  let s : State := { s with flash := { s.flash with jobs := [], awaiting := [] } }
  resetRegs s (fun a => inBlock 0x34000000 a && decide (a < 0x34000100))

/-! ### Chip reset (R485, R515, R557) -/

/-- T2 keys cleared, the entries of every granule outside the display region invalid, a new key in slot 0 (R263, R266, R515). The
key drawn is a free value. -/
def resetKeys (s : State) : State :=
  let k := fresh s
  let s := k.2
  let gtab := s.dram.gtab.foldl (fun t e => if gDisp e.2 then t else tput 0 t e.1 (clearBit e.2 15)) s.dram.gtab
  { s with dram := { s.dram with gtab, fills := [], keys := [(0, k.1 + 1)] } }

/-- The compute fabric at reset: clusters, cores, threads, moves and work, and the Plinth SRAM's contents (R485). -/
def resetFabric (s : State) : State :=
  let gone := fun (a : Nat) => (decide (0x40000000 ≤ a) && decide (a < 0x62000000)) || (decide (0x10000000 ≤ a) && decide (a < 0x10200000))
  let s : State := { s with mem := tdrop gone s.mem, poison := s.poison.filter (fun w => !gone (8 * w)),
                            upsets := tdrop (fun w => gone (8 * w)) s.upsets }
  let s : State := { s with clusters := [], cores := [], threads := [], units := [], moves := [], moveWait := [], repl := [] }
  resetRegs s (fun a => decide (0x40000000 ≤ a) && decide (a < 0x62000000))

/-- Partitions, requests, handles and stream contexts are gone; store slots pass to the physical function (R485). -/
def resetWork (s : State) : State :=
  let s : State := { s with parts := [], handles := [], srv := { order := s.srv.order }, cam := [] }
  { s with flash := { s.flash with slots := s.flash.slots.map (fun e => (e.1, { e.2 with part := 0xFF })) } }

/-- Rings, windows, MSI-X tables and event counts at their reset values, without records (R485). `pcie`: the link and the
configuration space reset too, as PERST_N does. -/
def resetHost (s : State) (pcie : Bool) : State :=
  let n := if pcie then 0 else s.hif.numVfs
  let fns := ((List.range 16).filter (fun f => decide (f ≤ n))).foldl
    (fun t f => tput {} t f { d3hot := !pcie && (fnSt s f).d3hot, flr := decide (f ≠ 0) }) []
  { s with hif := { fns, rings := [], cmds := [], numVfs := n, refclk := s.hif.refclk } }

/-- The sequencer lets go of the clusters it used until an Armature is loaded again; its banks and registers stay, but no bank
counts as loaded since the reset (R171, R186). -/
def resetDisplayWork (s : State) : State :=
  setDsp s (fun d => { d with modes := [], prog := [], segs := [], clusters := [], lineMove := none, stale := [], fresh0 := false, fresh1 := false })

/-- The power block at a chip reset (R467): OP0 and rates of 64; limit, highest point, trims and thermal state stay; THERM_TRIP_N
ends, and holds the reset until Tj is below FORCED (R460). -/
def resetPower (s : State) : State :=
  let hot := s.pwr.trip && !decide (tj s < 4 * thermThr 2)
  let s := setPwr s (fun x => { x with phases := [], forecast := 0, excess := 0, above := 0, waitOp := none, floorCtl := false,
                                       floorLim := false, floorTherm := false, okQuanta := 0, returning := false, hold2 := false,
                                       trip := false })
  let s := (List.range 16).foldl (fun s p => wr (wr s (PWR_RATE_RATE p) 64) (PWR_RATE_HW_RATE p) 64) s
  refreshTherm (goOp (setBoot s (fun b => { b with held := hot })) 0)

/-- A BOOT_CTL copy or a slot whose write a reset or a power loss breaks off is torn (R576). -/
def tearBootFlash (s : State) : State :=
  setBoot s (fun b =>
    let f := match b.ctlWrite with
      | some 0 => { b.flash with ctl0 := none }
      | some _ => { b.flash with ctl1 := none }
      | none => b.flash
    let f := match b.staging with
      | some g => if g.slot = 0 then { f with slotA := none } else { f with slotB := none }
      | none => f
    { b with flash := f, ctlWrite := none, staging := none })

/-- The Plinth at reset: no image runs (R557). -/
def resetPlinth (s : State) : State :=
  setBoot (tearBootFlash s) (fun b => { b with pln := .stopped, image := none, staged := none, activate := none, stopped := false,
                                               handoff := none, fwDigest := 0, boardDigest := 0 })

/-- The register blocks a chip reset resets: PLN, EVC, FLT but its always-on registers, SEC but COUNT and what is fused, HIF,
CAM, SPN, XSP. -/
def chipBlocks (a : Nat) : Bool :=
  inBlock 0x20000000 a || inBlock 0x21000000 a || (inBlock 0x22000000 a && a != 0x22000020 && a != 0x22000024) ||
    (inBlock 0x24000000 a && a != 0x24000008 && a != 0x24000048) || inBlock 0x30000000 a || inBlock 0x32000000 a ||
    inBlock 0x35000000 a || inBlock 0x36000000 a

/-- The cause recorded, and COUNT for every source but power-on (R557). -/
def noteCause (s : State) (code : Nat) : State :=
  wr (if code = 0 then s else bump s FLT_RST_CAUSE_COUNT 1) FLT_RST_CAUSE_CAUSE code

/-- A chip reset of the given code (R485, R557): held and then discarded during an orderly power-down (R559), without effect
while the supplies hold the device in reset. A Span port that was UP has gone DOWN (R550; log entry 166). -/
def chipReset (s : State) (code : Nat) : State :=
  if s.boot.down.isSome || !s.boot.released then s
  else
    let spanUp := portUp s 0 || portUp s 1
    let s := raiseCause s 3
    let s := resetDisplayWork (resetWork (resetFabric (flashReset s)))
    let s := resetKeys (resetHost s (code == 1))
    let s := resetRegs (resetPlinth s) chipBlocks
    let s : State := { s with evc := {}, span := {}, flt := { dwdogAt := s.flt.dwdogAt, logHead := s.flt.logHead, wdogAt := s.time },
                              sec := { s.sec with sessions := [], owners := [], sems := [] } }
    let s := noteCause (resetPower s) code
    let s := if spanUp then wr s SPN_EVT_STAT_SPAN_DOWN 1 else s
    setStage (wr s BMC_STAT_HOLD_REASON 0) (if s.boot.perst || s.boot.held then 0 else 1)

/-- PART_RESET_TIMEOUT (R484): a reset not complete 50 ms after its drain ends in a chip reset; the partition's record shows it. -/
def execPartResetTimeout (p : Fin 16) (s : State) : Out :=
  match tfind p.val s.parts with
  | some x =>
    if x.fence = .resetting then
      let s := match tfind (48 + p.val) s.flt.opens with
        | some r => { s with flt := { s.flt with opens := tset (48 + p.val) { r with esc := true } s.flt.opens } }
        | none => s
      .next (chipReset s 2)
    else .next s
  | none => .next s

/-- PERST_N_ASSERT (R557, R558): a chip reset that lasts while the pin is low. -/
def execPerstNAssert (s : State) : Out := .next (chipReset (setBoot s (fun b => { b with perst := true })) 1)

/-- PERST_N_RELEASE (R558): the boot starts, unless the trip holds it (R460) or the supplies do. -/
def execPerstNRelease (s : State) : Out :=
  let s := setBoot s (fun b => { b with perst := false })
  if s.boot.released && s.boot.down.isNone && stage s == 0 && !s.boot.held then .next (setStage s 1) else .next s

/-! ### Supplies (R553-R557) -/

/-- Registers that no reset but power-on changes: the PWR block, FLT_DWDOG, FLT_RST_CAUSE, SEC_DBG_SESS, the BMC registers (R556);
and the fused version, which none changes (R508). -/
def alwaysOn (a : Nat) : Bool :=
  inBlock 0x23000000 a || a == 0x22000020 || a == 0x22000024 || a == 0x24000048 || a == 0x24000008 || decide (a < 0x100)

/-- Every domain but the always-on one at reset (R555, R556): what the dies and the boot flash hold stays, torn where an operation
was running. -/
def domainReset (s : State) : State :=
  let s := tearBootFlash s
  let dies := s.flash.chans.map (fun (e : Nat × Channel) => (e.1, { e.2 with running := none, suspended := none, nested := false, waiting := [] }))
  let slots := s.flash.slots.map (fun (e : Nat × Slot) => (e.1, { e.2 with part := 0xFF }))
  let flash := { s.flash with chans := dies, slots, jobs := [], awaiting := [] }
  let pwr := { s.pwr with phases := [], forecast := 0, excess := 0, above := 0, floorCtl := false, floorLim := false,
                          floorTherm := false, okQuanta := 0, returning := false, hold2 := false }
  let boot : Boot := { flash := s.boot.flash, slot := s.boot.slot, perst := s.boot.perst, i3c := s.boot.i3c, refclk := s.boot.refclk,
                       inited := s.boot.inited, railLost := s.boot.railLost }
  let sec := { s.sec with sessions := [], owners := [], sems := [] }
  { State.reset with
    time := s.time
    quantum := s.quantum
    free := s.free
    host := s.host
    out := s.out
    pending := s.pending
    regs := tdrop (fun k => !alwaysOn (k / 32)) s.regs
    flash
    flt := { dwdogAt := s.flt.dwdogAt, logHead := s.flt.logHead }
    hif := { refclk := s.hif.refclk }
    pwr
    sec
    boot }

/-- The always-on domain at reset (R556). The device time starts at 0 (log entry 118). -/
def alwaysOnReset (s : State) : State :=
  let s := resetRegs s (fun a => alwaysOn a && a != 0x24000008)
  { s with time := 0, quantum := 0, pwr := {}, flt := { s.flt with dwdogAt := 0 },
           boot := { s.boot with i3c := none, inited := false, railLost := false } }

/-- POWER_ON (R556): VDD_AON rises through its good threshold: code 0, and every domain resets. -/
def execPowerOn (s : State) : Out :=
  let s := alwaysOnReset (domainReset s)
  .next (setStage (noteCause (wr s BMC_RAILS_GOOD 8) 0) 0)

/-- Bits of the failed rails added to a mask. -/
def orMask (n : Nat) : Nat → Nat → Nat
  | a, b => ((List.range n).filter (fun i => bit a i || bit b i)).foldl (fun m i => m + 2 ^ i) 0

/-- Bits of `b` taken out of `a`. -/
def andNot (n a b : Nat) : Nat := ((List.range n).filter (fun i => bit a i && !bit b i)).foldl (fun m i => m + 2 ^ i) 0

/-- RAIL_FAIL (R555, R562): every domain but the always-on one enters reset, and that one too when VDD_AON (bit 3) fails. -/
def execRailFail (rails : BitVec 11) (s : State) : Out :=
  let r := rails.toNat
  if r = 0 then .next s
  else
    let good := andNot 11 (rd s BMC_RAILS_GOOD) r
    let s := if s.boot.released then
        let s := wr s BMC_RAILS_LAST_FAIL (orMask 11 (rd s BMC_RAILS_LAST_FAIL) r)
        domainReset (setBoot s (fun b => { b with railLost := true }))
      else s
    let s := if bit r 3 then alwaysOnReset (domainReset s) else s
    .next (setStage (wr s BMC_RAILS_GOOD good) 0)

/-- Reset ends: slot 0 takes a new key (R266), and the boot ROM starts unless PERST_N holds it (R558). -/
def startBoot (s : State) : State :=
  let s := setBoot (resetKeys s) (fun b => { b with released := true })
  setStage (wr s BMC_STAT_HOLD_REASON 0) (if s.boot.perst then 0 else 1)

/-- RESET_RELEASE (R555-R557): all 11 rails have been good for 2 ms; code 5 when another rail than VDD_AON had failed. -/
def execResetRelease (s : State) : Out :=
  if s.boot.released then .next s
  else
    let s := wr s BMC_RAILS_GOOD 0x7FF
    let s := if s.boot.railLost then noteCause (setBoot s (fun b => { b with railLost := false })) 5 else s
    .next (startBoot s)

/-! ### The orderly power-down (R559-R562, R595) -/

/-- The sequence starts (R559, R560): no flash operation starts, no packet is consumed, the clusters are gated and their work is
lost, the transmit ports send the fill colour. -/
def startDown (s : State) (by' : DownBy) : State :=
  if s.boot.down.isSome || !s.boot.released then s
  else
    let s := setStage (setBoot s (fun b => { b with down := some by' })) 6
    let s := if isSet s WFL_CTRL_ENABLE then wr s WFL_STAT_STOPPED 1 else s
    let s := (unitsWhere s (fun _ => true)).foldl stopUnit s
    (List.range 34).foldl (fun s n => if rd s (CLU_STAT_STATE n) = 5 then s else gateCluster s n) s

/-- PWR_FAIL_N_ASSERT (R559): the pin has been low for 1 µs. -/
def execPwrFailNAssert (s : State) : Out := .next (startDown s .pwrFail)

/-- BMC_PWR_DOWN (R559, R578): BMC_CTRL.PWR_DOWN written. -/
def execBmcPwrDown (s : State) : Out := .next (startDown s .bmc)

/-- REFCLK_LOSS (R595): as if PWR_FAIL_N were asserted. -/
def execRefclkLoss (s : State) : Out := .next (startDown (setBoot s (fun b => { b with refclk := false })) .refclk)

/-- POWERED_DOWN_REACHED (R304, R560, R562): programs have completed, erases are aborted, the log head is written (`torn`: it was
cut off), CLOSED is set. -/
def execPoweredDownReached (torn : Bool) (s : State) : Out :=
  if stage s = 6 then .next (setStage (closeFlash (writeLogHead s (!torn))) 7) else .next s

/-- POWERED_DOWN ends with the reset of code 6, by what started the sequence (R557, R561, R595). -/
def endDown (s : State) (by' : DownBy) : State :=
  if stage s = 7 ∧ s.boot.down = some by' ∧ rd s BMC_RAILS_GOOD = 0x7FF then startBoot (noteCause (domainReset s) 6) else s

/-- PWR_FAIL_N_RELEASE (R561): the pin has been high for 10 ms. -/
def execPwrFailNRelease (s : State) : Out := .next (endDown s .pwrFail)

/-- BMC_RESTART (R561): BMC_CTRL.RESTART, ignored in any other stage. -/
def execBmcRestart (s : State) : Out := .next (endDown s .bmc)

/-- REFCLK_RETURN (R595): the clock has run for 10 ms. -/
def execRefclkReturn (s : State) : Out := .next (endDown (setBoot s (fun b => { b with refclk := true })) .refclk)

/-- ENTDAA (R577): the I3C target takes a dynamic address once VDD_AON and VIO_18 are good. -/
def execEntdaa (addr : BitVec 7) (s : State) : Out :=
  if bit (rd s BMC_RAILS_GOOD) 3 && bit (rd s BMC_RAILS_GOOD) 8 then .next (setBoot s (fun b => { b with i3c := some addr.toNat })) else .next s

end Sys2Proof.Machine
end

