-- ==== Sys2Proof/Machine/Boot.lean ====
section
/-!
DEFINITION. Sys2Proof/Machine/Boot.lean: boot flash, boot, Plinth resets, lockstep recovery and the firmware update
(spec/15_faults_hangs_recovery.md R487-R493, spec/18_supplies_reset_boot.md R563-R576).
-/
namespace Sys2Proof.Machine
open Reg

/-! ### BOOT_CTL (R565, R579) -/

/-- Number of the BOOT_CTL copy in force (0 where none is valid). -/
def ctlIndex (s : State) : Nat :=
  match s.boot.flash.ctl0, s.boot.flash.ctl1 with
  | some a, some b => if a.seq < b.seq then 1 else 0
  | none, some _ => 1
  | _, _ => 0

/-- What XSP_STAT and BMC_STAT show of BOOT_CTL. -/
def refreshCtl (s : State) : State :=
  let c := ctlNow s
  wr (wr (wr s XSP_STAT_CTL_COPY (ctlIndex s)) XSP_STAT_TRIAL_PEND (b2n (c.trial != 0xFF))) BMC_STAT_REVERTED (b2n c.reverted)

/-- A copy's content replaced. -/
def putCtl (s : State) (k : Nat) (c : Option BootCtl) : State :=
  setBoot s (fun b => { b with flash := if k = 0 then { b.flash with ctl0 := c } else { b.flash with ctl1 := c } })

/-- BOOT_CTL written: the copy not in force, with SEQ + 1 (R565); the flash reports its end later. -/
def writeCtl (s : State) (c : BootCtl) : State :=
  let k := 1 - ctlIndex s
  let s := putCtl s k (some { c with seq := (ctlNow s).seq + 1 })
  refreshCtl (wr (setBoot s (fun b => { b with ctlWrite := some k })) XSP_STAT_BUSY 1)

/-- A slot's image. -/
def slotImage (s : State) (k : Nat) : Option FwImage := if k = 0 then s.boot.flash.slotA else s.boot.flash.slotB

def putSlot (s : State) (k : Nat) (i : Option FwImage) : State :=
  setBoot s (fun b => { b with flash := if k = 0 then { b.flash with slotA := i } else { b.flash with slotB := i } })

/-- Largest IMAGE_LEN: 1.75 MiB (R566). -/
def maxImage : Nat := 1835008

/-- Does a firmware key's signature hold: its digest is fused, its fuse intact, the signature verifies (R506)? -/
def keyHolds (s : State) (i : FwImage) : Bool :=
  decide (i.keyIdx < 4) && i.keyOk && !bit (rd s SEC_BOOT_FWKEY_REV) i.keyIdx && i.sigOk

/-- Does the boot ROM accept an image (R506, R566)? -/
def imageOk (s : State) (i : FwImage) : Bool :=
  i.magicOk && decide (i.imageLen ≤ maxImage) && keyHolds s i && decide (rd s SEC_BOOT_FUSED_SVN ≤ i.svn)

/-- A slot the ROM accepts. -/
def goodSlot (s : State) (k : Nat) : Option FwImage :=
  match slotImage s k with
  | some i => if imageOk s i then some i else none
  | none => none

/-- Plinth SRAM as it stands when an image has been loaded: nothing a debugger or the firmware has written since (R568). -/
def dropSram (s : State) : State :=
  { s with mem := tdrop (fun a => decide (0x10000000 ≤ a) && decide (a < 0x10200000)) s.mem }

/-- The ROM writes the measurements, loads the image and starts it (R507, R568). -/
def startImage (s : State) (k : Nat) (i : FwImage) : State :=
  wr (setBoot (dropSram s) (fun b => { b with image := some i, slot := k, fwDigest := i.digest, boardDigest := i.boardDigest })) XSP_STAT_BOOT_SLOT k

/-- The boot stops in HOLD (R568, R569). -/
def holdBoot (s : State) (reason : Nat) : State :=
  setBoot (setStage (wr s BMC_STAT_HOLD_REASON reason) 5) (fun b => { b with pln := .stopped })

/-- The ROM boots ACTIVE; where it refuses that image it boots the other slot, and it holds where it refuses both (R568 steps 2 and
3). `go`: what follows the start of an image. -/
def bootActive (s : State) (go : State → State) : State :=
  let c := ctlNow s
  match goodSlot s c.active with
  | some i => go (startImage s c.active i)
  | none =>
    let k := 1 - c.active
    match goodSlot s k with
    | some i => go (startImage (writeCtl s { c with active := k, trial := 0xFF, reverted := true, activeVer := i.version }) k i)
    | none => holdBoot s 2

/-! ### The Plinth reset (R305, R492) -/

/-- Is a partition one that had a step, frame or command in progress (R492, R502)? -/
def hadWork (s : State) (p : Nat) : Bool :=
  s.units.any (fun e => e.2.part == p) || s.hif.cmds.any (fun c => c.part == p) ||
    s.cam.any (fun e => e.2.frames.any (fun f => f.bind.part == p && f.stage == .working)) ||
    s.srv.batches.any (fun e => e.2.part == p && e.2.running) ||
    (match tfind p s.parts with | some x => x.fence == .resetting || x.fence == .draining || x.hung | none => false)

/-- The Plinth resets (R305, R467, R492): windows stale, CONFIRMED 0, phase table and staging lost; the flash controller resets
itself when its operations are complete. -/
def plinthReset (s : State) (pln : Plinth) : State :=
  let s := dropSram (wr (wr s FLT_EVT_STAT_PLN_RESET 1) FLT_WDOG_CTRL_CONFIRMED 0)
  let s := (List.range (s.hif.numVfs + 1)).foldl (fun s f => setStale s f true) s
  let s := flashReset (setPwr s (fun x => { x with phases := [] }))
  let work := ((s.parts.map Prod.fst).filter (fun p => hadWork s p))
  let s : State := { s with flt := { s.flt with wdogAt := s.time, inProgress := work, pairA := { s.flt.pairA with kicked := false },
                                                pairB := { s.flt.pairB with kicked := false } } }
  setStage (setBoot (wr s XSP_STAT_STAGED 0) (fun b => { b with pln, staged := none })) 1

/-- The hold-up registers from the board record, and the journal finalised (R305, R306, R318). -/
def flashRestart (s : State) : State :=
  let s := match s.boot.image with
    | some i => wr (wr (wr (wr s WFL_HOLDUP_CFG_CAP i.board.cap) WFL_HOLDUP_CFG_DIV i.board.div) WFL_HOLDUP_CFG_VMIN i.board.vmin)
        WFL_HOLDUP_EXT_E_BOARD i.board.eBoard
    | none => s
  readyFlash (refreshThr s)

/-- The slot an image ran in shows in every window (R425). -/
def showSlot (s : State) : State := (List.range 16).foldl (fun s f => wr s (HIF_STAT_FW_SLOT f) s.boot.slot) s

/-- A partition reset without a drain (R492); one being destroyed is destroyed (R502). -/
def resetAtOnce (s : State) (p : Nat) : State :=
  match tfind p s.parts with
  | none => s
  | some x =>
    if x.destroying then finishDestroy s p x.noRecords
    else startReset (endCommands (if x.fence = .none then raiseFence s p false else s) p) p

/-- The packets of a firmware update that a Plinth reset ended complete with INTERNAL (R576). -/
def endUpdate (s : State) : State :=
  let s := finishOpt s s.boot.activate 0x7F {}
  let s := finishOpt s (s.boot.staging.map (·.cmd)) 0x7F {}
  setBoot s (fun b => { b with activate := none, staging := none, stopped := false })

/-- The restarted firmware is in service: the flash is ready, windows show the slot, the stage is RUNNING; the pairs take the signals
held for them (R439). -/
def inService (s : State) : State :=
  wakePair (wakePair (setStage (setBoot (showSlot (flashRestart s)) (fun b => { b with pln := .up })) 3) false) true

/-! ### The handoff block (R575) -/

/-- The header as it stands at the base of the Plinth's T2 granules; sections, their number, length and digest are not stated in
bytes, and are free. -/
def putHandoff (s : State) (h : Handoff) : State :=
  let a := fresh s
  let b := fresh a.2
  let c := fresh b.2
  let bytes := leBytes 4 0x484F5A56 ++ [h.hoVer % 256, b2n h.replay + 2 * b2n h.consumed] ++ leBytes 2 a.1 ++ leBytes 4 h.fromVer ++
    leBytes 4 h.toVer ++ leBytes 8 h.time ++ leBytes 8 b.1 ++ leBytes 48 c.1 ++ List.replicate 48 0
  let s := (bytes.zipIdx).foldl (fun s e => devWb s (t2Base + e.2) (BitVec.ofNat 8 e.1)) c.2
  setBoot s (fun x => { x with handoff := some h })

/-- FLAGS of the header changed where it stands. -/
def flagHandoff (s : State) (f : Handoff → Handoff) : State :=
  match s.boot.handoff with
  | none => s
  | some h =>
    let h := f h
    devWb (setBoot s (fun x => { x with handoff := some h })) (t2Base + 5) (BitVec.ofNat 8 (b2n h.replay + 2 * b2n h.consumed))

/-! ### Firmware update (R570-R574) -/

/-- The first failing check of FW_STAGE (R570). -/
def stageFailure (s : State) (len slot : Nat) (i : FwImage) : Option Nat :=
  if (ctlNow s).trial ≠ 0xFF ∨ s.boot.staging.isSome = true ∨ s.boot.activate.isSome = true then some 0x21
  else if 1 < slot ∨ slot = s.boot.slot then some 0x21
  else if len ≠ i.imageLen ∨ i.magicOk = false ∨ maxImage < i.imageLen then some 0x22
  else if keyHolds s i = false then some 0x40
  else
    let ho := match s.boot.image with | some r => r.hoVer | none => 0
    if i.svn < rd s SEC_BOOT_FUSED_SVN ∨ ho < i.hoMin ∨ i.hoMax < ho then some 0x21 else none

/-- FW_STAGE's effect: the checked image is written into the slot, which ends with BOOT_FLASH_OP_DONE. -/
def stageAct (len slot : Nat) (i : FwImage) (c : Cmd) (s : State) : State :=
  let k := if slot = 0xFF then 1 - s.boot.slot else slot
  match stageFailure s len k i with
  | some st => complete s c st {}
  | none =>
    wr (wr (setBoot (putSlot s k none) (fun b => { b with staging := some ⟨c, k, i⟩, staged := none })) XSP_STAT_BUSY 1) XSP_STAT_STAGED 0

/-- FW_STAGE (R570). -/
def execFwStage (h : Pkt) (len : BitVec 32) (slot : Fin 256) (image : FwImage) (s : State) : Out :=
  .next (withPkt s h 0x7C 0 .any true (stageAct len.toNat slot image))

/-- BOOT_FLASH_OP_DONE (R565, R570, R579): a BOOT_CTL write or the writing of a slot has ended; `same`: the slot read back has the
checked copy's SHA-384. -/
def execBootFlashOpDone (ok same : Bool) (s : State) : Out :=
  match s.boot.ctlWrite with
  | some k =>
    let s := wr (setBoot s (fun b => { b with ctlWrite := none })) XSP_STAT_BUSY (b2n s.boot.staging.isSome)
    if ok then .next s else .next (refreshCtl (putCtl (wr s XSP_EVT_STAT_WRITE_ERR 1) k none))
  | none =>
    match s.boot.staging with
    | none => .next s
    | some g =>
      let s := wr (setBoot s (fun b => { b with staging := none })) XSP_STAT_BUSY 0
      if !ok then .next (finish (wr s XSP_EVT_STAT_WRITE_ERR 1) g.cmd 0x7F {})
      else if !same then .next (finish s g.cmd 0x41 {})
      else
        let s := setBoot (putSlot s g.slot (some g.image)) (fun b => { b with staged := some g.slot })
        .next (finish (wr (wr s XSP_STAT_STAGED 1) XSP_EVT_STAT_STAGE_DONE 1) g.cmd 0 { r2 := g.image.version })

/-- FW_ACTIVATE's effect (R571): from the next quantum boundary the Plinth stops. -/
def activateAct (c : Cmd) (s : State) : State :=
  if s.boot.staged.isNone ∨ s.boot.activate.isSome = true ∨ s.flash.jobs ≠ [] ∨ s.parts.any (fun e => e.2.cast.isSome) = true then
    complete s c 0x21 {}
  else setBoot s (fun b => { b with activate := some c })

/-- FW_ACTIVATE (R571). -/
def execFwActivate (h : Pkt) (s : State) : Out := .next (withPkt s h 0x7D 0 .any true activateAct)

/-- ACTIVATION_RESTART (R571): with the work units ended, the handoff block and BOOT_CTL are written and the Plinth resets. -/
def execActivationRestart (s : State) : Out :=
  match s.boot.staged, s.boot.image with
  | some k, some i =>
    if s.boot.pln = .up ∧ s.boot.activate.isSome = true ∧ s.boot.stopped = true ∧ s.boot.down.isNone = true ∧
        s.units.any (fun e => unitRunning s e.2 && e.2.kind != .armature) = false then
      let to' := match slotImage s k with | some j => j.version | none => 0
      let s := putHandoff s { hoVer := i.hoVer, replay := false, consumed := false, fromVer := i.version, toVer := to', time := s.time }
      .next (plinthReset (writeCtl s { ctlNow s with trial := k }) .restart)
    else .next s
  | _, _ => .next s

/-- A reversion (R574): the ROM boots ACTIVE, BOOT_CTL shows REVERTED, the block shows REPLAY. -/
def revert (s : State) : State :=
  let c := ctlNow s
  let s := wr (writeCtl s { c with trial := 0xFF, reverted := true }) XSP_EVT_STAT_REVERTED 1
  bootActive (plinthReset (flagHandoff s (fun h => { h with replay := true })) .old) id

/-- The trial image confirms itself, in the order of R573: BOOT_CTL, CONFIRM, the handoff block, FW_ACTIVATE and its event. -/
def trialConfirm (s : State) : State :=
  match s.boot.image with
  | some i =>
    if isSet s FLT_WDOG_CTRL_CONFIRMED then s
    else
      let s := writeCtl s { ctlNow s with active := s.boot.slot, trial := 0xFF, reverted := false, activeVer := i.version }
      let s := wr s FLT_WDOG_CTRL_CONFIRMED 1
      let s := if i.raiseSvn ∧ rd s SEC_BOOT_FUSED_SVN < i.svn then wr s SEC_BOOT_FUSED_SVN i.svn else s
      let s := inService (flagHandoff s (fun h => { h with consumed := true }))
      let cmd := s.boot.activate
      let s := setBoot (wr s XSP_EVT_STAT_CONFIRMED 1) (fun b => { b with activate := none, stopped := false })
      event (finishOpt s cmd 0 { r2 := i.version }) 0 4 0xFF 0
  | none => s

/-- TRIAL_CONFIRM (R573): the trial image that has accepted the handoff block confirms itself. -/
def execTrialConfirm (accepted : Bool) (s : State) : Out :=
  if s.boot.pln = .trial ∧ accepted = true then .next (trialConfirm s) else .next s

/-- FLT_WDOG_CTRL.CONFIRM written (R492, R493, R574): after the watchdog's reset the partitions that had work are reset; after a
reversion the old image goes on from the handoff block. -/
def confirm (s : State) : State :=
  match s.boot.pln with
  | .wdog =>
    let s := wr s FLT_WDOG_CTRL_CONFIRMED 1
    let l := s.flt.inProgress ++ ((s.parts.map Prod.fst).filter (fun p => !s.flt.inProgress.contains p && hadWork s p))
    let s := endUpdate (inService s)
    l.foldl resetAtOnce { s with flt := { s.flt with inProgress := [] } }
  | .old => event (endUpdate (inService (wr s FLT_WDOG_CTRL_CONFIRMED 1))) 0 4 0xFF 1
  | .trial => trialConfirm s
  | .up | .restart | .stopped => wr s FLT_WDOG_CTRL_CONFIRMED 1

/-- WDOG_CONFIRM (R492). -/
def execWdogConfirm (s : State) : Out := .next (confirm s)

/-- TRIAL_TIMEOUT (R572, R574): 2 s without CONFIRM; the power-down discards it (R559). -/
def execTrialTimeout (s : State) : Out :=
  if (s.boot.pln = .trial ∨ s.boot.pln = .restart) ∧ !isSet s FLT_WDOG_CTRL_CONFIRMED ∧ s.boot.down.isNone = true then .next (revert s)
  else .next s

/-! ### Watchdog and lockstep (R487, R491-R493) -/

/-- PLINTH_WDOG_EXPIRY (R491-R493, R574, R576): a Plinth reset; a second expiry before CONFIRM a chip reset; during a trial a
reversion. Nothing expires while the count pauses, or before the boot has confirmed itself. -/
def execPlinthWdogExpiry (s : State) : Out :=
  if timersPause s || s.boot.down.isSome then .next s
  else
    match s.boot.pln with
    | .stopped => .next s
    | .up => .next (plinthReset s .wdog)
    | .wdog | .old => .next (chipReset s 3)
    | .trial | .restart => .next (revert s)

/-- CONFIRM_TIMEOUT (R493): CONFIRM is not written within 2 s of the Plinth reset. -/
def execConfirmTimeout (s : State) : Out :=
  match s.boot.pln with
  | .wdog | .old => .next (chipReset s 3)
  | _ => .next s

/-- Is a pair in service: CHECKED, UNCHECKED or halted? -/
def inServicePair (s : State) (b : Bool) : Bool := pairState s b == 0 || pairState s b == 1 || pairState s b == 4

/-- LOCKSTEP_MISMATCH (R487, R502): the pair stops; its third mismatch within 24 h makes it OFFLINE; with the other pair OFFLINE the
chip resets, with the other pair RESTARTING the duties wait for it. A halted pair's comparator holds (R526). -/
def execLockstepMismatch (b : Bool) (s : State) : Out :=
  if 2 ≤ pairState s b then .next s
  else
    let l := recentMism s { pairOf s b with mism := (pairOf s b).mism ++ [s.time] }
    let s := setPair s b { pairOf s b with mism := l, passes := 0 }
    let s := wr (wr s (if b then FLT_LOCKSTEP_MISM_B else FLT_LOCKSTEP_MISM_A) (min 15 l.length)) FLT_EVT_STAT_MISMATCH 1
    let s := report s (if b then 45 else 44) clsDevice 0 0xFF 0xFF 0
    let s := setPairState s b (if 3 ≤ l.length then 3 else 2)
    if pairState s (!b) = 3 then .next (chipReset s 4) else .next s

/-- PAIR_RESTART_DONE (R487, R502): a pair that passes its self-test returns to service; one that fails stays OFFLINE, and when no
pair is in service then, the chip resets. -/
def execPairRestartDone (b passed : Bool) (s : State) : Out :=
  if pairState s b = 2 then
    if passed then .next (setPairState s b 0)
    else
      let s := setPairState s b 3
      if inServicePair s (!b) then .next s else .next (chipReset s 4)
  else .next s

/-! ### Boot (R563, R568, R569) -/

/-- The ROM sets up the boot flash (R563, R565). -/
def setupFlash (s : State) : State :=
  let s := if s.boot.flash.octal then wr s XSP_STAT_MODE 1 else wr (wr s XSP_STAT_MODE 2) XSP_EVT_STAT_FALLBACK_QUAD 1
  let s := if s.boot.flash.ctl0.isNone || s.boot.flash.ctl1.isNone then wr s XSP_EVT_STAT_CTL_REPAIRED 1 else s
  refreshCtl (wr s XSP_STAT_READY 1)

/-- The ROM's choice on a boot that is no activation restart (R568 steps 2 and 3). -/
def romChoice (s : State) : State :=
  let c := ctlNow s
  let s := if c.trial ≠ 0xFF then
      setBoot (wr (writeCtl s { c with trial := 0xFF, reverted := true }) XSP_EVT_STAT_REVERTED 1) (fun b => { b with revertEvent := true })
    else s
  bootActive s (setStage · 2)

/-- BOOT_ROM (R568): `board`: what the board has programmed into the boot flash during the reset (R558); `selftest`: the island's
self-test passes. -/
def execBootRom (board : Option BootFlash) (selftest : Bool) (s : State) : Out :=
  if stage s ≠ 1 then .next s
  else
    match s.boot.pln with
    | .stopped =>
      let s := match board with
        | some f => setBoot s (fun b => { b with flash := f })
        | none => s
      if selftest then .next (romChoice (setupFlash (wr (wr s SEC_STAT_READY 1) SEC_STAT_SLOT0_OK 1)))
      else .next (holdBoot s 1)
    | .restart =>
      if selftest then
        let k := (ctlNow s).trial
        match goodSlot s k with
        | some i => .next (setStage (setBoot (startImage s k i) (fun b => { b with pln := .trial })) 4)
        | none => .next (revert s)
      else .next (holdBoot s 1)
    | _ => .next s

/-- Does the board record pass R567? -/
def boardOk (b : BoardRec) : Bool :=
  b.ok && b.ver == 1 && decide (b.dramType ≤ 1) && decide (b.dramDens ≤ 1) && decide (b.dramRanks ≤ 1) &&
    decide (b.dramRate < 16) && memCfgOk (b.dramRate * 2 ^ 20 + b.dramRanks * 2 ^ 18 + b.dramDens * 2 ^ 17 + b.dramType * 2 ^ 16) &&
    (b.p0Clusters == 0 || (decide (4 ≤ b.p0Clusters) && decide (b.p0Clusters ≤ 12))) && decide (b.maxOp ≤ 6) &&
    b.p0Q2 % 2097152 == 0 && b.p0Q3 % 16777216 == 0 && decide (60 ≤ b.limit) && decide (b.limit ≤ 300) && decide (b.vreg < 4)

/-- DRAM trained from the board record; on a chip reset it is trained already (R263, R569). -/
def bootDram (s : State) (b : BoardRec) (trained : Nat) : State :=
  if isSet s MEM_STAT_READY then s
  else trainDone (memCfgWrite s (b.dramRate * 2 ^ 20 + b.dramRanks * 2 ^ 18 + b.dramDens * 2 ^ 17 + b.dramType * 2 ^ 16 + 1)) trained

/-- The Plinth's granules 0-127 (R249). -/
def plinthGranules (s : State) : State := (List.range 128).foldl (fun s g => setGran s g (2 ^ 15 + 2 ^ 13)) s

/-- The newest PATINA record in force (R463). -/
def newestPatina (s : State) : Option (List Nat) :=
  s.flash.records.reverse.findSome? (fun r => match r.body with | .patina l => if inForce r then some l else none | _ => none)

/-- The newest cluster-map record in force (R18). -/
def newestMap (s : State) : Nat :=
  (s.flash.records.reverse.findSome? (fun r => match r.body with | .clusterMap m => if inForce r then some m else none | _ => none)).getD 0

/-- Trims loaded from the newest PATINA record; the hours of operation at power-on (R463, R569). -/
def loadTrims (s : State) : State :=
  match newestPatina s with
  | none => s
  | some l =>
    let s := (List.range 7).foldl (fun s k => wr s (trimField k) (l.getD k 0)) s
    let s := wr s PWR_TRIM_HI_OP6_OFF (l.getD 7 0)
    if s.boot.inited then s
    else setPwr s (fun x => { x with hours := l.getD 8 0, hoursAt := s.time,
                                     lowerAt := (List.range 7).map (fun k => (k, l.getD (9 + k) 0)) })

/-- Retirements applied, and the clusters whose self-test fails retired (R16, R18). -/
def bootClusters (s : State) (failed : List Nat) : State :=
  let m := newestMap s
  let s := (List.range 34).foldl (fun s n => if bit m n then wr (wr s (CLU_STAT_STATE n) 5) (CLU_CTRL_RETIRE n) 1 else s) s
  failed.foldl (fun s n => retireCluster s n 0) s

/-- One logical number mapped (R16): to the next unused good cluster of its half, else of the other. -/
def mapNext (acc : List Nat × List Nat × State) (l : Nat) : List Nat × List Nat × State :=
  let put := fun (n : Nat) (s : State) => wr (wr s (CLU_MAP_MAPPED n) 1) (CLU_MAP_LOGICAL n) l
  let north := decide (l < 16)
  match (if north then acc.1 else acc.2.1), (if north then acc.2.1 else acc.1) with
  | n :: t, o => if north then (t, o, put n acc.2.2) else (o, t, put n acc.2.2)
  | [], n :: t => if north then ([], t, put n acc.2.2) else (t, [], put n acc.2.2)
  | [], [] => acc

/-- R16's map of logical numbers to good clusters. -/
def mapClusters (s : State) : State :=
  let good := fun (n : Nat) => rd s (CLU_STAT_STATE n) != 5
  ((List.range 32).foldl mapNext ((List.range 17).filter good, ((List.range 17).map (· + 17)).filter good, s)).2.2

/-- A cluster of P0 is on and IDLE (R27). -/
def readyCluster (s : State) (l : Nat) : State :=
  match physOf s l with
  | some n => setClu (wr (wr (wr s (CLU_CTRL_POWER n) 1) (CLU_STAT_STATE n) 2) (CLU_MAP_PART n) 0) n { clu s n with powerGood := true }
  | none => s

/-- P0 created (R345): its clusters, its quotas, key slot 0, its granules zero-filled. -/
def createP0 (s : State) (b : BoardRec) : State :=
  let l := (unassigned s).take (if b.p0Clusters = 0 then 8 else b.p0Clusters)
  let g := (freeGrans s).take (quotaGrans b.p0Q2)
  let x : Part := { owner := 0, logical := l, clSet := l.length, keySlot := 0, quota := ⟨b.p0Q2, 0, b.p0Q3, 0, []⟩,
                    ringFirst := Config.p0RingFirst % 1024, ringCount := Config.p0RingCount % 1025, minRate := 0 }
  let s := l.foldl readyCluster { s with parts := tset 0 x s.parts }
  g.foldl (fun s n => zeroGranule (setGran s n (2 ^ 15)) n) s

/-- The last boot's log head, if its CRC passes, for the host (R501). -/
def takeLogHead (s : State) : State :=
  let prev := match s.flt.logHead with
    | some h => if h.valid then h.recs.map (fun r => { r with prevBoot := true }) else []
    | none => []
  { s with flt := { s.flt with prev, logHead := none } }

/-- The power limits of the board record, once after the always-on domain's reset (R467, R567). -/
def bootLimits (s : State) (b : BoardRec) : State :=
  if s.boot.inited then s
  else
    let s := wr (wr s PWR_LIMIT_LIMIT b.limit) PWR_LIMIT_MAX_OP b.maxOp
    setBoot (setPwr s (fun x => { x with limit := b.limit, maxOp := b.maxOp })) (fun b => { b with inited := true })

/-- The alarm that names a reset's cause (R485); its code is not stated, and is free. -/
def causeAlarm (s : State) : State :=
  if rd s FLT_RST_CAUSE_CAUSE = 0 then s
  else
    let c := fresh s
    logAlarm c.2 (c.1 % 65536) 0xFFFFFFFF 0xFF .none

/-- FIRMWARE_INIT step 5 (R569): P0, the event and power controllers, CONFIRM, the device watchdog, READY. -/
def bootService (s : State) (b : BoardRec) : State :=
  let s := createP0 s b
  let s := wr (wr (wr s EVC_CTRL_ENABLE 1) PWR_CTRL_CTRL_EN 1) FLT_WDOG_CTRL_CONFIRMED 1
  let s : State := { s with flt := { s.flt with dwdogAt := s.time, wdogAt := s.time } }
  let s := setReady (setStage (setBoot (showSlot s) (fun b => { b with pln := .up })) 3) 0 true
  if s.boot.revertEvent then setBoot (event s 0 4 0xFF 1) (fun b => { b with revertEvent := false }) else s

/-- FIRMWARE_INIT (R569): `trained`: the channels that train; `failed`: clusters that fail their self-test; `replayOk`: the replay
can write its records. -/
def execFirmwareInit (trained : BitVec 16) (failed : List (Fin 34)) (replayOk : Bool) (s : State) : Out :=
  match s.boot.image with
  | none => .next s
  | some i =>
    if stage s ≠ 2 ∨ s.boot.pln ≠ .stopped then .next s
    else if !boardOk i.board then .next (holdBoot s 4)
    else
      let s := bootDram s i.board trained.toNat
      if !isSet s MEM_STAT_READY then .next (holdBoot s 3)
      else if !replayOk then .next (holdBoot s 5)
      else
        let s := causeAlarm (takeLogHead (flashRestart (plinthGranules s)))
        let s := mapClusters (bootClusters (loadTrims s) (failed.map (·.val)))
        .next (bootService (bootLimits s i.board) i.board)

end Sys2Proof.Machine
end

