-- ==== Sys2Proof/Machine/Access.lean ====
section
/-!
DEFINITION. Sys2Proof/Machine/Access.lean: writes of registers by their access codes (spec/00 R10, R11), and debug accesses to the
internal address space: sessions, touches, the address map (spec/16_security_attestation_debug.md R519-R528, R601, R602).
-/
namespace Sys2Proof.Machine
open Reg

/-! ### Halting (R526, R528) -/

/-- A pair halts (R526): the hold timers count up to now, its cores lose their reservations, and the state shown is HALTED. A pair out
of service is left as it is. -/
def haltPair (s : State) (b : Bool) : State :=
  let st := pairState s b
  if 2 ≤ st then s
  else
    let s := settleTimers s
    let s := setPair s b { pairOf s b with before := st, resv := [] }
    setPairState (wr s (if b then PLN_DBGCTL_HALTED_B else PLN_DBGCTL_HALTED_A) 1) b 4

/-- A halted pair resumes; a session that waits to close may close (R524, R526). -/
def resumePair (s : State) (b : Bool) : State :=
  if pairState s b = 4 then
    let s := wr (settleTimers s) (if b then PLN_DBGCTL_HALTED_B else PLN_DBGCTL_HALTED_A) 0
    settleSession (setPairState s b (pairOf s b).before)
  else s

/-- A partition marked touched in SEC_DBG_TOUCH (R525); 0xFF names none. -/
def touchPart (s : State) (p : Nat) : State :=
  if p < 16 then wr s SEC_DBG_TOUCH_PART (setBit (rd s SEC_DBG_TOUCH_PART) p) else s

/-- A thread halts (R528): only one that is READY or in a WAIT state; its partition is touched, its unit does not age in this
quantum (R478). -/
def haltThread (s : State) (k : Nat) : State :=
  let st := thrState s k
  if 1 ≤ st ∧ st ≤ 5 then
    let t := thr s k
    let s := wr (setThr s k { t with resume := st }) (thrField k) 7
    let units := match t.unit with
      | some u => s.units.map (fun (e : Nat × WorkUnit) => if e.1 = u then (e.1, { e.2 with exempt := true }) else e)
      | none => s.units
    touchPart { s with units } (cluPart s (k / 512))
  else s

/-- A halted thread returns to the state it left, or to the one it has reached meanwhile (R528). -/
def resumeThread (s : State) (k : Nat) : State :=
  if thrState s k = 7 then wr (setThr s k { thr s k with resume := 0 }) (thrField k) (thr s k).resume else s

/-- PLN_THR_HALT with GO (R528): the threads of `mask` of one core; a cluster that is not mapped is ignored. -/
def thrHalt (s : State) (cl c mask : Nat) (resume : Bool) : State :=
  let s := wr (wr (wr (wr s PLN_THR_HALT_OP (b2n resume)) PLN_THR_HALT_PHYS cl) PLN_THR_HALT_CORE c) PLN_THR_HALT_THREADS mask
  if 34 ≤ cl ∨ !isSet s (CLU_MAP_MAPPED cl) then s
  else
    let l := ((List.range 8).filter (fun i => bit mask i)).map (fun i => coreNo cl c * 8 + i)
    if resume then settleSession (l.foldl resumeThread s) else l.foldl haltThread s

/-! ### Semaphores (R527): reader 0 pair A, 1 pair B, 2 the debugger -/

/-- A normal read of PLN_SEM_n: a free semaphore is acquired, a held one is not changed. -/
def semRead (s : State) (n who : Nat) : State × Nat :=
  let addr := 0x20000200 + 4 * n
  if isSet s (PLN_SEM_HELD n) then (s, wordView s addr)
  else
    let s := wr (wr { s with sec := { s.sec with sems := tset n (0, s.time) s.sec.sems } } (PLN_SEM_HELD n) 1) (PLN_SEM_OWNER n) who
    (s, wordView s addr + 2 ^ 31)

/-- RELEASE written: from the owner only. -/
def semFree (s : State) (n who : Nat) : State :=
  if isSet s (PLN_SEM_HELD n) && rd s (PLN_SEM_OWNER n) == who then freeSem s n else s

/-! ### Register writes (R10, R11) -/

/-- A written field by its access code: `rw` takes the value, `w1c` clears and `w1s` sets where a 1 is written, the others
ignore the write. -/
def fieldWrite (v : Nat) (s : State) (f : RegField) : State :=
  let x := bits v f.lo f.width
  match f.acc with
  | .rw => wr s f x
  | .w1c => wr s f (andNot f.width (rd s f) x)
  | .w1s => wr s f (orMask f.width (rd s f) x)
  | .ro | .wo | .rc => s

/-- A write whose fields do what their access codes say and no more; reserved bits ignore it. -/
def plainWrite (s : State) (addr v : Nat) : State := (fieldsAt addr).foldl (fieldWrite v) s

/-- CLU_CTRL_n (R27, R51). -/
def cluCtrlWrite (s : State) (n v : Nat) : State :=
  let s := if bits v 0 1 = rd s (CLU_CTRL_POWER n) then s else cluPower s n (bit v 0)
  let s := if bit v 1 then cluInit s n else s
  let s := if bit v 2 then cluQuiesce s n else s
  if bit v 3 then retireCluster s n 0 else s

/-- A register of a cluster's CLU block (R49). -/
def cluWrite (s : State) (n o v : Nat) : State :=
  if o = 4 then cluMapWrite s n v
  else if o = 8 then cluCtrlWrite s n v
  else plainWrite s (0x40000000 + n * 0x1000000 + o) v

/-- DSP_CTRL (R156, R161, R183, R186). -/
def dspCtrlWrite (s : State) (v : Nat) : State :=
  let s := if bit v 3 then wr s DSP_CTRL_RETRY_NOW 1 else s
  let s := wr s DSP_CTRL_AUTO_RETRY (bits v 16 8)
  let d := s.dsp
  let s := applyMode s { neural := bit v 1, force := bit v 2, swap := false, p := d.p, q := d.q, phi0 := d.phi0 }
  refreshSource (checkArmature (dspEnable s (bit v 0)))

/-- WFL_CTRL (R304, R306). -/
def wflCtrlWrite (s : State) (v : Nat) : State :=
  let s := wr s WFL_CTRL_PATROL_EN (bits v 2 1)
  let s := if bit v 0 then enableFlash s else wr s WFL_CTRL_ENABLE 0
  if bit v 1 then stopFlash s else s

/-- A register of the EVC block (R428-R436). -/
def evcWrite (s : State) (addr v : Nat) : State :=
  if addr = 0x21000008 then
    if bit v 31 then resetRegs s (fun a => decide (0x21001000 ≤ a) && decide (a < 0x21001800)) else wr s (evCnt (bits v 0 11)) 0
  else if addr = 0x2100000C then
    let src := bits v 0 11
    if src < 1536 then wr s EVC_STAT_SW_REJ 1 else senseAt (senseAt s src true) src false
  else if 0x21002000 ≤ addr ∧ addr < 0x21004000 then routeWrite s ((addr - 0x21002000) / 4) v
  else
    let l := evcAffected addr
    let t := plainWrite s addr v
    deliverNew s l (l.foldl (fun t src => if levelHolds t src then setPend t src else t) t)

/-- A register of the PWR block (R449, R468, R469). -/
def pwrWrite (s : State) (addr v : Nat) : State :=
  if 0x23000040 ≤ addr ∧ addr < 0x23000080 then
    let n := (addr - 0x23000040) / 4
    if n = 0 ∧ isSet s DSP_STAT_LINE_LOCKED then s
    else
      let s := wr s (PWR_RATE_RATE n) (bits v 0 7)
      if rd s PWR_HWLIM_STAT_STAGE = 0 then wr s (PWR_RATE_HW_RATE n) (effRate s n) else s
  else if addr = 0x23000020 then
    let off := isSet s PWR_TRIM_HI_OP6_OFF || bit v 31
    wr (plainWrite s addr v) PWR_TRIM_HI_OP6_OFF (b2n off)
  else plainWrite s addr v

/-- A register of the FLT block (R476, R491-R494, R503). -/
def fltWrite (s : State) (addr v : Nat) : State :=
  if addr = 0x22000008 then
    let t := wr s FLT_REC_PTR_TAIL (bits v 0 8)
    if rd t FLT_REC_PTR_TAIL = rd s FLT_REC_PTR_TAIL then t else wr t FLT_REC_PTR_FULL 0
  else if addr = 0x2200001C then
    let s := if bit v 0 then wdogKick s false else s
    let s := if bit v 1 then wdogKick s true else s
    if bit v 2 then confirm s else s
  else if addr = 0x22000020 then
    let s := wr s FLT_DWDOG_TIMEOUT (bits v 0 8)
    let s := if bit v 8 then dwdogKick s else s
    if bit v 9 then dwdogClr s else s
  else plainWrite s addr v

/-- PLN_DBGCTL (R526): halts before resumes. -/
def dbgCtlWrite (s : State) (v : Nat) : State :=
  let s := wr (settleTimers s) PLN_DBGCTL_WDOG_RUN (bits v 8 1)
  let s := if bit v 0 then haltPair s false else s
  let s := if bit v 1 then haltPair s true else s
  let s := if bit v 2 then resumePair s false else s
  if bit v 3 then resumePair s true else s

/-- A register of the PLN block (R526-R528), written by `who` as in R527. -/
def plnWrite (s : State) (addr v who : Nat) : State :=
  if addr = 0x20000100 then dbgCtlWrite s v
  else if addr = 0x20000108 then
    if bit v 31 then thrHalt s (bits v 24 6) (bits v 18 6) (bits v 0 8) (bit v 30) else plainWrite s addr v
  else if 0x20000200 ≤ addr ∧ addr < 0x20000280 then
    if bit v 0 then semFree s ((addr - 0x20000200) / 4) who else s
  else plainWrite s addr v

/-- A register of the SEC block (R524, R530): END stays 1 until the open session has closed. -/
def secWrite (s : State) (addr v : Nat) : State :=
  if addr = 0x24000044 then
    if bit v 0 && isSet s SEC_DBG_STAT_ACTIVE then settleSession (wr s SEC_DBG_CTRL_END 1) else s
  else plainWrite s addr v

/-- A register of the blocks from the camera to the span link. -/
def ioWrite (s : State) (addr v : Nat) : State :=
  if addr = 0x31000000 then dspCtrlWrite s v
  else if addr = 0x33000000 then memCfgWrite s v
  else if addr = 0x33000034 then gtabWrite s v
  else if addr = 0x34000000 then wflCtrlWrite s v
  else if addr = 0x3400000C ∨ addr = 0x34000010 then refreshThr (plainWrite s addr v)
  else if addr = 0x35000000 then applySpan s (bits v 10 2) (bits v 8 2) (bits v 6 2) (bits v 0 2)
  else plainWrite s addr v

/-- A BMC register, written over I3C (R578). -/
def bmcWrite (s : State) (addr v : Nat) : State :=
  if addr = 4 then wr s BMC_RAILS_LAST_FAIL (andNot 11 (rd s BMC_RAILS_LAST_FAIL) (bits v 16 11))
  else if addr = 8 then
    let s := if bit v 0 then startDown s .bmc else s
    if bit v 1 then endDown s .bmc else s
  else s

/-- A write of a 32-bit register at an internal address (R10, R601) by `who`: 0 or 1 a Plinth pair, 2 the debugger. -/
def regWrite (s : State) (addr v who : Nat) : State :=
  if 0x40000000 ≤ addr ∧ addr < 0x62000000 then cluWrite s ((addr - 0x40000000) / 0x1000000) (addr % 0x1000000) v
  else if inBlock 0x30000000 addr then
    let o := addr - 0x30000000
    if o < 0x100000 then bar0Write s (o / 0x10000) (o % 0x10000) v else s
  else if inBlock 0x21000000 addr then evcWrite s addr v
  else if inBlock 0x23000000 addr then pwrWrite s addr v
  else if inBlock 0x22000000 addr then fltWrite s addr v
  else if inBlock 0x20000000 addr then plnWrite s addr v who
  else if inBlock 0x24000000 addr then secWrite s addr v
  else ioWrite s addr v

/-! ### Register reads (R10, R521) -/

/-- What a read of a 32-bit register shows (R475, R600, R601). -/
def regView (s : State) (addr : Nat) : Nat :=
  if inBlock 0x30000000 addr then
    let o := addr - 0x30000000
    if o < 0x100000 then windowRead s (o / 0x10000) (o % 0x10000) else 0
  else if 0x22001000 ≤ addr ∧ addr < 0x22003000 then recWord s addr
  else wordView s addr

/-- A normal read of a 32-bit register: `rc` fields clear, a free semaphore is acquired by `who` (R10, R527). -/
def regRead (s : State) (addr who : Nat) : State × Nat :=
  if 0x20000200 ≤ addr ∧ addr < 0x20000280 ∧ addr % 4 = 0 then semRead s ((addr - 0x20000200) / 4) who
  else ((fieldsAt addr).foldl (fun s f => if f.acc = .rc then wr s f 0 else s) s, regView s addr)

/-! ### The internal address space (R601, R602) -/

/-- What an internal address decodes to. -/
inductive Region where
  | sram | rom | reg | cluMem (n : Nat) | gap | t2 | t3 | none
deriving DecidableEq, Repr

/-- The memory of a cluster at an offset of its block, if any (R602). -/
def cluMemAt (o : Nat) : Bool :=
  if o < 0x400000 then decide (0x100000 ≤ o) && decide (o < 0x200000)
  else
    let i := (o - 0x400000) % 0x20000
    decide ((o - 0x400000) / 0x20000 < 64) && (decide (i < 0x12000) || (decide (0x18000 ≤ i) && decide (i < 0x1C000)))

/-- Is an address in a register block other than CLU (R601)? -/
def isBlock (a : Nat) : Bool :=
  (decide (0x20000000 ≤ a) && decide (a < 0x25000000)) || (decide (0x30000000 ≤ a) && decide (a < 0x37000000))

/-- The region of an internal address (R601); the memories of a cluster that is OFF or RETIRED are not decoded (R602). -/
def regionOf (s : State) (a : Nat) : Region :=
  if 0x10000000 ≤ a ∧ a < 0x10200000 then .sram
  else if 0x11000000 ≤ a ∧ a < 0x11020000 then .rom
  else if isBlock a then .reg
  else if 0x40000000 ≤ a ∧ a < 0x62000000 then
    let n := (a - 0x40000000) / 0x1000000
    let o := a % 0x1000000
    let st := rd s (CLU_STAT_STATE n)
    if o < 0x100000 then .reg
    else if cluMemAt o then (if st = 0 ∨ st = 5 then .none else .cluMem n)
    else .gap
  else if isT2 a ∧ granOf a < granCount s then .t2
  else if t3Base ≤ a ∧ (slotAt s a).isSome then .t3
  else .none

/-- The key a debug access uses in a granule: none where a tenant's slot encrypts it (R525). -/
def debugKey (s : State) (a : Nat) : Nat :=
  let e := gEntry s (granOf a)
  if !gDisp e && gSlot e != 0 then 0 else granKeyNow s (granOf a)

/-- A byte of the Plinth SRAM: what the boot ROM has loaded, with what was written since. -/
def sramByte (s : State) (a : Nat) : Byte := rb s a ^^^ BitVec.ofNat 8 (Config.sramByte s.boot.fwDigest (a - 0x10000000))

/-- A byte as a debug read returns it (R525). -/
def debugByte (s : State) (r : Region) (a : Nat) : Nat :=
  match r with
  | .sram => (sramByte s a).toNat
  | .rom => Config.romByte (a - 0x11000000) % 256
  | .t2 => (t2Rb s (debugKey s a) a).toNat
  | .t3 => (devRb s a).toNat
  | .cluMem _ => (rb s a).toNat
  | .reg | .gap | .none => 0

/-- One byte written by a debug access (R525); the boot ROM and T3 take no writes. -/
def debugWb (s : State) (r : Region) (a : Nat) (v : Byte) : State :=
  match r with
  | .sram => wb s a (v ^^^ BitVec.ofNat 8 (Config.sramByte s.boot.fwDigest (a - 0x10000000)))
  | .t2 => t2Wb s (debugKey s a) a v
  | .cluMem _ => wb s a v
  | .rom | .t3 | .reg | .gap | .none => s

/-- The partition a debug access touches (R525); 0xFF none. -/
def touched (s : State) (r : Region) (a : Nat) : Nat :=
  match r with
  | .cluMem n => cluPart s n
  | .t2 =>
    let e := gEntry s (granOf a)
    if gV e && !gDisp e && !gPln e then gPart e else 0xFF
  | .sram | .rom | .reg | .gap | .t3 | .none => 0xFF

/-- A debug session opens with the first access (R524). -/
def openSession (s : State) : State :=
  if isSet s SEC_DBG_STAT_ACTIVE then s
  else wr (bump (wr (wr s SEC_DBG_STAT_ACTIVE 1) SEC_DBG_STAT_SINCE_RESET 1) SEC_DBG_SESS_COUNT 1) SEC_EVT_STAT_SESSION_OPEN 1

/-- What every decoded or undecoded debug access leaves: the touch, POISON on a read of a poisoned or uncorrectable word,
DECODE_ERR (R522, R525). A single-bit error is read corrected: the bytes held are the corrected ones. -/
def debugMarks (s : State) (r : Region) (a n : Nat) (read : Bool) : State :=
  let s := touchPart s (touched s r a)
  match r with
  | .none => wr s SEC_APT_STAT_DECODE_ERR 1
  | .cluMem _ | .t2 => if read && anyBad s a n then wr s SEC_APT_STAT_POISON 1 else s
  | .sram | .rom | .reg | .gap | .t3 => s

/-- Register words of an access: one, or two with the lower address first. -/
def regWords (a : Nat) (wide : Bool) : List Nat := if wide then [a, a + 4] else [a]

/-- The error an operand says an access of a cluster memory meets (R41; log entry 141); other targets take none. -/
def debugErr (s : State) (a : Nat) (ecc : Ecc) : State :=
  match regionOf s a with
  | .cluMem _ => addEcc s a ecc
  | .sram | .rom | .reg | .gap | .t2 | .t3 | .none => s

/-- Does the word of a cluster memory hold an uncorrectable error: as stored, its bits are not those last written (R522)? -/
def wrongBits (s : State) (r : Region) (a : Nat) : Bool :=
  match r with
  | .cluMem _ => upset s a == some true
  | .sram | .rom | .reg | .gap | .t2 | .t3 | .none => false

/-- A debug read of 4 or 8 bytes at an aligned internal address; `peek`: without read side effect (R521, R522). The bits of a
word with an uncorrectable error are a free value (log entry 141). -/
def debugRead (s : State) (a : Nat) (wide peek : Bool) : State × Nat :=
  let r := regionOf s a
  if r = .reg then
    ((regWords a wide).zipIdx).foldl (fun (p : State × Nat) e =>
      let q := if peek then (p.1, regView p.1 e.1) else regRead p.1 e.1 2
      (q.1, p.2 + q.2 % 2 ^ 32 * 2 ^ (32 * e.2))) (s, 0)
  else
    let n := if wide then 8 else 4
    let s := debugMarks s r a n true
    if wrongBits s r a then ((fresh s).2, (fresh s).1 % 256 ^ n)
    else (s, ((List.range n).map (fun i => debugByte s r (a + i) * 256 ^ i)).foldl (· + ·) 0)

/-- A debug write of 4 or 8 bytes at an aligned internal address; in a cluster's memory it is a write of a port (R42, R45, R522,
R525). -/
def debugWrite (s : State) (a : Nat) (wide : Bool) (v : Nat) : State :=
  let r := regionOf s a
  if r = .reg then ((regWords a wide).zipIdx).foldl (fun s e => regWrite s e.1 (v / 2 ^ (32 * e.2) % 2 ^ 32) 2) s
  else
    let n := if wide then 8 else 4
    let t := (List.range n).foldl (fun t i => debugWb t r (a + i) (BitVec.ofNat 8 (v / 256 ^ i))) (debugMarks s r a n false)
    match r with
    | .cluMem _ => wroteRange t a n
    | .t2 => if wide then clearPoison t a else t
    | .sram | .rom | .reg | .gap | .t3 | .none => t

end Sys2Proof.Machine
end

