-- ==== Sys2Proof/Machine/Debug.lean ====
section
/-!
DEFINITION. Sys2Proof/Machine/Debug.lean: register writes, the debug aperture, sessions, halts, semaphores and JTAG
(spec/00 R10, spec/16_security_attestation_debug.md R519-R529).
-/
namespace Sys2Proof.Machine
open Reg

/-- Does the debug logic run: the supplies are good and the device is not powered down (R554, R561)? -/
def debugOn (s : State) : Bool := s.boot.released && stage s != 7

/-- Does the aperture answer: the debug logic and the PCIe link run (R519)? -/
def apertureOn (s : State) : Bool := debugOn s && !s.boot.perst && s.hif.refclk

/-- Is an access of 4 or 8 bytes naturally aligned? -/
def aligned (a : Nat) (wide : Bool) : Bool := a % (if wide then 8 else 4) == 0

/-! ### REGISTER_WRITE -/

/-- A write by the Plinth, or over I3C to a BMC register (`debug` false), or by the debugger through the lower half or JTAG (R10,
R519-R525). A Plinth write of a semaphore's RELEASE comes from the pair that holds it. -/
def execRegisterWrite (addr : BitVec 40) (value : BitVec 32) (debug : Bool) (s : State) : Out :=
  let a := addr.toNat
  if debug then
    if !debugOn s then .next s
    else if aligned a false then .next (debugWrite (openSession s) a false value.toNat)
    else .next (emit s (.unsupported 0))
  else if a < 0x100 then .next (bmcWrite s a value.toNat)
  else if aligned a false ∧ regionOf s a = .reg then
    .next (regWrite s a value.toNat (if rd s (PLN_SEM_OWNER ((a - 0x20000200) / 4)) = 1 then 1 else 0))
  else .next s

/-! ### The aperture (R519-R522) -/

/-- The internal address of an offset in a half of the aperture (R519, R520). -/
def aptAddr (s : State) (off : Nat) : Nat :=
  if 0x7FF000 ≤ off then 0x24000000 + (off - 0x7FF000) else rd s SEC_APT_BASE_BASE * 0x400000 + off

/-- A word of the control page: the five registers it holds (R520). -/
def controlWord (s : State) (o : Nat) : Nat :=
  if o = 0x40 ∨ o = 0x44 ∨ o = 0x48 ∨ o = 0x50 ∨ o = 0x54 then wordView s (0x24000000 + o) else 0

/-- A read through either half of the aperture. `ecc`: the error it meets in a word of a cluster memory. -/
def apertureRead (off : Nat) (wide peek : Bool) (ecc : Ecc) (s : State) : Out :=
  if !apertureOn s then .next s
  else if !aligned off wide then
    .next (emit (emit s (.unsupported 0)) (.value (2 ^ (if wide then 64 else 32) - 1)))
  else
    let s := openSession s
    if 0x7FF000 ≤ off then
      let o := off - 0x7FF000
      .next (emit s (.value (controlWord s o + (if wide then controlWord s (o + 4) * 2 ^ 32 else 0))))
    else
      let a := aptAddr s off
      let q := debugRead (debugErr s a ecc) a wide peek
      .next (emit q.1 (.value q.2))

/-- DEBUG_NORMAL_READ (R519, R522). -/
def execDebugNormalRead (off : BitVec 23) (wide : Bool) (ecc : Ecc) (s : State) : Out := apertureRead off.toNat wide false ecc s

/-- PEEK_READ (R521). -/
def execPeekRead (off : BitVec 23) (wide : Bool) (ecc : Ecc) (s : State) : Out := apertureRead off.toNat wide true ecc s

/-- PEEK_WRITE (R521): discarded; PEEK_WR is set. -/
def execPeekWrite (off : BitVec 23) (wide : Bool) (_value : BitVec 64) (s : State) : Out :=
  if !apertureOn s then .next s
  else if aligned off.toNat wide then .next (wr (openSession s) SEC_APT_STAT_PEEK_WR 1)
  else .next (emit s (.unsupported 0))

/-! ### Sessions (R524) -/

/-- DEBUG_SESSION_END (R524): SEC_DBG_CTRL.END written by the debugger. -/
def execDebugSessionEnd (s : State) : Out :=
  if debugOn s then .next (secWrite (openSession s) 0x24000044 1) else .next s

/-- DEBUG_SESSION_IDLE_TIMEOUT (R524): 1 s without a debug access; the session stays open while anything is halted (R529). -/
def execDebugSessionIdleTimeout (s : State) : Out :=
  if debugOn s && isSet s SEC_DBG_STAT_ACTIVE && !anyHalted s then .next (closeSession s) else .next s

/-! ### Halts and semaphores (R526-R528) -/

/-- PAIR_HALT (R526). -/
def execPairHalt (b : Bool) (s : State) : Out := if debugOn s then .next (haltPair s b) else .next s

/-- PAIR_RESUME (R526). -/
def execPairResume (b : Bool) (s : State) : Out := if debugOn s then .next (resumePair s b) else .next s

/-- THREAD_HALT (R528). -/
def execThreadHalt (cl c : Fin 64) (threads : BitVec 8) (s : State) : Out :=
  if debugOn s then .next (thrHalt s cl c threads.toNat false) else .next s

/-- THREAD_RESUME (R528). -/
def execThreadResume (cl c : Fin 64) (threads : BitVec 8) (s : State) : Out :=
  if debugOn s then .next (thrHalt s cl c threads.toNat true) else .next s

/-- SEM_ACQUIRE (R527): a normal read of PLN_SEM_n by pair A, pair B or the debugger. -/
def execSemAcquire (n : Fin 32) (who : Fin 3) (s : State) : Out :=
  let q := semRead s n who
  .next (emit q.1 (.value q.2))

/-- SEM_RELEASE (R527). -/
def execSemRelease (n : Fin 32) (who : Fin 3) (s : State) : Out := .next (semFree s n who)

/-- SEM_HOLD_TIMEOUT (R527): the hold timer of a held semaphore reaches HOLD_LIM; 0 is no limit, and a paused timer does not. -/
def execSemHoldTimeout (n : Fin 32) (s : State) : Out :=
  if isSet s (PLN_SEM_HELD n) && rd s PLN_SEM_CFG_HOLD_LIM != 0 && !timersPause s then
    .next (wr (report s 46 clsDevice 0 0xFF 0xFF 0) PLN_DBG_STAT_SEM_TIMEOUT 1)
  else .next s

/-! ### JTAG (R523) -/

/-- The instruction register: 0 IDCODE, 1 BYPASS, 2 SAMPLE/PRELOAD, 3 EXTEST, 4 CLAMP, 5 HIGHZ, 6 DBG_ACCESS, 7 DBG_PEEK. EXTEST,
CLAMP and HIGHZ hold the pins. -/
def selectJtag (s : State) (i : Nat) : State :=
  { s with sec := { s.sec with jtag := i, pinsTaken := i == 3 || i == 4 || i == 5 } }

/-- What a debug instruction shifts out: the data word, and 6 status bits whose meaning the spec does not state (free). -/
def jtagOut (s : State) (v : Nat) : State :=
  let f := fresh s
  emit f.2 (.jtag (v + f.1 % 64 * 2 ^ 64))

/-- A debug instruction's access: the lower half (`peek` false) or the upper half of the aperture, without the window (R523). -/
def jtagAccess (addr : BitVec 40) (wide : Bool) (write : Option (BitVec 64)) (peek : Bool) (ecc : Ecc) (s : State) : Out :=
  if !debugOn s then .next s
  else
    let s := openSession (selectJtag s (if peek then 7 else 6))
    let a := addr.toNat
    if !aligned a wide then
      match write with
      | some _ => .next s
      | none => .next (jtagOut s (2 ^ (if wide then 64 else 32) - 1))
    else
      match write with
      | some v =>
        let s : State := { s with sec := { s.sec with jtagData := v.toNat } }
        if peek then .next (wr s SEC_APT_STAT_PEEK_WR 1) else .next (debugWrite (debugErr s a ecc) a wide v.toNat)
      | none =>
        let q := debugRead (debugErr s a ecc) a wide peek
        let t : State := { q.1 with sec := { q.1.sec with jtagData := q.2 } }
        .next (jtagOut t q.2)

/-- DBG_ACCESS (R523). -/
def execDbgAccess (addr : BitVec 40) (wide : Bool) (write : Option (BitVec 64)) (ecc : Ecc) (s : State) : Out :=
  jtagAccess addr wide write false ecc s

/-- DBG_PEEK (R523). -/
def execDbgPeek (addr : BitVec 40) (wide : Bool) (write : Option (BitVec 64)) (ecc : Ecc) (s : State) : Out :=
  jtagAccess addr wide write true ecc s

/-- BYPASS (R523). -/
def execBypass (s : State) : Out := .next (selectJtag s 1)

/-- IDCODE (R523): version 0xB, part 0x8640, the manufacturer identity of the BSDL file. -/
def execIdcode (s : State) : Out :=
  .next (emit (selectJtag s 0) (.jtag (0xB * 2 ^ 28 + 0x8640 * 2 ^ 12 + Config.jtagMaker % 2 ^ 12)))

/-- SAMPLE_PRELOAD (R523): the boundary register takes the preloaded bits, or samples the pins, whose levels no command shows: free
values, one per bit of the register as it stands. -/
def execSamplePreload (preload : Option (List Bool)) (s : State) : Out :=
  let s := selectJtag s 2
  match preload with
  | some l => .next { s with sec := { s.sec with boundary := l } }
  | none =>
    let f := fresh s
    let t := f.2
    let l := (List.range s.sec.boundary.length).map (fun i => bit f.1 i)
    .next { t with sec := { t.sec with boundary := l } }

/-- The states EXTEST, CLAMP and HIGHZ may leave the device in: any (R523, log entry 1). -/
opaque freeStates : Nat → List State

/-- A table written entry by entry: its canonical form. -/
def canonTable {α : Type} [DecidableEq α] (d : α) (l : List (Nat × α)) : List (Nat × α) := l.foldl (fun t e => tput d t e.1 e.2) []

/-- A list of entries with its keys rising. -/
def sortTable {α : Type} (l : List (Nat × α)) : List (Nat × α) := l.foldl (fun t e => tset e.1 e.2 t) []

/-- A register file from any entries: keys rising, and each value inside the 32 bits of its register (R10). -/
def regTable (l : List (Nat × Nat)) : List (Nat × Nat) := (sortTable l).map (fun e => (e.1, e.2 % 2 ^ (32 - e.1 % 32)))

/-- The pins are taken from functional use: the device's state is undefined until the next chip reset (R523). What lies outside the
device stays: host memory, what it has sent, the commands that wait, the time and the supplies; the JTAG port keeps its own. -/
def takePins (s : State) (i : Nat) : State :=
  let s := selectJtag s i
  let u := (freeStates s.free).headD s
  let boot := { u.boot with perst := s.boot.perst, released := s.boot.released, down := s.boot.down, railLost := s.boot.railLost,
                            refclk := s.boot.refclk }
  let sec := { u.sec with jtag := s.sec.jtag, pinsTaken := true, boundary := s.sec.boundary, jtagData := s.sec.jtagData }
  let t : State := { u with time := s.time, quantum := s.quantum, free := s.free + 1, regs := regTable u.regs, mem := canonTable 0 u.mem, upsets := sortTable u.upsets,
                            cam := tdrop (fun c => decide (48 ≤ c)) u.cam,
                            host := s.host, out := s.out, pending := s.pending, boot, sec }
  wr t BMC_RAILS_GOOD (rd s BMC_RAILS_GOOD)

/-- EXTEST (R523). -/
def execExtest (s : State) : Out := .next (takePins s 3)

/-- CLAMP (R523). -/
def execClamp (s : State) : Out := .next (takePins s 4)

/-- HIGHZ (R523). -/
def execHighz (s : State) : Out := .next (takePins s 5)

/-- TRST_N (R557): the JTAG port alone resets; it selects IDCODE. -/
def execTrstN (s : State) : Out := .next (selectJtag s 0)

end Sys2Proof.Machine
end

