-- ==== Sys2Proof/Machine/Dispatch.lean ====
section
/-!
DEFINITION. Sys2Proof/Machine/Dispatch.lean: one arm per command, each one direct call of its meaning.
-/
namespace Sys2Proof.Machine

/-- The effect of a command on everything but the queue. -/
def exec (i : Instr) (s : State) : Host.Outcome State Fault Refusal :=
  match i with
  | .matmul t word => Sys2Proof.Machine.execMatmul t word s
  | .conv t word errs => Sys2Proof.Machine.execConv t word errs s
  | .stream t word errs => Sys2Proof.Machine.execStream t word errs s
  | .moveOp t desc tag => Sys2Proof.Machine.execMoveOp t desc tag s
  | .vectorOp t op => Sys2Proof.Machine.execVectorOp t op s
  | .scalarOp t op => Sys2Proof.Machine.execScalarOp t op s
  | .threadLoad t m addr len rd ecc => Sys2Proof.Machine.execThreadLoad t m addr len rd ecc s
  | .threadStore t m addr len rs ecc => Sys2Proof.Machine.execThreadStore t m addr len rs ecc s
  | .wait t tag => Sys2Proof.Machine.execWait t tag s
  | .coreBarrier t => Sys2Proof.Machine.execCoreBarrier t s
  | .clusterBarrier t counter cores => Sys2Proof.Machine.execClusterBarrier t counter cores s
  | .threadEnd t => Sys2Proof.Machine.execThreadEnd t s
  | .setq t entry addr ecc => Sys2Proof.Machine.execSetq t entry addr ecc s
  | .arrCredit t output n errs => Sys2Proof.Machine.execArrCredit t output n errs s
  | .cntRd t which vector rd => Sys2Proof.Machine.execCntRd t which vector rd s
  | .eng t addr tag => Sys2Proof.Machine.execEng t addr tag s
  | .statAcq t perChannel channels decay => Sys2Proof.Machine.execStatAcq t perChannel channels decay s
  | .statFeed t collector fmt src count tag => Sys2Proof.Machine.execStatFeed t collector fmt src count tag s
  | .statCommit t collector => Sys2Proof.Machine.execStatCommit t collector s
  | .statRead t collector dst => Sys2Proof.Machine.execStatRead t collector dst s
  | .statFree t collector => Sys2Proof.Machine.execStatFree t collector s
  | .arrayInstructionComplete cluster core errs => Sys2Proof.Machine.execArrayInstructionComplete cluster core errs s
  | .streamEnd cluster core stopped errs => Sys2Proof.Machine.execStreamEnd cluster core stopped errs s
  | .arrayStall cluster core links => Sys2Proof.Machine.execArrayStall cluster core links s
  | .freezeEnd cluster core => Sys2Proof.Machine.execFreezeEnd cluster core s
  | .gapLimitReached cluster core => Sys2Proof.Machine.execGapLimitReached cluster core s
  | .vectorComplete cluster core errs => Sys2Proof.Machine.execVectorComplete cluster core errs s
  | .engineOpStart cluster core errs => Sys2Proof.Machine.execEngineOpStart cluster core errs s
  | .engineOpComplete cluster errs => Sys2Proof.Machine.execEngineOpComplete cluster errs s
  | .dmaSegmentDone cluster queue ev => Sys2Proof.Machine.execDmaSegmentDone cluster queue ev s
  | .moveComplete cluster queue => Sys2Proof.Machine.execMoveComplete cluster queue s
  | .moveTimeout cluster queue => Sys2Proof.Machine.execMoveTimeout cluster queue s
  | .scrubRead bank ecc => Sys2Proof.Machine.execScrubRead bank ecc s
  | .forcedScrubSlot bank ecc => Sys2Proof.Machine.execForcedScrubSlot bank ecc s
  | .scrubWriteBack bank => Sys2Proof.Machine.execScrubWriteBack bank s
  | .clusterInitDone cluster passed => Sys2Proof.Machine.execClusterInitDone cluster passed s
  | .quiesceTimeout cluster => Sys2Proof.Machine.execQuiesceTimeout cluster s
  | .cluMapWrite cluster value => Sys2Proof.Machine.execCluMapWrite cluster value s
  | .cluCtrlPower cluster on => Sys2Proof.Machine.execCluCtrlPower cluster on s
  | .cluCtrlInit cluster => Sys2Proof.Machine.execCluCtrlInit cluster s
  | .cluCtrlQuiesce cluster => Sys2Proof.Machine.execCluCtrlQuiesce cluster s
  | .cluCtrlRetire cluster => Sys2Proof.Machine.execCluCtrlRetire cluster s
  | .cluEccCntRead cluster m => Sys2Proof.Machine.execCluEccCntRead cluster m s
  | .cluDmaStatRead cluster => Sys2Proof.Machine.execCluDmaStatRead cluster s
  | .registerWrite addr value debug => Sys2Proof.Machine.execRegisterWrite addr value debug s
  | .quantumBoundary q => Sys2Proof.Machine.execQuantumBoundary q s
  | .stepBoundary batch logits fails kv attn => Sys2Proof.Machine.execStepBoundary batch logits fails kv attn s
  | .castStart part v => Sys2Proof.Machine.execCastStart part v s
  | .castLayerReady part v => Sys2Proof.Machine.execCastLayerReady part v s
  | .layerSwap part => Sys2Proof.Machine.execLayerSwap part s
  | .layerSwapBack part => Sys2Proof.Machine.execLayerSwapBack part s
  | .evictRelease handle => Sys2Proof.Machine.execEvictRelease handle s
  | .ttlExpiry entry => Sys2Proof.Machine.execTtlExpiry entry s
  | .pauseSpillDone entry => Sys2Proof.Machine.execPauseSpillDone entry s
  | .resumeCopyDone entry => Sys2Proof.Machine.execResumeCopyDone entry s
  | .lineTick dramLate ev fine => Sys2Proof.Machine.execLineTick dramLate ev fine s
  | .dispatch => Sys2Proof.Machine.execDispatch s
  | .moveEntry feed => Sys2Proof.Machine.execMoveEntry feed s
  | .creditEntry => Sys2Proof.Machine.execCreditEntry s
  | .segment wrote => Sys2Proof.Machine.execSegment wrote s
  | .frame => Sys2Proof.Machine.execFrame s
  | .outputFrameBoundary base peak mean sust errs0 errs1 => Sys2Proof.Machine.execOutputFrameBoundary base peak mean sust errs0 errs1 s
  | .lateRetry => Sys2Proof.Machine.execLateRetry s
  | .inputFrameStart rx start linePeriod errs dsc => Sys2Proof.Machine.execInputFrameStart rx start linePeriod errs dsc s
  | .inputRowReceived rx row kind depth pixels => Sys2Proof.Machine.execInputRowReceived rx row kind depth pixels s
  | .inputLost rx => Sys2Proof.Machine.execInputLost rx s
  | .inputUnlocked => Sys2Proof.Machine.execInputUnlocked s
  | .motionFieldDone field => Sys2Proof.Machine.execMotionFieldDone field s
  | .txLinkLost n => Sys2Proof.Machine.execTxLinkLost n s
  | .rxLinkRetrain n rate lanes => Sys2Proof.Machine.execRxLinkRetrain n rate lanes s
  | .dspEnable on => Sys2Proof.Machine.execDspEnable on s
  | .retryNow => Sys2Proof.Machine.execRetryNow s
  | .dspCntClr => Sys2Proof.Machine.execDspCntClr s
  | .frameStartPacket port vc header => Sys2Proof.Machine.execFrameStartPacket port vc header s
  | .frameEndPacket port vc header => Sys2Proof.Machine.execFrameEndPacket port vc header s
  | .longPacket port vc dt header crcOk overflow payload => Sys2Proof.Machine.execLongPacket port vc dt header crcOk overflow payload s
  | .deskew port => Sys2Proof.Machine.execDeskew port s
  | .sourceLost ctx => Sys2Proof.Machine.execSourceLost ctx s
  | .syntheticTick ctx => Sys2Proof.Machine.execSyntheticTick ctx s
  | .hostPushedTick ctx => Sys2Proof.Machine.execHostPushedTick ctx s
  | .pipeFrameRelease ctx => Sys2Proof.Machine.execPipeFrameRelease ctx s
  | .pushedFrameCopied ctx => Sys2Proof.Machine.execPushedFrameCopied ctx s
  | .tapFrameWritten ctx => Sys2Proof.Machine.execTapFrameWritten ctx s
  | .camPortStatRead port => Sys2Proof.Machine.execCamPortStatRead port s
  | .camPipeStatRead pipe => Sys2Proof.Machine.execCamPipeStatRead pipe s
  | .memCfgStart value => Sys2Proof.Machine.execMemCfgStart value s
  | .dramTrainingDone trained => Sys2Proof.Machine.execDramTrainingDone trained s
  | .memGtabDataWrite value => Sys2Proof.Machine.execMemGtabDataWrite value s
  | .zeroFillDone => Sys2Proof.Machine.execZeroFillDone s
  | .memLeccCntRead => Sys2Proof.Machine.execMemLeccCntRead s
  | .memChStatRead ch => Sys2Proof.Machine.execMemChStatRead ch s
  | .flashOpStart ch code => Sys2Proof.Machine.execFlashOpStart ch code s
  | .flashReadDone ch r waited => Sys2Proof.Machine.execFlashReadDone ch r waited s
  | .flashProgramDone ch ok plane => Sys2Proof.Machine.execFlashProgramDone ch ok plane s
  | .flashEraseDone ch ok plane => Sys2Proof.Machine.execFlashEraseDone ch ok plane s
  | .flashSuspend ch => Sys2Proof.Machine.execFlashSuspend ch s
  | .flashResume ch => Sys2Proof.Machine.execFlashResume ch s
  | .holdupRetryTimeout => Sys2Proof.Machine.execHoldupRetryTimeout s
  | .patrolRead ch r => Sys2Proof.Machine.execPatrolRead ch r s
  | .storeCommit ok => Sys2Proof.Machine.execStoreCommit ok s
  | .eraseDone ok => Sys2Proof.Machine.execEraseDone ok s
  | .wflEnable => Sys2Proof.Machine.execWflEnable s
  | .wflStop => Sys2Proof.Machine.execWflStop s
  | .wflHoldupCfgWrite ext value => Sys2Proof.Machine.execWflHoldupCfgWrite ext value s
  | .wflEccCntRead => Sys2Proof.Machine.execWflEccCntRead s
  | .wflSuspCntRead => Sys2Proof.Machine.execWflSuspCntRead s
  | .nop h => Sys2Proof.Machine.execNop h s
  | .query h scope first => Sys2Proof.Machine.execQuery h scope first s
  | .partCreate h p => Sys2Proof.Machine.execPartCreate h p s
  | .partResize h p => Sys2Proof.Machine.execPartResize h p s
  | .partDestroy h => Sys2Proof.Machine.execPartDestroy h s
  | .partFence h => Sys2Proof.Machine.execPartFence h s
  | .partReset h => Sys2Proof.Machine.execPartReset h s
  | .drainEnd part => Sys2Proof.Machine.execDrainEnd part s
  | .partResetTimeout part => Sys2Proof.Machine.execPartResetTimeout part s
  | .maqStage h addr len man format sigOk digestsOk => Sys2Proof.Machine.execMaqStage h addr len man format sigOk digestsOk s
  | .maqStageSlot h slot manOk sigOk => Sys2Proof.Machine.execMaqStageSlot h slot manOk sigOk s
  | .maqVerify h handle v => Sys2Proof.Machine.execMaqVerify h handle v s
  | .maqCast h handle replace drain activate => Sys2Proof.Machine.execMaqCast h handle replace drain activate s
  | .maqEvict h handle force => Sys2Proof.Machine.execMaqEvict h handle force s
  | .maqStore h handle slot set => Sys2Proof.Machine.execMaqStore h handle slot set s
  | .maqErase h slot => Sys2Proof.Machine.execMaqErase h slot s
  | .pubAdd h listSeq entry authKey sigOk => Sys2Proof.Machine.execPubAdd h listSeq entry authKey sigOk s
  | .pubRevoke h listSeq keyId authKey sigOk => Sys2Proof.Machine.execPubRevoke h listSeq keyId authKey sigOk s
  | .pubClear h listSeq => Sys2Proof.Machine.execPubClear h listSeq s
  | .batchSubmit h b rows listsOk => Sys2Proof.Machine.execBatchSubmit h b rows listsOk s
  | .batchSubmitContinue h batch out outLen => Sys2Proof.Machine.execBatchSubmitContinue h batch out outLen s
  | .reqCancel h req => Sys2Proof.Machine.execReqCancel h req s
  | .reqPause h req ttl place => Sys2Proof.Machine.execReqPause h req ttl place s
  | .reqResume h req => Sys2Proof.Machine.execReqResume h req s
  | .reqRelease h req => Sys2Proof.Machine.execReqRelease h req s
  | .tensorMove h desc => Sys2Proof.Machine.execTensorMove h desc s
  | .tensorFill h desc => Sys2Proof.Machine.execTensorFill h desc s
  | .streamOpen h p => Sys2Proof.Machine.execStreamOpen h p s
  | .streamClose h ctx => Sys2Proof.Machine.execStreamClose h ctx s
  | .streamBind h p => Sys2Proof.Machine.execStreamBind h p s
  | .displayConfig h c => Sys2Proof.Machine.execDisplayConfig h c s
  | .displaySchedule h handle modeIdx => Sys2Proof.Machine.execDisplaySchedule h handle modeIdx s
  | .displayMode h m => Sys2Proof.Machine.execDisplayMode h m s
  | .powerPolicy h limit maxOp => Sys2Proof.Machine.execPowerPolicy h limit maxOp s
  | .powerPolicyPartition h fill gap rampDown rampUp => Sys2Proof.Machine.execPowerPolicyPartition h fill gap rampDown rampUp s
  | .powerQuery h => Sys2Proof.Machine.execPowerQuery h s
  | .attestReport h nonce => Sys2Proof.Machine.execAttestReport h nonce s
  | .logConfig h level addr len => Sys2Proof.Machine.execLogConfig h level addr len s
  | .traceConfig h mask addr len => Sys2Proof.Machine.execTraceConfig h mask addr len s
  | .fwStage h len slot image => Sys2Proof.Machine.execFwStage h len slot image s
  | .fwActivate h => Sys2Proof.Machine.execFwActivate h s
  | .activationRestart => Sys2Proof.Machine.execActivationRestart s
  | .spanConfig h role position count ports => Sys2Proof.Machine.execSpanConfig h role position count ports s
  | .paceSweep h period => Sys2Proof.Machine.execPaceSweep h period s
  | .trainStep h p => Sys2Proof.Machine.execTrainStep h p s
  | .sqDoorbell fn ring value => Sys2Proof.Machine.execSqDoorbell fn ring value s
  | .cqDoorbell fn ring value => Sys2Proof.Machine.execCqDoorbell fn ring value s
  | .bar0Write fn word value => Sys2Proof.Machine.execBar0Write fn word value s
  | .windowWriteApply fn => Sys2Proof.Machine.execWindowWriteApply fn s
  | .windowPublish fn => Sys2Proof.Machine.execWindowPublish fn s
  | .barUnsupportedAccess fn read => Sys2Proof.Machine.execBarUnsupportedAccess fn read s
  | .ringEnable fn => Sys2Proof.Machine.execRingEnable fn s
  | .ringDisable fn => Sys2Proof.Machine.execRingDisable fn s
  | .coalTimeout fn ring => Sys2Proof.Machine.execCoalTimeout fn ring s
  | .msixUnmask fn vec => Sys2Proof.Machine.execMsixUnmask fn vec s
  | .functionLevelReset fn => Sys2Proof.Machine.execFunctionLevelReset fn s
  | .vfEnableClear => Sys2Proof.Machine.execVfEnableClear s
  | .pcieRefclkLoss => Sys2Proof.Machine.execPcieRefclkLoss s
  | .eventSense src gpio => Sys2Proof.Machine.execEventSense src gpio s
  | .moderationHoldEnd timer => Sys2Proof.Machine.execModerationHoldEnd timer s
  | .evcSwSet src => Sys2Proof.Machine.execEvcSwSet src s
  | .evcCntClr all src => Sys2Proof.Machine.execEvcCntClr all src s
  | .evcRouteWrite src value => Sys2Proof.Machine.execEvcRouteWrite src value s
  | .opTransitionDone => Sys2Proof.Machine.execOpTransitionDone s
  | .powerFloorReturn => Sys2Proof.Machine.execPowerFloorReturn s
  | .forecastCorrection => Sys2Proof.Machine.execForecastCorrection s
  | .limiterEngage limit ceiling arr sram => Sys2Proof.Machine.execLimiterEngage limit ceiling arr sram s
  | .limiterHalve => Sys2Proof.Machine.execLimiterHalve s
  | .limiterStep => Sys2Proof.Machine.execLimiterStep s
  | .limiterFloor => Sys2Proof.Machine.execLimiterFloor s
  | .limiterRelease => Sys2Proof.Machine.execLimiterRelease s
  | .railOc rail => Sys2Proof.Machine.execRailOc rail s
  | .thermalSample temps => Sys2Proof.Machine.execThermalSample temps s
  | .thermalStateExit st => Sys2Proof.Machine.execThermalStateExit st s
  | .thermalTrip => Sys2Proof.Machine.execThermalTrip s
  | .droop south => Sys2Proof.Machine.execDroop south s
  | .patinaLower op => Sys2Proof.Machine.execPatinaLower op s
  | .patinaRecord => Sys2Proof.Machine.execPatinaRecord s
  | .pwrHwlimStatRead => Sys2Proof.Machine.execPwrHwlimStatRead s
  | .pwrCpmStatRead => Sys2Proof.Machine.execPwrCpmStatRead s
  | .faultRecordPublish domain => Sys2Proof.Machine.execFaultRecordPublish domain s
  | .faultRecordConsume level => Sys2Proof.Machine.execFaultRecordConsume level s
  | .logCopy => Sys2Proof.Machine.execLogCopy s
  | .lockstepMismatch b => Sys2Proof.Machine.execLockstepMismatch b s
  | .checkerSelfTest b flagged => Sys2Proof.Machine.execCheckerSelfTest b flagged s
  | .pairRestartDone b passed => Sys2Proof.Machine.execPairRestartDone b passed s
  | .plinthWdogKick b => Sys2Proof.Machine.execPlinthWdogKick b s
  | .wdogConfirm => Sys2Proof.Machine.execWdogConfirm s
  | .plinthWdogExpiry => Sys2Proof.Machine.execPlinthWdogExpiry s
  | .confirmTimeout => Sys2Proof.Machine.execConfirmTimeout s
  | .deviceWdogKick => Sys2Proof.Machine.execDeviceWdogKick s
  | .deviceWdogClr => Sys2Proof.Machine.execDeviceWdogClr s
  | .deviceWdogExpiry => Sys2Proof.Machine.execDeviceWdogExpiry s
  | .fltRecLostRead => Sys2Proof.Machine.execFltRecLostRead s
  | .fltSelftestRead => Sys2Proof.Machine.execFltSelftestRead s
  | .fltLogStatRead => Sys2Proof.Machine.execFltLogStatRead s
  | .fltLogTraceRead => Sys2Proof.Machine.execFltLogTraceRead s
  | .fltProgRead p => Sys2Proof.Machine.execFltProgRead p s
  | .fltDomCntRead d => Sys2Proof.Machine.execFltDomCntRead d s
  | .getVersion fn => Sys2Proof.Machine.execGetVersion fn s
  | .getCapabilities fn => Sys2Proof.Machine.execGetCapabilities fn s
  | .negotiateAlgorithms fn common => Sys2Proof.Machine.execNegotiateAlgorithms fn common s
  | .getDigests fn => Sys2Proof.Machine.execGetDigests fn s
  | .getCertificate fn slot off len => Sys2Proof.Machine.execGetCertificate fn slot off len s
  | .challenge fn slot => Sys2Proof.Machine.execChallenge fn slot s
  | .getMeasurements fn index => Sys2Proof.Machine.execGetMeasurements fn index s
  | .keyExchange fn => Sys2Proof.Machine.execKeyExchange fn s
  | .finish fn session ok => Sys2Proof.Machine.execFinish fn session ok s
  | .endSession fn session => Sys2Proof.Machine.execEndSession fn session s
  | .keyUpdate fn session => Sys2Proof.Machine.execKeyUpdate fn session s
  | .keySet fn session slot dataKey tweakKey rsvdOk => Sys2Proof.Machine.execKeySet fn session slot dataKey tweakKey rsvdOk s
  | .keyErase fn session slot rsvdOk => Sys2Proof.Machine.execKeyErase fn session slot rsvdOk s
  | .keyStatus fn session slot rsvdOk => Sys2Proof.Machine.execKeyStatus fn session slot rsvdOk s
  | .peekRead off wide ecc => Sys2Proof.Machine.execPeekRead off wide ecc s
  | .peekWrite off wide value => Sys2Proof.Machine.execPeekWrite off wide value s
  | .debugSessionEnd => Sys2Proof.Machine.execDebugSessionEnd s
  | .debugSessionIdleTimeout => Sys2Proof.Machine.execDebugSessionIdleTimeout s
  | .pairHalt b => Sys2Proof.Machine.execPairHalt b s
  | .pairResume b => Sys2Proof.Machine.execPairResume b s
  | .threadHalt cl c threads => Sys2Proof.Machine.execThreadHalt cl c threads s
  | .threadResume cl c threads => Sys2Proof.Machine.execThreadResume cl c threads s
  | .semAcquire n who => Sys2Proof.Machine.execSemAcquire n who s
  | .semRelease n who => Sys2Proof.Machine.execSemRelease n who s
  | .semHoldTimeout n => Sys2Proof.Machine.execSemHoldTimeout n s
  | .dbgAccess addr wide write ecc => Sys2Proof.Machine.execDbgAccess addr wide write ecc s
  | .dbgPeek addr wide write ecc => Sys2Proof.Machine.execDbgPeek addr wide write ecc s
  | .bypass => Sys2Proof.Machine.execBypass s
  | .idcode => Sys2Proof.Machine.execIdcode s
  | .samplePreload preload => Sys2Proof.Machine.execSamplePreload preload s
  | .extest => Sys2Proof.Machine.execExtest s
  | .clamp => Sys2Proof.Machine.execClamp s
  | .highz => Sys2Proof.Machine.execHighz s
  | .trstN => Sys2Proof.Machine.execTrstN s
  | .spanTrainingDone port width reversed => Sys2Proof.Machine.execSpanTrainingDone port width reversed s
  | .spanTrainRetry port => Sys2Proof.Machine.execSpanTrainRetry port s
  | .idleFlit port hd => Sys2Proof.Machine.execIdleFlit port hd s
  | .nak port hd expected => Sys2Proof.Machine.execNak port hd expected s
  | .hello port hd role position count haloIn ntick => Sys2Proof.Machine.execHello port hd role position count haloIn ntick s
  | .halo port hd frame row edge pixels => Sys2Proof.Machine.execHalo port hd frame row edge pixels s
  | .delayReq port hd t1 fine => Sys2Proof.Machine.execDelayReq port hd t1 fine s
  | .delayResp port hd t1 t2 t3 fine => Sys2Proof.Machine.execDelayResp port hd t1 t2 t3 fine s
  | .tickSync port hd frame line timeNs corr fine residence => Sys2Proof.Machine.execTickSync port hd frame line timeNs corr fine residence s
  | .paceReq port hd sweep sust => Sys2Proof.Machine.execPaceReq port hd sweep sust s
  | .paceReport port hd sweep position op own => Sys2Proof.Machine.execPaceReport port hd sweep position op own s
  | .paceCommit port hd sweep pace applyAt => Sys2Proof.Machine.execPaceCommit port hd sweep pace applyAt s
  | .paceAbort port hd sweep => Sys2Proof.Machine.execPaceAbort port hd sweep s
  | .spanAckTimeout port => Sys2Proof.Machine.execSpanAckTimeout port s
  | .blockLockLost port => Sys2Proof.Machine.execBlockLockLost port s
  | .delayMeasurement fine => Sys2Proof.Machine.execDelayMeasurement fine s
  | .haloDeadline port row => Sys2Proof.Machine.execHaloDeadline port row s
  | .paceReportTimeout => Sys2Proof.Machine.execPaceReportTimeout s
  | .paceApply => Sys2Proof.Machine.execPaceApply s
  | .spnPortStatRead port => Sys2Proof.Machine.execSpnPortStatRead port s
  | .spnPortErrRead port => Sys2Proof.Machine.execSpnPortErrRead port s
  | .spnHaloRead port => Sys2Proof.Machine.execSpnHaloRead port s
  | .powerOn => Sys2Proof.Machine.execPowerOn s
  | .railFail rails => Sys2Proof.Machine.execRailFail rails s
  | .resetRelease => Sys2Proof.Machine.execResetRelease s
  | .perstNAssert => Sys2Proof.Machine.execPerstNAssert s
  | .perstNRelease => Sys2Proof.Machine.execPerstNRelease s
  | .pwrFailNAssert => Sys2Proof.Machine.execPwrFailNAssert s
  | .poweredDownReached torn => Sys2Proof.Machine.execPoweredDownReached torn s
  | .pwrFailNRelease => Sys2Proof.Machine.execPwrFailNRelease s
  | .bmcPwrDown => Sys2Proof.Machine.execBmcPwrDown s
  | .bmcRestart => Sys2Proof.Machine.execBmcRestart s
  | .refclkLoss => Sys2Proof.Machine.execRefclkLoss s
  | .refclkReturn => Sys2Proof.Machine.execRefclkReturn s
  | .entdaa addr => Sys2Proof.Machine.execEntdaa addr s
  | .bootRom board selftest => Sys2Proof.Machine.execBootRom board selftest s
  | .firmwareInit trained failed replayOk => Sys2Proof.Machine.execFirmwareInit trained failed replayOk s
  | .trialConfirm accepted => Sys2Proof.Machine.execTrialConfirm accepted s
  | .trialTimeout => Sys2Proof.Machine.execTrialTimeout s
  | .clusterPowerGood cluster => Sys2Proof.Machine.execClusterPowerGood cluster s
  | .txLinkTrained n => Sys2Proof.Machine.execTxLinkTrained n s
  | .mr4RefreshRateChange ch rate => Sys2Proof.Machine.execMr4RefreshRateChange ch rate s
  | .bootFlashOpDone ok same => Sys2Proof.Machine.execBootFlashOpDone ok same s
  | .pcieRefclkReturn => Sys2Proof.Machine.execPcieRefclkReturn s
  | .vfEnableSet numVfs => Sys2Proof.Machine.execVfEnableSet numVfs s
  | .d3hotTransition fn enter => Sys2Proof.Machine.execD3hotTransition fn enter s
  | .doeDiscovery fn index => Sys2Proof.Machine.execDoeDiscovery fn index s
  | .flitCrcError port sequenced => Sys2Proof.Machine.execFlitCrcError port sequenced s
  | .completionTimeout fn => Sys2Proof.Machine.execCompletionTimeout fn s
  | .debugNormalRead off wide ecc => Sys2Proof.Machine.execDebugNormalRead off wide ecc s

end Sys2Proof.Machine
end

