-- ==== Sys2Proof/Machine/Step.lean ====
section
/-!
DEFINITION. Sys2Proof/Machine/Step.lean: one step takes the command at the front of the queue; on an empty queue the device idles
and its time base counts one tick of 10 ns (spec/00_scope.md R13; log entry 10).
-/
namespace Sys2Proof.Machine

/-- The device idles for one tick of the time base; a frame whose last work unit ended before that tick completes (R210). -/
def idle (s : State) : State := completeFrames { s with time := (s.time + 1) % 2 ^ 64 }

/-- One step. -/
def step (s : State) : Host.Outcome State Fault Refusal :=
  match s.pending with
  | [] => .next (idle s)
  | c :: rest => exec c { s with pending := rest }

/-- The command that a word spells put at the front of the queue; no word spells one. -/
def State.withFetchWord (s : State) (nbits w : Nat) : State :=
  match decodeTableWord nbits w with
  | some c => { s with pending := c :: s.pending }
  | none => s

end Sys2Proof.Machine
end

