-- ==== Sys2Proof/Safety.lean ====
section
/-!
DEFINITION. Sys2Proof/Safety.lean: what a sound state of the device is, when a command completes, and what a command leaves as it
was: the terms the statements use.
-/
namespace Sys2Proof.Machine
open Reg

/-- The canonical form of a memory: addresses strictly rising, no byte equal to what an unlisted one reads as. -/
def Memory.wf (m : List Host.Cell) : Bool := twf (0 : Byte) m

/-- The canonical form of the device's memories. -/
def memWf (s : State) : Bool := Memory.wf s.mem

/-- The same of the host memory that the device reads and writes. -/
def hostWf (s : State) : Bool := Memory.wf s.host

/-- The register file lists its fields by strictly rising keys, and each field's value lies inside its 32-bit register (R10):
bit `k % 32` is where the field of key `k` begins. -/
def regsWf (s : State) : Bool := tsorted s.regs && s.regs.all (fun e => decide (e.2 * 2 ^ (e.1 % 32) < 2 ^ 32))

/-- The stream contexts are among the device's 48 (R202). -/
def contextsWf (s : State) : Bool := s.cam.all (fun e => decide (e.1 < 48))

/-- The invariant of every state the device can be in: its memories are in canonical form, its registers in order, its stream
contexts those it has. -/
def Inv (s : State) : Prop := memWf s = true ∧ hostWf s = true ∧ regsWf s = true ∧ contextsWf s = true

/-- A step is safe when it answers a next state: the device neither stops with a fault nor meets a command without a meaning. -/
def safeStep (s : State) : Prop := ∃ t, step s = .next t

/-- The command completes at `s`: it answers a next state, of which `P` holds. -/
def completes (c : Instr) (s : State) (P : State → Prop) : Prop := ∃ t, exec c s = .next t ∧ P t

/-- Every register field reads as before but those listed. -/
def sameRegsBut (s t : State) (l : List RegField) : Prop := ∀ f : RegField, f.key ∉ l.map RegField.key → rd t f = rd s f

/-- Every byte of the device's memories reads as before but the `n` from `a`. -/
def sameMemBut (s t : State) (a n : Nat) : Prop := ∀ x, ¬(a ≤ x ∧ x < a + n) → rb t x = rb s x

/-- Every byte of every function's host memory reads as before but the `n` of function `fn` from `a` (addresses wrap at 2^64). -/
def sameHostBut (s t : State) (fn a n : Nat) : Prop :=
  ∀ g x, g < 16 → x < 2 ^ 64 → ¬(g = fn ∧ (x + (2 ^ 64 - a % 2 ^ 64)) % 2 ^ 64 < n) → hrb t g x = hrb s g x

/-- The 64-bit word that holds `a` is neither poisoned nor has a stored bit error (R41, R42). -/
def cleanWord (s : State) (a : Nat) : Prop := poisoned s a = false ∧ upset s a = none

/-- So are the words of the `n` bytes from `a`. -/
def cleanBytes (s : State) (a n : Nat) : Prop := ∀ x, a ≤ x → x < a + n → cleanWord s x

/-- No scrubber holds a corrected word of the memory that waits for its write-back, among the words of `l` (R45). -/
def noWriteBack (s : State) (n m c : Nat) (l : List Nat) : Prop :=
  ∀ w ∈ l, (tget {} (clu s n).scrub (bankKey m c (w % memBanks m))).writeBack ≠ some w

/-- Thread `k` has issued: its core's round-robin turn goes on from it (R31); the cores hold nothing else that is new. -/
def issuedBy (s u : State) (k : Nat) : Prop :=
  ∀ c, core u c = if c = k / 8 then { core s c with lastIssued := k % 8 } else core s c

/-- A move that visits one row of bytes (R252). -/
def oneRow (d : Desc) : Prop := d.e1 = 1 ∧ d.e2 = 1 ∧ d.e3 = 1

/-- Every register, every byte of the device's memories and of host memory is as before. -/
def sameData (s t : State) : Prop := t.regs = s.regs ∧ t.mem = s.mem ∧ t.host = s.host ∧ t.poison = s.poison

/-- The packet at the head of its ring is consumed and passes the checks every opcode shares (R390, R392, R405). -/
def accepted (s : State) (h : Pkt) (op : Nat) (sc : Scope) (pfOnly : Bool) : Bool :=
  canConsume s h && !ringFenced s h.fn h.ring && (pktFailure s h op sc pfOnly).isNone

/-- The outstanding command and the state once the packet is consumed, before its opcode acts. -/
def taken (s : State) (h : Pkt) (op key : Nat) : Cmd × State := takePkt (trace s 7 h.part) h op key

/-- A flit of this device on port `n`, with the ACK it carries (R536, R537, R539). -/
def ownFlit (s : State) (n ack kind : Nat) (relay : Bool) (dst seq : Nat) (body : List Nat) : OutMsg :=
  .flit n (flitBytes { seq, kind, relay, dst, src := position s, body } ack)

/-- The next record of the ring of a packet has an address range that does not wrap, and the ring has no tail word in host
memory. -/
def slotPlain (s : State) (h : Pkt) : Prop :=
  (ring s h.fn h.ring).cfg.tailAddr = 0 ∧ (ring s h.fn h.ring).cfg.cqBase + 32 * (ring s h.fn h.ring).cqTail + 32 ≤ 2 ^ 64

/-- The record of the packet with this status stands in host memory at the tail its ring's CQ had in `s`, and that tail has
advanced in `t` (R391, R395). -/
def recorded (s t : State) (h : Pkt) (op status : Nat) : Prop :=
  let r := ring s h.fn h.ring
  let a := r.cfg.cqBase + 32 * r.cqTail
  hrdN t h.fn (a + 8) 4 = r.sqHead % 65536 + status * 2 ^ 16 + op * 2 ^ 24 ∧ hrdN t h.fn (a + 24) 4 = h.tag.toNat ∧
    (ring t h.fn h.ring).cqTail = (r.cqTail + 1) % 2 ^ r.cfg.cqLog2 ∧ (ring t h.fn h.ring).sqHead = (r.sqHead + 1) % 2 ^ r.cfg.sqLog2

/-- What every chip reset leaves (R485, R515, R557): no partition, work unit, thread, ring, outstanding command or SPDM session, no
tenant key, the cluster memories zero, the cause recorded and counted, and the device in reset or at the start of its boot ROM. -/
def chipWasReset (s u : State) (code : Nat) : Prop :=
  u.parts = [] ∧ u.units = [] ∧ u.threads = [] ∧ u.hif.rings = [] ∧ u.hif.cmds = [] ∧ u.sec.sessions = [] ∧ u.handles = [] ∧
    (∀ k, k ≠ 0 → tget 0 u.dram.keys k = 0) ∧ (∀ a, 0x40000000 ≤ a → a < 0x62000000 → rb u a = 0) ∧ u.boot.pln = .stopped ∧
    rd u FLT_RST_CAUSE_CAUSE = code ∧ rd u FLT_RST_CAUSE_COUNT = satAdd (2 ^ FLT_RST_CAUSE_COUNT.width - 1) (rd s FLT_RST_CAUSE_COUNT) 1 ∧
    stage u = (if u.boot.perst || u.boot.held then 0 else 1)

end Sys2Proof.Machine
end

