-- ==== Sys2Proof/WellFormed.lean ====
section
/-!
DEFINITION. Sys2Proof/WellFormed.lean: which commands a sender can send. Operand widths are in the types of the constructors; what
is left is the length of a list that the interface fixes.
-/
namespace Sys2Proof

/-- A command with the operands its interface has: a sample of the die temperature names 16 sensors (R447). -/
def Instr.wf : Instr → Bool
  | .thermalSample temps => temps.length == 16
  | _ => true

end Sys2Proof
end

