-- ==== Sys2Proof/Certificates/Slice0/Obligations.lean ====
section
/-!
DEFINITION. Sys2Proof/Certificates/Slice0/Obligations.lean: the statements about the model. `completes c s P` is: `exec c s`
answers a next state, of which `P` holds (Safety.lean).
-/
open Sys2Proof Sys2Proof.Machine Sys2Proof.Machine.Reg

/-- For every command c, state s and queue rest: step of s with c at the front of its queue is exec c on s with the
queue's rest. (The queue is the model's.) -/
def Obligations.StepTakesFrontCommand : Prop :=
  ∀ (c : Instr) (rest : List Instr) (s : State), step { s with pending := c :: rest } = exec c { s with pending := rest }

/-- With no command waiting, a step answers a state whose device time is one tick of 10 ns later (modulo 2^64); where the work
of no stream frame has ended (a frame whose work has ended completes at that tick), nothing else changes. That an empty
queue lets one tick pass is the model's choice (log entry 10). -/
def Obligations.IdleStepCountsOneTick : Prop :=
  ∀ s : State, s.pending = [] → (∃ t, step s = .next t ∧ t.time = (s.time + 1) % 2 ^ 64) ∧
    ((∀ e ∈ s.cam, ∀ f ∈ e.2.frames, f.stage ≠ .finished) → step s = .next { s with time := (s.time + 1) % 2 ^ 64 })

/-- For every state and every well-formed command, exec answers a next state: no ordinary data and no state ends a run.
The one ill-formed command, a THERMAL_SAMPLE whose list does not have the 16 sensors of R447, ends in the fault
illFormed. -/
def Obligations.EveryCommandAnswers : Prop :=
  (∀ (i : Instr) (s : State), i.wf = true → ∃ t, exec i s = .next t) ∧
  (∀ (l : List (Option Int)) (s : State), l.length ≠ 16 → exec (.thermalSample l) s = .fault .illFormed)

/-- In the state right after reset the memories are in canonical form, the register file is in order, each value inside
its 32-bit register, and no stream context is listed beside the device's 48. -/
def Obligations.ResetKeepsCanonicalForm : Prop := Inv State.reset

/-- For every state that meets the invariant (device memory and host memory list rising addresses and no byte equal to
what an unlisted one reads as; the register file lists rising keys and each field's value lies inside its 32-bit
register; the stream contexts are among the device's 48), if a step answers a next state then that state meets it too,
whatever command was at the front of the queue. -/
def Obligations.EveryStepKeepsCanonicalForm : Prop := ∀ s t : State, Inv s → step s = .next t → Inv t

/-- For a READY thread whose turn it is in its core's round-robin order: SCALAR_OP writes its register and no other, or takes
the branch target as pc, and changes nothing but that thread and its core's turn (the pc after an instruction whose
length the spec does not give is a free value, log entry 4). A 4-byte THREAD_LOAD inside a memory it may read, of words
without an error, writes the register with the bytes read. A THREAD_STORE of up to 4 bytes inside AM or PM, into words
without an error that wait for no write-back, stores the low bytes of the register at its address and leaves every other
byte and every register as it was. An undefined scalar instruction, and a load or store outside, fault the thread (see
ThreadFaultStopsItsThread). -/
def Obligations.ThreadsComputeLoadAndStore : Prop :=
  ∀ (s : State) (t : ThreadId), canIssue s (tno t) = true →
    (∀ r v, completes (.scalarOp t (.set r v)) s fun u =>
      u = { s with threads := u.threads, cores := u.cores, free := u.free } ∧ issuedBy s u (tno t) ∧ (∀ j, j ≠ tno t → thr u j = thr s j) ∧
      tget 0 (thr u (tno t)).g r = v ∧ (∀ q : Nat, q ≠ r → tget 0 (thr u (tno t)).g q = tget 0 (thr s (tno t)).g q)) ∧
    (∀ a, completes (.scalarOp t (.branch a)) s fun u =>
      u = { s with threads := u.threads, cores := u.cores } ∧ issuedBy s u (tno t) ∧
      (∀ j, j ≠ tno t → thr u j = thr s j) ∧ (thr u (tno t)).pc = a.toNat ∧
      (thr u (tno t)).g = (thr s (tno t)).g) ∧
    (exec (.scalarOp t .undefined) s = .next (settleDoomed (issueFault s (tno t) 0x7F) t.cluster)) ∧
    (∀ m addr r, accessOk m addr 4 false = true → (clu s t.cluster).doomed = false →
      (∀ w ∈ wordsOf addr 4, cleanWord s (memBase t.cluster (memNo m) t.core + 8 * w)) →
      completes (.threadLoad t m addr 4 r .clean) s fun u =>
        u = { s with threads := u.threads, cores := u.cores, free := u.free } ∧ issuedBy s u (tno t) ∧ (∀ j, j ≠ tno t → thr u j = thr s j) ∧
        tget 0 (thr u (tno t)).g r = BitVec.ofNat 32 (rdN s (memBase t.cluster (memNo m) t.core + addr) 4) ∧
        (∀ q : Nat, q ≠ r → tget 0 (thr u (tno t)).g q = tget 0 (thr s (tno t)).g q)) ∧
    (∀ m addr len r, accessOk m addr len true = true → len ≤ 4 → (clu s t.cluster).doomed = false →
      (∀ w ∈ wordsOf addr len, cleanWord s (memBase t.cluster (memNo m) t.core + 8 * w)) →
      noWriteBack s t.cluster (memNo m) t.core (wordsOf addr len) →
      completes (.threadStore t m addr len r .clean) s fun u =>
        u = { s with mem := u.mem, threads := u.threads, cores := u.cores, free := u.free } ∧ issuedBy s u (tno t) ∧
        rdN u (memBase t.cluster (memNo m) t.core + addr) len = (tget 0 (thr s (tno t)).g r).toNat % 256 ^ len ∧
        sameMemBut s u (memBase t.cluster (memNo m) t.core + addr) len ∧
        (∀ q : Nat, tget 0 (thr u (tno t)).g q = tget 0 (thr s (tno t)).g q) ∧ (∀ j, j ≠ tno t → thr u j = thr s j)) ∧
    (∀ m addr len r e, accessOk m addr len false = false →
      exec (.threadLoad t m addr len r e) s = .next (settleDoomed (issueFault s (tno t) 0x7F) t.cluster)) ∧
    (∀ m addr len r e, accessOk m addr len true = false →
      exec (.threadStore t m addr len r e) s = .next (settleDoomed (issueFault s (tno t) 0x7F) t.cluster))

/-- For every thread of the 34 clusters, every state that meets the invariant, status and whether a memory reported the
error already: after the fault the thread's state is FAULTED (6), the bit of its core in CLU_CORE_FAULT is set, its
registers and its pc are as they were. With no work unit, the fault takes the instructions of a queue that holds none but
its own out of its core's array queue, and with that queue empty no byte of any memory changes. Where the array queues of
its unit's cores are empty, the unit is recorded as failed with the status. -/
def Obligations.ThreadFaultStopsItsThread : Prop :=
  ∀ (s : State) (t : ThreadId) (status : Nat) (reported : Bool), Inv s → let u := threadFault s (tno t) status reported
    thrState u (tno t) = 6 ∧ bit (rd u (CLU_CORE_FAULT_FAULT t.cluster (t.core / 32))) (t.core % 32) = true ∧
    (thr u (tno t)).g = (thr s (tno t)).g ∧ (thr u (tno t)).pc = (thr s (tno t)).pc ∧
    ((thr s (tno t)).unit = none → (∀ x ∈ (core s (tno t / 8)).arr, x.thread = tno t) →
      (core u (tno t / 8)).arr = [] ∧ u.host = s.host ∧ ((core s (tno t / 8)).arr = [] → u.mem = s.mem)) ∧
    (∀ id w, (thr s (tno t)).unit = some id → tfind id s.units = some w → (∀ cn ∈ faultCores s (tno t), (core s cn).arr = []) →
      tfind id u.units = some { w with failed := true, why := status })

/-- For a READY thread at its turn with no fault due: WAIT on a set tag lets the thread go on (it stays READY); WAIT on the tag of a
pending move or array instruction puts it in WAIT_MOVE (2) and of a pending vector or engine operation in WAIT_VEC
(4). CORE_BARRIER with another started thread of the core not yet there puts the thread in WAIT_BAR (5), and when all
the other started threads are at the barrier, every thread of the core that was there and this one are READY again.
CLUSTER_BARRIER of a core not yet there, with more cores named than have arrived with it, makes the thread wait and counts
its core; with its arrival the last one named, the thread and all that waited there are READY and none waits at the
counter. END stops its thread (0): one without a work unit, one with a thread of its unit still running (the unit goes on),
and the last of its unit (the unit has ended). A WAIT on a tag with an error faults the thread, and with a fault due WAIT and
the barriers do. -/
def Obligations.ThreadsWaitAndEnd : Prop :=
  ∀ (s : State) (t : ThreadId), canIssue s (tno t) = true →
    ((thr s (tno t)).faultDue = true → (∀ n, exec (.wait t n) s = .next (settleDoomed (issueFault s (tno t) 0x7F) t.cluster)) ∧
      exec (.coreBarrier t) s = .next (settleDoomed (issueFault s (tno t) 0x7F) t.cluster) ∧
      ∀ n cores, exec (.clusterBarrier t n cores) s = .next (settleDoomed (issueFault s (tno t) 0x7F) t.cluster)) ∧
    ((thr s (tno t)).faultDue = false →
      (∀ n : Fin 8, tagOf s (tno t) n = .done → completes (.wait t n) s fun u =>
        u = { s with threads := u.threads, cores := u.cores, free := u.free } ∧ issuedBy s u (tno t) ∧ thrState u (tno t) = 1) ∧
      (∀ n : Fin 8, tagOf s (tno t) n = .pendMove → completes (.wait t n) s fun u =>
        u = { s with threads := u.threads, cores := u.cores, free := u.free, regs := u.regs } ∧ sameRegsBut s u [thrField (tno t)] ∧
        thrState u (tno t) = 2 ∧ (thr u (tno t)).wait = .tag n) ∧
      (∀ n : Fin 8, tagOf s (tno t) n = .pendVector → completes (.wait t n) s fun u =>
        u = { s with threads := u.threads, cores := u.cores, free := u.free, regs := u.regs } ∧ sameRegsBut s u [thrField (tno t)] ∧
        thrState u (tno t) = 4 ∧ (thr u (tno t)).wait = .tag n) ∧
      (∀ (n : Fin 8) (e : Nat), tagOf s (tno t) n = .error e → exec (.wait t n) s =
        .next (settleDoomed (threadFault (noteIssue s (tno t)) (tno t) e (e == 0x61)) t.cluster)) ∧
      (∀ j, j / 8 = tno t / 8 → j ≠ tno t → thrState s j ≠ 0 → thrState s j ≠ 6 → (thr s j).wait ≠ .coreBarrier →
        completes (.coreBarrier t) s fun u =>
          u = { s with threads := u.threads, cores := u.cores, free := u.free, regs := u.regs } ∧ sameRegsBut s u [thrField (tno t)] ∧
          thrState u (tno t) = 5 ∧ (thr u (tno t)).wait = .coreBarrier) ∧
      ((∀ j, j / 8 = tno t / 8 → j ≠ tno t → thrState s j ≠ 0 → thrState s j ≠ 6 →
          (thr s j).wait = .coreBarrier ∧ thrState s j ≠ 7) →
        completes (.coreBarrier t) s fun u => thrState u (tno t) = 1 ∧
          (∀ j, j / 8 = tno t / 8 → thrState s j ≠ 0 → thrState s j ≠ 6 → thrState u j = 1) ∧ u.mem = s.mem ∧ u.host = s.host) ∧
      (∀ (n : Fin 16) (cores : Nat), (∀ i < 8, (thr s (tno t / 8 * 8 + i)).wait ≠ .clusterBarrier n) →
        (arrivedCores s t.cluster n + 1 < cores → completes (.clusterBarrier t n cores) s fun u =>
          u = { s with threads := u.threads, cores := u.cores, free := u.free, regs := u.regs } ∧
          sameRegsBut s u [thrField (tno t)] ∧ thrState u (tno t) = 5 ∧ (thr u (tno t)).wait = .clusterBarrier n ∧
          arrivedCores u t.cluster n = arrivedCores s t.cluster n + 1) ∧
        (cores = arrivedCores s t.cluster n + 1 → completes (.clusterBarrier t n cores) s fun u => thrState u (tno t) = 1 ∧
          (∀ j, j / 512 = t.cluster.val → (thr s j).wait = .clusterBarrier n → thrState s j ≠ 7 → thrState u j = 1) ∧
          (∀ j, j / 512 = t.cluster.val → (thr u j).wait ≠ .clusterBarrier n) ∧ u.mem = s.mem ∧ u.host = s.host))) ∧
    ((thr s (tno t)).unit = none → completes (.threadEnd t) s fun u => thrState u (tno t) = 0 ∧ u.mem = s.mem ∧ u.host = s.host) ∧
    (∀ id w, (thr s (tno t)).unit = some id → tfind id s.units = some w →
      (∀ j ∈ w.threads, j ≠ tno t → j < 17408 → thrState s j ≠ 0 → thrState s j ≠ 6 → (clu s t.cluster).initPend = false →
        completes (.threadEnd t) s fun u => thrState u (tno t) = 0 ∧ u.units = s.units ∧ u.mem = s.mem ∧ u.host = s.host) ∧
      (w.threads = [tno t] → completes (.threadEnd t) s fun u => thrState u (tno t) = 0 ∧ tfind id u.units = none))

/-- For every cluster, value and state: when CLU_STAT.STATE is IDLE (2) and the value maps no logical number that another
mapped cluster carries, CLU_MAP_WRITE writes LOGICAL, MAPPED and PART and nothing else of the machine; otherwise it
sets CLU_STAT.MAP_REJ and changes nothing else. -/
def Obligations.ClusterMapWrite : Prop :=
  ∀ (s : State) (n : Fin 34) (v : BitVec 32),
    let ok := rd s (CLU_STAT_STATE n) = 2 ∧ (bit v.toNat 8 = true →
      ∀ m : Fin 34, m ≠ n → isSet s (CLU_MAP_MAPPED m) = true → rd s (CLU_MAP_LOGICAL m) ≠ bits v.toNat 0 5)
    (ok → completes (.cluMapWrite n v) s fun u => u = { s with regs := u.regs } ∧
      rd u (CLU_MAP_LOGICAL n) = bits v.toNat 0 5 ∧ rd u (CLU_MAP_MAPPED n) = bits v.toNat 8 1 ∧
      rd u (CLU_MAP_PART n) = bits v.toNat 16 4 ∧ sameRegsBut s u [CLU_MAP_LOGICAL n, CLU_MAP_MAPPED n, CLU_MAP_PART n]) ∧
    (¬ok → completes (.cluMapWrite n v) s fun u => u = { s with regs := u.regs } ∧
      rd u (CLU_STAT_MAP_REJ n) = 1 ∧ sameRegsBut s u [CLU_STAT_MAP_REJ n])

/-- For every cluster: POWER 1 is taken in every state but RETIRED, POWER 0 in OFF and IDLE (the cluster is then OFF with
POWER 0). INIT in IDLE, or in OFF with power good, enters INIT and every byte of the cluster's memories reads 0; in
OFF without power good it waits for it. QUIESCE in IDLE or ACTIVE gives QUIESCING while a work unit runs on the
cluster, and IDLE with QUIESCE 0 when none runs and no vector or engine operation is queued. A transition not allowed
sets CTRL_REJ and nothing else. RETIRE in any state but RETIRED, and a quiesce timeout in QUIESCING, give RETIRED with
RETIRE 1, MAPPED 0, POWER 0. Power good lets a waiting INIT begin. INIT done with its self-test passed gives IDLE,
when no partition waits for the cluster; failed, it gives RETIRED. -/
def Obligations.ClusterStatesAndControl : Prop :=
  ∀ (s : State) (n : Fin 34), let st := rd s (CLU_STAT_STATE n)
    let rej := fun (c : Instr) => completes c s fun u =>
      u = { s with regs := u.regs } ∧ rd u (CLU_STAT_CTRL_REJ n) = 1 ∧ sameRegsBut s u [CLU_STAT_CTRL_REJ n]
    let retired := fun (u : State) => rd u (CLU_STAT_STATE n) = 5 ∧ rd u (CLU_CTRL_RETIRE n) = 1 ∧ rd u (CLU_MAP_MAPPED n) = 0 ∧
      rd u (CLU_CTRL_POWER n) = 0
    let inInit := fun (u : State) => rd u (CLU_STAT_STATE n) = 1 ∧ rd u (CLU_CTRL_INIT n) = 1 ∧
      ∀ a, 0x40100000 + n * 0x1000000 ≤ a → a < 0x41000000 + n * 0x1000000 → rb u a = 0
    (st ≠ 5 → completes (.cluCtrlPower n true) s fun u => u = { s with regs := u.regs } ∧ rd u (CLU_CTRL_POWER n) = 1 ∧
      sameRegsBut s u [CLU_CTRL_POWER n]) ∧
    (st = 5 → rej (.cluCtrlPower n true)) ∧
    (st = 0 ∨ st = 2 → completes (.cluCtrlPower n false) s fun u => rd u (CLU_STAT_STATE n) = 0 ∧ rd u (CLU_CTRL_POWER n) = 0) ∧
    (st ≠ 0 → st ≠ 2 → rej (.cluCtrlPower n false)) ∧
    (st = 2 ∨ (st = 0 ∧ (clu s n).powerGood = true) → completes (.cluCtrlInit n) s inInit) ∧
    (st = 0 → (clu s n).powerGood = false → isSet s (CLU_CTRL_POWER n) = true → completes (.cluCtrlInit n) s fun u =>
      rd u (CLU_STAT_STATE n) = 0 ∧ rd u (CLU_CTRL_INIT n) = 1 ∧ (clu u n).initPend = true ∧ sameRegsBut s u [CLU_CTRL_INIT n] ∧
      u.mem = s.mem ∧ u.host = s.host) ∧
    (st ≠ 2 → st ≠ 0 → rej (.cluCtrlInit n)) ∧
    (st = 0 → (clu s n).powerGood = false → isSet s (CLU_CTRL_POWER n) = false → rej (.cluCtrlInit n)) ∧
    (st = 2 ∨ st = 3 → clusterBusy s n = true → completes (.cluCtrlQuiesce n) s fun u => u = { s with regs := u.regs } ∧
      rd u (CLU_STAT_STATE n) = 4 ∧ rd u (CLU_CTRL_QUIESCE n) = 1 ∧ sameRegsBut s u [CLU_STAT_STATE n, CLU_CTRL_QUIESCE n]) ∧
    (st = 2 ∨ st = 3 → clusterBusy s n = false → vecBusy s n = false → completes (.cluCtrlQuiesce n) s fun u =>
      u = { s with regs := u.regs } ∧ rd u (CLU_STAT_STATE n) = 2 ∧ rd u (CLU_CTRL_QUIESCE n) = 0 ∧
      sameRegsBut s u [CLU_STAT_STATE n, CLU_CTRL_QUIESCE n]) ∧
    (st ≠ 2 → st ≠ 3 → rej (.cluCtrlQuiesce n)) ∧
    (Inv s → st ≠ 5 → completes (.cluCtrlRetire n) s retired) ∧
    (Inv s → st = 4 → completes (.quiesceTimeout n) s retired) ∧
    (st = 0 → isSet s (CLU_CTRL_POWER n) = true → (clu s n).initPend = true → completes (.clusterPowerGood n) s inInit) ∧
    (st = 0 → isSet s (CLU_CTRL_POWER n) = true → (clu s n).initPend = false → completes (.clusterPowerGood n) s fun u =>
      u = { s with clusters := u.clusters } ∧ (clu u n).powerGood = true) ∧
    (st = 1 → (∀ e ∈ s.parts, e.2.fence ≠ .resetting ∧ e.2.ending = false ∧ e.2.joining = [] ∧ e.2.leaving = [] ∧ e.2.resize = none) →
      completes (.clusterInitDone n true) s fun u => u = { s with regs := u.regs } ∧ rd u (CLU_STAT_STATE n) = 2 ∧
        rd u (CLU_CTRL_INIT n) = 0 ∧ sameRegsBut s u [CLU_STAT_STATE n, CLU_CTRL_INIT n]) ∧
    (Inv s → st = 1 → s.parts = [] → completes (.clusterInitDone n false) s retired)

/-- Reading CLU_ECC_CNT of a memory of a cluster returns UE in bits 31:16 and CE in bits 15:0 and clears both; reading
CLU_DMA_STAT returns the register and clears ERR_CNT. No other register, no memory and no thread changes. -/
def Obligations.ClusterReadsClearTheirCounts : Prop :=
  (∀ (s : State) (n : Fin 34) (m : Fin 5), completes (.cluEccCntRead n m) s fun u =>
    u = { s with regs := u.regs, out := s.out ++ [.value (rd s (CLU_ECC_CNT_UE n m) * 2 ^ 16 + rd s (CLU_ECC_CNT_CE n m))] } ∧
    rd u (CLU_ECC_CNT_UE n m) = 0 ∧ rd u (CLU_ECC_CNT_CE n m) = 0 ∧ sameRegsBut s u [CLU_ECC_CNT_UE n m, CLU_ECC_CNT_CE n m]) ∧
  (∀ (s : State) (n : Fin 34), completes (.cluDmaStatRead n) s fun u =>
    u = { s with regs := u.regs, out := s.out ++ [.value (rd s (CLU_DMA_STAT_ACTIVE_Q n) * 2 ^ 16 +
      rd s (CLU_DMA_STAT_ERR_CNT n) * 2 ^ 8 + rd s (CLU_DMA_STAT_BUSY n))] } ∧
    rd u (CLU_DMA_STAT_ERR_CNT n) = 0 ∧ sameRegsBut s u [CLU_DMA_STAT_ERR_CNT n])

/-- For a bank of a cluster that is scrubbed: a clean read of a word without an error, with no write-back waiting,
advances the scrubber to the next word of the bank (wrapping) and changes no memory; a corrected read of it makes that
word's write-back wait and the scrubber stays; an uncorrectable one leaves the word poisoned and the scrubber advances
(in a cluster that R18 does not then retire). With a write-back waiting, SCRUB_WRITE_BACK, or a forced slot that is due,
carries it out, after which the word has no error, and advances; a forced slot that is due with none waiting reads like
SCRUB_READ, and one that is not due does nothing. -/
def Obligations.ScrubbersAdvance : Prop :=
  ∀ (s : State) (b : BankId), scrubbed s b = true →
    let w := (scrubber s b).next * memBanks b.mem + b.bank
    let a := memBase b.cluster b.mem b.core + 8 * w
    let next := fun (u : State) => (scrubber u b).next = ((scrubber s b).next + 1) % bankWords b.mem ∧ (scrubber u b).writeBack = none ∧
      u.mem = s.mem ∧ u.host = s.host
    ((scrubber s b).writeBack = none → cleanWord s a →
      completes (.scrubRead b .clean) s next ∧ (forcedDue s b = true → completes (.forcedScrubSlot b .clean) s next)) ∧
    (forcedDue s b = false → ∀ e, exec (.forcedScrubSlot b e) s = .next s) ∧
    ((scrubber s b).writeBack = none → cleanWord s a →
      (clu (eccDetect (addUpset s a false) b.cluster b.mem b.core w false) b.cluster).doomed = false →
      completes (.scrubRead b .corrected) s fun u => (scrubber u b).writeBack = some w ∧ (scrubber u b).next = (scrubber s b).next ∧
        u.mem = s.mem) ∧
    ((scrubber s b).writeBack = none → cleanWord s a →
      (clu (eccDetect (addUpset s a true) b.cluster b.mem b.core w true) b.cluster).doomed = false →
      completes (.scrubRead b .uncorrectable) s fun u => poisoned u a = true ∧ next u) ∧
    (∀ v, (scrubber s b).writeBack = some v →
      let done := fun (u : State) => next u ∧ upset u (memBase b.cluster b.mem b.core + 8 * v) = none
      completes (.scrubWriteBack b) s done ∧ (forcedDue s b = true → ∀ e, completes (.forcedScrubSlot b e) s done))

/-- For a READY thread at its turn, in a cluster that meets no condition of R18: a defined MATMUL or CONV (whatever the thread's
privilege) enters an empty array queue of an array that is not frozen and starts, with the output scale set entry in force,
a CONV with the four words of its window descriptor (which must be without an error and defined); the thread goes on 16
bytes further and a tag it names awaits completion. A defined STREAM of a privileged work unit enters an empty queue and
starts with OUT_SPACE at its ring size and, with IN_CREDIT 0, no row streamed. Behind a started MATMUL or CONV an
instruction enters second and does not start. With two instructions in the queue the thread waits in WAIT_ARRAY (3). An
undefined instruction faults the thread. No memory changes at the issue. -/
def Obligations.ArrayInstructionsAreIssued : Prop :=
  ∀ (s : State) (t : ThreadId), canIssue s (tno t) = true → (clu s t.cluster).doomed = false →
    let k := tno t
    let c := core s (k / 8)
    let q := fun (word : Nat) => tget 0 c.qset (arrFields word).qset
    let defined := fun (word : Nat) => ∀ p, arrUndefined word p (q word) = false
    let ent := fun (word : Nat) (y : ArrInstr) => y.word = word ∧ y.thread = k ∧ y.qset = q word ∧ y.rows = 0
    let after := fun (word : Nat) (u : State) => (thr u k).pc = ((thr s k).pc + 16) % 16384 ∧
      ((arrFields word).tagEn = true → tagOf u k (arrFields word).tag = .pendMove) ∧ thrState u k = 1 ∧
      u = { s with threads := u.threads, cores := u.cores }
    let full := fun (u : State) => thrState u k = 3 ∧ (thr u k).wait = .arrayQueue ∧ u.cores = s.cores ∧
      sameRegsBut s u [thrField k] ∧ u.mem = s.mem
    let faulted := Host.Outcome.next (settleDoomed (issueFault s k 0x7F) t.cluster)
    (∀ (w : BitVec 120), let word := 0x20 * 2 ^ 120 + w.toNat
      (defined word → c.arr = [] → c.freezers = [] → completes (.matmul t w) s fun u => after word u ∧
        ∃ y, (core u (k / 8)).arr = [y] ∧ ent word y ∧ y.started = true ∧ y.hazard = false) ∧
      (defined word → ∀ x : ArrInstr, c.arr = [x] → x.started = true → (arrFields x.word).opc ≠ 0x22 →
        completes (.matmul t w) s fun u => after word u ∧ ∃ y, (core u (k / 8)).arr = [x, y] ∧ ent word y ∧ y.started = false) ∧
      (defined word → 2 ≤ c.arr.length → completes (.matmul t w) s full) ∧
      ((∀ p, arrUndefined word p (q word) = true) → exec (.matmul t w) s = faulted)) ∧
    (∀ (w : BitVec 120), let word := 0x21 * 2 ^ 120 + w.toNat
      let words := (List.range 4).map (fun i => rdWord s (k / 512) 1 (k / 8 % 64) (bits word 12 12 + i))
      (defined word → c.arr = [] → c.freezers = [] →
        (∀ i < 4, cleanWord s (memBase (k / 512) 1 (k / 8 % 64) + 8 * (bits word 12 12 + i))) → winUndefined word (winOf words) = false →
        completes (.conv t w []) s fun u => after word u ∧
          ∃ y, (core u (k / 8)).arr = [y] ∧ ent word y ∧ y.started = true ∧ y.hazard = false ∧ y.window = words) ∧
      (defined word → 2 ≤ c.arr.length → completes (.conv t w []) s full) ∧
      ((∀ p, arrUndefined word p (q word) = true) → exec (.conv t w []) s = faulted)) ∧
    (∀ (w : BitVec 120), let word := 0x22 * 2 ^ 120 + w.toNat
      let y0 : ArrInstr := { word, thread := k, qset := q word }
      (∀ (id : Nat) (unit : WorkUnit), (thr s k).unit = some id → tfind id s.units = some unit → unit.priv = true →
        arrUndefined word true (q word) = false →
        (c.arr = [] → c.freezers = [] → c.inCredit = 0 →
          (∀ p ∈ passes y0, ∀ v ∈ passWords (arrFields word) p.at', cleanWord s (memBase (k / 512) 0 (k / 8 % 64) + 8 * v)) →
          (∀ v ∈ scaleWords y0, cleanWord s (memBase (k / 512) 1 (k / 8 % 64) + 8 * v)) →
          completes (.stream t w []) s fun u => after word u ∧ (core u (k / 8)).outSpace = oRing word ∧
            ∃ y, (core u (k / 8)).arr = [y] ∧ ent word y ∧ y.started = true) ∧
        (2 ≤ c.arr.length → completes (.stream t w []) s full)) ∧
      ((∀ p, arrUndefined word p (q word) = true) → exec (.stream t w []) s = faulted))

/-- When the one instruction in a core's array queue is a started MATMUL or CONV of an array that is not frozen, which read no
word an earlier instruction was writing and whose operands are as they were when it started, and none of its accesses is
stopped by a poisoned word or a read outside the tile, ARRAY_INSTRUCTION_COMPLETE takes it out, and a tag it names is set.
For a MATMUL of one INT8 row, column and element with OMODE 0 and ACC 0, the PM half-word of the result then holds the exact
product of the activation byte and the weight byte as a 32-bit two's complement number. STREAM_END of a stopped STREAM, or
of one whose rows are streamed in an array that is not frozen, takes it out and sets its tag. (The cluster meets no
condition of R18.) -/
def Obligations.ArrayInstructionsComplete : Prop :=
  ∀ (s : State) (n : Fin 34) (c : Fin 64) (x : ArrInstr), let cn := coreNo n c
    let f := arrFields x.word
    let gone := fun (u : State) => (core u cn).arr = [] ∧ (f.tagEn = true → tagOf u x.thread f.tag = .done) ∧ u.host = s.host
    let z := runAccesses cn ((passes x).flatMap (passAccesses x)) s
    (core s cn).arr = [x] → x.started = true →
    (f.opc ≠ 0x22 → (core s cn).freezers = [] → x.hazard = false → operandValues s cn x = x.seen → z.2 = .none →
      (clu z.1 n).doomed = false →
      completes (.arrayInstructionComplete n c []) s gone ∧
      (f.opc = 0x20 → f.wfmt = 0 → f.afmt = 0 → f.m = 1 → f.n = 1 → f.k = 1 → f.omode = 0 → f.acc = false →
        f.p + 8 ≤ 1024 → f.a < 4096 → f.w < 4096 →
        completes (.arrayInstructionComplete n c []) s fun u =>
          bits (rdWord u n 2 c f.p) 0 32 =
            ofInt32 (signExt 8 (bits (rdWord s n 0 c f.w) 0 8) * signExt 8 (bits (rdWord s n 1 c f.a) 0 8)) ∧
          sameMemBut s u (memBase n 2 c + 8 * f.p) 64)) ∧
    (f.opc = 0x22 → (clu s n).doomed = false →
      (∀ stopped, stopped = true ∨ (x.rows = streamRows x.word ∧ (core s cn).freezers = []) →
        completes (.streamEnd n c stopped []) s fun u => gone u ∧ (f.acc = false → u.mem = s.mem)))

/-- In a cluster that meets no condition of R18: ARR_CREDIT of a READY thread at its turn raises IN_CREDIT or OUT_SPACE,
saturating at the ring size of the STREAM its core executes (here one that the other counter holds back), or at 64 groups
with an empty queue. For a core that executes an array instruction: in an array that is not frozen, ARRAY_STALL adds one
slip, up to 4, to each link that is named or that the STREAM's credits stall, to no other, and the array freezes on exactly
those of them that had 4; while it is frozen, every link that does not stall recovers one step, and the freeze goes on while
one of the links that caused it has slip left. FREEZE_END of a freeze no credit holds brings the links that caused it to 0,
every link that stalls no longer recovering as many steps, and the array runs (here with nothing that then streams).
GAP_LIMIT_REACHED in a gap ramps the active cells down, and outside a gap does nothing. None of these changes anything but
its core, ARR_CREDIT its thread too; the two array events do nothing with no instruction to stall or no freeze to end. -/
def Obligations.StreamCreditsAndStalls : Prop :=
  (∀ (s : State) (t : ThreadId) (n : Nat), canIssue s (tno t) = true → (clu s t.cluster).doomed = false →
    let cn := tno t / 8
    let only := fun (u : State) => u = { s with cores := u.cores, threads := u.threads, free := u.free } ∧
      ∀ j, j ≠ cn → core u j = core s j
    (∀ (x : ArrInstr) (l : List ArrInstr), (core s cn).arr = x :: l → (arrFields x.word).opc = 0x22 →
      ((core s cn).outSpace = 0 → completes (.arrCredit t false n []) s fun u => only u ∧
        (core u cn).inCredit = satAdd (aRing x.word) (core s cn).inCredit n ∧ (core u cn).outSpace = 0) ∧
      ((core s cn).inCredit = 0 → completes (.arrCredit t true n []) s fun u => only u ∧
        (core u cn).outSpace = satAdd (oRing x.word) (core s cn).outSpace n ∧ (core u cn).inCredit = 0)) ∧
    ((core s cn).arr = [] →
      (completes (.arrCredit t false n []) s fun u => only u ∧ (core u cn).inCredit = satAdd 64 (core s cn).inCredit n) ∧
      (completes (.arrCredit t true n []) s fun u => only u ∧ (core u cn).outSpace = satAdd 64 (core s cn).outSpace n))) ∧
  (∀ (s : State) (n : Fin 34) (c : Fin 64), (clu s n).doomed = false →
    let cn := coreNo n c
    let k := core s cn
    let slip := fun (u : State) (l : Fin 16) => tget 0 (core u cn).slips l
    let only := fun (u : State) => u = { s with cores := u.cores } ∧ (∀ j, j ≠ cn → core u j = core s j) ∧ (core u cn).arr = k.arr
    (∀ links : List (Fin 16), let stalled := fun (l : Fin 16) => l ∈ links ∨ l.val ∈ creditStalls k
      (executing k = false → exec (.arrayStall n c links) s = .next s) ∧
      (executing k = true → k.freezers = [] → completes (.arrayStall n c links) s fun u => only u ∧
        (∀ l, stalled l → slip u l = min 4 (slip s l + 1)) ∧ (∀ l, ¬stalled l → slip u l = slip s l) ∧
        ∀ l : Fin 16, l.val ∈ (core u cn).freezers ↔ stalled l ∧ slip s l = 4) ∧
      (executing k = true → (∃ l : Fin 16, l.val ∈ k.freezers ∧ ((stalled l ∧ slip s l ≠ 0) ∨ 2 ≤ slip s l)) →
        completes (.arrayStall n c links) s fun u => only u ∧ (core u cn).freezers = k.freezers ∧
          (∀ l, stalled l → slip u l = slip s l) ∧ ∀ l, ¬stalled l → slip u l = slip s l - 1)) ∧
    (k.freezers = [] → exec (.freezeEnd n c) s = .next s) ∧
    (∀ (x : ArrInstr) (l : List ArrInstr) (m : Nat), k.arr = x :: l → x.started = true →
      ((arrFields x.word).opc ≠ 0x22 ∨ k.inCredit = 0 ∨ k.outSpace = 0) → k.freezers ≠ [] →
      (∀ l ∈ k.freezers, l < 16 ∧ l ∉ creditStalls k ∧ tget 0 k.slips l ≤ m) → (∃ l ∈ k.freezers, tget 0 k.slips l = m) →
      completes (.freezeEnd n c) s fun u => only u ∧ (core u cn).freezers = [] ∧ (core u cn).rampedDown = false ∧
        (∀ l : Fin 16, l.val ∈ k.freezers → slip u l = 0) ∧
        ∀ l : Fin 16, slip u l = if l.val ∈ creditStalls k then slip s l else slip s l - m) ∧
    (executing k = false ∨ k.freezers ≠ [] ∨ creditStalls k ≠ [] → completes (.gapLimitReached n c) s fun u => only u ∧
      (core u cn).rampedDown = true ∧ (core u cn).freezers = k.freezers) ∧
    (executing k = true → k.freezers = [] → creditStalls k = [] → exec (.gapLimitReached n c) s = .next s))

/-- For a READY thread at its turn: a defined VECTOR_OP, and an ENG whose command address is a multiple of 4 inside AM, enter the
core's vector queue behind what is there, while it holds fewer than two entries, with the tag awaiting completion;
with two entries the thread waits in WAIT_VECTOR (4); a queued conversion keeps the output scale set entry of its issue (log
entry 149). An undefined one faults the thread. SETQ of a word without an error (in a cluster that meets no condition of
R18) loads it into the named output scale set entry and leaves the other entries. CNT_RD puts SAT_ACC, SAT_OUT or
NONFINITE of the core, or of the cluster's vector unit, into its register and no other. -/
def Obligations.VectorInstructionsAreIssued : Prop :=
  ∀ (s : State) (t : ThreadId), canIssue s (tno t) = true →
    let k := tno t
    let queued := fun (e : VecEntry) (tag : Fin 8) (u : State) => vecQueue u (k / 8) = vecQueue s (k / 8) ++ [e] ∧
      tagOf u k tag = .pendVector ∧ u = { s with clusters := u.clusters, threads := u.threads, cores := u.cores, free := u.free } ∧
      issuedBy s u k
    let waits := fun (u : State) => thrState u k = 4 ∧ (thr u k).wait = .vectorQueue ∧ sameRegsBut s u [thrField k] ∧
      u = { s with threads := u.threads, regs := u.regs }
    (∀ op, vecUndefined s k op = false → (vecQueue s (k / 8)).length < 2 →
      completes (.vectorOp t op) s (queued (.vec k op (vecEntry s k op)) op.tag)) ∧
    (∀ op, vecUndefined s k op = false → 2 ≤ (vecQueue s (k / 8)).length → completes (.vectorOp t op) s waits) ∧
    (∀ op, vecUndefined s k op = true → exec (.vectorOp t op) s = .next (issueFault s k 0x7F)) ∧
    (∀ addr tag, addr % 4 = 0 → addr + 4 ≤ 4096 →
      ((vecQueue s (k / 8)).length < 2 → completes (.eng t addr tag) s (queued (.eng k addr tag) tag)) ∧
      (2 ≤ (vecQueue s (k / 8)).length → completes (.eng t addr tag) s waits)) ∧
    (∀ addr tag, ¬(addr % 4 = 0 ∧ addr + 4 ≤ 4096) → exec (.eng t addr tag) s = .next (issueFault s k 0x7F)) ∧
    (∀ (e : Fin 64) (addr : Fin 4096), cleanWord s (memBase t.cluster 1 t.core + 8 * addr) → (clu s t.cluster).doomed = false →
      completes (.setq t e addr .clean) s fun u =>
      tget 0 (core u (k / 8)).qset e = rdWord s t.cluster 1 t.core addr ∧
      (∀ q : Nat, q ≠ e → tget 0 (core u (k / 8)).qset q = tget 0 (core s (k / 8)).qset q) ∧
      u = { s with cores := u.cores, threads := u.threads, free := u.free }) ∧
    (∀ (which : Fin 3) (vector : Bool) (r : Fin 32), completes (.cntRd t which vector r) s fun u =>
      tget 0 (thr u k).g r = BitVec.ofNat 32
        (if vector then [(clu s t.cluster).satAcc, (clu s t.cluster).satOut, (clu s t.cluster).nonfinite].getD which 0
         else [(core s (k / 8)).satAcc, (core s (k / 8)).satOut, (core s (k / 8)).nonfinite].getD which 0) ∧
      (∀ q : Nat, q ≠ r → tget 0 (thr u k).g q = tget 0 (thr s k).g q) ∧ issuedBy s u k ∧
      u = { s with threads := u.threads, cores := u.cores, free := u.free })

/-- With sources and destinations without an error, in a cluster that meets no condition of R18 and waits for no INIT:
VECTOR_COMPLETE takes the vector operation or collector feed at the front out of the core's queue and sets its tag; of an
FP32 addition, product, maximum (of numbers) or fused multiply-add of one element, the destination holds the RNE result of
the sources and no other byte changes. ENGINE_OP_START on an idle engine whose round-robin turn has come to the core takes
up the engine operation at the front (any but a defined RESAMPLE of no boxes, which only sets its tag), with the four words
of its command; ENGINE_OP_COMPLETE frees the engine, sets the tag and takes the entry out. -/
def Obligations.VectorUnitCompletes : Prop :=
  ∀ (s : State) (n : Fin 34) (c : Fin 64), (clu s n).doomed = false → (clu s n).initPend = false →
    let cn := coreNo n c
    let popped := fun (k : Nat) (tag : Nat) (u : State) => vecQueue u cn = (vecQueue s cn).tail ∧ tagOf u k tag = .done ∧ u.host = s.host
    (∀ k cmd e l, vecQueue s cn = .vec k cmd e :: l → (∀ x ∈ vecReads cn cmd e, cleanWord s (memBase n x.1 x.2.1 + 8 * x.2.2)) →
      cleanBytes s (regionAddr cn cmd.dst) (ceilDiv (vecDstBits cmd * cmd.count) 8) →
      completes (.vectorComplete n c []) s (popped k cmd.tag) ∧
      (cmd.count = 1 →
        let x := rdN s (regionAddr cn cmd.a) 4
        let y := rdN s (regionAddr cn cmd.b) 4
        let z := rdN s (regionAddr cn cmd.c) 4
        let is := fun (v : Nat) => completes (.vectorComplete n c []) s fun u =>
          rdN u (regionAddr cn cmd.dst) 4 = v % 2 ^ 32 ∧ sameMemBut s u (regionAddr cn cmd.dst) 4
        (cmd.kind = .add → is (fadd x y)) ∧ (cmd.kind = .mul → is (fmul x y)) ∧ (cmd.kind = .fma → is (ffma x y z)) ∧
        (cmd.kind = .max → ofFp32 x ≠ .nan → ofFp32 y ≠ .nan → is (if flLess (ofFp32 x) (ofFp32 y) then y else x)))) ∧
    (∀ k i fmt src count tag l, vecQueue s cn = .feed k i fmt src count tag :: l →
      cleanBytes s (regionAddr cn src) (ceilDiv (fmtBits fmt * count) 8) →
      completes (.vectorComplete n c []) s (popped k tag)) ∧
    (∀ k addr tag l, vecQueue s cn = .eng k addr tag :: l → (clu s n).engine = none → nextEng s n = some c.val →
      let words := (List.range 4).map (fun i => rdWord s n 1 c (addr + i))
      (∀ i < 4, cleanWord s (memBase n 1 c + 8 * (addr + i))) →
      (¬(engUndefined words = false ∧ (engFields words).op = 2 ∧ bits (engFields words).w0 9 11 = 0) →
        completes (.engineOpStart n c []) s fun u =>
          (clu u n).engine = some ⟨c, k, tag, words⟩ ∧ (clu u n).lastEng = c.val ∧ vecQueue u cn = vecQueue s cn ∧
          u = { s with clusters := u.clusters, regs := u.regs } ∧ sameRegsBut s u [CLU_STAT_STATE n]) ∧
      (engUndefined words = false → (engFields words).op = 2 → bits (engFields words).w0 9 11 = 0 →
        completes (.engineOpStart n c []) s fun u => (clu u n).engine = none ∧ popped k tag u)) ∧
    (∀ o : EngineOp, (clu s n).engine = some o → o.core = c → engUndefined o.words = false →
      let f := engFields o.words
      cleanBytes s (memBase n 4 0 + f.src) (f.h * f.w * f.c * f.e) →
      (f.op = 2 → cleanBytes s (memBase n 4 0 + bits f.w3 44 20) (16 * bits f.w0 9 11)) →
      cleanBytes s (memBase n 4 0 + f.dst) (engOutBytes f) →
      completes (.engineOpComplete n []) s fun u => (clu u n).engine = none ∧ popped o.thread o.tag u)

/-- For a READY thread at its turn: STAT_ACQ takes the lowest free collector of its cluster for the partition of the cluster with its
values zeroed, or waits in WAIT_VECTOR (4) while none is free. STAT_FEED of a collector that is held queues the
region. STAT_COMMIT of a held collector raises every channel's committed value to max(o, RNE(d * m)) of the fed and
the committed value and zeroes the fed ones; STAT_READ writes the committed values as FP32 words in channel order and no
other byte (into words without an error); STAT_FREE releases the collector, or marks it to be released when a feed to it is in flight. On a
collector nobody holds, the thread faults. -/
def Obligations.CollectorsCollect : Prop :=
  ∀ (s : State) (t : ThreadId), canIssue s (tno t) = true →
    let k := tno t
    let n := t.cluster.val
    (∀ pc channels (decay : BitVec 8) (i : Fin 8), (coll s n i).owner = none → (∀ j < i.val, (coll s n j).owner ≠ none) →
      (pc = true → 1 ≤ channels ∧ channels ≤ 1024) → completes (.statAcq t pc channels decay) s fun u =>
        coll u n i = { owner := some (cluPart s n), perChannel := pc, channels := if pc then channels else 1, decay := decay.toNat } ∧
        (∀ j : Nat, j ≠ i → coll u n j = coll s n j) ∧ issuedBy s u k ∧
        u = { s with clusters := u.clusters, threads := u.threads, cores := u.cores, free := u.free }) ∧
    (∀ pc channels decay, (∀ j < 8, (coll s n j).owner ≠ none) → (pc = true → 1 ≤ channels ∧ channels ≤ 1024) →
      completes (.statAcq t pc channels decay) s fun u => thrState u k = 4 ∧ (thr u k).wait = .collector ∧ u.clusters = s.clusters) ∧
    (∀ (i : Fin 8) (fmt : Fin 16) src count tag, fmt.val ∈ [0, 1, 4, 5, 6, 8, 9] → (coll s n i).owner ≠ none →
      regionOk src (ceilDiv (fmtBits fmt * count) 8) = true → (vecQueue s (k / 8)).length < 2 →
      completes (.statFeed t i fmt src count tag) s fun u =>
        vecQueue u (k / 8) = vecQueue s (k / 8) ++ [.feed k i fmt src count tag] ∧ tagOf u k tag = .pendVector) ∧
    (∀ i : Fin 8, (coll s n i).owner ≠ none →
      (completes (.statCommit t i) s fun u => (coll u n i).fed = [] ∧ (coll u n i).owner = (coll s n i).owner ∧
        (∀ ch < (coll s n i).channels, tget 0 (coll u n i).kept ch =
          commitValue (coll s n i).decay (tget 0 (coll s n i).fed ch) (tget 0 (coll s n i).kept ch)) ∧
        u = { s with clusters := u.clusters, threads := u.threads, cores := u.cores, free := u.free }) ∧
      (∀ dst, regionOk dst (4 * (coll s n i).channels) = true →
        cleanBytes s (regionAddr (k / 8) dst) (4 * (coll s n i).channels) → completes (.statRead t i dst) s fun u =>
        (∀ ch < (coll s n i).channels, rdN u (regionAddr (k / 8) dst + ch * 4) 4 = tget 0 (coll s n i).kept ch % 2 ^ 32) ∧
        sameMemBut s u (regionAddr (k / 8) dst) (4 * (coll s n i).channels) ∧ (∀ j, coll u n j = coll s n j) ∧
        sameRegsBut s u [CLU_SCRUB_STAT_SWEEPS n, CLU_SCRUB_STAT_MAX_SWEEP n]) ∧
      (feedInFlight s n i = false → completes (.statFree t i) s fun u => coll u n i = {} ∧ u.mem = s.mem) ∧
      (feedInFlight s n i = true → completes (.statFree t i) s fun u => coll u n i = { coll s n i with freeing := true } ∧ u.regs = s.regs)) ∧
    (∀ (i : Fin 8), (coll s n i).owner = none → exec (.statCommit t i) s = .next (issueFault s k 0x7F) ∧
      exec (.statFree t i) s = .next (issueFault s k 0x7F))

/-- For a READY thread at its turn MOVE puts the move at the end of its core's queue with its tag awaiting completion while the
queue holds fewer than 8, and otherwise waits in WAIT_MOVE (2). A TENSOR_MOVE or TENSOR_FILL packet that passes the shared
checks and the checks of R413 and R254 is queued in a Plinth queue of the partition's lowest cluster that has a place (the
queue is the model's choice, log entry 22) and stays outstanding. From the issue on the destination is undefined (R34): a
move whose checks allow its endpoints changes no byte but its destination's, and one they do not allow changes none. -/
def Obligations.MovesAreQueued : Prop :=
  (∀ (s : State) (t : ThreadId) (d : Desc) (tag : Fin 8), canIssue s (tno t) = true →
    let m : Move := { desc := d, owner := .thread (tno t) tag }
    ((moveQueue s t.cluster t.core).length < 8 → completes (.moveOp t d tag) s fun u =>
      moveQueue u t.cluster t.core = moveQueue s t.cluster t.core ++ [m] ∧ tagOf u (tno t) tag = .pendMove ∧ u.host = s.host ∧
      (moveAllowed s t.cluster m = none → u.mem = s.mem) ∧
      (∀ a b, moveAllowed s t.cluster m = some (a, b) → plainMove d = true → oneRow d → b.base + d.e0 ≤ 0x62000000 →
        sameMemBut s u b.base d.e0)) ∧
    (8 ≤ (moveQueue s t.cluster t.core).length → completes (.moveOp t d tag) s fun u => thrState u (tno t) = 2 ∧
      (thr u (tno t)).wait = .moveQueue ∧ u = { s with threads := u.threads, regs := u.regs } ∧ sameRegsBut s u [thrField (tno t)])) ∧
  (∀ (s : State) (h : Pkt) (d : Desc) (n : Nat),
    let queued := fun (p : Cmd × State) (u : State) =>
      let m : Move := { desc := d, owner := .packet p.1 }
      moveQueue u n 64 = moveQueue s n 64 ++ [m] ∧ p.1 ∈ u.hif.cmds ∧
      (moveAllowed p.2 n m = none → u.mem = s.mem ∧ u.host = s.host) ∧
      (∀ a b, moveAllowed p.2 n m = some (a, b) → (b.host = false → u.host = s.host) ∧
        (b.host = true → u.mem = s.mem ∧ (plainMove d = true → oneRow d → sameHostBut s u b.fn b.base d.e0)))
    hostDescOk d = true → (List.range 34).find? (fun n => cluPart s n == h.part) = some n →
    (moveQueue s n 64).length < 8 → tget [] s.moveWait n = [] →
    (let p := taken s h 0x40 0
     accepted s h 0x40 .owned false = true → moveCheck p.2 n (some h.part) h.fn d true = none →
       completes (.tensorMove h d) s (queued p)) ∧
    (let p := taken s h 0x41 0
     accepted s h 0x41 .owned false = true → isFill d = true → moveCheck p.2 n (some h.part) h.fn d true = none →
       completes (.tensorFill h d) s (queued p)))

/-- For the front move of a queue, a COPY or FILL of one row of at most 4,096 bytes whose checks pass and whose endpoints are not
refused, with no cluster under a condition of R18: when the queue's turn has come, DMA_SEGMENT_DONE, of a source without an
error, counts the segment and holds its bytes (the 8-byte pattern repeated, or the source's bytes as they are), and changes
no memory. MOVE_COMPLETE of a thread's move with all its segments done and no credit, into a cluster memory without an
error, writes exactly the bytes its segments held, takes the move out of the queue and sets the thread's tag. MOVE_TIMEOUT
takes the move of a thread out of the queue with the error INTERNAL (0x7F) on its tag and counts it in ERR_CNT. -/
def Obligations.MovesWriteTheirDestination : Prop :=
  ∀ (s : State) (n : Fin 34) (q : Fin 68) (m : Move) (l : List Move), moveQueue s n q = m :: l →
    let d := m.desc
    let calm := ∀ i < 34, (clu s i).doomed = false
    (∀ (a b : Ep), calm → nextQueue s n = some q.val → m.err = 0 → m.segs = 0 → plainMove d = true → oneRow d → d.e0 ≤ 4096 →
      moveAllowed s n m = some (a, b) → (isFill d = false → a.host = false → cleanBytes s a.base d.e0) →
      completes (.dmaSegmentDone n q .ok) s fun u =>
        moveQueue u n q = { m with segs := 1, got := m.got ++ (List.range d.e0).map (fun i =>
          if isFill d then BitVec.ofNat 8 (bits d.arg (8 * (i % 8)) 8) else epRb s a i) } :: l ∧
        u.mem = s.mem ∧ u.host = s.host) ∧
    (∀ (a b : Ep) (k : Nat) (tag : Nat), calm → q.val < 64 → m.err = 0 → plainMove d = true → oneRow d → bit d.flags 0 = false →
      m.owner = .thread k tag → moveAllowed s n m = some (a, b) → moveSegs s d a ≤ m.segs → m.got.length = d.e0 →
      0x40000000 ≤ b.base → b.base + d.e0 ≤ 0x62000000 → cleanBytes s b.base d.e0 →
      completes (.moveComplete n q) s fun u => moveQueue u n q = l ∧ tagOf u k tag = .done ∧ u.host = s.host ∧
        (∀ i < d.e0, rb u (b.base + i) = m.got.getD i 0) ∧ sameMemBut s u b.base d.e0) ∧
    (∀ k tag, Inv s → q.val < 64 → k < 17408 → m.owner = .thread k tag → rd s (CLU_DMA_STAT_ERR_CNT n) < 255 →
      completes (.moveTimeout n q) s fun u => moveQueue u n q = l ∧ tagOf u k tag = .error 0x7F ∧
        rd u (CLU_DMA_STAT_ERR_CNT n) = rd s (CLU_DMA_STAT_ERR_CNT n) + 1)

/-- For every state and value: while MEM_STAT.READY and MEM_CFG.START are 0 and the value is a configuration of R260 (RATE
at most 3 with TYPE 0, 3 to 5 with TYPE 1; not DENS and RANKS both 1), RATE, RANKS, DENS and TYPE take the value's
fields and START starts training when the value asks for it; nothing else changes. Any other write only sets
MEM_STAT.CFG_REJ. -/
def Obligations.DramConfigurationWrite : Prop :=
  ∀ (s : State) (v : BitVec 32), let w := v.toNat
    let ok := isSet s MEM_STAT_READY = false ∧ isSet s MEM_CFG_START = false ∧
      (if bit w 16 then 3 ≤ bits w 20 4 ∧ bits w 20 4 ≤ 5 else bits w 20 4 ≤ 3) ∧ ¬(bit w 17 = true ∧ bit w 18 = true)
    (ok → completes (.memCfgStart v) s fun u => u = { s with regs := u.regs } ∧ rd u MEM_CFG_RATE = bits w 20 4 ∧
      rd u MEM_CFG_RANKS = bits w 18 1 ∧ rd u MEM_CFG_DENS = bits w 17 1 ∧ rd u MEM_CFG_TYPE = bits w 16 1 ∧
      (bit w 0 = true → rd u MEM_CFG_START = 1) ∧ (bit w 0 = false → rd u MEM_CFG_START = rd s MEM_CFG_START) ∧
      sameRegsBut s u [MEM_CFG_RATE, MEM_CFG_RANKS, MEM_CFG_DENS, MEM_CFG_TYPE, MEM_CFG_START]) ∧
    (¬ok → completes (.memCfgStart v) s fun u => u = { s with regs := u.regs } ∧ rd u MEM_STAT_CFG_REJ = 1 ∧
      sameRegsBut s u [MEM_STAT_CFG_REJ])

/-- While training runs, DRAM_TRAINING_DONE with every channel trained sets READY and the size in units of 1 GiB and
clears START; with a channel that failed it sets TRAIN_FAIL and not READY. A MEM_GTAB_DATA write at a granule of the
trained size, not both DISP and PLN, that does not give a valid granule to another owner without a zero-fill, and asks
for none or finds none in progress, sets that granule's entry and no other, and its zero-fill begins; any other write
only sets GTAB_REJ. When the zero-fill in progress is done and no partition waits for it, every byte of the granule
reads 0 and the next one begins. Reading MEM_LECC_CNT and MEM_CH_STAT returns and clears their counts; a refresh rate
change sets REF_RATE of its channel. -/
def Obligations.DramTrainingAndGranules : Prop :=
  (∀ (s : State) (t : BitVec 16), isSet s MEM_CFG_START = true →
    (t.toNat = 65535 → completes (.dramTrainingDone t) s fun u => u = { s with regs := u.regs } ∧ rd u MEM_STAT_READY = 1 ∧
      rd u MEM_CFG_START = 0 ∧ rd u MEM_STAT_SIZE = 16 * (rd s MEM_CFG_DENS + 1) * (rd s MEM_CFG_RANKS + 1) % 256 ∧
      (∀ c : Fin 16, rd u (MEM_CH_STAT_TRAINED c) = 1) ∧
      sameRegsBut s u ([MEM_CFG_START, MEM_STAT_READY, MEM_STAT_TRAIN_FAIL, MEM_STAT_SIZE] ++ (List.range 16).map MEM_CH_STAT_TRAINED)) ∧
    (t.toNat ≠ 65535 → completes (.dramTrainingDone t) s fun u => u = { s with regs := u.regs } ∧ rd u MEM_STAT_TRAIN_FAIL = 1 ∧
      rd u MEM_STAT_READY = rd s MEM_STAT_READY ∧ rd u MEM_CFG_START = 0 ∧
      (∀ c : Fin 16, rd u (MEM_CH_STAT_TRAINED c) = bits t.toNat c 1) ∧
      sameRegsBut s u ([MEM_CFG_START, MEM_STAT_READY, MEM_STAT_TRAIN_FAIL, MEM_STAT_SIZE] ++ (List.range 16).map MEM_CH_STAT_TRAINED))) ∧
  (∀ (s : State) (v : BitVec 32), let w := v.toNat
    let g := rd s MEM_GTAB_IDX_GRAN
    let new := bits w 0 5 + bits w 8 8 * 256
    let keeps := gV (gEntry s g) = false ∨ bit w 16 = true ∨
      (gPart (gEntry s g) = gPart new ∧ gSlot (gEntry s g) = gSlot new ∧ gDisp (gEntry s g) = gDisp new ∧ gPln (gEntry s g) = gPln new)
    let ok := g < granCount s ∧ ¬(gDisp new = true ∧ gPln new = true) ∧ keeps ∧ (bit w 16 = true → s.dram.fills = [])
    (ok → completes (.memGtabDataWrite v) s fun u => u = { s with dram := u.dram } ∧ gEntry u g = new ∧
      (∀ j, j ≠ g → gEntry u j = gEntry s j) ∧ u.dram.fills = if bit w 16 then [g] else s.dram.fills) ∧
    (¬ok → completes (.memGtabDataWrite v) s fun u => u = { s with regs := u.regs } ∧ rd u MEM_STAT_GTAB_REJ = 1 ∧
      sameRegsBut s u [MEM_STAT_GTAB_REJ])) ∧
  (∀ (s : State) (g : Nat) (l : List Nat), s.dram.fills = g :: l → g < 16384 → tfind (gPart (gEntry s g)) s.parts = none →
    completes .zeroFillDone s fun u => u.dram.fills = l ∧ u.host = s.host ∧ u.regs = s.regs ∧
      (∀ i < 2097152, devRb u (0x1000000000 + g * 2097152 + i) = 0) ∧ sameMemBut s u (0x1000000000 + g * 2097152) 2097152) ∧
  (∀ s : State, completes .memLeccCntRead s fun u => u = { s with regs := u.regs, out := s.out ++ [.value
      (rd s MEM_LECC_CNT_UE * 2 ^ 24 + rd s MEM_LECC_CNT_RETRY * 2 ^ 16 + rd s MEM_LECC_CNT_CE)] } ∧
    rd u MEM_LECC_CNT_UE = 0 ∧ rd u MEM_LECC_CNT_RETRY = 0 ∧ rd u MEM_LECC_CNT_CE = 0 ∧
    sameRegsBut s u [MEM_LECC_CNT_UE, MEM_LECC_CNT_RETRY, MEM_LECC_CNT_CE]) ∧
  (∀ (s : State) (c : Fin 16), completes (.memChStatRead c) s fun u => u = { s with regs := u.regs, out := s.out ++ [.value
      (rd s (MEM_CH_STAT_CE c) * 2 ^ 24 + rd s (MEM_CH_STAT_REF_RATE c) * 2 ^ 16 + rd s (MEM_CH_STAT_TRAINED c))] } ∧
    rd u (MEM_CH_STAT_CE c) = 0 ∧ sameRegsBut s u [MEM_CH_STAT_CE c]) ∧
  (∀ (s : State) (c : Fin 16) (r : BitVec 3), completes (.mr4RefreshRateChange c r) s fun u => u = { s with regs := u.regs } ∧
    rd u (MEM_CH_STAT_REF_RATE c) = r.toNat ∧ sameRegsBut s u [MEM_CH_STAT_REF_RATE c])

/-- FLASH_OP_START at an enabled controller's free die takes up the operation that is next by R294: a read at once, a
program or erase (of a controller that is not stopped, and a record-area erase on one channel at a time) when the
hold-up sample passes; a sample that fails sets HOLDUP_LOW and the die stays free. WFL_CH_STAT.BUSY shows the
operation. FLASH_SUSPEND of a maquette-class program or erase with a read or record-class operation waiting, or of a
record-class erase with a record-class program waiting, frees the die, and counts it; FLASH_RESUME lets the suspended
operation go on, a record-class erase once its nested program has begun. Writing WFL_HOLDUP_CFG or WFL_HOLDUP_EXT
recomputes both thresholds. No byte of device or host memory changes. -/
def Obligations.FlashDiesStartAndSuspend : Prop :=
  ∀ (s : State) (ch : Fin 32), let x := chan s ch
    let same := fun (u : State) => u.mem = s.mem ∧ u.host = s.host ∧ ∀ c, c ≠ ch.val → chan u c = chan s c
    let begun := fun (w : DieWork) (u : State) => (chan u ch).running = some w ∧ (chan u ch).waiting = x.waiting.erase w ∧
      rd u (WFL_CH_STAT_BUSY ch) = busyCode (chan u ch) ∧ same u
    (∀ w code, x.running = none → isSet s WFL_CTRL_ENABLE = true → nextWork x = some w → needsHoldup w = none →
      completes (.flashOpStart ch code) s (begun w)) ∧
    (∀ w (code : Fin 1024) erase, x.running = none → isSet s WFL_CTRL_ENABLE = true → nextWork x = some w → needsHoldup w = some erase →
      isSet s WFL_STAT_STOPPED = false → (w = .recErase → recEraseElsewhere s ch = false) →
      (holdupOk s erase code = true → completes (.flashOpStart ch code) s fun u => begun w u ∧ rd u WFL_HOLDUP_STAT_CODE = code) ∧
      (holdupOk s erase code = false → completes (.flashOpStart ch code) s fun u => chan u ch = x ∧ same u ∧
        rd u WFL_EVT_STAT_HOLDUP_LOW = 1 ∧ rd u WFL_HOLDUP_STAT_CODE = code)) ∧
    (∀ w, x.running = some w → x.suspended = none → ((maqClass w = true ∧ ∃ v ∈ x.waiting, rankOf v ≤ 1) ∨
        (w = .recErase ∧ x.nested = false ∧ ∃ v ∈ x.waiting, rankOf v = 1)) →
      completes (.flashSuspend ch) s fun u => (chan u ch).running = none ∧ (chan u ch).suspended = some w ∧ same u ∧
        rd u WFL_SUSP_CNT_SUSPENDS = satAdd 65535 (rd s WFL_SUSP_CNT_SUSPENDS) 1) ∧
    (∀ w, x.running = none → x.suspended = some w → (w = .recErase → x.nested = true) → completes (.flashResume ch) s fun u =>
      (chan u ch).running = some w ∧ (chan u ch).suspended = none ∧ same u ∧
      rd u (WFL_CH_STAT_BUSY ch) = busyCode (chan u ch)) ∧
    (∀ (ext : Bool) (v : BitVec 32), completes (.wflHoldupCfgWrite ext v) s fun u =>
      (if ext then rd u WFL_HOLDUP_EXT_E_BOARD = bits v.toNat 0 16
       else rd u WFL_HOLDUP_CFG_CAP = bits v.toNat 16 16 ∧ rd u WFL_HOLDUP_CFG_DIV = bits v.toNat 8 8 ∧
         rd u WFL_HOLDUP_CFG_VMIN = bits v.toNat 0 8) ∧
      rd u WFL_HOLDUP_STAT_PROG_THR = holdupThr u false ∧ rd u WFL_HOLDUP_STAT_ERASE_THR = holdupThr u true ∧
      u = { s with regs := u.regs })

/-- FLASH_READ_DONE of a window read below the last retry level frees the die and adds the page's codewords of many
corrections to HIGH_CE; an uncorrectable one also counts UE and sets READ_UE. FLASH_PROGRAM_DONE of a record marks
that record's copy (WF0's or the other channel's) whole and frees the die; of a store's program it counts one of the
channel's programs off. FLASH_ERASE_DONE of a record block frees the block and the die; of a plane-set it frees the
die and the front job and the background erases wait for that plane-set no longer. PATROL_READ of a strong page only
counts its corrections; of a weak one with a free block of its plane it writes a RELOCATE record and queues the copy. -/
def Obligations.FlashOperationsEnd : Prop :=
  ∀ (s : State) (ch : Fin 32), let x := chan s ch
    (∀ (r : PageRead) (waited : Nat), x.running = some .read → r.level ≠ 8 → completes (.flashReadDone ch r waited) s fun u =>
      (chan u ch).running = none ∧ (chan u ch).waiting = x.waiting ∧ u.mem = s.mem ∧ u.host = s.host ∧
      rd u WFL_ECC_CNT_HIGH_CE = satAdd 65535 (rd s WFL_ECC_CNT_HIGH_CE) r.high ∧
      (r.ue = true → rd u WFL_ECC_CNT_UE = satAdd 255 (rd s WFL_ECC_CNT_UE) 1 ∧ rd u WFL_EVT_STAT_READ_UE = 1)) ∧
    (∀ seq plane, x.running = some (.record seq) → completes (.flashProgramDone ch true plane) s fun u => (chan u ch).running = none ∧
      (∀ r ∈ u.flash.records, r.seq = seq → (if ch = 0 then r.on0 else r.on16) = true) ∧ u.mem = s.mem ∧ u.host = s.host) ∧
    (∀ j l plane, x.running = some .store → s.flash.jobs = j :: l → completes (.flashProgramDone ch true plane) s fun u =>
      (chan u ch).running = none ∧ (∃ k, u.flash.jobs = k :: l ∧ tget 0 k.left ch = tget 0 j.left ch - 1) ∧ u.mem = s.mem) ∧
    (x.running = some .recErase → ∀ ok plane, completes (.flashEraseDone ch ok plane) s fun u => (chan u ch).running = none ∧
      (chan u ch).recFull = x.recFull - 1 ∧ u.mem = s.mem ∧ u.host = s.host) ∧
    (∀ ps ok plane, x.running = some (.erase ps) → completes (.flashEraseDone ch ok plane) s fun u => (chan u ch).running = none ∧
      (∀ e ∈ u.flash.awaiting, (ch.val, ps) ∉ e.2) ∧ (∀ j ∈ u.flash.jobs.head?, (ch.val, ps) ∉ j.eraseLeft) ∧ u.mem = s.mem) ∧
    (∀ r : PageRead, x.running = none → x.suspended = none → x.waiting = [] → isSet s WFL_CTRL_PATROL_EN = true →
      isSet s WFL_STAT_READY = true → (s.flash.slots.any fun e => e.2.sets.contains (ch.val, r.lblk / 4)) = true →
      (r.level = 0 → r.worst ≤ 80 → r.ue = false → completes (.patrolRead ch r) s fun u => u = { s with regs := u.regs } ∧
        rd u WFL_ECC_CNT_HIGH_CE = satAdd 65535 (rd s WFL_ECC_CNT_HIGH_CE) r.high ∧ sameRegsBut s u [WFL_ECC_CNT_HIGH_CE]) ∧
      (∀ b, r.level ≠ 8 → 80 < r.worst → x.extra.find? (fun b => b % 4 == r.lblk % 4) = some b →
        completes (.patrolRead ch r) s fun u => .copy r.lblk b ∈ (chan u ch).waiting ∧
          (∃ q ∈ u.flash.records, q.body = .relocate ch (pblk s ch r.lblk) b r.lblk) ∧ u.mem = s.mem))

/-- When the one store in progress has programmed and verified every page and a window is free for it, STORE_COMMIT with a
good digest puts the maquette into its (empty) slot with its manifest and ends the job. ERASE_DONE of the one erase in
progress whose plane-sets are all erased ends it and writes its ERASE_DONE record. HOLDUP_RETRY_TIMEOUT of a store
that the hold-up check holds back ends it. WFL_ENABLE of a controller neither enabled nor stopped makes the T3 window
READY; WFL_STOP sets STOP, STOPPED and CLOSED and no die runs an operation after it. Reading WFL_ECC_CNT or
WFL_SUSP_CNT returns and clears the counts. -/
def Obligations.FlashStoresAndControl : Prop :=
  ∀ s : State,
    (∀ j m, s.flash.jobs = [j] → j.man = some m → j.store = true → j.started = true → j.left.all (fun e => e.2 == 0) = true →
      j.verify.all (fun e => e.2 == 0) = true → freeBases s m.totalLen ≠ [] → tfind j.slot s.flash.slots = none →
      completes (.storeCommit true) s fun u => u.flash.jobs = [] ∧ rd u WFL_STAT_STORE_ACT = 0 ∧ u.mem = s.mem ∧
        ∃ x, tfind j.slot u.flash.slots = some x ∧ x.man = m ∧ x.set = j.set ∧ x.part = j.part ∧ x.base ∈ freeBases s m.totalLen) ∧
    (∀ j, s.flash.jobs = [j] → j.store = false → j.started = true → j.eraseLeft = [] →
      s.flash.awaiting.find? (fun e => e.2.isEmpty) = none → completes (.eraseDone true) s fun u => u.flash.jobs = [] ∧
        (∃ q ∈ u.flash.records, q.body = .eraseDone j.recSeq) ∧ u.mem = s.mem) ∧
    (∀ j, s.flash.jobs = [j] → j.holdLow = true → completes .holdupRetryTimeout s fun u => u.flash.jobs = [] ∧
      rd u WFL_STAT_STORE_ACT = 0 ∧ u.mem = s.mem) ∧
    (isSet s WFL_CTRL_ENABLE = false → isSet s WFL_STAT_STOPPED = false → completes .wflEnable s fun u =>
      rd u WFL_CTRL_ENABLE = 1 ∧ rd u WFL_STAT_READY = 1 ∧ u.flash.jobs = [] ∧ u.mem = s.mem ∧ u.host = s.host) ∧
    (completes .wflStop s fun u => rd u WFL_CTRL_STOP = 1 ∧ rd u WFL_STAT_STOPPED = 1 ∧ rd u WFL_STAT_CLOSED = 1 ∧
      (∀ c < 32, (chan u c).running = none ∧ (chan u c).suspended = none) ∧ u.mem = s.mem ∧ u.host = s.host) ∧
    (completes .wflEccCntRead s fun u => u = { s with regs := u.regs, out := s.out ++ [.value
        (rd s WFL_ECC_CNT_UE * 2 ^ 24 + rd s WFL_ECC_CNT_RETRY * 2 ^ 16 + rd s WFL_ECC_CNT_HIGH_CE)] } ∧
      rd u WFL_ECC_CNT_UE = 0 ∧ rd u WFL_ECC_CNT_RETRY = 0 ∧ rd u WFL_ECC_CNT_HIGH_CE = 0 ∧
      sameRegsBut s u [WFL_ECC_CNT_UE, WFL_ECC_CNT_RETRY, WFL_ECC_CNT_HIGH_CE]) ∧
    (completes .wflSuspCntRead s fun u => u = { s with regs := u.regs, out := s.out ++ [.value
        (rd s WFL_SUSP_CNT_STALL_MAX * 2 ^ 16 + rd s WFL_SUSP_CNT_SUSPENDS)] } ∧
      rd u WFL_SUSP_CNT_STALL_MAX = 0 ∧ rd u WFL_SUSP_CNT_SUSPENDS = 0 ∧
      sameRegsBut s u [WFL_SUSP_CNT_STALL_MAX, WFL_SUSP_CNT_SUSPENDS])

/-- PUB_ADD, PUB_REVOKE and PUB_CLEAR with the list's current LIST_SEQ and a valid authorisation (none for the first ADMIN
key, no handle in use for a clear) change the list as named and raise LIST_SEQ; a stale LIST_SEQ answers BAD_PARAM, a
missing authorisation BAD_SIGNATURE (0x40). MAQ_STAGE that passes its checks makes an unverified STAGED handle with a
free number and charges the partition; from a store slot a verified one without charge; a manifest whose fields break R320
to R323 answers 0x22, a bad signature 0x40, a full quota 0x30, bad digests 0x41. MAQ_VERIFY marks the handle verified, or
answers the failing check of a host-staged copy. MAQ_EVICT of a STAGED handle frees it; of an unused RESIDENT one it waits; EVICT_RELEASE then frees it unless it
is still used. MAQ_STORE and MAQ_ERASE queue their job and charge or withdraw the slot; a worn channel answers 0x51.
Refusals leave keys, handles and jobs as they were. -/
def Obligations.MaquettesAndKeysAreKept : Prop :=
  ∀ (s : State) (h : Pkt), slotPlain s h →
    let keys := fun (u : State) (l : List PubKey) => recorded s u h 0x70 0 ∧ u.flash.pubs = l ∧ u.flash.listSeq = (s.flash.listSeq + 1) % 2 ^ 64
    let kept := fun (u : State) (op st : Nat) => recorded s u h op st ∧ u.flash.pubs = s.flash.pubs ∧ u.flash.listSeq = s.flash.listSeq ∧
      u.handles = s.handles ∧ u.flash.jobs = s.flash.jobs ∧ u.parts = s.parts ∧ u.mem = s.mem
    (∀ (n : BitVec 64) (e : PubKey) (k : Nat) (sg : Bool), accepted s h 0x70 .any true = true →
      (n.toNat = s.flash.listSeq → (s.flash.pubs = [] ∧ e.admin = true) ∨ authorised s k sg = true → (∀ x ∈ s.flash.pubs, x.keyId ≠ e.keyId) →
        s.flash.pubs.length < 16 → completes (.pubAdd h n e k sg) s (keys · (s.flash.pubs ++ [e]))) ∧
      (n.toNat = s.flash.listSeq → authorised s k sg = true → (∃ x ∈ s.flash.pubs, x.keyId = e.keyId) →
        completes (.pubRevoke h n e.keyId k sg) s fun u => (∀ x ∈ u.flash.pubs, x.keyId = e.keyId → x.revoked = true) ∧
          keys u (s.flash.pubs.map fun x => if x.keyId = e.keyId then { x with revoked := true } else x)) ∧
      (n.toNat = s.flash.listSeq → s.handles = [] → completes (.pubClear h n) s (keys · [])) ∧
      (n.toNat ≠ s.flash.listSeq → ∀ i ∈ [Instr.pubAdd h n e k sg, .pubRevoke h n k k sg, .pubClear h n], completes i s (kept · 0x70 0x21)) ∧
      (n.toNat = s.flash.listSeq → s.flash.pubs ≠ [] → authorised s k sg = false → ∀ i ∈ [Instr.pubAdd h n e k sg, .pubRevoke h n k k sg],
        completes i s (kept · 0x70 0x40))) ∧
    (∀ (a l : Nat) (m : Manifest) (q : Part), accepted s h 0x20 .owned false = true → inArea s h.part a l = true → freeHandles s ≠ [] →
      tfind h.part s.parts = some q →
      (manifestOk m = false → completes (.maqStage h a l m .ok true true) s (kept · 0x20 0x22)) ∧
      (∀ st, completes (.maqStage h a l m (.fails st) true true) s (kept · 0x20 st)) ∧
      (manifestOk m = true → m.totalLen = l →
      (keyListed s m.keyId = true → fitsT2 s h.part (rawSize m) = true →
        (completes (.maqStage h a l m .ok true true) s fun u => recorded s u h 0x20 0 ∧
          tfind h.part u.parts = some { q with c2 := q.c2 + rawSize m } ∧ ∃ n ∈ freeHandles s, tfind n u.handles =
            some { part := h.part, slot := none, man := m, st := 0, verified := false, inT2 := [], wm := false, evict := none }) ∧
        (completes (.maqStage h a l m .ok true false) s (kept · 0x20 0x41))) ∧
      (completes (.maqStage h a l m .ok false true) s (kept · 0x20 0x40)) ∧
      (keyListed s m.keyId = true → fitsT2 s h.part (rawSize m) = false → completes (.maqStage h a l m .ok true true) s (kept · 0x20 0x30)))) ∧
    (∀ (k : Fin 256) (x : Slot), accepted s h 0x20 .owned false = true → tfind k.val s.flash.slots = some x → freeHandles s ≠ [] →
      (keyListed s x.man.keyId = true → completes (.maqStageSlot h k true true) s fun u => recorded s u h 0x20 0 ∧ u.parts = s.parts ∧
        ∃ n ∈ freeHandles s, tfind n u.handles =
          some { part := h.part, slot := some k, man := x.man, st := 0, verified := true, inT2 := [], wm := false, evict := none }) ∧
      (completes (.maqStageSlot h k false true) s (kept · 0x20 0x41)) ∧ (completes (.maqStageSlot h k true false) s (kept · 0x20 0x40))) ∧
    (∀ (n : Fin 256) (x : Handle), tfind n.val s.handles = some x → x.part = h.part →
      (∀ v, accepted s h 0x21 .owned false = true → (x.slot.isSome = true ∨ (v = .ok ∧ verifyFailure x.man = none) → completes (.maqVerify h n v) s fun u =>
          recorded s u h 0x21 0 ∧ tfind n.val u.handles = some { x with verified := true } ∧ u.parts = s.parts) ∧
        (∀ st, x.slot = none → verifyFailure x.man = some st ∨ (verifyFailure x.man = none ∧ v = .fails st) →
          completes (.maqVerify h n v) s (kept · 0x21 st))) ∧
      (∀ f, accepted s h 0x23 .owned false = true →
        (x.st = 0 → completes (.maqEvict h n f) s fun u => recorded s u h 0x23 0 ∧ tfind n.val u.handles = none ∧ u.mem = s.mem) ∧
        (let busy := x.st = 2 ∨ x.evict ≠ none ∨ (f = false ∧ requestOn s n = true) ∨ streamOn s n = true ∨ castOn s n = true ∨ armatureOn s x = true
         x.st ≠ 0 → (busy → completes (.maqEvict h n f) s (kept · 0x23 0x21)) ∧
          (¬busy → completes (.maqEvict h n f) s fun u => (taken s h 0x23 (2 * n.val + b2n f)).1 ∈ u.hif.cmds ∧ u.host = s.host ∧
            tfind n.val u.handles = some { x with evict := some (taken s h 0x23 (2 * n.val + b2n f)).1 }))) ∧
      (∀ c, x.evict = some c → c.key % 2 = 0 →
        (requestOn s n = false → streamOn s n = false → completes (.evictRelease n) s fun u => tfind n.val u.handles = none ∧
          u.hif.cmds = s.hif.cmds.erase c) ∧
        (requestOn s n = true ∨ streamOn s n = true → completes (.evictRelease n) s (· = s))) ∧
      (∀ (k : Fin 256) (st : BitVec 32) (q : Part), accepted s h 0x24 .owned false = true → tfind h.part s.parts = some q →
        let ok := k.val < 64 ∧ st.toNat ≠ 0 ∧ x.slot = none ∧ x.verified = true
        (¬ok → completes (.maqStore h n k st) s (kept · 0x24 0x21)) ∧
        (ok → q.quota.q3 < q.c3 + rawSize x.man → completes (.maqStore h n k st) s (kept · 0x24 0x30)) ∧
        (ok → q.c3 + rawSize x.man ≤ q.quota.q3 → slotsTaken s < 64 →
          (∀ j l, s.flash.jobs = j :: l → j.started = true → completes (.maqStore h n k st) s fun u => (∃ g, u.flash.jobs = s.flash.jobs ++ [g] ∧
            g.store = true ∧ g.slot = k.val ∧ g.man = some x.man) ∧ tfind h.part u.parts = some { q with c3 := q.c3 + rawSize x.man } ∧
            (taken s h 0x24 n).1 ∈ u.hif.cmds) ∧
          (s.flash.jobs = [] → (∃ c ∈ setChans st.toNat, isSet s (WFL_CH_STAT_WORN c) = true) → completes (.maqStore h n k st) s fun u =>
            recorded s u h 0x24 0x51 ∧ u.flash.jobs = [] ∧ tfind h.part u.parts = some q)))) ∧
    (∀ (k : Fin 256) (x : Slot), accepted s h 0x25 .any false = true → tfind k.val s.flash.slots = some x → h.fn = 0 → s.flash.jobs = [] →
      (slotHeld s k = true → completes (.maqErase h k) s (kept · 0x25 0x21)) ∧
      (slotHeld s k = false → completes (.maqErase h k) s fun u => tfind k.val u.flash.slots = none ∧ (taken s h 0x25 k).1 ∈ u.hif.cmds ∧
        ∃ g, u.flash.jobs = [g] ∧ g.started = true ∧ g.store = false ∧ g.eraseLeft = x.sets))

/-- An accepted MAQ_CAST without failing check becomes the partition's cast, its STAGED handle HELD, its packet
outstanding; a failing check answers its status and changes no partition or handle. CAST_START begins a cast that need
not wait for a drain, and that no fence holds, and charges what has no layer; with a failing verdict the cast is gone, its handle STAGED and its
packet completed. CAST_LAYER_READY counts the next layer; the last layer of a cast without replacement commits it:
RESIDENT with the layers it placed, packet completed; a failing layer of a cast that has swapped none unwinds it.
LAYER_SWAP swaps the next ready layer of a replacement; the last swap commits and frees the replaced handle.
LAYER_SWAP_BACK of a failed cast takes one swap back, and with the last one unwinds it. An event whose cast is not at
that point, or is held by a fence after its present layer, changes nothing. -/
def Obligations.CastsGoLayerByLayer : Prop :=
  (∀ (s : State) (h : Pkt) (n r : Fin 256) (d a : Bool) (x : Handle) (q : Part), slotPlain s h → accepted s h 0x22 .owned false = true →
    tfind n.val s.handles = some x → tfind h.part s.parts = some q →
    (castFailure s h.part n r a = none → completes (.maqCast h n r d a) s fun u => ∃ k, u.mem = s.mem ∧ u.host = s.host ∧
      tfind h.part u.parts = some { q with cast := some k } ∧ k.cmd = (taken s h 0x22 n).1 ∧ k.cmd ∈ u.hif.cmds ∧ k.handle = n ∧
      k.replace = (if r.val = 0xFF then none else some r.val) ∧ k.drain = d ∧ k.started = false ∧ k.ready = 0 ∧ k.swapped = 0 ∧ k.failed = none ∧
      tfind n.val u.handles = some { x with st := if x.st = 0 then 2 else x.st }) ∧
    (∀ st, castFailure s h.part n r a = some st → completes (.maqCast h n r d a) s fun u => recorded s u h 0x22 st ∧ u.parts = s.parts ∧
      u.handles = s.handles ∧ u.mem = s.mem)) ∧
  (∀ (s : State) (p : Fin 16) (k : Cast) (x : Handle), castOf s p = some (k, x) →
    let cast := fun (u : State) => (part? u p).bind (·.cast)
    let last := fun (l : Nat) => x.man.layers.length ≤ l + 1
    let commits := fun (u : State) => cast u = none ∧ u.hif.cmds = s.hif.cmds.erase k.cmd ∧
      ∃ y, tfind k.handle u.handles = some y ∧ y.st = 1 ∧ y.inT2 = k.toT2 ∧ y.man = x.man
    let unwinds := fun (u : State) => cast u = none ∧ u.hif.cmds = s.hif.cmds.erase k.cmd ∧
      ∃ y, tfind k.handle u.handles = some y ∧ y.st = (if k.activate then x.st else 0)
    (k.started = false → k.drain = false → k.heldAt = none →
      (completes (.castStart p .ok) s fun u => cast u = some { k with started := true } ∧ u.handles = s.handles ∧ u.hif.cmds = s.hif.cmds ∧
        ∀ q, part? s p = some q → ∃ y, part? u p = some y ∧
          y.c2 = q.c2 + (if x.slot.isSome && !k.activate then looseBytes x.man else 0)) ∧
      (∀ st, completes (.castStart p (.fails st)) s unwinds)) ∧
    (k.started = true ∨ k.heldAt ≠ none → ∀ v, completes (.castStart p v) s (· = s)) ∧
    (k.started = true → k.failed = none → k.ready < x.man.layers.length → layerHeld k = false →
      (k.replace ≠ none ∨ ¬last k.ready → completes (.castLayerReady p .ok) s fun u => cast u = some { k with ready := k.ready + 1 } ∧
        u.hif.cmds = s.hif.cmds) ∧
      (k.replace = none → last k.ready → completes (.castLayerReady p .ok) s commits) ∧
      (∀ st, k.swapped = 0 → completes (.castLayerReady p (.fails st)) s unwinds) ∧
      (∀ st, k.swapped ≠ 0 → completes (.castLayerReady p (.fails st)) s fun u => cast u = some { k with failed := some (st, k.ready) })) ∧
    (k.started = false ∨ k.failed ≠ none ∨ x.man.layers.length ≤ k.ready ∨ layerHeld k = true →
      ∀ v, completes (.castLayerReady p v) s (· = s)) ∧
    (∀ o, k.replace = some o → o ≠ k.handle → k.failed = none → k.swapped < k.ready →
      (¬last k.swapped → completes (.layerSwap p) s fun u => cast u = some { k with swapped := k.swapped + 1, freed := k.freed ++ [k.swapped] } ∧
        u.hif.cmds = s.hif.cmds) ∧
      (last k.swapped → completes (.layerSwap p) s fun u => commits u ∧ tfind o u.handles = none)) ∧
    (k.replace = none ∨ k.failed ≠ none ∨ k.ready ≤ k.swapped → completes (.layerSwap p) s (· = s)) ∧
    (k.failed ≠ none →
      (1 < k.swapped → completes (.layerSwapBack p) s fun u => cast u = some { k with swapped := k.swapped - 1 } ∧ u.hif.cmds = s.hif.cmds) ∧
      (k.swapped = 1 → completes (.layerSwapBack p) s unwinds)) ∧
    (k.failed = none ∨ k.swapped = 0 → completes (.layerSwapBack p) s (· = s))) ∧
  (∀ (s : State) (p : Fin 16), castOf s p = none → ∀ v, ∀ i ∈ [Instr.castStart p v, .castLayerReady p v, .layerSwap p, .layerSwapBack p],
    completes i s (· = s))

/-- A BATCH_SUBMIT of one NEW row that fits makes an ACTIVE request in a free entry with its lengths and charge, in a new
batch with the packet outstanding; one that names no usable handle answers BAD_PARAM, one without request entries
changes nothing. BATCH_SUBMIT_CONTINUE resumes a waiting HOST batch of its partition or answers BAD_PARAM, NO_RESOURCE
while the partition has no cluster. A TRAIN_STEP with a bound adapter waits as a training step with its own request; with
INIT = 1 it first binds and charges a new adapter whose weights are the BF16 values at INIT_ADDR. REQ_PAUSE of a READY request to T2
pauses it at once, of one in a running step waits; REQ_RESUME of a PAUSED one in T2 makes it READY, behind a barrier
it waits; REQ_CANCEL and REQ_RELEASE free an idle request and wait on one in a step. A command naming no live request
of the partition answers BAD_PARAM, or EXPIRED where R368 says so. TTL_EXPIRY frees a PAUSED or READY request as
expired; PAUSE_SPILL_DONE pauses in T4, RESUME_COPY_DONE makes READY in T2. No other request changes. -/
def Obligations.RequestsAndBatchesAreAdmitted : Prop :=
  (∀ (s : State) (h : Pkt) (b : BatchHead) (r : RowParams) (x : Handle) (q : Part), let e := r.promptLen + r.maxNew
    accepted s h 0x30 .owned false = true → tfind h.part s.parts = some q → slotPlain s h →
    (usable s h.part b.handle 0 b.entry = some x → r.kind = 0 → roomFor s h.part 1 = true → b.mode = 1 → 1 ≤ b.steps → b.steps ≤ 4096 →
      b.prio ≤ 3 → b.tokLen ≠ 0 → b.out % 8 = 0 → b.steps * slotBytes r.k ≤ b.outLen → q.logical ≠ [] → barrierUp s h.part = false →
      (∃ i < 4097, batch? s i = none) →
      rowOk x.man r e = true → fitsT2 s h.part (reserveBytes x.man e (pageSize x.man e r.pageLog2) r.globals) = true →
      completes (.batchSubmit h b [r] true) s fun u => ∃ id y n, batch? s id = none ∧ batch? u id = some y ∧ (req s n).state = .free ∧
        y.rows = [{ req := some n, k := r.k, pos := 0, stopped := false }] ∧ y.cmd = some (taken s h 0x30 0).1 ∧ y.part = h.part ∧
        y.handle = b.handle ∧ y.greedy = true ∧ y.steps = b.steps ∧ y.prefill = b.tokLen ∧ y.held = false ∧ y.running = false ∧
        (taken s h 0x30 0).1 ∈ u.hif.cmds ∧ u.host = s.host ∧ u.mem = s.mem ∧ (req u n).state = .active ∧ (req u n).part = h.part ∧
        (req u n).tag = r.tag ∧ (req u n).e = e ∧ (req u n).written = 0 ∧ (∀ m, m ≠ n → req u m = req s m) ∧
        (part? u h.part).map (·.c2) = some (q.c2 + reserveBytes x.man e (pageSize x.man e r.pageLog2) r.globals)) ∧
    (∀ rows l, usable s h.part b.handle 0 b.entry = none → roomFor s h.part ((rows.filter fun r => r.kind == 0).length) = true →
      completes (.batchSubmit h b rows l) s fun u => recorded s u h 0x30 0x21 ∧ u.srv = s.srv ∧ u.mem = s.mem) ∧
    (∀ rows l, roomFor s h.part ((rows.filter fun r => r.kind == 0).length) = false → completes (.batchSubmit h b rows l) s (· = s)) ∧
    (∀ (id : BitVec 32) (out n : Nat) (y : Batch), batch? s id.toNat = some y →
      let ok := y.part = h.part ∧ y.greedy = false ∧ y.waiting = true ∧ out % 8 = 0 ∧ y.rows.length * slotBytes y.kmax ≤ n
      (ok → q.logical = [] → completes (.batchSubmitContinue h id out n) s fun u => recorded s u h 0x30 0x31 ∧ u.srv = s.srv) ∧
      (ok → q.logical ≠ [] → completes (.batchSubmitContinue h id out n) s fun u => batch? u id.toNat = some { y with
          cmd := some (taken s h 0x30 0).1, fn := h.fn, ring := h.ring, out := out, waiting := false, done := 0 } ∧
        (taken s h 0x30 0).1 ∈ u.hif.cmds ∧ u.host = s.host) ∧
      (¬ok → completes (.batchSubmitContinue h id out n) s fun u => recorded s u h 0x30 0x21 ∧ u.srv = s.srv))) ∧
  (∀ (s : State) (h : Pkt) (t : TrainParams) (x : Handle) (q : Part) (a : Adapter), accepted s h 0x90 .owned false = true → slotPlain s h →
    usable s h.part t.handle 2 t.entry = some x → tfind h.part s.parts = some q → h.part ≠ 0 →
    let made := fun (u : State) (k : Train) (n : Nat) => (req s n).state = .free ∧ u.srv.trains = s.srv.trains ++ [k] ∧ k.entry = n ∧
      k.cmd = (taken s h 0x90 0).1 ∧ k.cmd ∈ u.hif.cmds ∧ k.params = t ∧ k.digest = x.man.maqDigest ∧ k.phase = .forward ∧ k.running = false ∧
      (req u n).state = .active ∧ (req u n).train = true ∧ u.host = s.host
    (t.init = false → tfind t.adapter q.adapters = some a → a.digest = x.man.maqDigest → a.rank = t.rank → x.man.train = true → t.adapter ≤ 7 →
      t.rank ∈ [4, 8, 16, 32, 64] → roomFor s h.part 1 = true → q.logical ≠ [] → completes (.trainStep h t) s fun u =>
        ∃ k n, made u k n ∧ u.parts = s.parts) ∧
    (let n := t.rank * x.man.adaptDims
     let free := match tfind t.adapter q.adapters with | some a => a.charge | none => 0
     t.init = true → x.man.train = true → t.adapter ≤ 7 → t.rank ∈ [4, 8, 16, 32, 64] → t2Readable s h.part t.initAddr (2 * n) = true →
      q.c2 - free + adapterBytes n ≤ q.quota.q2 → roomFor s h.part 1 = true → q.logical ≠ [] → completes (.trainStep h t) s fun u =>
        ∃ k e y b, made u k e ∧ tfind h.part u.parts = some y ∧ y.c2 = q.c2 - free + adapterBytes n ∧ tfind t.adapter y.adapters = some b ∧
          b.digest = x.man.maqDigest ∧ b.rank = t.rank ∧ b.acc = 0 ∧ b.charge = adapterBytes n ∧ b.cur.w.length = n ∧
          (∀ i < n, b.cur.w[i]? = some ((devRb s (t.initAddr + 2 * i)).toNat + 256 * (devRb s (t.initAddr + 2 * i + 1)).toNat)) ∧
          b.grad = List.replicate n 0) ∧
    (x.man.train = false ∨ (t.init = false ∧ tfind t.adapter q.adapters = none) → completes (.trainStep h t) s fun u => recorded s u h 0x90 0x21 ∧
      u.srv = s.srv ∧ u.parts = s.parts)) ∧
  (∀ (s : State) (h : Pkt) (n ttl : BitVec 32) (pl : Fin 256) (e : Nat), slotPlain s h → findReq s n.toNat = some e →
    (req s e).part = h.part → let r := req s e
    let idle := r.pauseCmd = none ∧ r.cancelCmd = none ∧ r.releaseCmd = none ∧ r.resumeCmd = none
    let others := fun (u : State) => ∀ m, m ≠ e → req u m = req s m
    r.train = false → idle → batch? s r.batch = none ∨ inStep s e = true →
    (accepted s h 0x32 .owned false = true → ttl.toNat ≤ 86400 → pl.val = 1 →
      (r.state = .ready → batch? s r.batch = none → completes (.reqPause h n ttl pl) s fun u => recorded s u h 0x32 0 ∧ others u ∧ req u e =
        { r with state := .paused, tier := 2, place := 1, pauseFirst := false, ttl := (if ttl.toNat = 0 then 600 else ttl.toNat),
                 due := s.time + (if ttl.toNat = 0 then 600 else ttl.toNat) * 100000000 }) ∧
      (inStep s e = true → completes (.reqPause h n ttl pl) s fun u => (req u e).state = r.state ∧ (req u e).pauseCmd.isSome = true ∧
        others u ∧ (taken s h 0x32 0).1 ∈ u.hif.cmds) ∧
      (r.state = .paused → completes (.reqPause h n ttl pl) s fun u => recorded s u h 0x32 0x21 ∧ u.srv = s.srv)) ∧
    (accepted s h 0x33 .owned false = true →
      (r.state = .paused → r.tier = 2 → barrierUp s h.part = false → completes (.reqResume h n) s fun u => recorded s u h 0x33 0 ∧
        others u ∧ req u e = { r with state := .ready, due := s.time + r.ttl * 100000000 }) ∧
      (r.state = .paused → barrierUp s h.part = true → completes (.reqResume h n) s fun u => others u ∧
        req u e = { r with resumeCmd := some (taken s h 0x33 0).1 } ∧ (taken s h 0x33 0).1 ∈ u.hif.cmds) ∧
      (r.state ≠ .paused → completes (.reqResume h n) s fun u => recorded s u h 0x33 0x21 ∧ u.srv = s.srv)) ∧
    (∀ i ∈ [(Instr.reqCancel h n, 0x31), (.reqRelease h n, 0x34)], accepted s h i.2 .owned false = true →
      (inStep s e = false → r.state = .ready ∨ r.state = .paused → completes i.1 s fun u => (req u e).state = .free ∧ others u ∧ u.mem = s.mem) ∧
      (inStep s e = true → completes i.1 s fun u => (req u e).state = r.state ∧ others u ∧ (taken s h i.2 0).1 ∈ u.hif.cmds ∧
        ((req u e).cancelCmd.isSome || (req u e).releaseCmd.isSome) = true))) ∧
  (∀ (s : State) (h : Pkt) (n ttl : BitVec 32) (pl : Fin 256), slotPlain s h → findReq s n.toNat = none →
    let st := if expiredHandle s n.toNat then 0x13 else 0x21
    ∀ i ∈ [(Instr.reqPause h n ttl pl, 0x32, st), (.reqResume h n, 0x33, st), (.reqCancel h n, 0x31, 0x21), (.reqRelease h n, 0x34, 0x21)],
      accepted s h i.2.1 .owned false = true → completes i.1 s fun u => recorded s u h i.2.1 i.2.2 ∧ u.srv = s.srv) ∧
  (∀ (s : State) (e : Fin 4096), let r := req s e
    let others := fun (u : State) => (∀ m, m ≠ e.val → req u m = req s m) ∧ u.mem = s.mem
    (r.state = .paused ∨ r.state = .ready → completes (.ttlExpiry e) s fun u => (req u e).state = .free ∧ (req u e).expired = true ∧
      (req u e).gen = r.gen ∧ others u) ∧
    (r.state ∈ [ReqState.free, .active, .pausing, .resuming] → completes (.ttlExpiry e) s (· = s)) ∧
    (r.state = .pausing → r.cancelCmd = none → r.releaseCmd = none → destroying s r.part = false → completes (.pauseSpillDone e) s fun u =>
      (req u e).state = .paused ∧ (req u e).tier = 4 ∧ (req u e).due = s.time + r.ttl * 100000000 ∧ (req u e).pauseCmd = none ∧ others u) ∧
    (r.state ≠ .pausing → completes (.pauseSpillDone e) s (· = s)) ∧
    (r.state = .resuming → r.cancelCmd = none → r.releaseCmd = none → destroying s r.part = false → completes (.resumeCopyDone e) s fun u =>
      (req u e).state = .ready ∧ (req u e).tier = 2 ∧ (req u e).charge4 = 0 ∧ (req u e).resumeCmd = none ∧
      ∀ m, m ≠ e.val → req u m = req s m) ∧
    (r.state ≠ .resuming → completes (.resumeCopyDone e) s (· = s)))

/-- For a running batch of one GREEDY row of a live request with nothing waiting on it, in a partition and device where
nothing else waits for the boundary: when the step's units have ended well, no prompt is left and neither the last
step, the length limit nor a stop token has come, STEP_BOUNDARY counts one position, writes the full candidate record
(position, K, flags 0, and each candidate's index and biased logit in order) at its slot in the function's host memory
and nothing else of host memory, counts the step done and leaves the request ACTIVE and the batch not running; of device
memory it writes only key-value pages: nothing in the clusters, and nothing at all for a request that holds no page. When a
unit failed, the first boundary marks the step for one replay and writes nothing. A boundary of a batch that does not
exist, does not run or whose units still run changes nothing. -/
def Obligations.StepsEndAtTheirBoundaries : Prop :=
  ∀ (s : State) (id : BitVec 32) (lg : List (List (BitVec 32))) (fl : List (Nat × Nat)) (kv : List KvRow) (at0 : List AttnRow), let b := id.toNat
    (batch? s b = none → completes (.stepBoundary id lg fl kv at0) s (· = s)) ∧
    (∀ x, batch? s b = some x →
      (x.running = false → completes (.stepBoundary id lg fl kv at0) s (· = s)) ∧
      (x.running = true → (∃ k u, tfind k s.units = some u ∧ u.kind = .batch b ∧ unitRunning s u = true) →
        completes (.stepBoundary id lg fl kv at0) s (· = s)) ∧
      (x.running = true → x.replay = false → s.units ≠ [] →
        (∀ e ∈ s.units, e.2.kind = .batch b ∧ e.2.failed = true ∧ tfind e.1 s.units = some e.2 ∧ unitRunning s e.2 = false) →
        completes (.stepBoundary id lg fl kv at0) s fun u => batch? u b = some { x with running := false, replay := true } ∧ u.units = [] ∧
          u.srv.reqs = s.srv.reqs ∧ u.host = s.host) ∧
      (∀ (e : Nat) (r : Row) (l : List (BitVec 32)) (q : Part) (h : Handle), let w := (req s e).written
        let at' := x.out + x.done * slotBytes x.kmax
        let cs := candidates { req s e with written := w + 1 } r.k l
        x.running = true → s.units = [] → x.rows = [r] → r.req = some e → r.stopped = false → x.prefill = 0 → x.greedy = true →
        x.done + 1 < x.steps → (req s e).state = .active → (req s e).tier = 2 → (req s e).pauseCmd = none → (req s e).cancelCmd = none →
        (req s e).releaseCmd = none → w + 2 ≠ (req s e).e → cs.length = r.k → 0 < r.k → (∀ t ∈ cs.head?, t.1 ∉ (req s e).stops) → lg = [l] →
        fl = [] → s.srv.batches = [(b, x)] → s.srv.reqs = [(e, req s e)] → x.fn < 16 → at' + 16 + 8 * r.k ≤ 2 ^ 64 → r.k < 65536 →
        tfind x.part s.parts = some q → tfind x.handle s.handles = some h → h.evict = none → q.destroying = false → q.joining = [] →
        q.leaving = [] → q.resize = none → barrierUp s x.part = false → completes (.stepBoundary id lg fl kv []) s fun u =>
          (∃ y, batch? u b = some y ∧ y.done = x.done + 1 ∧ y.running = false ∧ y.rows = [{ r with pos := w }]) ∧
          (req u e).written = w + 1 ∧ (req u e).state = .active ∧
          hrdN u x.fn at' 4 = w % 2 ^ 32 ∧ hrdN u x.fn (at' + 4) 2 = r.k ∧ hrdN u x.fn (at' + 6) 2 = 0 ∧
          (∀ (i : Nat) (t : Nat × Nat), cs[i]? = some t → hrdN u x.fn (at' + 16 + 8 * i) 4 = t.1 % 2 ^ 32 ∧
            hrdN u x.fn (at' + 20 + 8 * i) 4 = t.2 % 2 ^ 32) ∧
          sameHostBut s u x.fn at' (16 + 8 * r.k) ∧ (∀ a < 0x1000000000, rb u a = rb s a) ∧ ((req s e).pages = [] → u.mem = s.mem) ∧
          u.out = s.out))

/-- An accepted PART_CREATE that meets no failing check makes the partition named, or for 0xFF the lowest free number 1 to
15, with its owner, key slot, quotas, rings and minimum rate, its logical clusters the lowest unassigned ones,
unfenced; every other partition is as before. It completes DONE at once with Q2 = 0 and otherwise stays outstanding. A
failing check is answered with its status and no partition changes. An accepted PART_RESIZE that names neither
clusters nor Q2 sets the quotas and the minimum rate it names and completes DONE; one of P0's clusters takes the
joining ones from the unassigned or lists the leaving ones and stays outstanding; a failing check is answered with its
status and no partition changes. No byte of device memory changes. -/
def Obligations.PartitionsAreCreatedAndResized : Prop :=
  ∀ (s : State) (h : Pkt), slotPlain s h →
    (∀ q : PartParams, accepted s h 0x10 .admin true = true →
      (createFailure s q = none → completes (.partCreate h q) s fun u => ∃ p x, tfind p s.parts = none ∧ 1 ≤ p ∧ p ≤ 15 ∧
        (q.part ≠ 0xFF → p = q.part) ∧ (q.part = 0xFF → ∀ j, 1 ≤ j → j < p → (tfind j s.parts).isSome = true) ∧
        tfind p u.parts = some x ∧ x.owner = q.owner ∧ x.logical = (unassigned s).take q.clusters ∧ x.clSet = q.clusters ∧
        x.keySlot = q.keySlot ∧ x.quota = ⟨q.q2, q.wres, q.q3, q.q4, q.areas⟩ ∧ x.ringFirst = q.ringFirst ∧ x.ringCount = q.ringCount ∧
        x.minRate = q.minRate ∧ x.fence = .none ∧ (∀ j, j ≠ p → tfind j u.parts = tfind j s.parts) ∧ u.mem = s.mem ∧
        (q.q2 = 0 → recorded s u h 0x10 0) ∧ (q.q2 ≠ 0 → (taken s h 0x10 0).1 ∈ u.hif.cmds ∧ u.host = s.host)) ∧
      (∀ st, createFailure s q = some st → completes (.partCreate h q) s fun u => recorded s u h 0x10 st ∧ u.parts = s.parts ∧
        u.mem = s.mem ∧ u.clusters = s.clusters)) ∧
    (∀ (q : ResizeParams) (x : Part), accepted s h 0x11 .admin true = true → tfind h.part s.parts = some x →
      (resizeFailure s h.part q = none → q.clusters = none → q.q2 = none → completes (.partResize h q) s fun u =>
        recorded s u h 0x11 0 ∧ ((partGrans s h.part).length ≤ quotaGrans x.quota.q2 → u.mem = s.mem) ∧
        tfind h.part u.parts = some { x with
          quota := { x.quota with wres := q.wres.getD x.quota.wres, q3 := q.q3.getD x.quota.q3,
                                  q4 := (q.q4.map Prod.fst).getD x.quota.q4, areas := (q.q4.map Prod.snd).getD x.quota.areas }
          minRate := q.minRate.getD x.minRate, joining := [], leaving := [] }) ∧
      (∀ n, resizeFailure s h.part q = none → h.part = 0 → q.clusters = some n → n ≠ x.logical.length → completes (.partResize h q) s fun u =>
        (taken s h 0x11 0).1 ∈ u.hif.cmds ∧ u.host = s.host ∧ u.mem = s.mem ∧ ∃ y, tfind 0 u.parts = some y ∧
          y.logical = x.logical.take n ∧ y.leaving = x.logical.drop n ∧ y.joining = (unassigned s).take (n - x.logical.length)) ∧
      (∀ st, resizeFailure s h.part q = some st → completes (.partResize h q) s fun u => recorded s u h 0x11 st ∧ u.parts = s.parts ∧
        u.mem = s.mem)) ∧
    (accepted s h 0x11 .admin true = true → tfind h.part s.parts = none → ∀ q, completes (.partResize h q) s fun u =>
      recorded s u h 0x11 0x21 ∧ u.parts = s.parts)

/-- For a partition below 16, in a device whose invariant holds: an accepted PART_FENCE, PART_RESET or (not of P0)
PART_DESTROY of an unfenced partition asks for its fence, the packet waiting on it and outstanding; raiseDue, which every
quantum boundary runs, then raises it: DRAINING, FLT_PROG.STATE 2. PART_FENCE of a fenced one completes DONE at once. A
reset of a fenced partition with clusters gates each of them (OFF, waiting for power to pass INIT) and shows RESETTING,
STATE 3. PART_DESTROY of P0 answers BAD_PARAM. DRAIN_END ends every outstanding command of the partition but those that
wait to reset or destroy it and leaves the fence up, STATE 1; of a partition being destroyed it frees every handle and
removes the partition, or, while clusters of it have yet to pass INIT, leaves it ending; of one that does not drain it
changes nothing. A reset that times out is a chip reset of cause 2. -/
def Obligations.PartitionsFenceResetAndEnd : Prop :=
  ∀ (s : State), Inv s →
    (∀ (h : Pkt) (x : Part), slotPlain s h → h.part < 16 → tfind h.part s.parts = some x →
      let asks := fun (u : State) (y : Part) => tfind h.part u.parts = some y ∧ y.fence = .none ∧ y.fenceDue = true
      (accepted s h 0x13 .control false = true →
        (x.fence = .none → completes (.partFence h) s fun u => ∃ y, asks u y ∧ y.fenceCmds = x.fenceCmds ++ [(taken s h 0x13 0).1] ∧
          (taken s h 0x13 0).1 ∈ u.hif.cmds) ∧
        (x.fence = .up → completes (.partFence h) s fun u => recorded s u h 0x13 0 ∧ u.parts = s.parts ∧ u.mem = s.mem)) ∧
      (accepted s h 0x14 .control false = true →
        (x.fence = .none → completes (.partReset h) s fun u => ∃ y, asks u y ∧ y.resetCmds = x.resetCmds ++ [(taken s h 0x14 0).1] ∧
          (taken s h 0x14 0).1 ∈ u.hif.cmds) ∧
        (x.fence = .up → x.ending = false → partPhys s h.part ≠ [] → completes (.partReset h) s fun u => ∃ y, tfind h.part u.parts = some y ∧
          y.fence = .resetting ∧ y.initLeft = partPhys s h.part ∧ rd u (FLT_PROG_STATE h.part) = 3 ∧
          ∀ n ∈ partPhys s h.part, rd u (CLU_STAT_STATE n) = 0 ∧ (clu u n).initPend = true)) ∧
      (accepted s h 0x12 .admin true = true →
        (h.part ≠ 0 → x.fence = .none → x.destroying = false → completes (.partDestroy h) s fun u => ∃ y, asks u y ∧
          y.destroying = true ∧ y.destroyCmds = x.destroyCmds ++ [(taken s h 0x12 0).1] ∧ (taken s h 0x12 0).1 ∈ u.hif.cmds) ∧
        (h.part = 0 → completes (.partDestroy h) s fun u => recorded s u h 0x12 0x21 ∧ u.parts = s.parts ∧ u.mem = s.mem))) ∧
    (∀ (p : Fin 16) (x : Part), tfind p.val s.parts = some x →
      (x.fence = .none → x.fenceDue = true → (∀ e ∈ s.parts, e.1 < 16) → ∃ y, tfind p.val (raiseDue s).parts = some y ∧
        y.fence = .draining ∧ y.fenceDue = false ∧ rd (raiseDue s) (FLT_PROG_STATE p) = 2) ∧
      (x.fence ≠ .draining → completes (.drainEnd p) s (· = s)) ∧
      (x.fence = .draining → x.destroying = true → x.ending = false → completes (.drainEnd p) s fun u =>
        (∀ e ∈ u.handles, e.2.part ≠ p.val) ∧ (partPhys s p = [] → tfind p.val u.parts = none) ∧
        (tfind p.val u.parts = none ∨ ∃ y, tfind p.val u.parts = some y ∧ y.ending = true ∧ y.initLeft ≠ [])) ∧
      (x.fence = .draining → x.destroying = false → x.hangFence = false → x.resetCmds = [] → completes (.drainEnd p) s fun u =>
        ∃ y, tfind p.val u.parts = some y ∧ y.fence = .up ∧ y.fenceCmds = [] ∧ rd u (FLT_PROG_STATE p) = 1 ∧
          ∀ c ∈ u.hif.cmds, c.part = p.val → c.opcode = 0x12 ∨ c.opcode = 0x13 ∨ c.opcode = 0x14) ∧
      (x.fence = .resetting → s.boot.released = true → s.boot.down = none → completes (.partResetTimeout p) s (chipWasReset s · 2)) ∧
      (x.fence ≠ .resetting → completes (.partResetTimeout p) s (· = s))) ∧
    (∀ p : Fin 16, tfind p.val s.parts = none → completes (.drainEnd p) s (· = s) ∧ completes (.partResetTimeout p) s (· = s))

/-- For every state, outstanding command, status and result: when the command's ring is enabled, has no record waiting and
a free slot, names no tail word and its slot does not wrap, completing it writes the four words of R395's record
(little-endian, 32 bytes) at CQ base + 32 * tail, advances the tail modulo the ring size, takes the command off the
outstanding ones, and changes no other byte of host memory, no byte of device memory and no register. On a full CQ the
record waits, and on a disabled ring it is discarded; then no byte of host memory changes. -/
def Obligations.CompletionWritesItsRecord : Prop :=
  ∀ (s : State) (c : Cmd) (st : Nat) (x : Result), let r := ring s c.fn c.ring
    let a := r.cfg.cqBase + 32 * r.cqTail
    let u := complete s c st x
    u.hif.cmds = s.hif.cmds.erase c ∧ u.regs = s.regs ∧ u.mem = s.mem ∧
    (r.state = .enabled → r.waiting = [] → cqRoom r = true → r.cfg.tailAddr = 0 → a + 32 ≤ 2 ^ 64 →
      hrdN u c.fn a 8 = (cmdRec c st x).w0 ∧ hrdN u c.fn (a + 8) 8 = (cmdRec c st x).w1 ∧
      hrdN u c.fn (a + 16) 8 = (cmdRec c st x).w2 ∧ hrdN u c.fn (a + 24) 8 = (cmdRec c st x).w3 ∧
      sameHostBut s u c.fn a 32 ∧ (ring u c.fn c.ring).cqTail = (r.cqTail + 1) % 2 ^ r.cfg.cqLog2) ∧
    (r.state = .enabled → cqRoom r = false → u.host = s.host ∧ (ring u c.fn c.ring).waiting = r.waiting ++ [cmdRec c st x]) ∧
    (r.state = .disabled → u.host = s.host ∧ ring u c.fn c.ring = r)

/-- A NOP packet at the head of an enabled COMMAND ring whose next record has its slot is consumed: its record carries
DONE (0) when it passes the checks of R405, the status of the first check that fails when one does, and FENCED (0x10)
when the ring belongs to a fenced partition; the SQ head and the CQ tail advance by one and no register but those of
the log and no byte of device memory changes. A packet the device cannot consume now changes nothing. -/
def Obligations.NopIsAnswered : Prop :=
  ∀ (s : State) (h : Pkt),
    (canConsume s h = false → exec (.nop h) s = .next s) ∧
    (canConsume s h = true → slotPlain s h →
      (ringFenced s h.fn h.ring = true → completes (.nop h) s fun u => recorded s u h 0x01 0x10 ∧ u.mem = s.mem) ∧
      (∀ st, ringFenced s h.fn h.ring = false → pktFailure s h 0x01 .any false = some st →
        completes (.nop h) s fun u => recorded s u h 0x01 st ∧ u.mem = s.mem) ∧
      (ringFenced s h.fn h.ring = false → pktFailure s h 0x01 .any false = none → completes (.nop h) s fun u =>
        recorded s u h 0x01 0 ∧ u.mem = s.mem ∧ sameRegsBut s u [FLT_LOG_TRACE_TR_DROP, FLT_EVT_STAT_TR_DROP]))

/-- SQ_DOORBELL with a value inside the ring, no reserved bit and a ring that is not disabled sets the SQ tail and changes
nothing else of any ring. CQ_DOORBELL with a valid value not past the CQ tail, on an enabled ring with no record
waiting that is not the event ring, sets the CQ head. A refused doorbell sets the ring's DB_ERR, leaves its heads and
tails, and counts one report in the function's root domain. No byte of host or device memory changes. -/
def Obligations.DoorbellsMoveTheRings : Prop :=
  ∀ (s : State) (fn : Fin 16) (rg : Fin 1024) (v : BitVec 31), let r := ring s fn rg
    let w := v.toNat
    let others := fun (u : State) => u.mem = s.mem ∧ u.host = s.host ∧
      ∀ g q : Nat, g * 1024 + q ≠ fn * 1024 + rg → ring u g q = ring s g q
    let refused := fun (u : State) => ring u fn rg = { r with dbErr := true } ∧ others u ∧
      rd u (FLT_DOM_CNT_REPORTS (64 + fn)) =
        satAdd (2 ^ (FLT_DOM_CNT_REPORTS (64 + fn)).width - 1) (rd s (FLT_DOM_CNT_REPORTS (64 + fn))) 1
    let past := (r.cqTail + 2 ^ r.cfg.cqLog2 - r.cqHead) % 2 ^ r.cfg.cqLog2 < (bits w 0 16 + 2 ^ r.cfg.cqLog2 - r.cqHead) % 2 ^ r.cfg.cqLog2
    (doorbellBad r w (2 ^ r.cfg.sqLog2) = false → completes (.sqDoorbell fn rg v) s fun u =>
      ring u fn rg = { r with sqTail := bits w 0 16 } ∧ others u) ∧
    (doorbellBad r w (2 ^ r.cfg.sqLog2) = true → completes (.sqDoorbell fn rg v) s refused) ∧
    (doorbellBad r w (2 ^ r.cfg.cqLog2) = false → ¬past → r.state = .enabled → r.waiting = [] → rd s (HIF_EVT_CFG_RING fn) ≠ rg →
      completes (.cqDoorbell fn rg v) s fun u => (ring u fn rg).cqHead = bits w 0 16 ∧ (ring u fn rg).cqTail = r.cqTail ∧
        (ring u fn rg).state = .enabled ∧ others u) ∧
    (doorbellBad r w (2 ^ r.cfg.cqLog2) = true ∨ past → completes (.cqDoorbell fn rg v) s refused)

/-- BAR0_WRITE outside the MSI-X table and PBA goes to the end of the function's queue while that holds fewer than 64, and
is otherwise discarded and counted in WR_DROP. With READY and not STALE, WINDOW_WRITE_APPLY takes the front write, a
RING_IDX write selects its ring, and HIF_WIN_SEQ counts it. RING_ENABLE of a disabled ring with valid settings makes
it enabled with those settings and empty; with settings that R426 refuses it sets DB_ERR and the ring stays disabled.
RING_DISABLE of an enabled ring drains it: it is DISABLED at once when it has no packet in flight and no record
waiting, and DRAINING otherwise. WINDOW_PUBLISH refreshes the published copy of every word and clears STALE.
MSIX_UNMASK clears the vector's mask and sends its pending message. No byte of device memory changes. -/
def Obligations.WindowWritesAndRings : Prop :=
  ∀ (s : State) (fn : Fin 16),
    (∀ (word : Fin 16384) (v : BitVec 32), ¬(0xE000 ≤ 4 * word.val ∧ 4 * word.val < 0xE400) → ¬(0xF000 ≤ 4 * word.val ∧ 4 * word.val < 0xF008) →
      ((fnSt s fn).wq.length < 64 → completes (.bar0Write fn word v) s fun u =>
        (fnSt u fn).wq = (fnSt s fn).wq ++ [(4 * word.val, v.toNat)] ∧ u = { s with hif := u.hif } ∧ u.hif.rings = s.hif.rings) ∧
      (64 ≤ (fnSt s fn).wq.length → completes (.bar0Write fn word v) s fun u => (fnSt u fn).wq = (fnSt s fn).wq ∧
        rd u (HIF_STAT_WR_DROP fn) = satAdd (2 ^ (HIF_STAT_WR_DROP fn).width - 1) (rd s (HIF_STAT_WR_DROP fn)) 1 ∧
        sameRegsBut s u [HIF_STAT_WR_DROP fn] ∧ u.mem = s.mem ∧ u.host = s.host)) ∧
    (∀ o v l, (fnSt s fn).wq = (o, v) :: l → appliesWindow s fn = true →
      let sel := rd s (HIF_RING_IDX_RING fn)
      let r := ring s fn sel
      let staged := { r.staged with fmt := bits v 30 1, kind := bits v 28 2, sqLog2 := bits v 20 4, cqLog2 := bits v 16 4, vec := bits v 8 6 }
      (completes (.windowWriteApply fn) s fun u => (fnSt u fn).wq = l ∧
        rd u (HIF_WIN_SEQ_SEQ fn) = (rd s (HIF_WIN_SEQ_SEQ fn) + 1) % 2 ^ (HIF_WIN_SEQ_SEQ fn).width ∧ u.mem = s.mem ∧
        (o = 0x20 → rd u (HIF_RING_IDX_RING fn) = bits v 0 10)) ∧
      (o = 0x24 → bit v 31 = true → r.state = .disabled →
        (ringCfgOk staged = true → (fnSt s fn).held = [] → (fnSt s fn).lost = 0 → completes (.ringEnable fn) s fun u =>
          ring u fn sel = { staged := staged, cfg := staged, state := .enabled, dbErr := r.dbErr } ∧ u.mem = s.mem ∧ u.host = s.host) ∧
        (ringCfgOk staged = false → completes (.ringEnable fn) s fun u =>
          ring u fn sel = { r with staged := staged, dbErr := true } ∧ u.mem = s.mem ∧ u.host = s.host)) ∧
      (o = 0x24 → bit v 31 = false → r.state = .enabled →
        completes (.ringDisable fn) s fun u => u.mem = s.mem ∧ u.host = s.host ∧
          (ring u fn sel).state = if inflight s fn sel = 0 ∧ r.waiting = [] then .disabled else .draining)) ∧
    (s.boot.pln = .up → (pairHalted s false && pairHalted s true) = false → completes (.windowPublish fn) s fun u =>
      isSet u (HIF_STAT_STALE fn) = false ∧ (∀ o ∈ windowOffsets, tfind o (fnSt u fn).pub = some (windowWord u fn o)) ∧
      u.mem = s.mem ∧ u.host = s.host) ∧
    (∀ v : Fin 64, completes (.msixUnmask fn v) s fun u => (msixEntry u fn v).masked = false ∧ u.regs = s.regs ∧ u.mem = s.mem ∧
      u.host = s.host ∧ (v.val ∈ (fnSt s fn).pba → (fnSt s fn).d3hot = false → v.val ∉ (fnSt u fn).pba ∧
        u.out = s.out ++ [.msix fn v (msixEntry s fn v).addr (msixEntry s fn v).data]))

/-- COAL_TIMEOUT with records waiting for an interrupt signals the ring's vector: a message when it is unmasked and the
function not in D3hot, else its pending bit. An unsupported BAR read returns all ones. VF_ENABLE_SET with no VF
enabled enables the number named; entering D3hot sets it, leaving it clears it and sends exactly the pending vectors
that are unmasked; the loss and return of PCIE_REFCLK take the link down and up; a completion timeout counts one
report in the function's domain. FUNCTION_LEVEL_RESET of a VF that owns no partition puts its rings, window registers
and MSI-X table at reset, drops its outstanding commands without a record and ends its sessions. VF_ENABLE_CLEAR with
no VF partition leaves no VF enabled, every VF's rings at reset, and erases the key slots VFs own. None of them
changes a byte of device or host memory. -/
def Obligations.LinkAndFunctionEvents : Prop :=
  ∀ s : State,
    (∀ (fn : Fin 16) (rg : Fin 1024), let r := ring s fn rg
      r.cfg.coalUs ≠ 0 → 0 < r.sinceIrq → r.cqHead ≠ r.cqTail → completes (.coalTimeout fn rg) s fun u => (ring u fn rg).sinceIrq = 0 ∧
        u = { s with hif := u.hif, out := u.out } ∧
        (if (fnSt s fn).d3hot || (msixEntry s fn r.cfg.vec).masked then r.cfg.vec ∈ (fnSt u fn).pba ∧ u.out = s.out
         else u.out = s.out ++ [.msix fn r.cfg.vec (msixEntry s fn r.cfg.vec).addr (msixEntry s fn r.cfg.vec).data])) ∧
    (∀ (fn : Fin 16) (n : Fin 64), completes (.barUnsupportedAccess fn (some n)) s fun u =>
      u = { s with out := s.out ++ [.unsupported fn] ++ [.value (2 ^ (8 * n.val) - 1)] }) ∧
    (∀ fn : Fin 16, completes (.barUnsupportedAccess fn none) s fun u => u = { s with out := s.out ++ [.unsupported fn] }) ∧
    (∀ n : Fin 16, s.hif.numVfs = 0 → completes (.vfEnableSet n) s fun u => u.hif.numVfs = n ∧ u = { s with hif := u.hif } ∧
      u.hif.rings = s.hif.rings ∧ ∀ i : Nat, 1 ≤ i → i ≤ n → (fnSt u i).flr = true) ∧
    (∀ fn : Fin 16, completes (.d3hotTransition fn true) s fun u => (fnSt u fn).d3hot = true ∧ u = { s with hif := u.hif }) ∧
    (∀ fn : Fin 16, completes (.d3hotTransition fn false) s fun u => (fnSt u fn).d3hot = false ∧
      (∀ v, v ∈ (fnSt u fn).pba ↔ v ∈ (fnSt s fn).pba ∧ (msixEntry s fn v).masked = true) ∧
      u.out = s.out ++ ((fnSt s fn).pba.filter fun v => !(msixEntry s fn v).masked).map
        (fun v => .msix fn v (msixEntry s fn v).addr (msixEntry s fn v).data) ∧ u = { s with hif := u.hif, out := u.out }) ∧
    (completes .pcieRefclkLoss s fun u => u = { s with hif := { s.hif with refclk := false } }) ∧
    (completes .pcieRefclkReturn s fun u => u = { s with hif := { s.hif with refclk := true } }) ∧
    (∀ fn : Fin 16, completes (.completionTimeout fn) s fun u => rd u (FLT_DOM_CNT_REPORTS (64 + fn)) =
      satAdd (2 ^ (FLT_DOM_CNT_REPORTS (64 + fn)).width - 1) (rd s (FLT_DOM_CNT_REPORTS (64 + fn))) 1 ∧ u.mem = s.mem ∧ u.host = s.host) ∧
    (∀ fn : Fin 16, fn ≠ 0 → ownedParts s (fun f => f == fn.val) = [] → completes (.functionLevelReset fn) s fun u =>
      (∀ rg : Fin 1024, ring u fn rg = {}) ∧ (∀ c ∈ u.hif.cmds, c.fn ≠ fn) ∧ (∀ x ∈ u.sec.sessions, x.fn ≠ fn) ∧
      rd u (HIF_STAT_READY fn) = 0 ∧ rd u (HIF_EVT_CFG_EN fn) = 0 ∧ (fnSt u fn).msix = [] ∧ u.mem = s.mem ∧ u.host = s.host ∧
      (∀ (g : Fin 16) (rg : Fin 1024), g ≠ fn → ring u g rg = ring s g rg)) ∧
    (ownedParts s (fun f => f != 0) = [] → completes .vfEnableClear s fun u => u.hif.numVfs = 0 ∧
      (∀ (g : Fin 16) (rg : Fin 1024), g ≠ 0 → ring u g rg = {}) ∧ (∀ rg : Fin 1024, ring u 0 rg = ring s 0 rg) ∧
      (∀ slot, 2 ≤ tget 0 s.sec.owners slot → tget 0 u.sec.owners slot = 0 ∧ tget 0 u.dram.keys slot = 0) ∧
      u.mem = s.mem ∧ u.host = s.host)

/-- EVENT_SENSE of a source below 1536 samples the level its register or pin gives. Its level bit becomes that level; its
counter rises by one, saturating at 255, exactly on an event of its mode (rising in HIGH and RISE, falling in LOW and
FALL, either in BOTH); its pending bit is also set by the level in HIGH and LOW and by an event in the edge modes. For
a masked source nothing else changes. An unmasked source in mode RISE that was not pending, with a rising level, an
enabled controller and a timer of interval 0, signals its target: a Plinth pair that runs (one that does not takes the
signal later) with the pending bit left set, or an unmasked vector's message with the pending bit cleared. EVC_SW_SET of a software source in mode RISE and masked leaves
its level 0, its pending bit set and one count; of a source below 1536 it sets SW_REJ alone. EVENT_SENSE of a software
source changes nothing. -/
def Obligations.EventSourcesAreSensed : Prop :=
  ∀ (s : State) (src : Fin 2048) (pin : Bool),
    let old := evLevel s src
    let new := (srcLevel s src).getD pin
    let mode := rd s (EVC_ROUTE_MODE src)
    let rise := old = false ∧ new = true
    let fall := old = true ∧ new = false
    let ev := ((mode = 1 ∨ mode = 3) ∧ rise) ∨ ((mode = 2 ∨ mode = 4) ∧ fall) ∨ (mode = 5 ∧ (rise ∨ fall))
    let words := [EVC_LEVEL_LEVEL (src / 32), EVC_PEND_PEND (src / 32), evCnt src]
    (src.val < 1536 → evMask s src = true → completes (.eventSense src pin) s fun u =>
      evLevel u src = new ∧ (evPend u src = true ↔ evPend s src = true ∨ (mode = 1 ∧ new = true) ∨ (mode = 2 ∧ new = false) ∨ ev) ∧
      (ev → rd u (evCnt src) = satAdd 255 (rd s (evCnt src)) 1) ∧ (¬ev → rd u (evCnt src) = rd s (evCnt src)) ∧
      u = { s with regs := u.regs } ∧ sameRegsBut s u words) ∧
    (src.val < 1536 → evMask s src = false → evPend s src = false → isSet s EVC_CTRL_ENABLE = true → mode = 3 → rise →
      rd s (EVC_ROUTE_MOD src) < 32 → rd s (EVC_MOD_INTERVAL (rd s (EVC_ROUTE_MOD src))) = 0 →
      (rd s (EVC_ROUTE_TGT src) ≠ 2 → completes (.eventSense src pin) s fun u =>
        u.out = s.out ++ (if pairTakes s (rd s (EVC_ROUTE_TGT src)) then [.pair (rd s (EVC_ROUTE_TGT src))] else []) ∧
        evPend u src = true ∧ u = { s with regs := u.regs, out := u.out } ∧ sameRegsBut s u words) ∧
      (let fn := rd s (EVC_ROUTE_FUNC src)
       let vec := rd s (EVC_ROUTE_VEC src)
       rd s (EVC_ROUTE_TGT src) = 2 → (fnSt s fn).d3hot = false → (msixEntry s fn vec).masked = false →
        completes (.eventSense src pin) s fun u =>
          u.out = s.out ++ [.msix fn vec (msixEntry s fn vec).addr (msixEntry s fn vec).data] ∧ evPend u src = false ∧
          u = { s with regs := u.regs, out := u.out, evc := u.evc } ∧ sameRegsBut s u words)) ∧
    (1536 ≤ src.val → completes (.eventSense src pin) s fun u => u = s) ∧
    (src.val < 1536 → completes (.evcSwSet src) s fun u => rd u EVC_STAT_SW_REJ = 1 ∧ u = { s with regs := u.regs } ∧
      sameRegsBut s u [EVC_STAT_SW_REJ]) ∧
    (1536 ≤ src.val → evMask s src = true → old = false → mode = 3 → completes (.evcSwSet src) s fun u =>
      evLevel u src = false ∧ evPend u src = true ∧ rd u (evCnt src) = satAdd 255 (rd s (evCnt src)) 1 ∧
      u = { s with regs := u.regs } ∧ sameRegsBut s u words)

/-- EVC_ROUTE_WRITE with a mode above BOTH, target 3, or an MSI-X target naming a VF for a source below 1536 sets
ROUTE_REJ and nothing else. Any other write of a masked source's route sets MODE, TGT, MOD, FUNC and VEC; it clears
the counter when MODE changes and keeps it otherwise, and in the edge modes and OFF keeps the pending bit. EVC_CNT_CLR
clears the one counter named, or all of them, and no other register. MODERATION_HOLD_END of a busy timer with no
deliverable source makes it IDLE; with exactly one, routed to a Plinth pair, it sends that pair, when it runs, one signal
and the timer stays busy; a timer that is not busy changes nothing. -/
def Obligations.EventRoutesCountersAndHolds : Prop :=
  ∀ s : State,
    (∀ (src : Fin 2048) (v : BitVec 32),
      let w := v.toNat
      let refused := 6 ≤ bits w 28 3 ∨ bits w 26 2 = 3 ∨ (bits w 26 2 = 2 ∧ bits w 17 4 ≠ 0 ∧ src.val < 1536)
      (refused → completes (.evcRouteWrite src v) s fun u => rd u EVC_STAT_ROUTE_REJ = 1 ∧ u = { s with regs := u.regs } ∧
        sameRegsBut s u [EVC_STAT_ROUTE_REJ]) ∧
      (¬refused → evMask s src = true → completes (.evcRouteWrite src v) s fun u =>
        rd u (EVC_ROUTE_MODE src) = bits w 28 3 ∧ rd u (EVC_ROUTE_TGT src) = bits w 26 2 ∧ rd u (EVC_ROUTE_MOD src) = bits w 21 5 ∧
        rd u (EVC_ROUTE_FUNC src) = bits w 17 4 ∧ rd u (EVC_ROUTE_VEC src) = bits w 11 6 ∧
        rd u (evCnt src) = (if bits w 28 3 = rd s (EVC_ROUTE_MODE src) then rd s (evCnt src) else 0) ∧
        (bits w 28 3 ≠ 1 → bits w 28 3 ≠ 2 → evPend u src = evPend s src) ∧ u = { s with regs := u.regs } ∧
        sameRegsBut s u [EVC_ROUTE_MODE src, EVC_ROUTE_TGT src, EVC_ROUTE_MOD src, EVC_ROUTE_FUNC src, EVC_ROUTE_VEC src, evCnt src,
          EVC_PEND_PEND (src / 32)])) ∧
    (∀ src : Fin 2048, completes (.evcCntClr false src) s fun u => rd u (evCnt src) = 0 ∧ u = { s with regs := u.regs } ∧
      sameRegsBut s u [evCnt src]) ∧
    (∀ src : Fin 2048, completes (.evcCntClr true src) s fun u => (∀ x < 2048, rd u (evCnt x) = 0) ∧ u = { s with regs := u.regs } ∧
      ∀ f : RegField, ¬(0x21001000 ≤ f.key / 32 ∧ f.key / 32 < 0x21001800) → rd u f = rd s f) ∧
    (∀ t : Fin 32, isSet s (EVC_MOD_BUSY t) = true →
      ((∀ x < 2048, deliverable s x = true → rd s (EVC_ROUTE_MOD x) ≠ t) → completes (.moderationHoldEnd t) s fun u =>
        rd u (EVC_MOD_BUSY t) = 0 ∧ u = { s with regs := u.regs } ∧ sameRegsBut s u [EVC_MOD_BUSY t]) ∧
      (∀ src < 2048, (∀ x < 2048, deliverable s x = true ∧ rd s (EVC_ROUTE_MOD x) = t ↔ x = src) → rd s (EVC_ROUTE_TGT src) ≠ 2 →
        completes (.moderationHoldEnd t) s fun u =>
          u = { s with out := s.out ++ (if pairTakes s (rd s (EVC_ROUTE_TGT src)) then [.pair (rd s (EVC_ROUTE_TGT src))] else []) })) ∧
    (∀ t : Fin 32, isSet s (EVC_MOD_BUSY t) = false → completes (.moderationHoldEnd t) s fun u => u = s)

/-- An accepted POWER_POLICY inside its ranges sets LIMIT and MAX_OP, at partition scope the partition's smoothing fields,
and completes DONE; outside them (or below OP2 while P0 is line-locked) it answers BAD_PARAM. POWER_QUERY completes
DONE with a reply of 64 bytes. OP_TRANSITION_DONE makes the target the point in force and BUSY 0; a waiting decision
then starts its own transition. POWER_FLOOR_RETURN after 16 good quanta ends cause 4 at OP2 or above, and from below
raises the array to OP2; FORECAST_CORRECTION after 4 quanta sets the excess. PATINA_LOWER lowers the point's trim by
one step; PATINA_RECORD appends one record; DROOP counts; RAIL_OC of a rail without actuator is reported in domain 36.
PWR_HWLIM_STAT and PWR_CPM_STAT reads clear their counters alone. Where its condition does not hold, an event changes
nothing. -/
def Obligations.PowerPoliciesAndPoints : Prop :=
  ∀ s : State,
    let loss := [FLT_LOG_TRACE_TR_DROP, FLT_EVT_STAT_TR_DROP]
    (∀ h : Pkt, slotPlain s h →
      (∀ (l : BitVec 16) (m : Fin 256), accepted s h 0x60 .any true = true →
        let bad := l.toNat < 60 ∨ 300 < l.toNat ∨ 6 < m.val ∨ (m.val < 2 ∧ isSet s DSP_STAT_LINE_LOCKED = true)
        (¬bad → completes (.powerPolicy h l m) s fun u => recorded s u h 0x60 0 ∧ rd u PWR_LIMIT_LIMIT = l.toNat ∧
          rd u PWR_LIMIT_MAX_OP = m ∧ sameRegsBut s u ([PWR_LIMIT_LIMIT, PWR_LIMIT_MAX_OP] ++ loss) ∧ u.mem = s.mem) ∧
        (bad → completes (.powerPolicy h l m) s fun u => recorded s u h 0x60 0x21 ∧ sameRegsBut s u loss ∧ u.mem = s.mem)) ∧
      (∀ fl g d r : Fin 256, accepted s h 0x60 .control false = true → h.part < 16 →
        let ok := fl.val ≤ 1 ∧ g.val ≤ 15 ∧ d.val ≤ 4 ∧ r.val ≤ 3
        let l := [PWR_SMOOTH_FILL_EN h.part, PWR_SMOOTH_GAP_LIMIT h.part, PWR_SMOOTH_RAMP_DOWN h.part, PWR_SMOOTH_RAMP_UP h.part]
        (ok → completes (.powerPolicyPartition h fl g d r) s fun u => recorded s u h 0x60 0 ∧ l.map (rd u) = [fl.val, g.val, d.val, r.val] ∧
          sameRegsBut s u (l ++ loss) ∧ u.mem = s.mem) ∧
        (¬ok → completes (.powerPolicyPartition h fl g d r) s fun u => recorded s u h 0x60 0x21 ∧ sameRegsBut s u loss ∧ u.mem = s.mem)) ∧
      (let b := h.replyAddr.toNat
       let a := (ring s h.fn h.ring).cfg.cqBase + 32 * (ring s h.fn h.ring).cqTail
       accepted s h 0x61 .any false = true → b ≠ 0 → 64 ≤ h.replyLen → b + 64 ≤ 2 ^ 64 → (b + 64 ≤ a ∨ a + 32 ≤ b) →
        completes (.powerQuery h) s fun u => recorded s u h 0x61 0 ∧ hrdN u h.fn a 8 = 64 ∧ hrdN u h.fn b 1 = rd s PWR_OP_STAT_OP % 256 ∧
          hrdN u h.fn (b + 1) 2 = rd s PWR_LIMIT_LIMIT % 65536 ∧ hrdN u h.fn (b + 3) 4 = rd s PWR_PKG_AVG % 2 ^ 32 ∧
          u.mem = s.mem ∧ sameRegsBut s u loss)) ∧
    (isSet s PWR_OP_STAT_BUSY = true →
      (s.pwr.waitOp = none → s.pwr.returning = false → completes .opTransitionDone s fun u =>
        rd u PWR_OP_STAT_OP = rd s PWR_OP_STAT_TARGET % 8 ∧ rd u PWR_OP_STAT_BUSY = 0 ∧ u = { s with regs := u.regs } ∧
        sameRegsBut s u [PWR_OP_STAT_OP, PWR_OP_STAT_BUSY]) ∧
      (∀ k < 7, s.pwr.waitOp = some k → completes .opTransitionDone s fun u => rd u PWR_OP_STAT_OP = rd s PWR_OP_STAT_TARGET % 8 ∧
        rd u PWR_OP_STAT_TARGET = k ∧ rd u PWR_OP_STAT_BUSY = (if rd s PWR_OP_STAT_TARGET % 8 = k then 0 else 1) ∧ u.pwr.waitOp = none)) ∧
    (isSet s PWR_OP_STAT_BUSY = false → completes .opTransitionDone s (· = s)) ∧
    (hasCause s 4 = true → 16 ≤ s.pwr.okQuanta → isSet s PWR_OP_STAT_BUSY = false →
      (2 ≤ rd s PWR_OP_STAT_OP → completes .powerFloorReturn s fun u => hasCause u 4 = false ∧ rd u PWR_EVT_STAT_POWER_FLOOR = 1 ∧
        u.pwr.hold2 = true ∧ sameRegsBut s u [DSP_STAT_CAUSE_SET, PWR_EVT_STAT_POWER_FLOOR]) ∧
      (rd s PWR_OP_STAT_OP < 2 → s.pwr.waitOp = none → completes .powerFloorReturn s fun u => rd u PWR_OP_STAT_TARGET = 2 ∧
        rd u PWR_OP_STAT_BUSY = 1 ∧ u.pwr.returning = true ∧ sameRegsBut s u [PWR_OP_STAT_TARGET, PWR_OP_STAT_BUSY])) ∧
    (hasCause s 4 = false ∨ s.pwr.okQuanta < 16 → completes .powerFloorReturn s (· = s)) ∧
    (4 ≤ s.pwr.above → completes .forecastCorrection s fun u =>
      u = { s with pwr := { s.pwr with excess := rd s PWR_PKG_AVG * 1000 - s.pwr.forecast, above := 0 } }) ∧
    (s.pwr.above < 4 → completes .forecastCorrection s (· = s)) ∧
    (∀ k : Fin 7,
      (isSet s PWR_CTRL_PATINA_EN = true → tfind k.val s.pwr.lowerAt = none → -8 < trimOf s k → completes (.patinaLower k) s fun u =>
        trimOf u k = trimOf s k - 1 ∧ sameRegsBut s u [trimField k] ∧ (tfind k.val u.pwr.lowerAt).isSome = true) ∧
      (isSet s PWR_CTRL_PATINA_EN = false → completes (.patinaLower k) s (· = s))) ∧
    (completes .patinaRecord s fun u => ∃ r, u.flash.records = s.flash.records ++ [r] ∧ r.time = s.time ∧
      r.body = .patina ((List.range 7).map (fun k => rd s (trimField k)) ++ [rd s PWR_TRIM_HI_OP6_OFF, hoursNow s] ++
        (List.range 7).map fun k => (tfind k s.pwr.lowerAt).getD 0)) ∧
    (∀ b : Bool, completes (.droop b) s fun u => rd u PWR_EVT_STAT_DROOP = 1 ∧
      rd u PWR_CPM_STAT_DROOP_CNT = satAdd 255 (rd s PWR_CPM_STAT_DROOP_CNT) 1 ∧ u = { s with regs := u.regs } ∧
      sameRegsBut s u [PWR_CPM_STAT_DROOP_CNT, PWR_EVT_STAT_DROOP]) ∧
    (∀ r : Fin 11, (r.val = 0 ∨ r.val = 2 → completes (.railOc r) s (· = s)) ∧
      (r.val ≠ 0 → r.val ≠ 2 → completes (.railOc r) s fun u => rd u PWR_EVT_STAT_RAIL_OC = 1 ∧ u.mem = s.mem ∧ u.host = s.host ∧
        rd u (FLT_DOM_CNT_REPORTS 36) = satAdd (2 ^ (FLT_DOM_CNT_REPORTS 36).width - 1) (rd s (FLT_DOM_CNT_REPORTS 36)) 1)) ∧
    (completes .pwrHwlimStatRead s fun u => u = { s with regs := u.regs, out := s.out ++ [.value (wordView s 0x23000018)] } ∧
      rd u PWR_HWLIM_STAT_ENGAGE_CNT = 0 ∧ sameRegsBut s u [PWR_HWLIM_STAT_ENGAGE_CNT]) ∧
    (completes .pwrCpmStatRead s fun u => u = { s with regs := u.regs, out := s.out ++ [.value (wordView s 0x23000024)] } ∧
      rd u PWR_CPM_STAT_DROOP_CNT = 0 ∧ sameRegsBut s u [PWR_CPM_STAT_DROOP_CNT])

/-- LIMITER_ENGAGE shows its conditions and, from stage 0, begins stage 1 and counts; HALVE halves every throttled
partition's rate down to 1; STEP with all at 1 enters stage 2 and takes the point one lower, not below OP2 (line-
locked, or a POWER_FLOOR takeover still to apply) or OP0; FLOOR at stage 2 and OP2 with the line lock enters stage 3 with cause 4; RELEASE clears stage and
conditions. THERMAL_SAMPLE of 16 passing sensors shows the hottest temperature and its sensor, and the second sample
in a row at the SOFT threshold enters SOFT; a sample that does not list 16 sensors is ill-formed and stops; after the
trip a sample changes nothing. THERMAL_STATE_EXIT 3 degrees below the threshold leaves the state. THERMAL_TRIP after
two samples at 115 degrees latches the trip, shows TRIPPED, leaves every partition RESETTING and every cluster that is
not retired OFF. Elsewhere each changes nothing. -/
def Obligations.LimiterAndThermalResponse : Prop :=
  ∀ s : State,
    let st := rd s PWR_HWLIM_STAT_STAGE
    let conds := [PWR_HWLIM_STAT_LIMIT, PWR_HWLIM_STAT_CEILING, PWR_HWLIM_STAT_RAIL_ARR, PWR_HWLIM_STAT_RAIL_SRAM]
    (∀ a b c d : Bool,
      ((a || b || c || d) = true → completes (.limiterEngage a b c d) s fun u => conds.map (rd u) = [b2n a, b2n b, b2n c, b2n d] ∧
        u = { s with regs := u.regs } ∧
        (st = 0 → rd u PWR_HWLIM_STAT_STAGE = 1 ∧ rd u PWR_EVT_STAT_LIMITER = 1 ∧
          rd u PWR_HWLIM_STAT_ENGAGE_CNT = satAdd 255 (rd s PWR_HWLIM_STAT_ENGAGE_CNT) 1) ∧
        (st ≠ 0 → sameRegsBut s u conds))) ∧
    (completes (.limiterEngage false false false false) s (· = s)) ∧
    (st = 0 → ∀ i ∈ [Instr.limiterHalve, .limiterStep, .limiterFloor, .limiterRelease], completes i s (· = s)) ∧
    (st ≠ 0 → (s.parts.map Prod.fst).Nodup → (∀ e ∈ s.parts, e.1 < 16 ∧ effRate s e.1 ≤ 64) → completes .limiterHalve s fun u =>
      (∀ p ∈ throttled s, rd u (PWR_RATE_HW_RATE p) = max 1 (effRate s p / 2)) ∧
      (∀ p < 16, p ∉ throttled s → rd u (PWR_RATE_HW_RATE p) = rd s (PWR_RATE_HW_RATE p)) ∧ rd u PWR_HWLIM_STAT_STAGE = st ∧ u.mem = s.mem) ∧
    (st ≠ 0 → st ≤ 3 → (∀ p ∈ throttled s, effRate s p = 1) → s.pwr.waitOp = none → isSet s PWR_OP_STAT_BUSY = false → rd s PWR_OP_STAT_OP < 8 →
      let low := if isSet s DSP_STAT_LINE_LOCKED || floorWaits s then 2 else 0
      (low < rd s PWR_OP_STAT_OP → completes .limiterStep s fun u => rd u PWR_HWLIM_STAT_STAGE = max 2 st ∧
        rd u PWR_OP_STAT_TARGET = rd s PWR_OP_STAT_OP - 1 ∧ rd u PWR_OP_STAT_BUSY = 1 ∧ u = { s with regs := u.regs }) ∧
      (rd s PWR_OP_STAT_OP ≤ low → completes .limiterStep s fun u => rd u PWR_HWLIM_STAT_STAGE = max 2 st ∧
        sameRegsBut s u [PWR_HWLIM_STAT_STAGE])) ∧
    (st = 2 → rd s PWR_OP_STAT_OP = 2 → isSet s DSP_STAT_LINE_LOCKED = true → completes .limiterFloor s fun u =>
      rd u PWR_HWLIM_STAT_STAGE = 3 ∧ hasCause u 4 = true ∧ u.pwr.floorLim = true) ∧
    (st ≠ 0 → completes .limiterRelease s fun u => rd u PWR_HWLIM_STAT_STAGE = 0 ∧ (∀ f ∈ conds, rd u f = 0) ∧ u.pwr.floorLim = false ∧
      sameRegsBut s u (PWR_HWLIM_STAT_STAGE :: conds)) ∧
    (∀ l : List (Option Int),
      (l.length ≠ 16 → exec (.thermalSample l) s = .fault .illFormed) ∧
      (l.length = 16 → s.pwr.trip = true → completes (.thermalSample l) s (· = s)) ∧
      (l.length = 16 → s.pwr.trip = false → (∀ x ∈ l, ∃ t : Int, x = some t ∧ -512 ≤ t ∧ t < 512) → completes (.thermalSample l) s fun u =>
        rd u PWR_THERM_STAT_VALID_M1 = 15 ∧ u.pwr.sensorsOut.filter (· < 16) = [] ∧
        (∃ (i : Nat) (t : Int), i < 16 ∧ l[i]? = some (some t) ∧ (∀ (j : Nat) (x : Int), l[j]? = some (some x) → x ≤ t) ∧ tj u = t ∧ rd u PWR_THERM_STAT_SENSOR = i ∧
          (4 * thermThr 1 ≤ t → 1 ≤ tget 0 s.pwr.hot 1 → s.pwr.entered.contains 1 = false →
            1 ∈ u.pwr.entered ∧ rd u PWR_EVT_STAT_THERM_SOFT = 1)))) ∧
    (∀ n : Fin 5,
      (n.val ∈ s.pwr.entered → tj s ≤ 4 * thermThr n - 12 → s.pwr.trip = false → completes (.thermalStateExit n) s fun u =>
        n.val ∉ u.pwr.entered ∧ (∀ m, m ≠ n.val → (m ∈ u.pwr.entered ↔ m ∈ s.pwr.entered)) ∧ sameRegsBut s u [PWR_THERM_STAT_STATE]) ∧
      (n.val ∉ s.pwr.entered ∨ 4 * thermThr n - 12 < tj s → completes (.thermalStateExit n) s (· = s))) ∧
    (Inv s → (∀ e ∈ s.parts, e.1 < 16) → tget 0 s.pwr.hot 4 = 2 → s.pwr.trip = false → completes .thermalTrip s fun u =>
      u.pwr.trip = true ∧ rd u PWR_THERM_STAT_STATE = 4 ∧
      (∀ p x, tfind p s.parts = some x → ∃ y, tfind p u.parts = some y ∧ y.fence = .resetting) ∧
      (∀ n < 34, rd s (CLU_STAT_STATE n) ≠ 5 → rd u (CLU_STAT_STATE n) = 0)) ∧
    (tget 0 s.pwr.hot 4 ≠ 2 ∨ s.pwr.trip = true → completes .thermalTrip s (· = s))

/-- FAULT_RECORD_PUBLISH moves the domain's open record, with the next number, into the slot at HEAD and advances HEAD, or
counts it in LOST while the buffer is FULL; without an open record it changes nothing. FAULT_RECORD_CONSUME advances
TAIL and clears FULL; a record of class PARTITION or DEVICE becomes an alarm of code 0x100 + its domain, and the PF,
while its event ring cannot take it, holds the FAULT event; of a cluster's record the core faults so recorded may clear. LOG_COPY of one record into a buffer with room writes 64
bytes at its slot and PROD after it and empties the log; without room the record stays. LOG_CONFIG and TRACE_CONFIG
with an allowed length set level or mask and the buffer and answer DONE, otherwise BAD_PARAM (0x21). The reads of
FLT_REC_LOST, FLT_SELFTEST, FLT_LOG_STAT, FLT_LOG_TRACE, FLT_PROG and FLT_DOM_CNT return the word as it stood and
clear their rc fields alone. -/
def Obligations.FaultRecordsAndLogs : Prop :=
  ∀ s : State,
    (∀ d : Fin 128, tfind d.val s.flt.opens = none → completes (.faultRecordPublish d) s (· = s)) ∧
    (∀ (d : Fin 128) (r : OpenRec), tfind d.val s.flt.opens = some r →
      let taken := fun (u : State) => tfind d.val u.flt.opens = none ∧ rd u FLT_EVT_STAT_RECORD = 1 ∧
        u.flt.nextNum = (s.flt.nextNum + 1) % 2 ^ 32 ∧ u = { s with regs := u.regs, flt := u.flt }
      (isSet s FLT_REC_PTR_FULL = false → completes (.faultRecordPublish d) s fun u => taken u ∧
        (∃ x, tfind (rd s FLT_REC_PTR_HEAD) u.flt.slots = some x ∧ x.num = s.flt.nextNum ∧ x.domain = d ∧ x.body = r) ∧
        rd u FLT_REC_PTR_HEAD = (rd s FLT_REC_PTR_HEAD + 1) % 256 ∧
        (rd u FLT_REC_PTR_HEAD = rd s FLT_REC_PTR_TAIL → rd u FLT_REC_PTR_FULL = 1) ∧
        sameRegsBut s u [FLT_EVT_STAT_RECORD, FLT_REC_PTR_HEAD, FLT_REC_PTR_FULL]) ∧
      (isSet s FLT_REC_PTR_FULL = true → completes (.faultRecordPublish d) s fun u => taken u ∧ u.flt.slots = s.flt.slots ∧
        rd u FLT_REC_LOST_LOST = satAdd (2 ^ FLT_REC_LOST_LOST.width - 1) (rd s FLT_REC_LOST_LOST) 1 ∧ rd u FLT_EVT_STAT_BUF_FULL = 1 ∧
        sameRegsBut s u [FLT_EVT_STAT_RECORD, FLT_REC_LOST_LOST, FLT_EVT_STAT_BUF_FULL])) ∧
    (∀ (l : Fin 8) (x : FltRec), bufCount s ≠ 0 → tfind (rd s FLT_REC_PTR_TAIL) s.flt.slots = some x → 2 ≤ x.body.cls → logUsed s 0 < 64 →
      evRoom s 0 = false → (fnSt s 0).held.length < 64 → completes (.faultRecordConsume l) s fun u =>
        rd u FLT_REC_PTR_TAIL = (rd s FLT_REC_PTR_TAIL + 1) % 256 ∧ rd u FLT_REC_PTR_FULL = 0 ∧
        sameRegsBut s u ([FLT_REC_PTR_TAIL, FLT_REC_PTR_FULL] ++
          if x.domain < 34 then [CLU_CORE_FAULT_FAULT x.domain 0, CLU_CORE_FAULT_FAULT x.domain 1] else []) ∧ u.mem = s.mem ∧
        (∃ r, u.flt.log = s.flt.log ++ [r] ∧ r.cls = 0 ∧ r.code = 0x100 + x.domain ∧ r.fltNum = x.num ∧ r.data = .fault x) ∧
        ∃ e, (fnSt u 0).held = (fnSt s 0).held ++ [e] ∧ e.code = 3 ∧ e.part = x.body.part ∧ e.detail = x.domain + x.num * 2 ^ 32) ∧
    (∀ l : Fin 8, bufCount s = 0 → completes (.faultRecordConsume l) s (· = s)) ∧
    (∀ r : LogRec, let b := s.flt.logBuf
      s.flt.prev = [] → s.flt.log = [r] → s.flt.traceBuf.len = 0 → 128 ≤ b.len → b.addr + b.len ≤ 2 ^ 64 →
      (bufRoom s b = true → completes .logCopy s fun u => u.flt.log = [] ∧ u.flt.logBuf.prod = (b.prod + 1) % 2 ^ 64 ∧
        hrdN u 0 b.addr 8 = (b.prod + 1) % 2 ^ 64 ∧ hrdN u 0 (b.addr + 64 + 64 * (b.prod % bufRecs b)) 8 = r.time % 2 ^ 64 ∧
        hrdN u 0 (b.addr + 64 + 64 * (b.prod % bufRecs b) + 8) 4 = r.seq % 2 ^ 32 ∧ sameHostBut s u 0 b.addr b.len ∧
        u = { s with host := u.host, flt := u.flt }) ∧
      (bufRoom s b = false → completes .logCopy s (· = s))) ∧
    (∀ (h : Pkt) (a n : BitVec 64), slotPlain s h →
      (∀ l : Fin 256, accepted s h 0x78 .any true = true →
        (l.val < 8 → bufLenOk n.toNat = true → completes (.logConfig h l a n) s fun u => recorded s u h 0x78 0 ∧ u.flt.level = l ∧
          u.flt.logBuf = { addr := a.toNat, len := n.toNat, prod := 0 } ∧ u.mem = s.mem) ∧
        (8 ≤ l.val ∨ bufLenOk n.toNat = false → completes (.logConfig h l a n) s fun u => recorded s u h 0x78 0x21 ∧
          u.flt.level = s.flt.level ∧ u.flt.logBuf = s.flt.logBuf ∧ u.mem = s.mem)) ∧
      (∀ m : BitVec 64, accepted s h 0x79 .any true = true →
        (m.toNat < 256 → bufLenOk n.toNat = true → completes (.traceConfig h m a n) s fun u => recorded s u h 0x79 0 ∧
          u.flt.traceMask = m.toNat ∧ u.flt.traceBuf = { addr := a.toNat, len := n.toNat, prod := 0 } ∧ u.mem = s.mem) ∧
        (256 ≤ m.toNat ∨ bufLenOk n.toNat = false → completes (.traceConfig h m a n) s fun u => recorded s u h 0x79 0x21 ∧
          u.flt.traceMask = s.flt.traceMask ∧ u.flt.traceBuf = s.flt.traceBuf ∧ u.mem = s.mem))) ∧
    (let shows := fun (c : Instr) (v : Nat) (l : List RegField) => completes c s fun u =>
       u = { s with regs := u.regs, out := s.out ++ [.value v] } ∧ (∀ f ∈ l, rd u f = 0) ∧ sameRegsBut s u l
     shows .fltRecLostRead (rd s FLT_REC_LOST_LOST) [FLT_REC_LOST_LOST] ∧
     shows .fltSelftestRead (wordView s 0x22000014) [FLT_SELFTEST_FAILS_A, FLT_SELFTEST_FAILS_B] ∧
     shows .fltLogStatRead (wordView s 0x22000028) [FLT_LOG_STAT_ALM_LOST, FLT_LOG_STAT_EV_DROP] ∧
     shows .fltLogTraceRead (rd s FLT_LOG_TRACE_TR_DROP) [FLT_LOG_TRACE_TR_DROP] ∧
     (∀ p : Fin 16, shows (.fltProgRead p) (wordView s (0x22000040 + 4 * p.val)) [FLT_PROG_HANGS p]) ∧
     (∀ d : Fin 128, shows (.fltDomCntRead d) (wordView s (0x22000100 + 4 * d.val)) [FLT_DOM_CNT_REPORTS d, FLT_DOM_CNT_CORR d]))

/-- LOCKSTEP_MISMATCH of a pair in service makes it RESTARTING, or OFFLINE at its third mismatch within 24 h, sets MISM
and is reported; with the other pair OFFLINE the chip resets with cause 4. A self-test that is not flagged makes the
pair UNCHECKED and counts a failure; the third pass in a row of an UNCHECKED pair makes it CHECKED. A restart that
passes makes the pair CHECKED, one that fails OFFLINE, or a chip reset when no other pair serves. The watchdog count
restarts once every pair with duties has kicked. Its expiry resets the Plinth (CONFIRMED 0, windows STALE, stage ROM),
before CONFIRM the chip (cause 3), and nothing while the count pauses. WDOG_CONFIRM after that reset, with no
partition and no journal record, puts the Plinth back in service; CONFIRM_TIMEOUT resets the chip with cause 3. The
device watchdog's kick and clear act only with CONFIRMED set; its expiry sets EXPIRED alone. -/
def Obligations.PairsAndWatchdogsRecover : Prop :=
  ∀ s : State,
    let live := s.boot.released = true ∧ s.boot.down = none
    let dom := fun (b : Bool) => FLT_DOM_CNT_REPORTS (if b then 45 else 44)
    let counted := fun (u : State) (b : Bool) => rd u (dom b) = satAdd (2 ^ (dom b).width - 1) (rd s (dom b)) 1
    (∀ b : Bool,
      let n := ((pairOf s b).mism.filter fun t => s.time < t + dayTicks).length + 1
      (pairState s b < 2 → pairState s (!b) ≠ 3 → completes (.lockstepMismatch b) s fun u =>
        pairState u b = (if 3 ≤ n then 3 else 2) ∧ rd u (if b then FLT_LOCKSTEP_MISM_B else FLT_LOCKSTEP_MISM_A) = min 15 n ∧
        rd u FLT_EVT_STAT_MISMATCH = 1 ∧ counted u b ∧ pairState u (!b) = pairState s (!b) ∧ u.mem = s.mem ∧ u.host = s.host) ∧
      (pairState s b < 2 → pairState s (!b) = 3 → live → completes (.lockstepMismatch b) s (chipWasReset s · 4)) ∧
      (2 ≤ pairState s b → completes (.lockstepMismatch b) s (· = s) ∧ ∀ f, completes (.checkerSelfTest b f) s (· = s)) ∧
      (pairState s b = 0 → completes (.checkerSelfTest b true) s fun u => u = { s with regs := u.regs } ∧
        rd u FLT_SELFTEST_RUNS = (rd s FLT_SELFTEST_RUNS + 1) % 2 ^ FLT_SELFTEST_RUNS.width ∧ sameRegsBut s u [FLT_SELFTEST_RUNS]) ∧
      (pairState s b = 1 → completes (.checkerSelfTest b true) s fun u =>
        (if 2 ≤ (pairOf s b).passes then pairState u b = 0 ∧ (pairOf u b).passes = 0
         else pairState u b = 1 ∧ (pairOf u b).passes = (pairOf s b).passes + 1) ∧ u.mem = s.mem) ∧
      (pairState s b < 2 → completes (.checkerSelfTest b false) s fun u => pairState u b = 1 ∧ (pairOf u b).passes = 0 ∧
        rd u (if b then FLT_SELFTEST_FAILS_B else FLT_SELFTEST_FAILS_A) =
          satAdd (2 ^ FLT_SELFTEST_FAILS_A.width - 1) (rd s (if b then FLT_SELFTEST_FAILS_B else FLT_SELFTEST_FAILS_A)) 1 ∧
        (pairState s b = 0 → counted u b ∧ rd u FLT_EVT_STAT_UNCHECKED = 1) ∧ u.mem = s.mem) ∧
      (pairState s b = 2 →
        (completes (.pairRestartDone b true) s fun u => pairState u b = 0 ∧ pairState u (!b) = pairState s (!b) ∧ u.mem = s.mem) ∧
        (inServicePair s (!b) = true → completes (.pairRestartDone b false) s fun u => pairState u b = 3 ∧ u.mem = s.mem) ∧
        (inServicePair s (!b) = false → live → completes (.pairRestartDone b false) s (chipWasReset s · 4))) ∧
      (pairState s b ≠ 2 → ∀ p, completes (.pairRestartDone b p) s (· = s)) ∧
      (let done := ∀ x : Bool, holdsDuty s x = true → x = b ∨ (pairOf s x).kicked = true
       (done → completes (.plinthWdogKick b) s fun u => u.flt.wdogAt = s.time ∧ u.flt.pairA.kicked = false ∧ u.flt.pairB.kicked = false ∧
         u = { s with flt := u.flt }) ∧
       (¬done → completes (.plinthWdogKick b) s fun u => u.flt.wdogAt = s.flt.wdogAt ∧ (pairOf u b).kicked = true ∧
         u = { s with flt := u.flt }))) ∧
    (timersPause s = false → s.boot.down = none →
      (s.boot.pln = .up → completes .plinthWdogExpiry s fun u => u.boot.pln = .wdog ∧ rd u FLT_WDOG_CTRL_CONFIRMED = 0 ∧
        rd u FLT_EVT_STAT_PLN_RESET = 1 ∧ stage u = 1 ∧ (∀ f < 16, f ≤ s.hif.numVfs → isSet u (HIF_STAT_STALE f) = true) ∧
        u.threads = s.threads ∧ u.clusters = s.clusters) ∧
      (s.boot.pln = .wdog ∨ s.boot.pln = .old → s.boot.released = true → completes .plinthWdogExpiry s (chipWasReset s · 3)) ∧
      (s.boot.pln = .stopped → completes .plinthWdogExpiry s (· = s))) ∧
    (timersPause s = true → completes .plinthWdogExpiry s (· = s)) ∧
    (s.boot.pln = .wdog ∨ s.boot.pln = .old → live → completes .confirmTimeout s (chipWasReset s · 3)) ∧
    (s.boot.pln = .up → completes .confirmTimeout s (· = s) ∧ completes .wdogConfirm s fun u => rd u FLT_WDOG_CTRL_CONFIRMED = 1 ∧
      u = { s with regs := u.regs } ∧ sameRegsBut s u [FLT_WDOG_CTRL_CONFIRMED]) ∧
    (s.boot.pln = .wdog → s.parts = [] → s.flt.inProgress = [] → s.flash.records = [] → completes .wdogConfirm s fun u =>
      u.boot.pln = .up ∧ rd u FLT_WDOG_CTRL_CONFIRMED = 1 ∧ stage u = 3 ∧ u.boot.staging = none ∧ u.boot.activate = none) ∧
    (isSet s FLT_WDOG_CTRL_CONFIRMED = true →
      (completes .deviceWdogKick s (· = { s with flt := { s.flt with dwdogAt := s.time } })) ∧
      completes .deviceWdogClr s fun u => rd u FLT_DWDOG_EXPIRED = 0 ∧ u = { s with regs := u.regs } ∧ sameRegsBut s u [FLT_DWDOG_EXPIRED]) ∧
    (isSet s FLT_WDOG_CTRL_CONFIRMED = false → completes .deviceWdogKick s (· = s) ∧ completes .deviceWdogClr s (· = s)) ∧
    completes .deviceWdogExpiry s fun u => rd u FLT_DWDOG_EXPIRED = 1 ∧ u = { s with regs := u.regs } ∧ sameRegsBut s u [FLT_DWDOG_EXPIRED]

/-- Through the mailbox of the PF or of an enabled VF with READY set: DOE Discovery answers data object types 0, 1 and 2
of vendor 1, GET_VERSION, GET_CAPABILITIES and NEGOTIATE_ALGORITHMS with a common set their responses, GET_DIGESTS the
SHA-384 of slot 0's chain, GET_CERTIFICATE of slot 0 the part of the chain asked for, CHALLENGE of slot 0 and
GET_MEASUREMENTS the measurement blocks with a signature whose two numbers are free. A NEGOTIATE_ALGORITHMS without a
common set, a slot other than 0, an offset past the chain and a block that does not exist get ERROR and set SPDM_ERR.
A function without a mailbox changes nothing. Nothing but the responses, SPDM_ERR and the counter of free values
changes. -/
def Obligations.SecurityMailboxesAnswer : Prop :=
  ∀ (s : State) (fn : Fin 16),
    let gives := fun (c : Instr) (r : SpdmReply) => completes c s fun u => u = { s with out := s.out ++ [.spdm fn r] }
    let signed := fun (c : Instr) (r : Nat → Nat → SpdmReply) => completes c s fun u =>
      ∃ x y, u = { s with out := s.out ++ [.spdm fn (r x y)], free := s.free + 2 }
    let refused := fun (c : Instr) => completes c s fun u => u.out = s.out ++ [.spdm fn .error] ∧ rd u SEC_EVT_STAT_SPDM_ERR = 1 ∧
      (∃ n, u = { s with out := u.out, regs := u.regs, free := n }) ∧ sameRegsBut s u [SEC_EVT_STAT_SPDM_ERR]
    ((fn.val = 0 ∨ fn.val ≤ s.hif.numVfs) → isSet s SEC_STAT_READY = true →
      gives (.getVersion fn) .version ∧ gives (.getCapabilities fn) .capabilities ∧
      gives (.negotiateAlgorithms fn true) .algorithms ∧ refused (.negotiateAlgorithms fn false) ∧
      (∀ i : Fin 256, i.val ≤ 2 → gives (.doeDiscovery fn i) (.discovery 1 i (if i.val = 2 then 0 else i + 1))) ∧
      gives (.getDigests fn) (.digests (Config.sha384 certChain)) ∧
      (∀ (slot : Fin 16) (o n : BitVec 16), (slot.val = 0 ∧ o.toNat < certChain.length →
          gives (.getCertificate fn slot o n) (.certificate ((certChain.drop o.toNat).take n.toNat))) ∧
        (slot.val ≠ 0 ∨ certChain.length ≤ o.toNat → refused (.getCertificate fn slot o n)) ∧
        (slot.val = 0 → signed (.challenge fn slot) (.challengeAuth (measurementBlocks s fn))) ∧
        (slot.val ≠ 0 → refused (.challenge fn slot))) ∧
      signed (.getMeasurements fn 0) (.measurements (measurementBlocks s fn).length []) ∧
      signed (.getMeasurements fn 255) (.measurements (measurementBlocks s fn).length (measurementBlocks s fn)) ∧
      (∀ i : Fin 256, i.val ≠ 0 → i.val ≠ 255 →
        (∀ b, (measurementBlocks s fn).find? (fun e => e.1 == i.val) = some b → signed (.getMeasurements fn i) (.measurements 1 [b])) ∧
        ((∀ b ∈ measurementBlocks s fn, b.1 ≠ i.val) → refused (.getMeasurements fn i)))) ∧
    ((fn.val ≠ 0 ∧ s.hif.numVfs < fn) ∨ isSet s SEC_STAT_READY = false →
      completes (.getVersion fn) s (· = s) ∧ completes (.getMeasurements fn 255) s (· = s) ∧ completes (.challenge fn 0) s (· = s))

/-- KEY_EXCHANGE with fewer than 4 sessions of the function and fewer than 32 in all adds an unfinished session with the
next number, else SessionLimitExceeded. FINISH with verify data that hold establishes an unfinished session and with
others answers ERROR. In an established session: END_SESSION removes it and no session of another number or function;
KEY_UPDATE answers alone; KEY_SET of two different keys into a slot 1 to 31 that no other function owns (named, or by
0xFF the lowest empty and unowned) loads the pair, makes the function the owner, counts KEY_GEN and sets KEY_SET, and
with equal keys answers BAD_PARAM (0x21) and loads nothing; KEY_ERASE of the function's own slot that no partition but
P0 uses empties and disowns it; KEY_STATUS answers the slot's KEY_GEN and owner, or BAD_PARAM for another function's
slot, and changes nothing. Outside a session each of them is in error. -/
def Obligations.SessionsAndKeySlots : Prop :=
  ∀ (s : State) (fn : Fin 16), mailbox s fn = true →
    let reply := fun (u : State) (r : SpdmReply) => u.out = s.out ++ [.spdm fn r]
    let owner := fun (u : State) (k : Nat) => if tget 0 u.sec.owners k = 0 then 0xFF else tget 0 u.sec.owners k - 1
    let free := fun (k : Nat) => tget 0 s.sec.owners k = 0 ∨ tget 0 s.sec.owners k = fn.val + 1
    let vend := fun (u : State) (op k st : Nat) =>
      reply u (.vendor ([op, k, st, 0] ++ leBytes 4 (rd u (SEC_KEY_GEN_GEN k)) ++ [owner u k, 0, 0, 0]))
    let n := s.sec.nextSession
    ((sessionsOf s fn).length < 4 → s.sec.sessions.length < 32 → completes (.keyExchange fn) s fun u =>
      u.sec.sessions = s.sec.sessions ++ [⟨n, fn, false⟩] ∧ u.sec.nextSession = n + 1 ∧ reply u (.keyExchangeRsp n) ∧
      u = { s with sec := { s.sec with sessions := u.sec.sessions, nextSession := n + 1 }, out := u.out }) ∧
    (4 ≤ (sessionsOf s fn).length ∨ 32 ≤ s.sec.sessions.length → completes (.keyExchange fn) s fun u =>
      reply u .sessionLimitExceeded ∧ u.sec = s.sec ∧ sameRegsBut s u [SEC_EVT_STAT_SPDM_ERR]) ∧
    (∀ id x, session? s fn id = some x → x.finished = false →
      (completes (.finish fn id true) s fun u => session? u fn id = some { x with finished := true } ∧ reply u (.finishRsp id) ∧
        u = { s with sec := { s.sec with sessions := u.sec.sessions }, out := u.out }) ∧
      (completes (.finish fn id false) s fun u => reply u .error ∧ u.sec = s.sec ∧ rd u SEC_EVT_STAT_SPDM_ERR = 1)) ∧
    (∀ id x, session? s fn id = some x → x.finished = true →
      (completes (.endSession fn id) s fun u => session? u fn id = none ∧ reply u (.endSessionAck id) ∧
        (∀ y ∈ s.sec.sessions, y.fn ≠ fn ∨ y.id ≠ id → y ∈ u.sec.sessions) ∧
        u = { s with sec := { s.sec with sessions := u.sec.sessions }, out := u.out }) ∧
      (completes (.keyUpdate fn id) s fun u => u = { s with out := s.out ++ [.spdm fn (.keyUpdateAck id)] }) ∧
      (∀ (k : Fin 256) (a b : BitVec 256), 1 ≤ k.val → k.val ≤ 31 →
        (∀ slot : Fin 256, (slot = k ∨ slot.val = 255 ∧ lowestSlot s = some k.val) → a ≠ b → free k →
          completes (.keySet fn id slot a b true) s fun u =>
          tget 0 u.dram.keys k = 1 + a.toNat + 2 ^ 256 * b.toNat ∧ tget 0 u.sec.owners k = fn + 1 ∧
          rd u (SEC_KEY_GEN_GEN k) = (rd s (SEC_KEY_GEN_GEN k) + 1) % 2 ^ 32 ∧ rd u SEC_EVT_STAT_KEY_SET = 1 ∧ vend u 1 k 0 ∧
          sameRegsBut s u [SEC_KEY_GEN_GEN k, SEC_EVT_STAT_KEY_SET] ∧ u.mem = s.mem ∧
          ∀ j, j ≠ k.val → tget 0 u.dram.keys j = tget 0 s.dram.keys j ∧ tget 0 u.sec.owners j = tget 0 s.sec.owners j) ∧
        (completes (.keySet fn id k a a true) s fun u => u = { s with out := u.out } ∧ vend u 1 k 0x21) ∧
        (tget 0 s.sec.owners k = fn + 1 → (∀ e ∈ s.parts, e.2.keySlot = k.val → e.1 = 0) → completes (.keyErase fn id k true) s fun u =>
          tget 0 u.dram.keys k = 0 ∧ tget 0 u.sec.owners k = 0 ∧ rd u SEC_EVT_STAT_KEY_ERASED = 1 ∧ vend u 2 k 0 ∧
          sameRegsBut s u [SEC_EVT_STAT_KEY_ERASED] ∧ u.mem = s.mem) ∧
        (free k → completes (.keyStatus fn id k true) s fun u => u = { s with out := u.out } ∧ vend u 3 k 0) ∧
        (¬free k → owner s k ≠ 0xFF → completes (.keyStatus fn id k true) s fun u => u = { s with out := u.out } ∧ vend u 3 k 0x21))) ∧
    (∀ id, session? s fn id = none → ∀ (k : Fin 256) (a b : BitVec 256) (r : Bool), ∀ c ∈ [Instr.finish fn id r, .endSession fn id,
      .keyUpdate fn id, .keySet fn id k a b r, .keyErase fn id k r, .keyStatus fn id k r],
      completes c s fun u => reply u .error ∧ u.sec = s.sec ∧ u.dram = s.dram ∧ rd u SEC_EVT_STAT_SPDM_ERR = 1)

/-- An ATTEST_REPORT packet that passes the shared checks, with a buffer at a non-zero address that is long enough for the
report, does not wrap and does not meet its completion record, writes the report: magic 0x5A415452, version 1, the
length 640 + 112 * the handles the function sees, and the nonce in bytes 16 to 47. Its record carries DONE and the
length, and no byte of host memory outside the buffer and the record, no byte of device memory and no register but the
trace-loss ones changes. -/
def Obligations.AttestationReportIsWritten : Prop :=
  ∀ (s : State) (h : Pkt) (nonce : BitVec 256),
    let n := 640 + 112 * (seenHandles s h.fn).length
    let b := h.replyAddr.toNat
    let r := ring s h.fn h.ring
    let a := r.cfg.cqBase + 32 * r.cqTail
    accepted s h 0x71 .any false = true → slotPlain s h → b ≠ 0 → n ≤ h.replyLen → b + n ≤ 2 ^ 64 → (b + n ≤ a ∨ a + 32 ≤ b) →
    completes (.attestReport h nonce) s fun u =>
      hrdN u h.fn b 4 = 0x5A415452 ∧ hrdN u h.fn (b + 4) 2 = 1 ∧ hrdN u h.fn (b + 8) 4 = n % 2 ^ 32 ∧ hrdN u h.fn (b + 16) 32 = nonce.toNat ∧
      recorded s u h 0x71 0 ∧ hrdN u h.fn a 8 = n ∧ u.mem = s.mem ∧
      (∀ g x, g < 16 → x < 2 ^ 64 → ¬(g = h.fn.val ∧ (b ≤ x ∧ x < b + n ∨ a ≤ x ∧ x < a + 32)) → hrb u g x = hrb s g x) ∧
      sameRegsBut s u [FLT_LOG_TRACE_TR_DROP, FLT_EVT_STAT_TR_DROP]

/-- With the aperture answering, an aligned read through either half of a cluster memory's address returns its bytes
little-endian, opens a session, touches the cluster's partition and shows POISON for a poisoned word; one that meets an
uncorrectable error shows POISON too. A peek read of any address changes no register but those of the session, the touch
bits and the aperture status, and no memory; a normal read changes no memory and
clears the rc fields (shown for FLT_SELFTEST). PEEK_WRITE sets PEEK_WR and stores nothing. An unaligned read returns
all ones and an unaligned access is reported unsupported. With the debug logic on, DBG_ACCESS of 8 aligned bytes of a
cluster memory stores exactly them and clears the word's poison, its read and DBG_PEEK's return them in jtagData,
DBG_PEEK's write sets PEEK_WR alone. A debugger's REGISTER_WRITE into a cluster memory stores 4 bytes; the Plinth's of
SEC_APT_BASE sets BASE; the host's I3C write of BMC register 4 clears LAST_FAIL bits; one to an address without a
register changes nothing. With the debug logic or the aperture off no access has an effect. -/
def Obligations.DebugAccessesReadAndWrite : Prop :=
  ∀ s : State,
    let sess := [SEC_DBG_STAT_ACTIVE, SEC_DBG_STAT_SINCE_RESET, SEC_DBG_SESS_COUNT, SEC_EVT_STAT_SESSION_OPEN, SEC_DBG_TOUCH_PART]
    let touches := fun (u : State) (c : Nat) => isSet u SEC_DBG_STAT_ACTIVE = true ∧
      (cluPart s c < 16 → bit (rd u SEC_DBG_TOUCH_PART) (cluPart s c) = true)
    (apertureOn s = true → ∀ (off : BitVec 23) (wide : Bool) (v : BitVec 64),
      let a := rd s SEC_APT_BASE_BASE * 0x400000 + off.toNat
      let n := if wide then 8 else 4
      (off.toNat % n = 0 →
        (∀ c, off.toNat < 0x7FF000 → regionOf s a = .cluMem c →
          (upset s a ≠ some true → ∀ i ∈ [Instr.peekRead off wide .clean, .debugNormalRead off wide .clean],
            completes i s fun u => u.out = s.out ++ [.value (rdN s a n)] ∧ u = { s with regs := u.regs, out := u.out } ∧ touches u c ∧
              (poisoned s a = true → rd u SEC_APT_STAT_POISON = 1) ∧ sameRegsBut s u (SEC_APT_STAT_POISON :: sess)) ∧
          ∀ i ∈ [Instr.peekRead off wide .uncorrectable, .debugNormalRead off wide .uncorrectable], completes i s fun u =>
            rd u SEC_APT_STAT_POISON = 1 ∧ touches u c ∧ u.mem = s.mem) ∧
        (∀ e, completes (.peekRead off wide e) s fun u =>
          u = { s with regs := u.regs, out := u.out, upsets := u.upsets, free := u.free } ∧
          sameRegsBut s u ([SEC_APT_STAT_POISON, SEC_APT_STAT_DECODE_ERR] ++ sess)) ∧
        (∀ e, completes (.debugNormalRead off wide e) s fun u => u.mem = s.mem ∧ u.host = s.host) ∧
        (∀ e, off.toNat < 0x7FF000 → a = 0x22000014 → completes (.debugNormalRead off wide e) s fun u =>
          rd u FLT_SELFTEST_FAILS_A = 0 ∧ rd u FLT_SELFTEST_FAILS_B = 0) ∧
        (completes (.peekWrite off wide v) s fun u => rd u SEC_APT_STAT_PEEK_WR = 1 ∧ isSet u SEC_DBG_STAT_ACTIVE = true ∧
          u = { s with regs := u.regs } ∧ sameRegsBut s u (SEC_APT_STAT_PEEK_WR :: sess))) ∧
      (off.toNat % n ≠ 0 →
        (∀ e, ∀ i ∈ [Instr.peekRead off wide e, .debugNormalRead off wide e], completes i s fun u =>
          u = { s with out := s.out ++ [.unsupported 0] ++ [.value (2 ^ (8 * n) - 1)] }) ∧
        (completes (.peekWrite off wide v) s fun u => u = { s with out := s.out ++ [.unsupported 0] }))) ∧
    (debugOn s = true → ∀ (addr : BitVec 40), let a := addr.toNat
      let waits := ∃ c m k w, cellOf a = some (c, m, k, w) ∧ ¬noWriteBack s c m k [w]
      (∀ c, regionOf s a = .cluMem c →
        (a % 8 = 0 → ¬waits → ∀ v e, completes (.dbgAccess addr true (some v) e) s fun u => rdN u a 8 = v.toNat ∧ sameMemBut s u a 8 ∧
          poisoned u a = false ∧ u.host = s.host ∧ touches u c ∧ sameRegsBut s u sess) ∧
        (∀ wide : Bool, let n := if wide then 8 else 4
          a % n = 0 → upset s a ≠ some true → ∀ i ∈ [Instr.dbgAccess addr wide none .clean, .dbgPeek addr wide none .clean], completes i s fun u =>
            (∃ st, st < 64 ∧ u.out = s.out ++ [.jtag (rdN s a n + st * 2 ^ 64)]) ∧ u.sec.jtagData = rdN s a n ∧ u.mem = s.mem ∧
            touches u c) ∧
        (a % 4 = 0 → ¬waits → upset s a = none → ∀ v, completes (.registerWrite addr v true) s fun u => rdN u a 4 = v.toNat ∧ sameMemBut s u a 4 ∧
          u.host = s.host ∧ touches u c ∧ sameRegsBut s u sess)) ∧
      (a % 8 = 0 → ∀ v e, completes (.dbgPeek addr true (some v) e) s fun u => rd u SEC_APT_STAT_PEEK_WR = 1 ∧ u.mem = s.mem ∧
        sameRegsBut s u (SEC_APT_STAT_PEEK_WR :: sess)) ∧
      (a % 8 ≠ 0 → ∀ v e, completes (.dbgAccess addr true (some v) e) s fun u => u.mem = s.mem ∧ u.out = s.out)) ∧
    (debugOn s = false → ∀ (addr : BitVec 40) (wide : Bool) (w : Option (BitVec 64)) (v : BitVec 32) (e : Ecc),
      ∀ i ∈ [Instr.dbgAccess addr wide w e, .dbgPeek addr wide w e, .registerWrite addr v true], completes i s (· = s)) ∧
    (apertureOn s = false → ∀ (off : BitVec 23) (wide : Bool) (v : BitVec 64) (e : Ecc),
      ∀ i ∈ [Instr.peekRead off wide e, .debugNormalRead off wide e, .peekWrite off wide v], completes i s (· = s)) ∧
    (∀ v : BitVec 32,
      (completes (.registerWrite 0x24000050 v false) s fun u => rd u SEC_APT_BASE_BASE = bits v.toNat 0 18 ∧ u = { s with regs := u.regs } ∧
        sameRegsBut s u [SEC_APT_BASE_BASE]) ∧
      (completes (.registerWrite 4 v false) s fun u => u = { s with regs := u.regs } ∧ sameRegsBut s u [BMC_RAILS_LAST_FAIL] ∧
        ∀ i < 11, bit (rd u BMC_RAILS_LAST_FAIL) i = (bit (rd s BMC_RAILS_LAST_FAIL) i && !bit v.toNat (16 + i))) ∧
      (∀ addr : BitVec 40, 0x100 ≤ addr.toNat → regionOf s addr.toNat ≠ .reg → completes (.registerWrite addr v false) s (· = s)))

/-- With the debug logic on: DEBUG_SESSION_END and DEBUG_SESSION_IDLE_TIMEOUT of an open session close it when nothing is
halted, freeing the debugger's semaphores and no other; while something is halted the end only stays asked for, and
the timeout changes nothing. PAIR_HALT of a CHECKED or UNCHECKED pair makes it HALTED and clears its cores' reservations,
PAIR_RESUME of a halted one gives back the state before; the other pair keeps its state. THREAD_HALT of a mapped cluster halts exactly the named
threads that are READY or in a WAIT state, remembering that state; THREAD_RESUME gives halted named threads their
resume state and changes no other thread; a cluster that is not mapped is ignored. SEM_ACQUIRE of a free semaphore
takes it for the reader and shows ACQ, of a held one changes nothing; SEM_RELEASE by the owner frees it, by others
nothing; a hold timeout sets SEM_TIMEOUT and is reported in domain 46, unless the limit is 0, the semaphore is free or
the timers pause. -/
def Obligations.SessionsHaltsAndSemaphores : Prop :=
  ∀ s : State,
    (debugOn s = true → isSet s SEC_DBG_STAT_ACTIVE = true →
      (anyHalted s = false → ∀ i ∈ [Instr.debugSessionEnd, .debugSessionIdleTimeout], completes i s fun u =>
        rd u SEC_DBG_STAT_ACTIVE = 0 ∧ rd u SEC_DBG_CTRL_END = 0 ∧
        (∀ n < 32, isSet s (PLN_SEM_HELD n) = true → rd s (PLN_SEM_OWNER n) = 2 → rd u (PLN_SEM_HELD n) = 0) ∧
        (∀ n < 32, rd s (PLN_SEM_OWNER n) ≠ 2 → rd u (PLN_SEM_HELD n) = rd s (PLN_SEM_HELD n)) ∧
        u = { s with regs := u.regs, sec := { s.sec with sems := u.sec.sems } }) ∧
      (anyHalted s = true →
        (completes .debugSessionEnd s fun u => rd u SEC_DBG_CTRL_END = 1 ∧ u = { s with regs := u.regs } ∧
          sameRegsBut s u [SEC_DBG_CTRL_END]) ∧
        (completes .debugSessionIdleTimeout s (· = s)))) ∧
    (debugOn s = true → ∀ b : Bool,
      let rest := fun (u : State) => pairState u (!b) = pairState s (!b) ∧ pairHalted u (!b) = pairHalted s (!b) ∧ u.mem = s.mem ∧
        u.host = s.host ∧ u.threads = s.threads
      (pairState s b < 2 → completes (.pairHalt b) s fun u => pairState u b = 4 ∧ pairHalted u b = true ∧
        (pairOf u b).before = pairState s b ∧ (pairOf u b).resv = [] ∧ rest u) ∧
      (pairState s b = 4 → (pairOf s b).before < 2 → completes (.pairResume b) s fun u =>
        pairState u b = (pairOf s b).before ∧ pairHalted u b = false ∧ rest u)) ∧
    (debugOn s = true → ∀ (cl c : Fin 64) (m : BitVec 8), let no := fun (i : Nat) => coreNo cl c * 8 + i
      (cl.val < 34 → isSet s (CLU_MAP_MAPPED cl) = true →
        (completes (.threadHalt cl c m) s fun u => u.mem = s.mem ∧ u.host = s.host ∧ (∀ i < 8,
          if m.getLsbD i = true ∧ 1 ≤ thrState s (no i) ∧ thrState s (no i) ≤ 5 then
            thrState u (no i) = 7 ∧ thr u (no i) = { thr s (no i) with resume := thrState s (no i) }
          else thrState u (no i) = thrState s (no i) ∧ thr u (no i) = thr s (no i)) ∧
          ∀ k < 17408, (∀ i < 8, k ≠ no i) → thrState u k = thrState s k ∧ thr u k = thr s k) ∧
        (completes (.threadResume cl c m) s fun u => u.mem = s.mem ∧ u.host = s.host ∧ (∀ i < 8,
          if m.getLsbD i = true ∧ thrState s (no i) = 7 then
            thrState u (no i) = (thr s (no i)).resume % 8 ∧ thr u (no i) = { thr s (no i) with resume := 0 }
          else thrState u (no i) = thrState s (no i) ∧ thr u (no i) = thr s (no i)))) ∧
      (34 ≤ cl.val ∨ isSet s (CLU_MAP_MAPPED cl) = false → ∀ i ∈ [Instr.threadHalt cl c m, .threadResume cl c m],
        completes i s fun u => u = { s with regs := u.regs } ∧
          sameRegsBut s u [PLN_THR_HALT_OP, PLN_THR_HALT_PHYS, PLN_THR_HALT_CORE, PLN_THR_HALT_THREADS])) ∧
    (∀ (n : Fin 32) (who : Fin 3),
      (isSet s (PLN_SEM_HELD n) = false → completes (.semAcquire n who) s fun u => rd u (PLN_SEM_HELD n) = 1 ∧
        rd u (PLN_SEM_OWNER n) = who ∧ (∃ v, 2 ^ 31 ≤ v ∧ u.out = s.out ++ [.value v]) ∧
        sameRegsBut s u [PLN_SEM_HELD n, PLN_SEM_OWNER n] ∧ u.mem = s.mem) ∧
      (isSet s (PLN_SEM_HELD n) = true → completes (.semAcquire n who) s fun u =>
        u = { s with out := s.out ++ [.value (wordView s (0x20000200 + 4 * n))] }) ∧
      (isSet s (PLN_SEM_HELD n) = true → rd s (PLN_SEM_OWNER n) = who → completes (.semRelease n who) s fun u =>
        rd u (PLN_SEM_HELD n) = 0 ∧ sameRegsBut s u [PLN_SEM_HELD n] ∧ u = { s with regs := u.regs, sec := { s.sec with sems := u.sec.sems } }) ∧
      (isSet s (PLN_SEM_HELD n) = false ∨ rd s (PLN_SEM_OWNER n) ≠ who → completes (.semRelease n who) s (· = s)) ∧
      (isSet s (PLN_SEM_HELD n) = true → rd s PLN_SEM_CFG_HOLD_LIM ≠ 0 → timersPause s = false → completes (.semHoldTimeout n) s fun u =>
        rd u PLN_DBG_STAT_SEM_TIMEOUT = 1 ∧ rd u (FLT_DOM_CNT_REPORTS 46) =
          satAdd (2 ^ (FLT_DOM_CNT_REPORTS 46).width - 1) (rd s (FLT_DOM_CNT_REPORTS 46)) 1 ∧ u.mem = s.mem ∧ u.host = s.host) ∧
      (isSet s (PLN_SEM_HELD n) = false ∨ rd s PLN_SEM_CFG_HOLD_LIM = 0 ∨ timersPause s = true → completes (.semHoldTimeout n) s (· = s)))

/-- BYPASS and TRST_N change the selected instruction alone and give the pins back; IDCODE also shifts out version 0xB and
part 0x8640; SAMPLE_PRELOAD with bits loads the boundary register with them, and without keeps its length, its bits
being free. EXTEST, CLAMP and HIGHZ take the pins: the state they leave is free (log entry 1), but host memory, what
was sent, the commands that wait, the time, the quantum number and the boundary register stay. -/
def Obligations.JtagInstructionsSelect : Prop :=
  ∀ s : State,
    let sel := fun (i : Nat) => { s with sec := { s.sec with jtag := i, pinsTaken := false } }
    (completes .bypass s (· = sel 1)) ∧ (completes .trstN s (· = sel 0)) ∧
    (completes .idcode s fun u => ∃ v, v / 2 ^ 28 = 0xB ∧ v / 2 ^ 12 % 2 ^ 16 = 0x8640 ∧ u = { sel 0 with out := s.out ++ [.jtag v] }) ∧
    (∀ l, completes (.samplePreload (some l)) s fun u =>
      u = { s with sec := { s.sec with jtag := 2, pinsTaken := false, boundary := l } }) ∧
    (completes (.samplePreload none) s fun u => u.sec.boundary.length = s.sec.boundary.length ∧
      u = { s with sec := { s.sec with jtag := 2, pinsTaken := false, boundary := u.sec.boundary }, free := s.free + 1 }) ∧
    (∀ i ∈ [(Instr.extest, 3), (Instr.clamp, 4), (Instr.highz, 5)], completes i.1 s fun u => u.sec.jtag = i.2 ∧ u.sec.pinsTaken = true ∧
      u.host = s.host ∧ u.out = s.out ∧ u.pending = s.pending ∧ u.time = s.time ∧ u.quantum = s.quantum ∧
      u.sec.boundary = s.sec.boundary ∧ rd u BMC_RAILS_GOOD = rd s BMC_RAILS_GOOD % 2 ^ 11)

/-- POWER_ON leaves RESET with cause 0, time 0, empty memories and only VDD_AON good. RAIL_FAIL of released supplies
records the rails in LAST_FAIL, takes them out of GOOD and resets every domain but the always-on one, and that too
when VDD_AON is among them; the flash records stay. RESET_RELEASE sets GOOD to all rails, releases the device into ROM
(RESET while PERST_N is low), with cause 5 when another rail had failed. PERST_N_ASSERT is a chip reset of cause 1;
its release starts ROM. PWR_FAIL_N, BMC_PWR_DOWN and the loss of REFCLK start the power-down: stage POWERING_DOWN, no
work unit left, every cluster that is not retired OFF; POWERED_DOWN_REACHED sets STOPPED and CLOSED and stage
POWERED_DOWN; the matching release, restart or return then restarts the device with cause 6. Each changes nothing (but
its own pin) where its precondition fails. ENTDAA with its supplies good takes the address. Host memory and what was
sent stay. -/
def Obligations.SuppliesAndResetsTakeTheDevice : Prop :=
  ∀ s : State,
    let counted := fun (u : State) => rd u FLT_RST_CAUSE_COUNT = satAdd (2 ^ FLT_RST_CAUSE_COUNT.width - 1) (rd s FLT_RST_CAUSE_COUNT) 1
    let outside := fun (u : State) => u.host = s.host ∧ u.out = s.out ∧ u.pending = s.pending
    let blank := fun (u : State) => u.mem = [] ∧ u.parts = [] ∧ u.units = [] ∧ u.threads = [] ∧ u.hif.rings = [] ∧ u.hif.cmds = [] ∧
      u.sec.sessions = [] ∧ u.boot.pln = .stopped ∧ u.boot.down = none ∧ u.flash.records = s.flash.records ∧ outside u
    let starts := fun (u : State) => u.boot.released = true ∧ stage u = (if s.boot.perst then 0 else 1) ∧ rd u BMC_STAT_HOLD_REASON = 0
    (completes .powerOn s fun u => blank u ∧ stage u = 0 ∧ u.time = 0 ∧ u.boot.released = false ∧ rd u FLT_RST_CAUSE_CAUSE = 0 ∧
      rd u BMC_RAILS_GOOD = 8) ∧
    (completes (.railFail 0) s (· = s)) ∧
    (∀ r : BitVec 11, r ≠ 0 → s.boot.released = true → completes (.railFail r) s fun u => blank u ∧ stage u = 0 ∧ u.boot.released = false ∧
      (∀ i < 11, bit (rd u BMC_RAILS_GOOD) i = (bit (rd s BMC_RAILS_GOOD) i && !r.getLsbD i)) ∧
      (r.getLsbD 3 = false → u.time = s.time ∧ u.boot.railLost = true ∧
        ∀ i < 11, bit (rd u BMC_RAILS_LAST_FAIL) i = (bit (rd s BMC_RAILS_LAST_FAIL) i || r.getLsbD i)) ∧
      (r.getLsbD 3 = true → u.time = 0)) ∧
    (s.boot.released = false → completes .resetRelease s fun u => starts u ∧ rd u BMC_RAILS_GOOD = 0x7FF ∧ u.boot.railLost = false ∧
      (s.boot.railLost = true → rd u FLT_RST_CAUSE_CAUSE = 5 ∧ counted u) ∧
      (s.boot.railLost = false → rd u FLT_RST_CAUSE_CAUSE = rd s FLT_RST_CAUSE_CAUSE) ∧ u.mem = s.mem ∧ outside u) ∧
    (s.boot.released = true → completes .resetRelease s (· = s)) ∧
    (s.boot.released = true → s.boot.down = none → completes .perstNAssert s fun u => chipWasReset s u 1 ∧ u.boot.perst = true ∧ stage u = 0) ∧
    (s.boot.released = false ∨ s.boot.down ≠ none → completes .perstNAssert s (· = { s with boot := { s.boot with perst := true } })) ∧
    (s.boot.released = true → s.boot.down = none → stage s = 0 → s.boot.held = false → completes .perstNRelease s fun u =>
      u.boot.perst = false ∧ stage u = 1 ∧ u = { s with boot := { s.boot with perst := false }, regs := u.regs } ∧
      sameRegsBut s u [BMC_STAT_STAGE]) ∧
    (∀ c ∈ [(Instr.pwrFailNAssert, DownBy.pwrFail), (.bmcPwrDown, .bmc), (.refclkLoss, .refclk)],
      (s.boot.released = true → s.boot.down = none → completes c.1 s fun u => u.boot.down = some c.2 ∧ stage u = 6 ∧ u.units = [] ∧
        (∀ n < 34, rd s (CLU_STAT_STATE n) ≠ 5 → rd u (CLU_STAT_STATE n) = 0) ∧
        (∀ n < 34, rd s (CLU_STAT_STATE n) = 5 → rd u (CLU_STAT_STATE n) = 5)) ∧
      (s.boot.released = false ∨ s.boot.down ≠ none → completes c.1 s fun u => u = { s with boot := u.boot } ∧ u.boot.down = s.boot.down)) ∧
    (∀ t : Bool, (stage s = 6 → completes (.poweredDownReached t) s fun u => stage u = 7 ∧ rd u WFL_STAT_STOPPED = 1 ∧
      rd u WFL_STAT_CLOSED = 1) ∧ (stage s ≠ 6 → completes (.poweredDownReached t) s (· = s))) ∧
    (∀ c ∈ [(Instr.pwrFailNRelease, DownBy.pwrFail), (.bmcRestart, .bmc), (.refclkReturn, .refclk)],
      (stage s = 7 → s.boot.down = some c.2 → rd s BMC_RAILS_GOOD = 0x7FF → completes c.1 s fun u => blank u ∧ starts u ∧
        rd u FLT_RST_CAUSE_CAUSE = 6 ∧ counted u) ∧
      (stage s ≠ 7 ∨ s.boot.down ≠ some c.2 → completes c.1 s fun u => u = { s with boot := u.boot } ∧ u.boot.down = s.boot.down)) ∧
    (∀ a : BitVec 7,
      (bit (rd s BMC_RAILS_GOOD) 3 = true ∧ bit (rd s BMC_RAILS_GOOD) 8 = true →
        completes (.entdaa a) s (· = { s with boot := { s.boot with i3c := some a.toNat } })) ∧
      (bit (rd s BMC_RAILS_GOOD) 3 = false ∨ bit (rd s BMC_RAILS_GOOD) 8 = false → completes (.entdaa a) s (· = s)))

/-- In stage ROM after a reset, BOOT_ROM with a failing self-test holds with reason 1; with ACTIVE's image acceptable and
no trial it starts it and goes to FW_INIT; with no acceptable image in either slot it holds with reason 2.
FIRMWARE_INIT holds with reason 4 on a bad board record, 3 without DRAM, 5 without a replay; otherwise, here with DRAM
ready, it creates P0 for the PF with key slot 0, confirms, sets READY and goes to RUNNING. FW_STAGE that passes its
checks empties the slot and starts writing it, else answers the failing check's status; FW_ACTIVATE of a staged slot
with no store job and no cast waits, else BAD_PARAM. ACTIVATION_RESTART with no unit running writes TRIAL and resets
the Plinth into ROM; TRIAL_CONFIRM makes the slot ACTIVE and the Plinth serve; TRIAL_TIMEOUT reverts.
BOOT_FLASH_OP_DONE ends a BOOT_CTL write, torn with WRITE_ERR when it failed, or a slot's, whose image is then in
place and staged. -/
def Obligations.BootAndFirmwareUpdate : Prop :=
  ∀ s : State,
    (∀ board : Option BootFlash, stage s = 1 → s.boot.pln = .stopped →
      let s' : State := { s with boot := { s.boot with flash := board.getD s.boot.flash } }
      (completes (.bootRom board false) s fun u => stage u = 5 ∧ rd u BMC_STAT_HOLD_REASON = 1) ∧
      (∀ i, (ctlNow s').trial = 0xFF → goodSlot s' (ctlNow s').active = some i → completes (.bootRom board true) s fun u =>
        stage u = 2 ∧ u.boot.image = some i ∧ u.boot.slot = (ctlNow s').active ∧ u.boot.fwDigest = i.digest ∧
        u.boot.boardDigest = i.boardDigest ∧ rd u XSP_STAT_READY = 1 ∧ rd u SEC_STAT_READY = 1) ∧
      ((∀ k, goodSlot s' k = none) → completes (.bootRom board true) s fun u => stage u = 5 ∧ rd u BMC_STAT_HOLD_REASON = 2)) ∧
    (∀ (t : BitVec 16) (f : List (Fin 34)) (r : Bool) (i : FwImage), stage s = 2 → s.boot.pln = .stopped → s.boot.image = some i →
      (boardOk i.board = false → completes (.firmwareInit t f r) s fun u => stage u = 5 ∧ rd u BMC_STAT_HOLD_REASON = 4) ∧
      (boardOk i.board = true → isSet (bootDram s i.board t.toNat) MEM_STAT_READY = false → completes (.firmwareInit t f r) s fun u =>
        stage u = 5 ∧ rd u BMC_STAT_HOLD_REASON = 3) ∧
      (boardOk i.board = true → isSet s MEM_STAT_READY = true →
        (completes (.firmwareInit t f false) s fun u => stage u = 5 ∧ rd u BMC_STAT_HOLD_REASON = 5) ∧
        (completes (.firmwareInit t f true) s fun u => stage u = 3 ∧ u.boot.pln = .up ∧ rd u FLT_WDOG_CTRL_CONFIRMED = 1 ∧
          isSet u (HIF_STAT_READY 0) = true ∧ rd u EVC_CTRL_ENABLE = 1 ∧
          ∃ x, tfind 0 u.parts = some x ∧ x.owner = 0 ∧ x.keySlot = 0 ∧ x.clSet = x.logical.length ∧ x.quota.q2 = i.board.p0Q2))) ∧
    (∀ (h : Pkt), slotPlain s h →
      (∀ (len : BitVec 32) (slot : Fin 256) (i : FwImage), accepted s h 0x7C .any true = true →
        let k := if slot.val = 0xFF then 1 - s.boot.slot else slot
        let p := taken s h 0x7C 0
        (stageFailure s len.toNat k i = none → completes (.fwStage h len slot i) s fun u => u.boot.staging = some ⟨p.1, k, i⟩ ∧
          u.boot.staged = none ∧ slotImage u k = none ∧ rd u XSP_STAT_BUSY = 1 ∧ p.1 ∈ u.hif.cmds ∧ u.mem = s.mem ∧ u.host = s.host) ∧
        (∀ st, stageFailure s len.toNat k i = some st → completes (.fwStage h len slot i) s fun u => recorded s u h 0x7C st ∧
          u.boot = s.boot ∧ u.mem = s.mem)) ∧
      (accepted s h 0x7D .any true = true →
        let ok := s.boot.staged ≠ none ∧ s.boot.activate = none ∧ s.flash.jobs = [] ∧ ∀ e ∈ s.parts, e.2.cast = none
        (ok → completes (.fwActivate h) s fun u => u.boot = { s.boot with activate := some (taken s h 0x7D 0).1 } ∧
          (taken s h 0x7D 0).1 ∈ u.hif.cmds ∧ u.mem = s.mem ∧ u.host = s.host) ∧
        (¬ok → completes (.fwActivate h) s fun u => recorded s u h 0x7D 0x21 ∧ u.boot = s.boot ∧ u.mem = s.mem))) ∧
    (∀ k i, s.boot.staged = some k → s.boot.image = some i → s.boot.pln = .up → s.boot.activate ≠ none → s.boot.stopped = true →
      s.boot.down = none → (∀ e ∈ s.units, unitRunning s e.2 = false) → completes .activationRestart s fun u =>
        u.boot.pln = .restart ∧ stage u = 1 ∧ (ctlNow u).trial = k ∧ (ctlNow u).seq = (ctlNow s).seq + 1 ∧
        (ctlNow u).active = (ctlNow s).active ∧ u.boot.handoff.isSome = true ∧ rd u FLT_WDOG_CTRL_CONFIRMED = 0) ∧
    (∀ i, s.boot.pln = .trial → s.boot.image = some i → isSet s FLT_WDOG_CTRL_CONFIRMED = false →
      (s.flash.records = [] → completes (.trialConfirm true) s fun u => u.boot.pln = .up ∧ stage u = 3 ∧ (ctlNow u).active = s.boot.slot ∧
        (ctlNow u).trial = 0xFF ∧ (ctlNow u).reverted = false ∧ rd u FLT_WDOG_CTRL_CONFIRMED = 1 ∧ u.boot.activate = none ∧
        (i.raiseSvn = true → rd s SEC_BOOT_FUSED_SVN < i.svn → rd u SEC_BOOT_FUSED_SVN = i.svn % 2 ^ SEC_BOOT_FUSED_SVN.width)) ∧
      (completes (.trialConfirm false) s (· = s)) ∧
      (s.boot.down = none → (∀ j, goodSlot s (ctlNow s).active = some j → completes .trialTimeout s fun u => u.boot.pln = .old ∧
          stage u = 1 ∧ (ctlNow u).trial = 0xFF ∧ (ctlNow u).reverted = true ∧ (ctlNow u).active = (ctlNow s).active ∧
          u.boot.image = some j ∧ u.boot.slot = (ctlNow s).active ∧ rd u XSP_EVT_STAT_REVERTED = 1) ∧
        ((∀ k, goodSlot s k = none) → completes .trialTimeout s fun u => stage u = 5 ∧ rd u BMC_STAT_HOLD_REASON = 2))) ∧
    (∀ k same, s.boot.ctlWrite = some k →
      (completes (.bootFlashOpDone true same) s fun u => u.boot = { s.boot with ctlWrite := none } ∧
        rd u XSP_STAT_BUSY = (if s.boot.staging = none then 0 else 1) ∧ sameRegsBut s u [XSP_STAT_BUSY]) ∧
      (completes (.bootFlashOpDone false same) s fun u => rd u XSP_EVT_STAT_WRITE_ERR = 1 ∧ u.boot.ctlWrite = none ∧
        (if k = 0 then u.boot.flash.ctl0 = none else u.boot.flash.ctl1 = none))) ∧
    (∀ g, s.boot.ctlWrite = none → s.boot.staging = some g →
      (completes (.bootFlashOpDone true true) s fun u => u.boot.staging = none ∧ u.boot.staged = some g.slot ∧
        slotImage u g.slot = some g.image ∧ rd u XSP_EVT_STAT_STAGE_DONE = 1 ∧ rd u XSP_STAT_BUSY = 0 ∧ u.hif.cmds = s.hif.cmds.erase g.cmd) ∧
      (∀ ok, completes (.bootFlashOpDone ok false) s fun u => u.boot = { s.boot with staging := none } ∧ rd u XSP_STAT_BUSY = 0 ∧
        u.hif.cmds = s.hif.cmds.erase g.cmd))

/-- While the display runs, LINE_TICK of tick t appends the tick's program to what is due and moves to the next tick. Tick
y + 37 checks active line y and closes it for segments: it chooses the fill colour while input is lost or the device powers
down; the neural line when the neural path is chosen, without takeover, and every segment is there; the fallback line, counted
LATE when a segment is missing and TAKEOVER in a takeover the host has not chosen; and, counted in DSP_NOSRC_LINES alone, a
repeat when the fallback line is not there either. Tick y + 40 sends line y as it was chosen on every trained link, to each of
two links its half; a repeat is the last line sent on that link in the frame, or the fill colour. Ticks of active line periods
count the links that are not trained; a Span master sends TICK_SYNC on its ports that are up at each tick divisible by 16; a
late display read sets its two events. Other registers and memory stay. With no configuration, ENABLE 0, no frame begun, in the
powered-down stage or past the frame's last tick nothing changes. The clauses on the chosen lines are for reads without a link
error and for 12-bit output, where the rounding to the output depth leaves each component as it is. -/
def Obligations.LinesAreSentAtTheirTicks : Prop :=
  ∀ (s : State) (dramLate : Bool) (fine : Fin 10),
    let t := s.dsp.tick
    (∀ ev, s.dsp.cfg = none ∨ isSet s DSP_CTRL_ENABLE = false ∨ rd s DSP_FRAME_CNT_FRAMES = 0 ∨ rd s BMC_STAT_STAGE = 7 ∨
      (∃ c, s.dsp.cfg = some c ∧ c.vTotal ≤ t) → completes (.lineTick dramLate ev fine) s (· = s)) ∧
    (∀ c, s.dsp.cfg = some c → isSet s DSP_CTRL_ENABLE = true → rd s DSP_FRAME_CNT_FRAMES ≠ 0 → rd s BMC_STAT_STAGE ≠ 7 → t < c.vTotal →
      c.links ≤ 2 → c.depth = 12 →
      let y := t - 37
      let z := t - 40
      let fb := if superRes s || !dramLate then fallbackLine s c y else none
      (∀ l, fb = some l → ∀ p ∈ l, p.a < 4096 ∧ p.b < 4096 ∧ p.c < 4096) →
      let up := (linksOf c).filter (fun n => isSet s (DSP_TX_STAT_TRAINED n))
      let fill := List.replicate c.hActive
        (⟨widen 10 (rd s DSP_FILL_RED), widen 10 (rd s DSP_FILL_GREEN), widen 10 (rd s DSP_FILL_BLUE)⟩ : Pixel)
      let segs := (tfind y s.dsp.segs).getD []
      let sync := if isMaster s = true ∧ t % 16 = 0 then (([0, 1]).filter (fun n => portUp s n)).map (fun n =>
        ownFlit s n (ackOf s n) 0x22 true 0xF 0 [rd s DSP_FRAME_CNT_FRAMES, t, 0, nowNs s fine, 0]) else []
      let nosrc := fun (n : Nat) (u : State) => rd u DSP_NOSRC_LINES_LINES =
        (if n = 0 then rd s DSP_NOSRC_LINES_LINES else satAdd (2 ^ 32 - 1) (rd s DSP_NOSRC_LINES_LINES) n)
      let chose := fun (src : Nat) (l : Option (List Pixel)) (late taken lost : Nat) (u : State) => tfind y u.dsp.linkBuf = some (src, l) ∧
        u.dsp.late = s.dsp.late + late ∧ u.dsp.taken = s.dsp.taken + taken ∧ nosrc lost u
      let sends := fun (l : Nat → OutMsg) (u : State) => u.out = s.out ++ up.map l ++ sync
      completes (.lineTick dramLate .ok fine) s fun u =>
        u = { s with regs := u.regs, dsp := u.dsp, out := u.out } ∧
        u.dsp = { s.dsp with tick := t + 1, floorWait := false, checked := u.dsp.checked, segs := u.dsp.segs, linkBuf := u.dsp.linkBuf,
                             lastLines := u.dsp.lastLines, late := u.dsp.late, taken := u.dsp.taken,
                             prog := s.dsp.prog ++ (match activeArm s with | some a => tickProgram s a t | none => []) } ∧
        (dramLate = true → rd u DSP_EVT_STAT_DRAM_LATE = 1 ∧ rd u MEM_EVT_STAT_DISP_MISS = 1) ∧
        rd u DSP_LINK_LOST_LINES_LINES = (if 40 ≤ t ∧ t < 40 + c.vActive then
          satAdd (2 ^ 32 - 1) (rd s DSP_LINK_LOST_LINES_LINES) (c.links - up.length) else rd s DSP_LINK_LOST_LINES_LINES) ∧
        rd u DSP_STAT_SOURCE = (if s.dsp.inLost then 0 else if neuralChosen s && !s.dsp.takeover && (activeArm s).isSome then 2 else 1) ∧
        sameRegsBut s u ([DSP_NOSRC_LINES_LINES, DSP_LINK_LOST_LINES_LINES, DSP_STAT_SOURCE] ++
          if dramLate then [DSP_EVT_STAT_DRAM_LATE, MEM_EVT_STAT_DISP_MISS] else []) ∧
        (t < 37 ∨ 37 + c.vActive ≤ t → u.dsp.checked = s.dsp.checked ∧ u.dsp.segs = s.dsp.segs ∧ u.dsp.late = s.dsp.late ∧
          u.dsp.taken = s.dsp.taken ∧ nosrc 0 u) ∧
        (37 ≤ t → t < 37 + c.vActive → u.dsp.checked = y + 1 ∧ u.dsp.segs = tdel y s.dsp.segs ∧
          (s.dsp.inLost = true ∨ s.boot.down.isSome = true → chose 0 (some fill) 0 0 1 u) ∧
          (s.dsp.inLost = false → s.boot.down = none →
            (∀ a, neuralChosen s = true → s.dsp.takeover = false → activeArm s = some a →
              (segs.length = a.segs → a.direct = true → chose 2 (some (neuralLine a [] segs)) 0 0 0 u) ∧
              (∀ f, segs.length = a.segs → a.direct = false → fb = some f → chose 2 (some (neuralLine a f segs)) 0 0 0 u) ∧
              (∀ f, segs.length ≠ a.segs → fb = some f → chose 1 (some f) 1 0 0 u) ∧
              (segs.length ≠ a.segs ∨ a.direct = false → fb = none → chose 3 none 0 0 1 u)) ∧
            (neuralChosen s = false ∨ s.dsp.takeover = true ∨ activeArm s = none →
              (∀ f, fb = some f → chose 1 (some f) 0 (if neuralChosen s && s.dsp.takeover then 1 else 0) 0 u) ∧
              (fb = none → chose 3 none 0 0 1 u)))) ∧
        (¬(40 ≤ t ∧ t < 40 + c.vActive) ∨ tfind z s.dsp.linkBuf = none → u.out = s.out ++ sync ∧ u.dsp.lastLines = s.dsp.lastLines) ∧
        (40 ≤ t → t < 40 + c.vActive →
          (∀ src l, tfind z s.dsp.linkBuf = some (src, some l) → tfind z u.dsp.linkBuf = none ∧
            (∀ n ∈ up, tfind n u.dsp.lastLines = some (linkHalf c n l)) ∧
            sends (fun n => .line z src n (c.dscBpp != 0) (linkHalf c n l)) u) ∧
          (∀ src, tfind z s.dsp.linkBuf = some (src, none) → tfind z u.dsp.linkBuf = none ∧ sends (fun n =>
            match tfind n s.dsp.lastLines with
            | some l => .line z 3 n (c.dscBpp != 0) l
            | none => .line z 0 n (c.dscBpp != 0) (linkHalf c n fill)) u)))

/-- Each entry command takes its entry off the front of the tick program that is due; with another or no entry there it
changes nothing. DISPATCH of a stopped thread of an IDLE or ACTIVE P0 cluster starts it READY at the entry's IM
address in a new work unit of P0 of its own, the cluster ACTIVE; a thread not yet ended loses its unit, and with it what that
unit's core would still give a line, and counts one overrun; a HALTED one is left and counts one overrun. MOVE queues its
descriptor in the Plinth's lowest queue of its cluster with a place; one whose source is the input writes the bytes of the row's
pixels from the column on; the one before a SEGMENT is kept for it. CREDIT raises one counter of its core, up to 64 with no
array instruction there. SEGMENT stores the pixels its move reads for a line not yet checked and at most 31 ahead, in a
two-line entry half of them for the next line, and otherwise counts an overrun; a move that wrote nothing stores none. FRAME
writes its 16 bytes, the input and output frame numbers, the phase and the phase-zero flag, at its offset in the CM of the
Armature's clusters and changes no other byte. -/
def Obligations.TickProgramEntriesAct : Prop :=
  ∀ (s : State) (feed : Option Feed) (w : Bool),
    let popped := { s with dsp := { s.dsp with prog := s.dsp.prog.tail } }
    let overran := fun (u : State) => rd u DSP_OVERRUN_CNT_COUNT = satAdd 65535 (rd s DSP_OVERRUN_CNT_COUNT) 1 ∧ rd u DSP_EVT_STAT_OVERRUN = 1
    (s.dsp.prog = [] → ∀ i ∈ [Instr.dispatch, .moveEntry feed, .creditEntry, .segment w, .frame], completes i s (· = s)) ∧
    (∀ off, s.dsp.prog.head? = some (.frame off) → ∀ i ∈ [Instr.dispatch, .moveEntry feed, .creditEntry, .segment w],
      completes i s (· = s)) ∧
    (∀ cl c t im p n, s.dsp.prog.head? = some (.dispatch cl c t im p) → armPhys s cl = some n → c < 64 → t < 8 →
      let k := coreNo n c * 8 + t
      let started := fun (u : State) => thrState u k = 1 ∧ (thr u k).unit = some s.nextUnit ∧ (thr u k).pc = im % 16384 ∧
        tget 0 (thr u k).g 1 = p ∧ (thr u k).tags = [] ∧ u.nextUnit = s.nextUnit + 1 ∧ rd u (CLU_STAT_STATE n) = 3 ∧
        tfind s.nextUnit u.units = some { part := 0, kind := .armature, threads := [k], priv := true }
      (thrState s k = 7 → completes .dispatch s fun u => overran u ∧ u = { popped with regs := u.regs } ∧
        sameRegsBut s u [DSP_OVERRUN_CNT_COUNT, DSP_EVT_STAT_OVERRUN]) ∧
      (thrState s k = 0 ∨ thrState s k = 6 → rd s (CLU_STAT_STATE n) = 2 ∨ rd s (CLU_STAT_STATE n) = 3 → bit s.flt.traceMask 2 = false →
        completes .dispatch s fun u => started u ∧ u.dsp = popped.dsp ∧ u.mem = s.mem ∧ sameRegsBut s u [thrField k, CLU_STAT_STATE n]) ∧
      (∀ v w, thrState s k = 1 ∨ thrState s k = 2 → (thr s k).unit = some v → tfind v s.units = some w → w.threads = [k] → v ≠ s.nextUnit →
        (core s (coreNo n c)).arr = [] → rd s (CLU_STAT_STATE n) = 2 ∨ rd s (CLU_STAT_STATE n) = 3 → bit s.flt.traceMask 2 = false →
        completes .dispatch s fun u => started u ∧ overran u ∧ tfind v u.units = none ∧ u.mem = s.mem ∧
          u.dsp = { popped.dsp with stale := coreNo n c :: s.dsp.stale })) ∧
    (∀ i a c d, s.dsp.prog.head? = some (.move i) → activeArm s = some a → s.dsp.cfg = some c → a.descs[i]? = some d →
      (∀ y k two, s.dsp.prog.tail.head? = some (.segment y k two) → completes (.moveEntry feed) s fun u =>
        u = { popped with dsp := { popped.dsp with lineMove := some d } }) ∧
      (∀ n, (∀ y k two, s.dsp.prog.tail.head? ≠ some (.segment y k two)) → entryCluster s d = some n →
        let m : Move := { desc := d, owner := .entry }
        (tget [] s.moveWait n = [] → (moveQueue s n 64).length < 8 → completes (.moveEntry none) s fun u =>
          moveQueue u n 64 = moveQueue s n 64 ++ [m] ∧ u.dsp = popped.dsp ∧ (moveAllowed popped n m = none → u.mem = s.mem ∧ u.host = s.host) ∧
          (∀ j q, q < 68 → ¬(j = n ∧ q = 64) → moveQueue u j q = moveQueue s j q)) ∧
        (∀ f e l, descBad d false = false → d.dstTier ≤ 1 → isCopy d = true → d.comp = 0 → oneRow d → bit d.flags 0 = false →
          endpoint s n (some 0) 0 d.dstTier d.dst = some e → d.e0 ≤ e.room → cleanBytes s e.base d.e0 →
          (feedRow s c f).map (fun l => l.flatMap fun p : Pixel => inBytes a.inFmt p.a ++ inBytes a.inFmt p.b ++ inBytes a.inFmt p.c) = some l →
          d.e0 ≤ l.length → completes (.moveEntry (some f)) s fun u => (∀ j < d.e0, (rb u (e.base + j)).toNat = l.getD j 0) ∧
            sameMemBut s u e.base d.e0 ∧ u.host = s.host ∧ u.dsp = popped.dsp))) ∧
    (∀ cl c out n p, s.dsp.prog.head? = some (.credit cl c out n) → armPhys s cl = some p → (core s (coreNo p c)).arr = [] →
      let k := core s (coreNo p c)
      completes .creditEntry s fun u => u = { popped with cores := u.cores } ∧ (∀ j, j ≠ coreNo p c → core u j = core s j) ∧
        core u (coreNo p c) = (if out then { k with outSpace := satAdd 64 k.outSpace n } else { k with inCredit := satAdd 64 k.inCredit n })) ∧
    (∀ y k two, s.dsp.prog.head? = some (.segment y k two) →
      let gone := { popped with dsp := { popped.dsp with lineMove := none } }
      (w = false ∨ s.dsp.lineMove = none → completes (.segment w) s (· = gone)) ∧
      (∀ a d bytes, s.dsp.lineMove = some d → activeArm s = some a → segmentData gone d = (some bytes, gone) →
        let px := codePixels a.direct bytes
        let l := if two then px.take (px.length / 2) else px
        (s.dsp.checked ≤ y → (if two then y + 1 else y) < s.dsp.checked + 32 → completes (.segment true) s fun u =>
          tfind k ((tfind y u.dsp.segs).getD []) = some l ∧
          (two = true → tfind k ((tfind (y + 1) u.dsp.segs).getD []) = some (px.drop (px.length / 2))) ∧
          (∀ j, j ≠ k → tfind j ((tfind y u.dsp.segs).getD []) = tfind j ((tfind y s.dsp.segs).getD [])) ∧
          (∀ z, z ≠ y → (two = true → z ≠ y + 1) → tfind z u.dsp.segs = tfind z s.dsp.segs) ∧
          u = { gone with dsp := { gone.dsp with segs := u.dsp.segs } }) ∧
        (two = false → y < s.dsp.checked ∨ s.dsp.checked + 32 ≤ y → completes (.segment true) s fun u => overran u ∧
          u = { gone with regs := u.regs } ∧ sameRegsBut s u [DSP_OVERRUN_CNT_COUNT, DSP_EVT_STAT_OVERRUN]))) ∧
    (∀ off l n, s.dsp.prog.head? = some (.frame off) → s.dsp.clusters = [l] → physOf s l = some n → off + 16 ≤ 0x100000 → off % 16 = 0 →
      let a := memBase n 4 0 + off
      (∀ x, x = a ∨ x = a + 8 → ∀ c m k v, cellOf x = some (c, m, k, v) → noWriteBack s c m k [v]) →
      completes .frame s fun u => rdN u a 4 = contentFrame s % 2 ^ 32 ∧ rdN u (a + 4) 4 = rd s DSP_FRAME_CNT_FRAMES % 2 ^ 32 ∧
        rdN u (a + 8) 8 = (rd s DSP_PHASE_PHASE + b2n (contentPhase s == 0) * 2 ^ 16) % 2 ^ 64 ∧ sameMemBut s u a 16 ∧ u.regs = s.regs ∧
        u.host = s.host ∧ u.dsp = popped.dsp)

/-- With the display off or unconfigured OUTPUT_FRAME_BOUNDARY changes nothing. Where nothing waits for it, it publishes
the frame's LATE and takeover lines, adds both to the total, keeps the largest, sets SUBST_WARN from the threshold on,
counts the frame and the links' symbol errors, shows the lock error of its base and the DRAM use, reaches LOCKED after the eighth
good frame, and starts an empty frame; P0's smoothing settings take effect, a window that is not stale shows the display registers
as they stand now, and no other register changes. With DSP_CNT_CLR.CLR it clears the counters after that. A second frame at the
TAKEOVER threshold begins a takeover with cause LATE; without a cause left the neural path returns; a pending swap
makes the standby bank active with its ID and the first clusters of P0; a DISPLAY_MODE at least 100 µs old takes
effect and completes, a younger one waits; a waiting configuration takes effect. LATE_RETRY drops cause LATE after
AUTO_RETRY * 16 frames only; RETRY_NOW and DSP_CNT_CLR set their bit; DSP_ENABLE sets ENABLE and, when it goes to 1,
starts from frame 0. -/
def Obligations.FramesBeginAtTheirBase : Prop :=
  ∀ (s : State) (base errs0 errs1 : Nat) (peak mean : BitVec 16) (sust : Fin 7),
    let boundary := Instr.outputFrameBoundary base peak mean sust errs0 errs1
    let total := s.dsp.late + s.dsp.taken
    let err := match s.dsp.cfg with | some c => lockError s c base | none => 0
    let newFrame := fun (u : State) => u.dsp.tick = 0 ∧ u.dsp.checked = 0 ∧ u.dsp.late = 0 ∧ u.dsp.taken = 0 ∧ u.dsp.lastLines = [] ∧
      u.dsp.linkBuf = [] ∧ u.dsp.lineMove = none ∧ u.dsp.segs = [] ∧ u.dsp.prog = []
    let published := fun (u : State) => rd u DSP_SUBST_FRAME_LATE_LINES = min s.dsp.late 65535 ∧
      rd u DSP_SUBST_FRAME_TAKEOVER_LINES = min s.dsp.taken 65535
    let plain := s.dsp.cfg.isSome = true ∧ isSet s DSP_CTRL_ENABLE = true ∧ rd s DSP_FRAME_CNT_FRAMES ≠ 0 ∧ s.poison = [] ∧
      (∀ e ∈ s.clusters, ∀ w ∈ e.2.ueWords, w.2 ≠ 1) ∧ s.span.cutLock = false ∧ isMaster s = false ∧ isMember s = false ∧
      (∀ x, tfind 0 s.parts = some x → x.joining = [] ∧ x.leaving = [] ∧ x.resize = none)
    let quiet := plain ∧ s.dsp.next = none ∧ isSet s DSP_CTRL_RETRY_NOW = false
    let idle := isSet s DSP_CTRL_NEURAL_EN = false ∧ s.dsp.takeover = false ∧ isSet s DSP_STAT_ARM_PEND = false ∧ activeArm s = none ∧
      s.dsp.floorLost = false
    let held := fun (a : Armature) => a.clusters ≤ (p0Clusters s).length ∧ (∀ r ∈ s.repl, r.part ≠ 0) ∧
      ∀ l ∈ s.dsp.clusters, l ∈ p0Clusters s ∧ (physOf s l).isSome = true
    let txErrs := fun (n : Nat) (k : Nat) (u : State) => rd u (DSP_TX_STAT_ERR_CNT n) =
      satAdd (2 ^ (DSP_TX_STAT_ERR_CNT n).width - 1) (rd s (DSP_TX_STAT_ERR_CNT n)) k
    (s.dsp.cfg = none ∨ isSet s DSP_CTRL_ENABLE = false → completes boundary s (· = s)) ∧
    (quiet → s.dsp.modes = [] → idle → rd s DSP_SUBST_THR_TAKEOVER = 0 ∨ s.dsp.late < rd s DSP_SUBST_THR_TAKEOVER →
      (isSet s DSP_CNT_CLR_CLR = false → completes boundary s fun u => published u ∧ newFrame u ∧
        rd u DSP_SUBST_TOTAL_LINES = satAdd (2 ^ 32 - 1) (rd s DSP_SUBST_TOTAL_LINES) total ∧
        (rd s DSP_SUBST_MAX_MAX < 65536 → rd u DSP_SUBST_MAX_MAX = max (rd s DSP_SUBST_MAX_MAX) (min 65535 total)) ∧
        rd u DSP_EVT_STAT_SUBST_WARN = (if rd s DSP_SUBST_THR_WARN ≠ 0 ∧ rd s DSP_SUBST_THR_WARN ≤ total then 1
          else rd s DSP_EVT_STAT_SUBST_WARN) ∧
        rd u DSP_FRAME_CNT_FRAMES = (rd s DSP_FRAME_CNT_FRAMES + 1) % 2 ^ 32 ∧ rd u DSP_LOCK_ERR_PHASE_ERR = (err % 65536).toNat ∧
        rd u DSP_DRAM_USE_PEAK = peak.toNat ∧ rd u DSP_DRAM_USE_MEAN = mean.toNat ∧
        rd u DSP_STAT_LOCK = (if rd s DSP_STAT_LOCK = 1 ∧ inputOk s = true ∧ inTrack s = true ∧ 0 < s.dsp.inFrames ∧ err.natAbs ≤ 64 ∧
          7 ≤ s.dsp.lockRun then 2 else rd s DSP_STAT_LOCK) ∧
        rd u DSP_STAT_SOURCE = (if s.dsp.inLost then 0 else 1) ∧ txErrs 0 errs0 u ∧ txErrs 1 errs1 u ∧
        tfind 0 u.pwr.smooth = some (smoothCode s 0) ∧
        (isSet s (HIF_STAT_STALE 0) = false →
          (fnSt u 0).pub = (fnSt s 0).pub.filter (fun e => decide (e.1 < 0x1000)) ++ dspMirror u) ∧
        u = { s with regs := u.regs, dsp := u.dsp, pwr := { s.pwr with smooth := u.pwr.smooth }, hif := { s.hif with fns := u.hif.fns } } ∧
        sameRegsBut s u [DSP_SUBST_FRAME_LATE_LINES, DSP_SUBST_FRAME_TAKEOVER_LINES, DSP_SUBST_TOTAL_LINES, DSP_SUBST_MAX_MAX,
          DSP_EVT_STAT_SUBST_WARN, DSP_FRAME_CNT_FRAMES, DSP_PHASE_PHASE, DSP_LOCK_ERR_PHASE_ERR, DSP_DRAM_USE_PEAK, DSP_DRAM_USE_MEAN,
          DSP_STAT_LOCK, DSP_EVT_STAT_LOCKED, DSP_STAT_CAUSE_SET, DSP_STAT_SOURCE, DSP_TX_STAT_ERR_CNT 0, DSP_TX_STAT_ERR_CNT 1]) ∧
      (isSet s DSP_CNT_CLR_CLR = true → completes boundary s fun u => published u ∧ newFrame u ∧
        (∀ f ∈ [DSP_SUBST_TOTAL_LINES, DSP_SUBST_MAX_MAX, DSP_TAKEOVER_CNT_COUNT, DSP_NOSRC_LINES_LINES, DSP_LINK_LOST_LINES_LINES,
          DSP_OVERRUN_CNT_COUNT, DSP_RX_STAT_ERR_CNT 0, DSP_RX_STAT_ERR_CNT 1, DSP_TX_STAT_ERR_CNT 0, DSP_TX_STAT_ERR_CNT 1,
          DSP_CNT_CLR_CLR], rd u f = 0))) ∧
    (∀ a, quiet → s.dsp.modes = [] → isSet s DSP_CNT_CLR_CLR = false → neuralChosen s = true → isSet s DSP_STAT_ARM_PEND = false →
      activeArm s = some a → held a → rd s DSP_STAT_CAUSE_SET = 0 → s.dsp.inLost = false → s.dsp.floorLost = false →
      (s.dsp.takeover = false → rd s DSP_SUBST_THR_TAKEOVER ≠ 0 → rd s DSP_SUBST_THR_TAKEOVER ≤ s.dsp.late → s.dsp.lateFrames = 1 →
        completes boundary s fun u => published u ∧ newFrame u ∧ u.dsp.takeover = true ∧ rd u DSP_STAT_FIRST_CAUSE = 1 ∧
          rd u DSP_STAT_CAUSE_SET = 1 ∧ rd u DSP_EVT_STAT_TAKEOVER = 1 ∧ rd u DSP_STAT_SOURCE = 1 ∧
          rd u DSP_TAKEOVER_CNT_COUNT = satAdd 65535 (rd s DSP_TAKEOVER_CNT_COUNT) 1) ∧
      (s.dsp.takeover = true → rd s DSP_SUBST_THR_TAKEOVER = 0 → completes boundary s fun u => published u ∧ newFrame u ∧
        u.dsp.takeover = false ∧ rd u DSP_STAT_FIRST_CAUSE = 0 ∧ rd u DSP_STAT_CAUSE_SET = 0 ∧ rd u DSP_EVT_STAT_NEURAL_RETURN = 1 ∧
        rd u DSP_STAT_SOURCE = 2)) ∧
    (∀ a, quiet → s.dsp.modes = [] → isSet s DSP_CNT_CLR_CLR = false → neuralChosen s = false → isSet s DSP_STAT_ARM_PEND = true →
      rd s DSP_STAT_ARM_BANK ≤ 1 → standbyArm s = some a → rd s DSP_SUBST_THR_TAKEOVER = 0 → completes boundary s fun u =>
        newFrame u ∧ activeArm u = some a ∧ rd u DSP_STAT_ARM_BANK = 1 - rd s DSP_STAT_ARM_BANK ∧ rd u DSP_STAT_ARM_PEND = 0 ∧
        rd u DSP_EVT_STAT_ARM_SWAPPED = 1 ∧ rd u DSP_ARM_ID_ID = a.armId % 2 ^ 32 ∧ u.dsp.clusters = (p0Clusters s).take a.clusters) ∧
    (∀ c m at', quiet → idle → isSet s DSP_CNT_CLR_CLR = false → rd s DSP_SUBST_THR_TAKEOVER = 0 → s.dsp.modes = [(c, m, at')] →
      s.hif.cmds = [c] → m.neural = false → m.swap = false →
      (at' + 10000 ≤ s.time → completes boundary s fun u => newFrame u ∧ u.dsp.modes = [] ∧ u.dsp.p = m.p ∧ u.dsp.q = m.q ∧
        u.dsp.phi0 = m.phi0 ∧ rd u DSP_CTRL_FORCE_FALLBACK = b2n m.force ∧ rd u DSP_CTRL_NEURAL_EN = 0 ∧ rd u DSP_STAT_LINE_LOCKED = 0 ∧
        u.hif.cmds = []) ∧
      (s.time < at' + 10000 → completes boundary s fun u => newFrame u ∧ u.dsp.modes = s.dsp.modes ∧ u.dsp.p = s.dsp.p ∧
        rd u DSP_CTRL_FORCE_FALLBACK = rd s DSP_CTRL_FORCE_FALLBACK ∧ u.hif.cmds = s.hif.cmds)) ∧
    (∀ c, plain → s.dsp.next = some c → s.dsp.modes = [] → completes boundary s fun u => u.dsp.cfg = some c ∧ u.dsp.next = none ∧
      rd u DSP_FILL_RED = bits c.fill 20 10 ∧ rd u DSP_FILL_GREEN = bits c.fill 10 10 ∧ rd u DSP_FILL_BLUE = bits c.fill 0 10) ∧
    (let n := rd s DSP_CTRL_AUTO_RETRY
     let due := hasCause s 1 = true ∧ n ≠ 0 ∧ 16 * n ≤ s.dsp.sinceLate
     (due → completes .lateRetry s fun u => hasCause u 1 = false ∧ u = { s with regs := u.regs } ∧ sameRegsBut s u [DSP_STAT_CAUSE_SET]) ∧
     (¬due → completes .lateRetry s (· = s))) ∧
    completes .retryNow s (fun u => rd u DSP_CTRL_RETRY_NOW = 1 ∧ u = { s with regs := u.regs } ∧ sameRegsBut s u [DSP_CTRL_RETRY_NOW]) ∧
    completes .dspCntClr s (fun u => rd u DSP_CNT_CLR_CLR = 1 ∧ u = { s with regs := u.regs } ∧ sameRegsBut s u [DSP_CNT_CLR_CLR]) ∧
    (∀ on, completes (.dspEnable on) s fun u => rd u DSP_CTRL_ENABLE = b2n on ∧ rd u MEM_STAT_DISP_LIVE = b2n on ∧
      u = { s with regs := u.regs, dsp := u.dsp } ∧
      sameRegsBut s u [DSP_CTRL_ENABLE, MEM_STAT_DISP_LIVE, DSP_STAT_SOURCE, DSP_FRAME_CNT_FRAMES] ∧
      (on = false → rd u DSP_STAT_SOURCE = 0) ∧
      (on = true ∧ isSet s DSP_CTRL_ENABLE = false → rd u DSP_FRAME_CNT_FRAMES = 0 ∧ newFrame u ∧ u.dsp.inFrames = 0 ∧ u.dsp.cfg = s.dsp.cfg) ∧
      (on = false ∨ isSet s DSP_CTRL_ENABLE = true → rd u DSP_FRAME_CNT_FRAMES = rd s DSP_FRAME_CNT_FRAMES ∧ u.dsp = s.dsp))

/-- INPUT_FRAME_START shows video, compression and symbol errors on its port; on RX0, with no tap context open, it counts the input
frame, notes its time, measures its period and line period and ends a loss once the picture's ports have video; a period in the
tracking range starts locking from free run, one outside it runs free and raises cause INPUT. INPUT_ROW_RECEIVED keeps an RGB row
at 12 bits, by bit replication of 8 and 10 bits, in the line store of RX0 under its frame and row when no neighbour shares the
edge, forms in super-resolution the fallback lines it completes, notes it in the region in interpolation, and changes nothing else
before the first frame, past the input height or on a port the picture does not use. INPUT_LOST of a port of the picture
clears its video, sets INPUT_LOST, runs free with the fill colour and raises cause INPUT; on RX1 of a single-port picture only its
video bits go. INPUT_UNLOCKED of a period outside the range runs free and raises cause INPUT. Cause INPUT begins a takeover of the
chosen neural path. MOTION_FIELD_DONE with vectors in reach keeps its field in interpolation after two frames and nothing otherwise.
TX_LINK_LOST, TX_LINK_TRAINED and RX_LINK_RETRAIN set their link's status and event and no other register. -/
def Obligations.InputsAndLinksAreFollowed : Prop :=
  ∀ s : State,
    let raised := fun (u : State) => hasCause u 6 = true ∧ rd u DSP_STAT_LOCK = 0 ∧ u.dsp.lockRun = 0 ∧
      (hasCause s 6 = false → u.dsp.takeover = (s.dsp.takeover || neuralChosen s)) ∧
      (hasCause s 6 = false → neuralChosen s = true → s.dsp.takeover = false → rd u DSP_STAT_FIRST_CAUSE = 6 ∧
        rd u DSP_EVT_STAT_TAKEOVER = 1 ∧ rd u DSP_TAKEOVER_CNT_COUNT = satAdd 65535 (rd s DSP_TAKEOVER_CNT_COUNT) 1)
    let takeoverRegs := [DSP_STAT_CAUSE_SET, DSP_STAT_LOCK, DSP_STAT_FIRST_CAUSE, DSP_EVT_STAT_TAKEOVER, DSP_TAKEOVER_CNT_COUNT, DSP_STAT_SOURCE]
    let dual := match s.dsp.cfg with | some c => c.dualIn | none => false
    (∀ start line errs dsc, ctxState s 0 = 0 →
      let d : Dsp := { s.dsp with
        inFrames := s.dsp.inFrames + 1, inStart := start, linePeriod := line, inLost := s.dsp.inLost && dual && !isSet s DSP_STAT_IN_OK_1,
        inPeriod := if s.dsp.inFrames = 0 ∨ s.dsp.inLost = true ∨ start ≤ s.dsp.inStart then 0 else start - s.dsp.inStart }
      let shown := fun (u : State) => rd u DSP_STAT_IN_OK_0 = 1 ∧ rd u (DSP_RX_STAT_VIDEO 0) = 1 ∧ rd u (DSP_RX_STAT_DSC 0) = b2n dsc ∧
        rd u (DSP_RX_STAT_ERR_CNT 0) = satAdd 255 (rd s (DSP_RX_STAT_ERR_CNT 0)) errs ∧ u.span.ports = s.span.ports
      let seen := [DSP_STAT_IN_OK_0, DSP_RX_STAT_VIDEO 0, DSP_RX_STAT_DSC 0, DSP_RX_STAT_ERR_CNT 0, DSP_STAT_LOCK, DSP_STAT_SOURCE]
      (inTrack { s with dsp := d } = true → completes (.inputFrameStart 0 start line errs dsc) s fun u => shown u ∧ u.dsp = d ∧
        rd u DSP_STAT_LOCK = (if rd s DSP_STAT_LOCK = 0 then 1 else rd s DSP_STAT_LOCK) ∧
        u = { s with regs := u.regs, dsp := u.dsp, span := u.span } ∧ sameRegsBut s u seen) ∧
      (inTrack { s with dsp := d } = false → completes (.inputFrameStart 0 start line errs dsc) s fun u => shown u ∧ raised u ∧
        rd u DSP_EVT_STAT_INPUT_UNLOCKED = 1 ∧ u.dsp = { d with lockRun := 0, takeover := u.dsp.takeover } ∧
        (hasCause s 4 = false → u = { s with regs := u.regs, dsp := u.dsp, span := u.span } ∧
          sameRegsBut s u ([DSP_EVT_STAT_INPUT_UNLOCKED] ++ seen ++ takeoverRegs)))) ∧
    (∀ start line errs dsc, ctxState s 1 = 0 → completes (.inputFrameStart 1 start line errs dsc) s fun u => rd u DSP_STAT_IN_OK_1 = 1 ∧
      rd u (DSP_RX_STAT_VIDEO 1) = 1 ∧ rd u (DSP_RX_STAT_DSC 1) = b2n dsc ∧
      rd u (DSP_RX_STAT_ERR_CNT 1) = satAdd 255 (rd s (DSP_RX_STAT_ERR_CNT 1)) errs ∧
      u.dsp = { s.dsp with inFrames1 := s.dsp.inFrames1 + 1, inLost := s.dsp.inLost && !isSet s DSP_STAT_IN_OK_0 } ∧
      u = { s with regs := u.regs, dsp := u.dsp } ∧
      sameRegsBut s u [DSP_STAT_IN_OK_1, DSP_RX_STAT_VIDEO 1, DSP_RX_STAT_DSC 1, DSP_RX_STAT_ERR_CNT 1, DSP_STAT_SOURCE]) ∧
    (∀ (rx : Fin 2) (row : Fin 16384) kind depth px,
      let n := s.dsp.inFrames - 1
      let key := storeKey 0 n row
      (s.dsp.cfg = none → completes (.inputRowReceived rx row kind depth px) s (· = s)) ∧
      (∀ c, s.dsp.cfg = some c → completes (.inputRowReceived rx row kind depth px) s fun u => u.host = s.host ∧ u.regs = s.regs) ∧
      (∀ c, s.dsp.cfg = some c → kind.sampling ≠ .s420 →
        let taken := { s with dsp := { s.dsp with rxRow := tdel rx.val s.dsp.rxRow } }
        ((if rx.val = 0 then s.dsp.inFrames else s.dsp.inFrames1) = 0 ∨ c.ih ≤ row.val ∨ (rx.val = 1 ∧ c.dualIn = false) →
          completes (.inputRowReceived rx row kind depth px) s (· = taken)) ∧
        (s.dsp.inFrames ≠ 0 → row.val < c.ih → rx.val = 0 → c.dualIn = false → portUp s 0 = false → portUp s 1 = false → kind.colour = .rgb →
          depth = 8 ∨ depth = 10 ∨ depth = 12 → (s.dsp.rows.filter (fun e => e.1 % 2 == 0 && decide (key < e.1))).length < 12 →
          let at12 := fun (x : Nat) => if depth = 8 then (x % 256) * 16 + x % 256 / 16 else if depth = 10 then (x % 1024) * 4 + x % 1024 / 256
            else x % 4096
          completes (.inputRowReceived rx row kind depth px) s fun u =>
            tfind key u.dsp.rows = some ((px.take c.iw).map fun p => ⟨at12 p.a, at12 p.b, at12 p.c⟩) ∧
            (∀ k, k ≠ key → tfind k u.dsp.rows = tfind k s.dsp.rows ∨ tfind k u.dsp.rows = none) ∧
            (superRes s = true ∨ c.interp = false →
              u = { taken with dsp := { taken.dsp with rows := u.dsp.rows, fallback := u.dsp.fallback } }) ∧
            (superRes s = true → ∀ o < c.vActive, (fallbackRows c o).foldl max 0 = row.val → ∀ l,
              scaledLine u c o (storedRow u c n) = some l → tfind (rowKey n o) u.dsp.fallback = some l) ∧
            (superRes s = false → c.interp = true → rowKey n row ∈ u.dsp.regionRows ∧ u.dsp.fallback = s.dsp.fallback)))) ∧
    (∀ rx : Fin 2, rx.val = 0 ∨ dual = true →
      let ok := if rx.val = 0 then DSP_STAT_IN_OK_0 else DSP_STAT_IN_OK_1
      completes (.inputLost rx) s fun u => rd u ok = 0 ∧ rd u (DSP_RX_STAT_VIDEO rx) = 0 ∧ rd u DSP_EVT_STAT_INPUT_LOST = 1 ∧
        u.dsp.inLost = true ∧ rd u DSP_STAT_SOURCE = 0 ∧ raised u ∧ (hasCause s 4 = false → u = { s with regs := u.regs, dsp := u.dsp } ∧
        sameRegsBut s u ([ok, DSP_RX_STAT_VIDEO rx, DSP_EVT_STAT_INPUT_LOST] ++ takeoverRegs))) ∧
    (dual = false → completes (.inputLost 1) s fun u => rd u DSP_STAT_IN_OK_1 = 0 ∧
      rd u (DSP_RX_STAT_VIDEO 1) = 0 ∧ u = { s with regs := u.regs } ∧ sameRegsBut s u [DSP_STAT_IN_OK_1, DSP_RX_STAT_VIDEO 1]) ∧
    (inTrack s = true → completes .inputUnlocked s (· = s)) ∧
    (inTrack s = false → completes .inputUnlocked s fun u => rd u DSP_EVT_STAT_INPUT_UNLOCKED = 1 ∧ raised u ∧
      (hasCause s 4 = false → u = { s with regs := u.regs, dsp := u.dsp } ∧
        sameRegsBut s u ([DSP_EVT_STAT_INPUT_UNLOCKED] ++ takeoverRegs))) ∧
    (∀ field, let kept := ∃ c, s.dsp.cfg = some c ∧ c.interp = true ∧ superRes s = false ∧ 2 ≤ s.dsp.inFrames ∧
        ∀ i < fieldBlocks c, vectorsOk ((field.getD i 0).toNat * 1024) = true
      (kept → completes (.motionFieldDone field) s fun u =>
        u.dsp = { s.dsp with field := u.dsp.field } ∧ u.regs = s.regs ∧ u.host = s.host ∧
        (∀ c, s.dsp.cfg = some c → u.dsp.field.length = ceilDiv c.iw 32 * ceilDiv c.ih 32) ∧
        ∀ (i : Nat) (x : BitVec 54), i < u.dsp.field.length → field[i]? = some x → u.dsp.field[i]? = some (x.toNat * 1024)) ∧
      (¬kept → completes (.motionFieldDone field) s (· = s))) ∧
    (∀ n : Fin 2, let up := if n.val = 0 then DSP_STAT_TX_UP_0 else DSP_STAT_TX_UP_1
      let link := [DSP_TX_STAT_TRAINED n, DSP_TX_STAT_RATE n, DSP_TX_STAT_LANES n, DSP_TX_STAT_DSC n, DSP_TX_STAT_VIDEO n, up]
      completes (.txLinkLost n) s (fun u => (∀ f ∈ link, rd u f = 0) ∧ rd u DSP_EVT_STAT_TX_RETRAIN = 1 ∧ u = { s with regs := u.regs } ∧
        sameRegsBut s u (DSP_EVT_STAT_TX_RETRAIN :: link)) ∧
      ((∀ c, s.dsp.cfg = some c → c.links ≤ n.val) → completes (.txLinkTrained n) s (· = s)) ∧
      (∀ c, s.dsp.cfg = some c → n.val < c.links → completes (.txLinkTrained n) s fun u => rd u (DSP_TX_STAT_TRAINED n) = 1 ∧ rd u up = 1 ∧
        rd u (DSP_TX_STAT_RATE n) = c.txRate % 16 ∧ rd u (DSP_TX_STAT_LANES n) = (if c.txLanes = 4 then 3 else c.txLanes % 4) ∧
        rd u (DSP_TX_STAT_DSC n) = (if c.dscBpp = 0 then 0 else 1) ∧ rd u (DSP_TX_STAT_EDP n) = b2n c.edp ∧ rd u (DSP_TX_STAT_ERR_CNT n) = 0 ∧
        rd u (DSP_TX_STAT_VIDEO n) = rd s DSP_CTRL_ENABLE % 2 ∧ u = { s with regs := u.regs } ∧
        sameRegsBut s u ([DSP_TX_STAT_EDP n, DSP_TX_STAT_ERR_CNT n] ++ link)) ∧
      (∀ rate lanes, completes (.rxLinkRetrain n rate lanes) s fun u => rd u (DSP_RX_STAT_RATE n) = rate.val ∧
        rd u (DSP_RX_STAT_LANES n) = (if rate.val = 0 then 0 else lanes.val) ∧ rd u (DSP_RX_STAT_TRAINED n) = (if rate.val = 0 then 0 else 1) ∧
        rd u (DSP_RX_STAT_ERR_CNT n) = 0 ∧ rd u DSP_EVT_STAT_RX_RETRAIN = 1 ∧ u = { s with regs := u.regs } ∧
        sameRegsBut s u [DSP_RX_STAT_RATE n, DSP_RX_STAT_LANES n, DSP_RX_STAT_TRAINED n, DSP_RX_STAT_ERR_CNT n, DSP_EVT_STAT_RX_RETRAIN]))

/-- Each is accepted on the physical function only. DISPLAY_CONFIG answers BAD_PARAM outside R153's limits or the active
Armature's input pace, NO_CAPACITY where its region does not fit above the assigned granules, and the display stays;
the first one accepted becomes the configuration, takes its region as the top granules of T2 with what it no longer
needs freed, untrains the transmit links and sets the fill colour and ENABLE; one that keeps the output timing while
the display runs waits for the frame boundary, with the coefficients an earlier waiting one brought, and takes no granule away
before. DISPLAY_SCHEDULE answers BAD_PARAM, DIGEST_MISMATCH, NO_CAPACITY or
BAD_FORMAT by R168's table, leaves the standby bank empty then and the active bank always, and else puts the Armature
into the standby bank. DISPLAY_MODE without a configuration, with a ratio or phase outside R174, or with a phase R175
does not allow answers BAD_PARAM; else it waits for its frame boundary. -/
def Obligations.DisplayPacketsConfigure : Prop :=
  ∀ (s : State) (h : Pkt), slotPlain s h →
    (∀ c : DisplayCfg, accepted s h 0x58 .any true = true →
      let paced := ∀ a, activeArm s = some a → paceOk s a c = true
      let need := regionNeed c
      let stays := fun (u : State) => u.dsp = s.dsp ∧ u.dram = s.dram ∧ u.cam = s.cam ∧ u.mem = s.mem
      (configOk c = false ∨ ¬paced → completes (.displayConfig h c) s fun u => recorded s u h 0x58 0x21 ∧ stays u) ∧
      (configOk c = true → paced → regionFits s need = false → completes (.displayConfig h c) s fun u => recorded s u h 0x58 0x31 ∧ stays u) ∧
      (configOk c = true → paced → regionFits s need = true → s.dsp.cfg = none → s.dsp.next = none → s.dsp.region ≤ granCount s →
        completes (.displayConfig h c) s fun u => recorded s u h 0x58 0 ∧ u.dsp.cfg = some c ∧ u.dsp.next = none ∧ u.dsp.region = need ∧
          (∀ g, gEntry u g = if granCount s - need ≤ g ∧ g < granCount s then 2 ^ 14
            else if granCount s - s.dsp.region ≤ g ∧ g < granCount s - need then 0 else gEntry s g) ∧
          rd u (DSP_TX_STAT_TRAINED 0) = 0 ∧ rd u (DSP_TX_STAT_TRAINED 1) = 0 ∧ rd u DSP_CTRL_ENABLE = b2n c.enable ∧
          rd u DSP_FILL_RED = bits c.fill 20 10 ∧ rd u DSP_FILL_GREEN = bits c.fill 10 10 ∧ rd u DSP_FILL_BLUE = bits c.fill 0 10 ∧
          (c.enable = true → isSet s DSP_CTRL_ENABLE = false → rd u DSP_FRAME_CNT_FRAMES = 0) ∧ u.mem = s.mem) ∧
      (∀ o, configOk c = true → paced → regionFits s need = true → s.dsp.cfg = some o → retrains o c = false →
        isSet s DSP_CTRL_ENABLE = true → c.enable = true → completes (.displayConfig h c) s fun u => recorded s u h 0x58 0 ∧
          u.dsp = { s.dsp with
            next := some (match c.coef, s.dsp.next with | none, some x => { c with coef := x.coef } | _, _ => c)
            region := max (regionNeed o) need } ∧ u.mem = s.mem ∧ u.cam = s.cam)) ∧
    (∀ handle modeIdx : Fin 256, accepted s h 0x59 .any true = true →
      let answers := fun (st : Nat) => completes (.displaySchedule h handle modeIdx) s fun u => recorded s u h 0x59 st ∧
        activeArm u = activeArm s ∧ standbyArm u = none ∧ u.handles = s.handles ∧ u.mem = s.mem
      (tfind handle.val s.handles = none → answers 0x21) ∧
      (∀ x, tfind handle.val s.handles = some x → x.man.arms.find? (fun a => a.modeIdx == modeIdx.val) = none → answers 0x21) ∧
      (∀ x a, tfind handle.val s.handles = some x → x.man.arms.find? (fun a => a.modeIdx == modeIdx.val) = some a →
        let named := x.man.kind = 3 ∧ x.part = 0 ∧ x.st ≠ 2 ∧ forcedOut x = false
        let bound := x.verified = true ∧ x.st = 1 ∧ a.binding = x.man.content
        let proved := a.proofOp = 2 ∧ a.proofUtil ≤ 850 ∧ a.dramBudget ≤ 2400
        (¬named → answers 0x21) ∧ (named → ¬bound → answers 0x41) ∧ (named → bound → ¬proved → answers 0x21) ∧
        (named → bound → proved →
          (s.dsp.cfg = none → answers 0x21) ∧
          (∀ c, s.dsp.cfg = some c →
            let fits := modeEq a c = true ∧ paceOk s a c = true
            (¬fits → answers 0x21) ∧ (fits → (p0Clusters s).length < a.clusters → answers 0x31) ∧
            (fits → a.clusters ≤ (p0Clusters s).length → armatureOk x.man a = false → answers 0x22) ∧
            (fits → a.clusters ≤ (p0Clusters s).length → armatureOk x.man a = true → completes (.displaySchedule h handle modeIdx) s fun u =>
              recorded s u h 0x59 0 ∧ activeArm u = activeArm s ∧ standbyArm u = some a ∧ u.handles = s.handles ∧ u.mem = s.mem))))) ∧
    (∀ m : DisplayMode, accepted s h 0x5A .any true = true →
      let refused := completes (.displayMode h m) s fun u => recorded s u h 0x5A 0x21 ∧ u.dsp = s.dsp ∧ u.mem = s.mem
      let legal := 1 ≤ m.p ∧ m.p ≤ 255 ∧ 1 ≤ m.q ∧ m.q ≤ m.p ∧ m.p ≤ 5 * m.q ∧ m.phi0 ≤ 65535
      (s.dsp.cfg = none → refused) ∧ (¬legal → refused) ∧
      (∀ c, s.dsp.cfg = some c → (phasesOk s c m = false → refused) ∧
        (legal → phasesOk s c m = true → completes (.displayMode h m) s fun u =>
          u.dsp = { s.dsp with modes := s.dsp.modes ++ [((taken s h 0x5A 0).1, m, s.time)] } ∧ (taken s h 0x5A 0).1 ∈ u.hif.cmds ∧
          u.mem = s.mem ∧ u.host = s.host)))

/-- An accepted QUERY of scopes 1 to 6 writes the bytes of the scope's entries from FIRST on, as many as the reply buffer
holds, reports their whole length, TRUNC when they do not fit and the count of entries that lie whole in the buffer,
and completes DONE; the entry of a partition has the fields of R416 at their places, scope 0 begins with DEVICE 0x8640
and holds the time at byte 28. A scope above 6 answers BAD_PARAM. No register but those of the log and no byte of
device memory changes. While the Plinth does not run, the thermal trip stands and no frame has ended, QUANTUM_BOUNDARY moves the time to
the next multiple of 25,000 ticks, or that plus the step of a chained device, counts the quantum and publishes power
and slack only; a work unit that still runs at the end of its second quantum is counted as hung for its partition. A
start whose work may start and whose thread is free begins a new work unit: its thread READY at its IM address, its
cluster ACTIVE. -/
def Obligations.QueriesAndQuantumBoundariesAnswer : Prop :=
  (∀ (s : State) (h : Pkt) (scope : Fin 256) (first : BitVec 16), slotPlain s h →
    accepted s h 0x02 (if partScope scope.val then .control else .any) false = true →
    let a := h.replyAddr.toNat
    let n := if h.replyAddr = 0 then 0 else h.replyLen
    let b := (ring s h.fn h.ring).cfg.cqBase + 32 * (ring s h.fn h.ring).cqTail
    let apart := a + n ≤ 2 ^ 64 ∧ (a + n ≤ b ∨ b + 32 ≤ a)
    let still := fun (u : State) => u.mem = s.mem ∧ u.parts = s.parts ∧ u.srv = s.srv ∧ u.handles = s.handles ∧ u.cam = s.cam
    (6 < scope.val → completes (.query h scope first) s fun u => recorded s u h 0x02 0x21 ∧ still u) ∧
    (0 < scope.val → scope.val ≤ 6 → apart →
      let l := (queryEntries s scope h.part).1.drop first.toNat
      completes (.query h scope first) s fun u => recorded s u h 0x02 0 ∧ still u ∧ hrdN u h.fn b 8 = l.flatten.length % 2 ^ 64 ∧
        hrdN u h.fn (b + 12) 1 = (if n < l.flatten.length then 1 else 0) ∧
        hrdN u h.fn (b + 14) 2 = min l.length (n / entrySize scope) % 65536 ∧
        ∀ (i v : Nat), i < n → l.flatten[i]? = some v → hrb u h.fn (a + i) = BitVec.ofNat 8 v) ∧
    (∀ x, scope.val = 1 → apart → first = 0 → 128 ≤ n → tfind h.part s.parts = some x → completes (.query h scope first) s fun u =>
      hrdN u h.fn a 1 = x.owner % 256 ∧ hrdN u h.fn (a + 1) 1 = (x.logical.length + x.leaving.length) % 256 ∧
      hrdN u h.fn (a + 2) 1 = x.clSet % 256 ∧ hrdN u h.fn (a + 3) 1 = x.minRate % 256 ∧ hrdN u h.fn (a + 4) 1 = effRate s h.part % 256 ∧
      hrdN u h.fn (a + 5) 1 = (if x.fence = .none then 0 else 1) + (if x.logical.length < x.clSet then 2 else 0) ∧ hrdN u h.fn (a + 6) 2 = 0 ∧
      hrdN u h.fn (a + 8) 8 = x.c2 % 2 ^ 64 ∧ hrdN u h.fn (a + 16) 8 = x.quota.q2 % 2 ^ 64 ∧ hrdN u h.fn (a + 24) 8 = x.c3 % 2 ^ 64 ∧
      hrdN u h.fn (a + 32) 8 = x.quota.q3 % 2 ^ 64 ∧ hrdN u h.fn (a + 40) 8 = x.c4 % 2 ^ 64 ∧ hrdN u h.fn (a + 48) 8 = x.quota.q4 % 2 ^ 64 ∧
      hrdN u h.fn (a + 56) 4 = x.satAcc % 2 ^ 32 ∧ hrdN u h.fn (a + 60) 4 = x.satOut % 2 ^ 32 ∧ hrdN u h.fn (a + 64) 4 = x.nonfinite % 2 ^ 32 ∧
      ∀ r : Fin 4, hrdN u h.fn (a + 68 + 2 * r.val) 2 = tget 0 x.breaches (r.val + 1) % 2 ^ 16) ∧
    (scope.val = 0 → apart → first = 0 → 64 ≤ n → completes (.query h scope first) s fun u => recorded s u h 0x02 0 ∧ still u ∧
      hrdN u h.fn b 8 = 64 ∧ hrdN u h.fn (b + 12) 1 = 0 ∧ hrdN u h.fn (b + 14) 2 = 1 ∧ hrdN u h.fn a 2 = 0x8640 ∧
      hrdN u h.fn (a + 2) 1 = 0xB0 ∧ hrdN u h.fn (a + 6) 2 = rd s MEM_STAT_SIZE % 2 ^ 16 ∧ hrdN u h.fn (a + 12) 1 = s.parts.length % 256 ∧
      hrdN u h.fn (a + 28) 8 = s.time % 2 ^ 64)) ∧
  (∀ (s : State) (q : Quantum), plinthRuns s = false → s.pwr.trip = true → (∀ e ∈ s.cam, ∀ f ∈ e.2.frames, f.stage ≠ .finished) →
    let power := fun (u : State) => rd u PWR_PKG_AVG = min 65535 q.avg ∧ rd u PWR_PKG_PEAK = min 65535 q.peak ∧
      rd u PWR_CPM_STAT_SLACK = min 255 q.slack ∧ rd u PWR_CPM_STAT_WORST = q.monitor % 64
    let powerRegs := [PWR_PKG_AVG, PWR_PKG_PEAK, PWR_CPM_STAT_SLACK, PWR_CPM_STAT_WORST]
    let next := (s.time / 25000 + 1) * 25000 % 2 ^ 64
    (s.units = [] → s.span.step = none → completes (.quantumBoundary q) s fun u => power u ∧ sameRegsBut s u powerRegs ∧
      u = { s with regs := u.regs, time := next, quantum := s.quantum + 1 }) ∧
    (∀ off : Int, s.units = [] → s.span.step = some off → 0 ≤ (next : Int) + off / 10 → (next : Int) + off / 10 < 2 ^ 64 →
      completes (.quantumBoundary q) s fun u => power u ∧
      (u.time : Int) = next + off / 10 ∧ u.span = { s.span with step := none } ∧ u.quantum = s.quantum + 1 ∧ sameRegsBut s u powerRegs) ∧
    (∀ i w k, s.units = [(i, w)] → s.span.step = none → w.threads = [k] → thrState s k ∈ [1, 2, 3] → k < 17408 → (thr s k).wait = .none →
      w.age = 1 → w.exempt = false → w.hung = false → w.priv = false → w.kind = .other → w.part < 16 → s.boot.pln ≠ .up →
      completes (.quantumBoundary q) s fun u => power u ∧ u.time = next ∧
        u.units = [(i, { w with age := 2, hung := true, exempt := false, snap := none })] ∧
        rd u (FLT_PROG_HANGS w.part) = satAdd 255 (rd s (FLT_PROG_HANGS w.part)) 1 ∧ rd u FLT_EVT_STAT_HANG = 1 ∧
        rd u (FLT_PROG_LAST_CL w.part) = rd s (CLU_MAP_LOGICAL (k / 512)) % 256 ∧
        (∀ x, tfind w.part s.parts = some x → tfind w.part u.parts = some { x with hung := true }) ∧
        sameRegsBut s u ([FLT_PROG_HANGS w.part, FLT_EVT_STAT_HANG, FLT_PROG_LAST_CL w.part] ++ powerRegs))) ∧
  (∀ (s : State) (w : WorkStart) t k, mayStart s w = true → w.kind = .other → w.threads = [t] → startThreadNo s w.part false t = some k →
    bit s.flt.traceMask 2 = false →
    let u := startWork s w
    thrState u k = 1 ∧ (thr u k).unit = some s.nextUnit ∧ (thr u k).pc = t.2.2.2 % 16384 ∧ rd u (CLU_STAT_STATE (k / 512)) = 3 ∧
      u.nextUnit = s.nextUnit + 1 ∧ u.mem = s.mem ∧
      sameRegsBut s u [thrField k, CLU_STAT_STATE (k / 512), CLU_CORE_FAULT_FAULT (k / 512) 0, CLU_CORE_FAULT_FAULT (k / 512) 1] ∧
      (tfind s.nextUnit u.units).map (fun x => (x.part, x.threads, x.priv)) = some (w.part, [k], privPart s w.part))

/-- On a port that receives, a good Frame Start of a mapped channel counts one tick of its context; bound, with clusters
and a buffer, it opens the frame of that tick, closing two ticks later (one for a pushed stream); without clusters or
a buffer the frame is dropped at once with its record; a frame at its close tick is dropped late with its record.
Synthetic ticks act so in LOST only and mark SYNTH_TICK; a pushed tick takes the newest descriptor. A line of the
mapped data type counts in the frame being received; a failed CRC, a header error, corrected or not, and a pipe overflow mark it
and count; a Frame End ends a raw frame and releases a YUV one, and drops a damaged one where DROP_DAMAGED says so.
PIPE_FRAME_RELEASE, PUSHED_FRAME_COPIED and TAP_FRAME_WRITTEN release their frame; SOURCE_LOST sets LOST; DESKEW shows
activity. A port that is off, and an event without its frame, change nothing. The two CAM read commands give their
register and clear its counts. -/
def Obligations.FramesOpenAndCloseAtTicks : Prop :=
  (∀ (s : State) (p : Fin 4) (vc : Fin 16) (dt : Fin 64) (hdr : Ecc) (ok ovf : Bool) (data : List (BitVec 8)), portOn s p = false →
    ∀ i ∈ [Instr.frameStartPacket p vc hdr, .frameEndPacket p vc hdr, .longPacket p vc dt hdr ok ovf data, .deskew p],
      completes i s (· = s)) ∧
  (∀ (s : State) (c : Nat), c < 48 → let x := ctx s c
    let k := (rd s (CAM_CTX_TICKS_TICKS c) + 1) % 2 ^ 32
    let others := fun (u : State) => (∀ j, j ≠ c → ctx u j = ctx s j) ∧ u.mem = s.mem
    let opened := fun (b : Binding) (i ticks flags : Nat) (desc : Option PushDesc) (u : State) => rd u (CAM_CTX_TICKS_TICKS c) = k ∧
      others u ∧ (ctx u c).frames = [{ no := k, time := s.time, close := (k + ticks) % 2 ^ 32, buf := i, bind := b, stage := .receiving,
                                       flags, user := match desc with | some d => d.user | none => 0, desc }]
    let slot := fun (b : Binding) => let r := ring s b.fn b.ring
      r.state = .enabled ∧ r.waiting = [] ∧ cqRoom r = true ∧ r.cfg.tailAddr = 0 ∧ r.cfg.cqBase + 32 * r.cqTail + 32 ≤ 2 ^ 64
    let recd := fun (b : Binding) (no fate : Nat) (u : State) => let r := ring s b.fn b.ring
      let a := r.cfg.cqBase + 32 * r.cqTail
      hrdN u b.fn (a + 8) 4 = no % 2 ^ 32 ∧ hrdN u b.fn (a + 12) 1 = fate ∧ hrdN u b.fn (a + 13) 1 = c ∧ hrdN u b.fn (a + 16) 8 = 0 ∧
        rd u CAM_EVT_STAT_FRAME_DROP = 1
    let live := fun (b : Binding) => x.bind = some b ∧ x.waiting = [] ∧ x.closing = none ∧ x.bindCmd = none ∧ fenced s b.part = false ∧
      bit s.flt.traceMask 1 = false
    (∀ (p : Fin 4) (vc : Fin 16), portOn s p = true → vcCtxs s p vc = [c] →
      (x.bind = none → x.waiting = [] → x.closing = none → x.frames = [] → completes (.frameStartPacket p vc .clean) s fun u =>
        rd u (CAM_CTX_TICKS_TICKS c) = k ∧ rd u (CAM_PORT_STAT_ACTIVE p) = 1 ∧ (∀ j, ctx u j = ctx s j) ∧
        ctxState u c = (if ctxState s c = 3 then 1 else ctxState s c) ∧ u = { s with regs := u.regs, cam := u.cam } ∧
        sameRegsBut s u [CAM_CTX_TICKS_TICKS c, CAM_PORT_STAT_ACTIVE p, CAM_CTX_CFG_STATE c]) ∧
      (∀ b, live b → x.frames = [] → ctxState s c ≠ 3 →
        (∀ i, noClusters s b.part = false → freeBuf x b.gen = some i → completes (.frameStartPacket p vc .clean) s (opened b i 2 0 none)) ∧
        (∀ fate, slot b → (fate = 7 ∧ noClusters s b.part = true) ∨ (fate = 8 ∧ noClusters s b.part = false ∧ freeBuf x b.gen = none) →
          completes (.frameStartPacket p vc .clean) s fun u => (ctx u c).frames = [] ∧ recd b k fate u ∧ others u ∧
            rd u (CAM_CTX_MISC_OTHER c) = satAdd 65535 (rd s (CAM_CTX_MISC_OTHER c)) 1)) ∧
      (∀ b f i, live b → x.frames = [f] → f.close = k → f.stage = .released → noClusters s b.part = false → slot f.bind → ctxState s c ≠ 3 →
        freeBuf { x with frames := [] } b.gen = some i → completes (.frameStartPacket p vc .clean) s fun u => opened b i 2 0 none u ∧
          recd f.bind f.no 2 u ∧ rd u (CAM_CTX_DROP_LATE c) = satAdd 65535 (rd s (CAM_CTX_DROP_LATE c)) 1) ∧
      (∀ hdr, x.frames = [] → hdr ≠ .uncorrectable → completes (.frameEndPacket p vc hdr) s fun u => u = { s with regs := u.regs } ∧
        sameRegsBut s u [CAM_PORT_STAT_ACTIVE p, CAM_PORT_STAT_ECC_CORR p, CAM_EVT_STAT_PORT_ERR]) ∧
      (∀ f, x.frames = [f] → f.stage = .receiving →
        let now := fun (g : Frame) (u : State) => (ctx u c).frames = [g] ∧ others u ∧ u.host = s.host
        let drops := isSet s (CAM_CTX_CFG_DROP_DAMAGED c)
        let damaged := f.flags % 16 ≠ 0 ∨ f.lines ≠ x.h
        let flags := if f.lines = x.h then f.flags else f.flags ||| 4
        let raw := isSet s (CAM_CTX_CFG_RAW c)
        (raw = true → completes (.frameEndPacket p vc .clean) s (now { f with stage := .ended, flags })) ∧
        (raw = false → ¬(damaged ∧ drops = true) → completes (.frameEndPacket p vc .clean) s
          (now { f with stage := .released, released := s.time + 1, flags })) ∧
        (raw = false → damaged → drops = true → slot f.bind → completes (.frameEndPacket p vc .clean) s fun u =>
          (ctx u c).frames = [] ∧ recd f.bind f.no 3 u ∧ others u ∧
          rd u (CAM_CTX_DROP_DAMAGED c) = satAdd 65535 (rd s (CAM_CTX_DROP_DAMAGED c)) 1) ∧
        completes (.frameEndPacket p vc .uncorrectable) s (fun u => now { f with flags := f.flags ||| 2 } u ∧
          rd u (CAM_PORT_STAT_ECC_UNCORR p) = satAdd 255 (rd s (CAM_PORT_STAT_ECC_UNCORR p)) 1 ∧ rd u CAM_EVT_STAT_PORT_ERR = 1) ∧
        (∀ (dt : Fin 64) data, rd s (CAM_CTX_CFG_DT c) = dt.val → listedType dt = true →
          (completes (.longPacket p vc dt .clean true false data) s fun u => (ctx u c).frames = [{ f with lines := f.lines + 1 }] ∧
            (∀ j, j ≠ c → ctx u j = ctx s j) ∧ u.host = s.host) ∧
          (raw = true ∨ data = [] →
            completes (.longPacket p vc dt .clean true false data) s (now { f with lines := f.lines + 1 }) ∧
            completes (.longPacket p vc dt .corrected true false data) s (fun u => now { f with lines := f.lines + 1, flags := f.flags ||| 2 } u ∧
              rd u (CAM_PORT_STAT_ECC_CORR p) = satAdd 255 (rd s (CAM_PORT_STAT_ECC_CORR p)) 1 ∧ rd u CAM_EVT_STAT_PORT_ERR = 1) ∧
            completes (.longPacket p vc dt .clean false false data) s (fun u => now { f with lines := f.lines + 1, flags := f.flags ||| 1 } u ∧
              rd u (CAM_PORT_STAT_CRC_ERR p) = satAdd 255 (rd s (CAM_PORT_STAT_CRC_ERR p)) 1 ∧ rd u CAM_EVT_STAT_PORT_ERR = 1)) ∧
          (raw = true → completes (.longPacket p vc dt .clean true true data) s fun u =>
            now { f with lines := f.lines + 1, flags := f.flags ||| 8 } u ∧ rd u CAM_EVT_STAT_PIPE_OVF = 1)) ∧
        (∀ (dt : Fin 64) data, rd s (CAM_CTX_CFG_DT c) ≠ dt.val →
          (completes (.longPacket p vc dt .clean true false data) s fun u =>
            u = { s with regs := u.regs } ∧ sameRegsBut s u [CAM_PORT_STAT_ACTIVE p]) ∧
          (listedType dt = true → completes (.longPacket p vc dt .clean false false data) s (now { f with flags := f.flags ||| 1 })))) ∧
      completes (.deskew p) s (fun u => rd u (CAM_PORT_STAT_ACTIVE p) = 1 ∧ u = { s with regs := u.regs } ∧
        sameRegsBut s u [CAM_PORT_STAT_ACTIVE p])) ∧
    (∀ cf : Fin 48, cf.val = c → let kind := rd s (CAM_CTX_CFG_KIND c)
      (ctxState s c ≠ 3 → completes (.syntheticTick cf) s (· = s)) ∧
      (∀ b i, ctxState s c = 3 → live b → x.frames = [] → noClusters s b.part = false → freeBuf x b.gen = some i →
        completes (.syntheticTick cf) s (opened b i 2 16 none)) ∧
      (kind = 1 → ctxState s c = 1 ∨ ctxState s c = 2 → completes (.sourceLost cf) s fun u => ctxState u c = 3 ∧
        rd u CAM_EVT_STAT_SOURCE_LOST = 1 ∧ u = { s with regs := u.regs } ∧ sameRegsBut s u [CAM_CTX_CFG_STATE c, CAM_EVT_STAT_SOURCE_LOST]) ∧
      (kind ≠ 1 ∨ ctxState s c = 0 ∨ ctxState s c = 3 → completes (.sourceLost cf) s (· = s)) ∧
      (kind ≠ 2 ∨ ctxState s c = 0 → completes (.hostPushedTick cf) s (· = s)) ∧
      (let r := ring s x.fn x.ring
       let d := pushDesc s x.fn x.ring (r.sqHead % 2 ^ r.cfg.sqLog2)
       ∀ b, kind = 2 → ctxState s c ≠ 0 → live b → x.frames = [] →
        (r.sqTail = r.sqHead → completes (.hostPushedTick cf) s fun u => rd u (CAM_CTX_TICKS_TICKS c) = k ∧ (ctx u c).frames = [] ∧ others u ∧
          u.host = s.host) ∧
        ((r.sqTail + 2 ^ r.cfg.sqLog2 - r.sqHead) % 2 ^ r.cfg.sqLog2 = 1 →
          (∀ i, d.ok = true → pushBytes d ≤ 3 * x.w * x.h → pushReach s b.part d = true → noClusters s b.part = false →
            freeBuf x b.gen = some i → completes (.hostPushedTick cf) s fun u => opened b i 1 0 (some d) u ∧
              (ring u x.fn x.ring).sqHead = r.sqTail) ∧
          (d.ok = false → slot b → completes (.hostPushedTick cf) s fun u => (ctx u c).frames = [] ∧ recd b k 3 u ∧ others u ∧
            rd u (CAM_CTX_DROP_DAMAGED c) = satAdd 65535 (rd s (CAM_CTX_DROP_DAMAGED c)) 1))) ∧
      (∀ f, x.frames = [f] → f.flags % 16 = 0 →
        let released := fun (fl : Nat) (u : State) => (ctx u c).frames = [{ f with stage := .released, released := s.time + 1, flags := f.flags ||| fl }] ∧
          (∀ j, j ≠ c → ctx u j = ctx s j) ∧ u.regs = s.regs ∧ u.host = s.host
        (f.stage = .ended → completes (.pipeFrameRelease cf) s (released 32)) ∧
        (f.stage = .receiving → kind = 2 → completes (.pushedFrameCopied cf) s (released 0)) ∧
        (f.stage = .receiving → kind = 0 → completes (.tapFrameWritten cf) s (released 0))) ∧
      (x.frames = [] → ∀ i ∈ [Instr.pipeFrameRelease cf, .pushedFrameCopied cf, .tapFrameWritten cf], completes i s (· = s)))) ∧
  (∀ (s : State) (p : Fin 4),
    completes (.camPortStatRead p) s (fun u => u.out = s.out ++ [.value (rd s (CAM_PORT_STAT_CRC_ERR p) * 2 ^ 24 +
        rd s (CAM_PORT_STAT_ECC_CORR p) * 2 ^ 16 + rd s (CAM_PORT_STAT_ECC_UNCORR p) * 2 ^ 8 + rd s (CAM_PORT_STAT_ACTIVE p) * 2 ^ 7 +
        rd s (CAM_PORT_STAT_VCS p))] ∧ u = { s with regs := u.regs, out := u.out } ∧
      (∀ f ∈ [CAM_PORT_STAT_CRC_ERR p, CAM_PORT_STAT_ECC_CORR p, CAM_PORT_STAT_ECC_UNCORR p], rd u f = 0) ∧
      sameRegsBut s u [CAM_PORT_STAT_CRC_ERR p, CAM_PORT_STAT_ECC_CORR p, CAM_PORT_STAT_ECC_UNCORR p]) ∧
    completes (.camPipeStatRead p) s (fun u => u.out = s.out ++ [.value (rd s (CAM_PIPE_STAT_OVF_CNT p) * 2 ^ 24 +
        rd s (CAM_PIPE_STAT_STREAMS p) * 2 ^ 20 + rd s (CAM_PIPE_STAT_LOAD p))] ∧ u = { s with regs := u.regs, out := u.out } ∧
      rd u (CAM_PIPE_STAT_OVF_CNT p) = 0 ∧ sameRegsBut s u [CAM_PIPE_STAT_OVF_CNT p]))

/-- STREAM_OPEN answers BAD_PARAM for a tap, an absent or open context, a camera from a virtual function or a setting
outside R198 and R203, NO_CAPACITY where no pipe has room for a raw camera; else a closed context is OPEN with its
size, period and counters at 0, a camera's port and channel as named and a raw camera's pipe one with room; other
contexts stay. STREAM_CLOSE of a context of its function, and an allowed STREAM_BIND, wait for the next tick;
STREAM_CLOSE of another, a closed or a closing context answers BAD_PARAM. STREAM_BIND answers BAD_PARAM for P0, a closed or
closing context, a raw one whose pipe block is not the partition's, or an unusable handle or entry, NO_CAPACITY for a partition without clusters, QUOTA_EXCEEDED where three buffers do
not fit; one that is allowed charges them. At the next Frame Start a waiting close without open frames closes the
context and completes; a waiting binding is in force for the frame that opens. -/
def Obligations.StreamsOpenBindAndClose : Prop :=
  ∀ (s : State) (h : Pkt), slotPlain s h →
    (∀ p : StreamOpen, accepted s h 0x50 .any false = true →
      let bad := completes (.streamOpen h p) s fun u => recorded s u h 0x50 0x21 ∧ u.cam = s.cam ∧ u.mem = s.mem
      let start := fun (u : State) => recorded s u h 0x50 0 ∧ ctxState u p.ctx = 1 ∧
        ctx u p.ctx = { w := p.w, h := p.h, tp := p.period, fn := h.fn, ring := p.ring } ∧ (∀ j, j ≠ p.ctx → ctx u j = ctx s j) ∧
        rd u (CAM_CTX_CFG_DROP_DAMAGED p.ctx) = b2n p.dropDamaged ∧
        (∀ f ∈ [CAM_CTX_TICKS_TICKS p.ctx, CAM_CTX_DROP_LATE p.ctx, CAM_CTX_DROP_DAMAGED p.ctx, CAM_CTX_MISC_SUPERSEDED p.ctx,
          CAM_CTX_MISC_OTHER p.ctx], rd u f = 0) ∧ u.mem = s.mem ∧ u.parts = s.parts
      (p.ctx < 2 ∨ 48 ≤ p.ctx → bad) ∧ (ctxState s p.ctx ≠ 0 → bad) ∧ (p.ctx < 34 → h.fn.val ≠ 0 → bad) ∧
      (2 ≤ p.ctx → p.ctx < 34 → ctxState s p.ctx = 0 → h.fn.val = 0 →
        let vcs := (portCtxs s p.port).map (fun c => rd s (CAM_CTX_CFG_VC c))
        let room := p.vc ∈ vcs ∨ vcs.eraseDups.length < 8
        (openOk s p = false → bad) ∧
        (openOk s p = true → room → rawType p.dt = true → (∀ q, q < 4 → 8 ≤ (pipeCtxs s q).length) →
          completes (.streamOpen h p) s fun u => recorded s u h 0x50 0x31 ∧ u.cam = s.cam) ∧
        (openOk s p = true → room → rawType p.dt = false ∨ (admitPipe s (p.w * p.h) p.period).isSome = true →
          completes (.streamOpen h p) s fun u => start u ∧ rd u (CAM_CTX_CFG_PORT p.ctx) = p.port ∧ rd u (CAM_CTX_CFG_VC p.ctx) = p.vc ∧
            rd u (CAM_CTX_CFG_DT p.ctx) = p.dt ∧ rd u (CAM_CTX_CFG_RAW p.ctx) = b2n (rawType p.dt) ∧ portOn u p.port = true ∧
            rd u (CAM_PORT_CFG_RATE p.port) = p.rate ∧ rd u (CAM_PORT_CFG_LANES p.port) = p.lanes ∧ rd u (CAM_PORT_CFG_PHY p.port) = p.phy ∧
            (rawType p.dt = true → (pipeCtxs s (rd u (CAM_CTX_CFG_PIPE p.ctx))).length < 8))) ∧
      (34 ≤ p.ctx → p.ctx < 48 → ctxState s p.ctx = 0 →
        let r := ring s h.fn p.ring
        let legal := 1000 ≤ p.period ∧ p.period ≤ 10000000 ∧ 1 ≤ p.w ∧ 1 ≤ p.h ∧ p.ring < 1024 ∧ r.state = .enabled ∧ r.cfg.kind = 1
        (¬legal → p.ring ≠ h.ring.val → bad) ∧ (legal → p.ring ≠ h.ring.val → completes (.streamOpen h p) s start))) ∧
    (∀ c : Fin 256, accepted s h 0x51 .any false = true →
      let again := (ctx s c).closing.isSome = true ∨ ∃ w ∈ (ctx s c).waiting, w.2 = none
      (c.val < 2 ∨ 48 ≤ c.val ∨ ctxState s c = 0 ∨ (ctx s c).fn ≠ h.fn.val ∨ again → completes (.streamClose h c) s fun u =>
        recorded s u h 0x51 0x21 ∧ u.cam = s.cam ∧ u.mem = s.mem) ∧
      (2 ≤ c.val → c.val < 48 → ctxState s c ≠ 0 → (ctx s c).fn = h.fn.val → ¬again → completes (.streamClose h c) s fun u =>
        ctx u c = { ctx s c with waiting := (ctx s c).waiting ++ [((taken s h 0x51 c).1, none)] } ∧ (taken s h 0x51 c).1 ∈ u.hif.cmds ∧
        (∀ j, j ≠ c.val → ctx u j = ctx s j) ∧ u.mem = s.mem ∧ u.host = s.host)) ∧
    (∀ (p : StreamBind) (q : Part), accepted s h 0x52 .owned false = true → tfind h.part s.parts = some q →
      let need := 3 * ceilDiv (frameBytes s p.ctx p.scale + 5120) 4096 * 4096
      let fits := p.ctx < 48 ∧ ctxState s p.ctx ≠ 0 ∧ p.ring < 1024 ∧ (p.ctx < 2 → h.fn.val = 0 ∧ 1 ≤ p.d ∧ p.d ≤ 16 ∧ p.scale ≤ 3) ∧
        (34 ≤ p.ctx → (ctx s p.ctx).fn = h.fn.val) ∧ (ctx s p.ctx).closing = none ∧
        (isSet s (CAM_CTX_CFG_RAW p.ctx) = true → ∀ i < 256, bufReach s h.part (p.pipe + i) false = true)
      let answers := fun (st : Nat) => completes (.streamBind h p) s fun u => recorded s u h 0x52 st ∧ u.cam = s.cam ∧ u.parts = s.parts ∧
        u.mem = s.mem
      (h.part = 0 ∨ ¬fits → answers 0x21) ∧ (h.part ≠ 0 → fits → bindOk s h.part p.handle p.entry = false → answers 0x21) ∧
      (h.part ≠ 0 → fits → bindOk s h.part p.handle p.entry = true →
        (q.logical = [] → answers 0x31) ∧ (q.logical ≠ [] → q.quota.q2 < q.c2 + need → answers 0x30) ∧
        (q.logical ≠ [] → q.c2 + need ≤ q.quota.q2 → completes (.streamBind h p) s fun u => ∃ b : Binding,
          ctx u p.ctx = { ctx s p.ctx with waiting := (ctx s p.ctx).waiting ++ [((taken s h 0x52 p.ctx).1, some b)] } ∧
          b.part = h.part ∧ b.handle = p.handle ∧ b.entry = p.entry ∧ b.ring = p.ring ∧ b.fn = h.fn.val ∧ b.pipe = p.pipe ∧ b.scale = p.scale ∧ b.charge = need ∧
          b.bufs.length = 3 ∧ (taken s h 0x52 p.ctx).1 ∈ u.hif.cmds ∧ (part? u h.part).map (·.c2) = some (q.c2 + need) ∧
          (∀ j, j ≠ p.ctx → ctx u j = ctx s j) ∧ u.mem = s.mem ∧ u.host = s.host))) ∧
    (∀ (port : Fin 4) (vc : Fin 16) (c : Nat) (cmd : Cmd), portOn s port = true → vcCtxs s port vc = [c] → (ctx s c).closing = none →
      (ctx s c).bindCmd = none → (ctx s c).frames = [] → ctxState s c ≠ 3 → s.hif.cmds = [cmd] →
      ((ctx s c).waiting = [(cmd, none)] → (ctx s c).bind = none → completes (.frameStartPacket port vc .clean) s fun u =>
        ctxState u c = 0 ∧ ctx u c = {} ∧ u.hif.cmds = [] ∧ (∀ j, j ≠ c → ctx u j = ctx s j) ∧ u.mem = s.mem) ∧
      (∀ b i, (ctx s c).waiting = [(cmd, some b)] → (ctx s c).bind = none → castRuns s b.part = false → fenced s b.part = false →
        noClusters s b.part = false → bit s.flt.traceMask 1 = false → freeBuf (ctx s c) b.gen = some i →
        completes (.frameStartPacket port vc .clean) s fun u => (ctx u c).bind = some b ∧ (ctx u c).waiting = [] ∧ ctxState u c = 2 ∧
          u.hif.cmds = [] ∧ (ctx u c).frames.map (fun f => (f.bind, f.stage, f.buf)) = [(b, .receiving, i)] ∧ (∀ j, j ≠ c → ctx u j = ctx s j) ∧
          u.mem = s.mem))

/-- SPAN_TRAINING_DONE of a TRAINING port sends HELLO and enters that state at the width found, or DOWN for none;
SPAN_TRAIN_RETRY starts an enabled DOWN port again. HELLO puts a trained port UP when position and count agree, noting
whether halo and tick count agree too, and gives a member beside the master its path back, else in MISMATCH with its event. A flit dropped on its CRC is counted, and a
sequenced one answered with a NAK of the SEQ expected. IDLE frees the flits it acknowledges. NAK replays the held flit
from its SEQ on, counted; the eighth replay, SPAN_ACK_TIMEOUT with flits held and BLOCK_LOCK_LOST take the port DOWN:
it trains again with an empty replay buffer, SPAN_DOWN is set, domain 41 counts a report, a device that is not the
master drops its pending commit, and a member cut off toward the master says so; the other port that is UP carries
PACE_ABORT. The three SPN read commands give their register and clear its counts. In any other state of the port
nothing changes. -/
def Obligations.SpanLinksTrainAndRetry : Prop :=
  ∀ (s : State) (n : Fin 2) (hd : FlitHead), let p := port s n
    let m := 1 - n.val
    let st := rd s (SPN_PORT_STAT_STATE n)
    let down := fun (u : State) => rd u (SPN_PORT_STAT_STATE n) = 2 ∧ rd u (SPN_PORT_STAT_WIDTH n) = 0 ∧ rd u SPN_EVT_STAT_SPAN_DOWN = 1 ∧
      rd u (SPN_PORT_STAT_RETRAIN n) = satAdd 255 (rd s (SPN_PORT_STAT_RETRAIN n)) 1 ∧
      rd u (FLT_DOM_CNT_REPORTS 41) = satAdd (2 ^ (FLT_DOM_CNT_REPORTS 41).width - 1) (rd s (FLT_DOM_CNT_REPORTS 41)) 1 ∧
      port u n = { before := p.before } ∧ u.mem = s.mem ∧ u.host = s.host ∧
      (isMaster s = false → rd u SPN_STAT_SWEEP_PEND = 0 ∧ u.span.commit = none) ∧
      (isMember s = true → n.val = 0 → rd u SPN_STAT_CUT_OFF = 1 ∧ rd u SPN_STAT_ALIGNED ≠ 1)
    (∀ (w : Fin 4) (rev : Bool), (st ≠ 2 → completes (.spanTrainingDone n w rev) s (· = s)) ∧
      (st = 2 → w.val = 0 → completes (.spanTrainingDone n w rev) s fun u => rd u (SPN_PORT_STAT_STATE n) = 1 ∧ u = { s with regs := u.regs } ∧
        sameRegsBut s u [SPN_PORT_STAT_STATE n]) ∧
      (st = 2 → w.val ≠ 0 → completes (.spanTrainingDone n w rev) s fun u => rd u (SPN_PORT_STAT_STATE n) = 3 ∧
        rd u (SPN_PORT_STAT_WIDTH n) = w.val ∧ rd u (SPN_PORT_STAT_REVERSED n) = b2n rev ∧ port u n = { before := p.before } ∧
        u.out = s.out ++ [ownFlit s n 65535 0x02 false 0xF 0 [rd s SPN_CTRL_ROLE, position s, rd s SPN_CTRL_COUNT_M1 + 1, haloIn s, armTicks s]] ∧
        u = { s with regs := u.regs, out := u.out, span := u.span } ∧
        sameRegsBut s u [SPN_PORT_STAT_STATE n, SPN_PORT_STAT_WIDTH n, SPN_PORT_STAT_REVERSED n])) ∧
    (st = 1 ∧ portEn s n = true → completes (.spanTrainRetry n) s fun u => rd u (SPN_PORT_STAT_STATE n) = 2 ∧ rd u (SPN_PORT_STAT_WIDTH n) = 0 ∧
      rd u (SPN_PORT_STAT_RETRAIN n) = satAdd 255 (rd s (SPN_PORT_STAT_RETRAIN n)) 1 ∧ port u n = { before := p.before } ∧
      u = { s with regs := u.regs, span := u.span } ∧
      sameRegsBut s u [SPN_PORT_STAT_STATE n, SPN_PORT_STAT_WIDTH n, SPN_PORT_STAT_RETRAIN n]) ∧
    (¬(st = 1 ∧ portEn s n = true) → completes (.spanTrainRetry n) s (· = s)) ∧
    (∀ (role pos count halo : Fin 256) (nt : Fin 65536),
      let good := count.val = rd s SPN_CTRL_COUNT_M1 + 1 ∧ (if n.val = 0 then pos.val + 1 = position s else pos.val = position s + 1)
      let same := halo.val = haloIn s ∧ nt.val = armTicks s
      (st < 3 → completes (.hello n hd role pos count halo nt) s (· = s)) ∧
      (3 ≤ st → good → completes (.hello n hd role pos count halo nt) s fun u => rd u (SPN_PORT_STAT_STATE n) = 4 ∧
        rd u (SPN_PORT_STAT_FAR_POS n) = pos.val % 16 ∧ ((port u n).haloOk = true ↔ same) ∧ (st ≠ 4 → rd u SPN_EVT_STAT_SPAN_UP = 1) ∧
        (¬same → rd u SPN_EVT_STAT_CFG_MISMATCH = 1) ∧ u = { s with regs := u.regs, span := u.span } ∧
        rd u SPN_STAT_CUT_OFF = (if n.val = 0 ∧ isMember s = true ∧ pos.val = 0 then 0 else rd s SPN_STAT_CUT_OFF) ∧
        sameRegsBut s u [SPN_PORT_STAT_STATE n, SPN_PORT_STAT_FAR_POS n, SPN_EVT_STAT_SPAN_UP, SPN_EVT_STAT_CFG_MISMATCH, SPN_STAT_CUT_OFF]) ∧
      (3 ≤ st → ¬good → completes (.hello n hd role pos count halo nt) s fun u => rd u (SPN_PORT_STAT_STATE n) = 5 ∧
        rd u SPN_EVT_STAT_CFG_MISMATCH = 1 ∧ u = { s with regs := u.regs } ∧
        sameRegsBut s u [SPN_PORT_STAT_STATE n, SPN_PORT_STAT_FAR_POS n, SPN_EVT_STAT_CFG_MISMATCH])) ∧
    (∀ sequenced, (st < 3 → completes (.flitCrcError n sequenced) s (· = s)) ∧
      (3 ≤ st → completes (.flitCrcError n sequenced) s fun u =>
        rd u (SPN_PORT_ERR_CRC_ERR n) = satAdd 65535 (rd s (SPN_PORT_ERR_CRC_ERR n)) 1 ∧
        u.out = s.out ++ (if sequenced then [ownFlit s n (ackOf s n) 0x01 false 0xF 0 [p.expect]] else []) ∧ u = { s with regs := u.regs, out := u.out } ∧
        sameRegsBut s u [SPN_PORT_ERR_CRC_ERR n])) ∧
    (st ≠ 4 → (∀ e, completes (.nak n hd e) s (· = s)) ∧ completes (.idleFlit n hd) s (· = s)) ∧
    (st = 4 → p.queue = [] → completes (.idleFlit n hd) s fun u => u = { s with span := u.span } ∧
      port u n = { p with held := p.held.filter (fun f => !decide ((hd.ack.val + 65536 - f.seq) % 65536 < 32768)) } ∧ port u m = port s m) ∧
    (∀ (e : Fin 65536) f, st = 4 → p.queue = [] → p.held = [f] → f.seq = e.val →
      (f.replays < 7 → completes (.nak n hd e) s fun u => port u n = { p with held := [{ f with replays := f.replays + 1 }] } ∧
        u.out = s.out ++ [.flit n (flitBytes f (ackOf s n))] ∧
        rd u (SPN_PORT_ERR_REPLAY n) = satAdd 65535 (rd s (SPN_PORT_ERR_REPLAY n)) 1 ∧ rd u SPN_EVT_STAT_RETRY = 1 ∧
        u = { s with regs := u.regs, out := u.out, span := u.span } ∧ sameRegsBut s u [SPN_PORT_ERR_REPLAY n, SPN_EVT_STAT_RETRY]) ∧
      (7 ≤ f.replays → isMaster s = false → completes (.nak n hd e) s down)) ∧
    (isMaster s = false →
      (st = 4 ∧ p.held ≠ [] → completes (.spanAckTimeout n) s down) ∧ (3 ≤ st → completes (.blockLockLost n) s down) ∧
      (3 ≤ st → rd s (SPN_PORT_STAT_STATE m) = 4 → (port s m).held = [] → (port s m).queue = [] → completes (.blockLockLost n) s fun u =>
        u.out = s.out ++ [ownFlit s m (ackOf s m) 0x33 true 0xF (port s m).nextSeq [s.span.sweep]])) ∧
    (¬(st = 4 ∧ p.held ≠ []) → completes (.spanAckTimeout n) s (· = s)) ∧ (st < 3 → completes (.blockLockLost n) s (· = s)) ∧
    completes (.spnPortStatRead n) s (fun u => rd u (SPN_PORT_STAT_RETRAIN n) = 0 ∧ u = { s with regs := u.regs, out := u.out } ∧
      u.out = s.out ++ [.value (st * 2 ^ 29 + rd s (SPN_PORT_STAT_WIDTH n) * 2 ^ 27 + rd s (SPN_PORT_STAT_REVERSED n) * 2 ^ 26 +
        rd s (SPN_PORT_STAT_RETRAIN n) * 2 ^ 8 + rd s (SPN_PORT_STAT_FAR_POS n) * 2 ^ 4)] ∧ sameRegsBut s u [SPN_PORT_STAT_RETRAIN n]) ∧
    completes (.spnPortErrRead n) s (fun u => rd u (SPN_PORT_ERR_CRC_ERR n) = 0 ∧ rd u (SPN_PORT_ERR_REPLAY n) = 0 ∧
      u = { s with regs := u.regs, out := u.out } ∧
      u.out = s.out ++ [.value (rd s (SPN_PORT_ERR_CRC_ERR n) * 2 ^ 16 + rd s (SPN_PORT_ERR_REPLAY n))] ∧
      sameRegsBut s u [SPN_PORT_ERR_CRC_ERR n, SPN_PORT_ERR_REPLAY n]) ∧
    completes (.spnHaloRead n) s (fun u => rd u (SPN_HALO_MISS n) = 0 ∧ u = { s with regs := u.regs, out := u.out } ∧
      u.out = s.out ++ [.value (rd s (SPN_HALO_MISS n))] ∧ sameRegsBut s u [SPN_HALO_MISS n])

/-- A flit on a port that is not UP changes nothing; a sequenced one out of sequence is counted and answered with a NAK.
In sequence, for this device, it is acknowledged by an IDLE flit, and: HALO is kept for its row unless its deadline has passed or
the edge exchanges none; PACE_REQ is answered by a member with its sustainable point; the last PACE_REPORT makes the master commit the lowest point at the first quantum
boundary at least 500 µs ahead, an earlier one is noted; PACE_COMMIT is held by a member; PACE_ABORT drops the commit,
or the master's sweep, and cuts a member off that hears it on SPAN0 from another member. DELAY_REQ is answered, DELAY_RESP sets the
hop delay, TICK_SYNC sets a member's offset and gives it its path back, lets the first one after training step the time base unless
it rejoins within 1 µs, and goes on with the delay added. A row received is sent as a halo on an UP edge;
HALO_DEADLINE mirrors and counts a missing one. DELAY_MEASUREMENT asks toward the master. PACE_REPORT_TIMEOUT discards
a sweep; PACE_APPLY takes the commit from its time on. SPAN_CONFIG and PACE_SWEEP refuse what R534 and R547 name and
else set what they name. -/
def Obligations.ChainsShareHalosTimeAndPace : Prop :=
  (∀ (s : State) (n : Fin 2) (hd : FlitHead), let p := port s n
    let up := portUp s n = true ∧ p.held = [] ∧ p.queue = []
    let next := up ∧ hd.relay = false ∧ hd.seq.val = p.expect
    let p' := { p with expect := (p.expect + 1) % 65536 }
    let ack := ackOf s n
    let ack' := (p'.expect + 65535) % 65536
    let idle := ownFlit s n ack' 0x00 false 0xF 0 []
    (∀ fr row edge px sw su pos op own pace at' t1 t2 t3 fine line tm corr res,
      let seqd := [Instr.halo n hd fr row edge px, .paceReq n hd sw su, .paceReport n hd sw pos op own, .paceCommit n hd sw pace at',
        .paceAbort n hd sw]
      (portUp s n = false → ∀ i ∈ seqd ++ [Instr.delayReq n hd t1 fine, .delayResp n hd t1 t2 t3 fine, .tickSync n hd fr line tm corr fine res],
        completes i s (· = s)) ∧
      (up → hd.seq.val ≠ p.expect → ∀ i ∈ seqd, completes i s fun u => u.out = s.out ++ [ownFlit s n ack 0x01 false 0xF 0 [p.expect]] ∧
        rd u (SPN_PORT_ERR_CRC_ERR n) = satAdd 65535 (rd s (SPN_PORT_ERR_CRC_ERR n)) 1 ∧ port u n = p ∧
        sameRegsBut s u [SPN_PORT_ERR_CRC_ERR n])) ∧
    (∀ (fr : BitVec 32) (row : Fin 65536) edge px, next → completes (.halo n hd fr row edge px) s fun u => let key := haloKey n fr.toNat row
      port u n = p' ∧ u = { s with span := u.span, out := s.out ++ [idle] } ∧
      (∀ k, k ≠ key → tfind k u.span.halos = tfind k s.span.halos) ∧
      tfind key u.span.halos = (if s.span.missed.contains key || !p.haloOk || p.haloWait then tfind key s.span.halos else some px)) ∧
    (∀ (sw : BitVec 32) (su : Fin 7), next → completes (.paceReq n hd sw su) s fun u => (isMember s = true →
        u.out = s.out ++ [ownFlit s n ack' 0x31 true 0 p.nextSeq [sw.toNat, position s, su.val], idle] ∧
        u.span.sweep = sw.toNat ∧ rd u SPN_STAT_SWEEP = sw.toNat % 65536 ∧ rd u PWR_PACE_SUST = su.val) ∧
      (isMember s = false → port u n = p' ∧ u = { s with span := u.span, out := s.out ++ [idle] })) ∧
    (∀ (sw : BitVec 32) (pos op : Fin 256) (own : Fin 7) l, next → isMaster s = true → s.span.reports = some l → s.span.sweep = sw.toNat →
      1 ≤ pos.val → pos.val ≤ rd s SPN_CTRL_COUNT_M1 → completes (.paceReport n hd sw pos op own) s fun u =>
        (l = [] → rd s SPN_CTRL_COUNT_M1 = 1 → u.span.reports = none ∧ rd u SPN_STAT_SWEEP_PEND = 1 ∧
          u.span.commit = some (sw.toNat, min own.val op.val, (s.time + 50000 + 24999) / 25000 * 25000)) ∧
        (l = [] → rd s SPN_CTRL_COUNT_M1 = 2 → u.span.reports = some [(pos.val, op.val)] ∧ u.span.commit = s.span.commit ∧ u.regs = s.regs)) ∧
    (∀ (sw : BitVec 32) (pace : Fin 256) (at' : BitVec 64), next → isMember s = true → completes (.paceCommit n hd sw pace at') s fun u =>
      u.span.commit = some (sw.toNat, pace.val, at'.toNat) ∧ rd u SPN_STAT_SWEEP_PEND = 1 ∧ port u n = p' ∧
      u = { s with regs := u.regs, span := u.span, out := s.out ++ [idle] } ∧ sameRegsBut s u [SPN_STAT_SWEEP_PEND]) ∧
    (∀ sw, next → let cut := isMember s = true ∧ n.val = 0 ∧ hd.src.val ≠ 0
      (isMaster s = false → ¬cut → completes (.paceAbort n hd sw) s fun u => u.span.commit = none ∧ rd u SPN_STAT_SWEEP_PEND = 0 ∧
        sameRegsBut s u [SPN_STAT_SWEEP_PEND]) ∧
      (cut → completes (.paceAbort n hd sw) s fun u => u.span.commit = none ∧ rd u SPN_STAT_SWEEP_PEND = 0 ∧ rd u SPN_STAT_CUT_OFF = 1 ∧
        rd u SPN_EVT_STAT_ALIGN_LOST = 1 ∧ rd u SPN_STAT_ALIGNED ≠ 1 ∧ (port u 0).synced = false ∧ u.span.rejoin = true ∧
        sameRegsBut s u [SPN_STAT_SWEEP_PEND, SPN_STAT_CUT_OFF, SPN_EVT_STAT_ALIGN_LOST, SPN_STAT_ALIGNED]) ∧
      (isMaster s = true → s.span.reports.isSome = true → s.span.running = [] → completes (.paceAbort n hd sw) s fun u =>
        u.span.reports = none ∧ u.span.commit = none ∧ rd u SPN_EVT_STAT_SWEEP_DISCARD = 1 ∧
        sameRegsBut s u [SPN_STAT_SWEEP_PEND, SPN_EVT_STAT_SWEEP_DISCARD])) ∧
    (∀ (t1 t2 t3 : BitVec 64) (fine : Fin 10), up → hd.relay = false →
      completes (.delayReq n hd t1 fine) s (fun u => u.out = s.out ++ [ownFlit s n ack 0x21 false 0xF 0 [t1.toNat, nowNs s fine, nowNs s fine]] ∧
        u.regs = s.regs ∧ port u n = p) ∧
      completes (.delayResp n hd t1 t2 t3 fine) s (fun u => let d : Int := ((nowNs s fine : Int) - t1.toNat) - ((t3.toNat : Int) - t2.toNat)
        port u n = { p with hop := d / 2 } ∧ rd u (SPN_DELAY_DELAY n) = (5 * d % 65536).toNat ∧ sameRegsBut s u [SPN_DELAY_DELAY n])) ∧
    (∀ (fr : BitVec 32) (line : Fin 65536) (tm : BitVec 64) (corr res : BitVec 32) (fine : Fin 10), up →
      let off : Int := (tm.toNat : Int) + corr.toNat + p.hop - nowNs s fine
      let go := Instr.tickSync n hd fr line tm corr fine res
      (isMember s = true → hd.relay = false ∨ portUp s (1 - n.val) = false → forMe s hd = true → isSet s DSP_CTRL_ENABLE = false →
        completes go s fun u => rd u SPN_OFFSET_OFFSET = (off % 2 ^ 32).toNat ∧ rd u SPN_STAT_CUT_OFF = 0 ∧ u.out = s.out ∧
          (port u n).synced = true ∧ (p.synced = false → u.span.rejoin = false ∧
            u.span.step = if s.span.rejoin = true ∧ off.natAbs ≤ 1000 then s.span.step else some off) ∧
          (p.synced = true → u.span.step = s.span.step ∧ u.span.rejoin = s.span.rejoin) ∧
          (off.natAbs ≤ 20 → sameRegsBut s u [SPN_OFFSET_OFFSET, SPN_STAT_CUT_OFF] ∧ u.span.frameOk = s.span.frameOk) ∧
          (20 < off.natAbs → u.span.frameOk = false ∧ u.span.goodFrames = 0 ∧ (isSet s SPN_STAT_ALIGNED = true →
            rd u SPN_STAT_ALIGNED = 0 ∧ rd u SPN_EVT_STAT_ALIGN_LOST = 1))) ∧
      (isMember s = false → hd.relay = true → hd.dst.val = 15 → portUp s (1 - n.val) = true → position s ≠ 15 → completes go s fun u =>
        let body := [fr.toNat, line.val, 0, tm.toNat, ((corr.toNat + res.toNat + p.hop) % 2 ^ 32).toNat]
        u.out = s.out ++ [.flit (1 - n.val) (flitBytes { seq := 0, kind := 0x22, relay := true, dst := 15, src := hd.src.val, body }
          (ackOf s (1 - n.val)))] ∧ u.regs = s.regs))) ∧
  (∀ (s : State) (row : Fin 16384) kind px c l, s.dsp.cfg = some c → s.dsp.inFrames ≠ 0 → row.val < c.ih → c.dualIn = false →
    superRes s = true ∨ c.interp = false → kind.colour = .rgb → kind.sampling ≠ .s420 → portUp s 0 = false →
    (s.dsp.rows.filter (fun e => e.1 % 2 == 0 && decide (storeKey 0 (s.dsp.inFrames - 1) row < e.1))).length < 12 →
    portUp s 1 = true → (port s 1).haloOk = true → (port s 1).haloWait = false → (port s 1).held = [] → (port s 1).queue = [] →
    l = ((px.take c.iw).map fun x => (⟨x.a % 4096, x.b % 4096, x.c % 4096⟩ : Pixel)) → completes (.inputRowReceived 0 row kind 12 px) s fun u =>
      let q := port s 1
      u.out = s.out ++ [ownFlit s 1 (ackOf s 1) 0x10 false 0xF q.nextSeq ([(s.dsp.inFrames - 1) % 2 ^ 32, row.val, 0, haloIn s] ++
        (l.drop (l.length - haloIn s)).flatMap fun x => [x.a, x.b, x.c])] ∧
      (port u 1).held.length = 1 ∧ (port u 1).nextSeq = (q.nextSeq + 1) % 65536) ∧
  (∀ (s : State) (n : Fin 2) (row : Fin 65536) (fine : Fin 10), let key := haloKey n (s.dsp.inFrames - 1) row
    let k := haloIn s
    (portEn s n = false ∨ k = 0 ∨ (tfind key s.span.halos).isSome = true ∨ s.span.missed.contains key = true →
      completes (.haloDeadline n row) s (· = s)) ∧
    (∀ l, portEn s n = true → k ≠ 0 → tfind key s.span.halos = none → s.span.missed.contains key = false →
      s.dsp.cfg.bind (fun c => storedRow s c (s.dsp.inFrames - 1) row.val) = some l → completes (.haloDeadline n row) s fun u =>
        tfind key u.span.halos = some (if n.val = 0 then ((l.drop 1).take k).reverse else ((l.dropLast).drop (l.length - 1 - k)).reverse) ∧
        u.span.missed = s.span.missed ++ [key] ∧ rd u (SPN_HALO_MISS n) = satAdd (2 ^ 32 - 1) (rd s (SPN_HALO_MISS n)) 1 ∧
        rd u SPN_EVT_STAT_HALO_MISS = 1 ∧ sameRegsBut s u [SPN_HALO_MISS n, SPN_EVT_STAT_HALO_MISS]) ∧
    (isMember s = true → portUp s 0 = true → completes (.delayMeasurement fine) s fun u => u = { s with out := u.out } ∧
      u.out = s.out ++ [ownFlit s 0 (ackOf s 0) 0x20 false 0xF 0 [nowNs s fine]]) ∧
    (isMember s = false ∨ portUp s 0 = false → completes (.delayMeasurement fine) s (· = s)) ∧
    (isMaster s = true → s.span.reports.isSome = true → s.span.running = [] → completes .paceReportTimeout s fun u => u.span.reports = none ∧
      u.span.commit = none ∧ rd u SPN_EVT_STAT_SWEEP_DISCARD = 1 ∧ rd u PWR_PACE_COMMITTED = rd s PWR_PACE_COMMITTED) ∧
    (isMaster s = false ∨ s.span.reports = none → completes .paceReportTimeout s (· = s)) ∧
    (s.span.commit = none → completes .paceApply s (· = s)) ∧
    (∀ x, s.span.commit = some x → (s.time < x.2.2 → completes .paceApply s (· = s)) ∧
      (∀ c, x.2.2 ≤ s.time → x.2.1 < 8 → s.span.running = [c] → s.hif.cmds = [c] → completes .paceApply s fun u =>
        rd u PWR_PACE_COMMITTED = x.2.1 ∧ u.span.commit = none ∧ u.span.running = [] ∧ u.hif.cmds = [] ∧ rd u SPN_STAT_SWEEP_PEND = 0 ∧
        (rd s PWR_PACE_COMMITTED ≠ x.2.1 → rd u PWR_EVT_STAT_PACE_CHANGED = 1) ∧ u.mem = s.mem))) ∧
  (∀ (s : State) (h : Pkt), slotPlain s h →
    (∀ role pos count ports : Fin 256, accepted s h 0x80 .any true = true →
      let legal := role.val ≤ 2 ∧ pos.val < count.val ∧ count.val ≤ 4 ∧ (role.val = 1 → pos.val = 0) ∧ (role.val = 2 → pos.val ≠ 0) ∧
        (role.val = 0 → count.val = 1 ∧ ports.val = 0) ∧
        (role.val ≠ 0 → ports.val = (if pos.val = 0 then 0 else 1) + (if pos.val + 1 = count.val then 0 else 2))
      (¬legal → completes (.spanConfig h role pos count ports) s fun u => recorded s u h 0x80 0x21 ∧ u.span = s.span ∧
        rd u SPN_CTRL_ROLE = rd s SPN_CTRL_ROLE ∧ u.mem = s.mem) ∧
      (legal → rd s SPN_CTRL_ROLE ≠ 1 → completes (.spanConfig h role pos count ports) s fun u => recorded s u h 0x80 0 ∧
        rd u SPN_CTRL_ROLE = role.val ∧ rd u SPN_CTRL_POSITION = pos.val ∧ rd u SPN_CTRL_COUNT_M1 = count.val - 1 ∧
        rd u SPN_CTRL_EN_0 = ports.val % 2 ∧ rd u SPN_CTRL_EN_1 = ports.val / 2 % 2 ∧ (role.val = 0 → rd u PWR_PACE_COMMITTED = 7) ∧
        (∀ n : Fin 2, rd u (if n.val = 0 then SPN_CTRL_EN_0 else SPN_CTRL_EN_1) = 0 → rd u (SPN_PORT_STAT_STATE n) = 0) ∧
        (rd s SPN_CTRL_ROLE ≠ role.val → ∀ n : Fin 2, rd u (if n.val = 0 then SPN_CTRL_EN_0 else SPN_CTRL_EN_1) = 1 →
          rd u (SPN_PORT_STAT_STATE n) = 2) ∧ u.mem = s.mem)) ∧
    (∀ period : BitVec 32, accepted s h 0x81 .any true = true →
      let down := (portEn s 0 = true ∧ portUp s 0 = false) ∨ (portEn s 1 = true ∧ portUp s 1 = false)
      let refused := isMaster s = false ∨ down ∨ 65535 < period.toNat
      (refused → completes (.paceSweep h period) s fun u => recorded s u h 0x81 0x21 ∧ u.span = s.span ∧ u.mem = s.mem) ∧
      (¬refused → period = 0 → s.span.cmds = [] → completes (.paceSweep h period) s fun u => recorded s u h 0x81 0 ∧ u.span = { s.span with period := 0 } ∧
        hrdN u h.fn ((ring s h.fn h.ring).cfg.cqBase + 32 * (ring s h.fn h.ring).cqTail + 28) 1 = rd s PWR_PACE_COMMITTED % 256) ∧
      (¬refused → period ≠ 0 → completes (.paceSweep h period) s fun u => (taken s h 0x81 0).1 ∈ u.hif.cmds ∧ u.host = s.host ∧
        u.span = { s.span with period := period.toNat, since := 0, cmds := s.span.cmds ++ [(taken s h 0x81 0).1] })))
end

