-- ==== Sys2Proof/Laws/State.lean ====
section
/-!
SUPPORT. Sys2Proof/Laws/State.lean: one lemma per field per update: what each small operation of Machine/Ops.lean leaves of the state.
-/
namespace Sys2Proof.Machine

@[simp] theorem wr_time (s : State) (f : RegField) (v : Nat) : (wr s f v).time = s.time := rfl
@[simp] theorem wr_quantum (s : State) (f : RegField) (v : Nat) : (wr s f v).quantum = s.quantum := rfl
@[simp] theorem wr_free (s : State) (f : RegField) (v : Nat) : (wr s f v).free = s.free := rfl
@[simp] theorem wr_mem (s : State) (f : RegField) (v : Nat) : (wr s f v).mem = s.mem := rfl
@[simp] theorem wr_host (s : State) (f : RegField) (v : Nat) : (wr s f v).host = s.host := rfl
@[simp] theorem wr_poison (s : State) (f : RegField) (v : Nat) : (wr s f v).poison = s.poison := rfl
@[simp] theorem wr_upsets (s : State) (f : RegField) (v : Nat) : (wr s f v).upsets = s.upsets := rfl
@[simp] theorem wr_clusters (s : State) (f : RegField) (v : Nat) : (wr s f v).clusters = s.clusters := rfl
@[simp] theorem wr_cores (s : State) (f : RegField) (v : Nat) : (wr s f v).cores = s.cores := rfl
@[simp] theorem wr_threads (s : State) (f : RegField) (v : Nat) : (wr s f v).threads = s.threads := rfl
@[simp] theorem wr_units (s : State) (f : RegField) (v : Nat) : (wr s f v).units = s.units := rfl
@[simp] theorem wr_nextUnit (s : State) (f : RegField) (v : Nat) : (wr s f v).nextUnit = s.nextUnit := rfl
@[simp] theorem wr_dram (s : State) (f : RegField) (v : Nat) : (wr s f v).dram = s.dram := rfl
@[simp] theorem wr_moves (s : State) (f : RegField) (v : Nat) : (wr s f v).moves = s.moves := rfl
@[simp] theorem wr_moveWait (s : State) (f : RegField) (v : Nat) : (wr s f v).moveWait = s.moveWait := rfl
@[simp] theorem wr_flash (s : State) (f : RegField) (v : Nat) : (wr s f v).flash = s.flash := rfl
@[simp] theorem wr_handles (s : State) (f : RegField) (v : Nat) : (wr s f v).handles = s.handles := rfl
@[simp] theorem wr_parts (s : State) (f : RegField) (v : Nat) : (wr s f v).parts = s.parts := rfl
@[simp] theorem wr_srv (s : State) (f : RegField) (v : Nat) : (wr s f v).srv = s.srv := rfl
@[simp] theorem wr_repl (s : State) (f : RegField) (v : Nat) : (wr s f v).repl = s.repl := rfl
@[simp] theorem wr_hif (s : State) (f : RegField) (v : Nat) : (wr s f v).hif = s.hif := rfl
@[simp] theorem wr_evc (s : State) (f : RegField) (v : Nat) : (wr s f v).evc = s.evc := rfl
@[simp] theorem wr_flt (s : State) (f : RegField) (v : Nat) : (wr s f v).flt = s.flt := rfl
@[simp] theorem wr_dsp (s : State) (f : RegField) (v : Nat) : (wr s f v).dsp = s.dsp := rfl
@[simp] theorem wr_cam (s : State) (f : RegField) (v : Nat) : (wr s f v).cam = s.cam := rfl
@[simp] theorem wr_span (s : State) (f : RegField) (v : Nat) : (wr s f v).span = s.span := rfl
@[simp] theorem wr_pwr (s : State) (f : RegField) (v : Nat) : (wr s f v).pwr = s.pwr := rfl
@[simp] theorem wr_sec (s : State) (f : RegField) (v : Nat) : (wr s f v).sec = s.sec := rfl
@[simp] theorem wr_boot (s : State) (f : RegField) (v : Nat) : (wr s f v).boot = s.boot := rfl
@[simp] theorem wr_out (s : State) (f : RegField) (v : Nat) : (wr s f v).out = s.out := rfl
@[simp] theorem wr_pending (s : State) (f : RegField) (v : Nat) : (wr s f v).pending = s.pending := rfl
@[simp] theorem wr_regs (s : State) (f : RegField) (v : Nat) : (wr s f v).regs = tput f.reset s.regs f.key (v % 2 ^ f.width) := rfl

@[simp] theorem resetRegs_time (s : State) (p : Nat → Bool) : (resetRegs s p).time = s.time := rfl
@[simp] theorem resetRegs_quantum (s : State) (p : Nat → Bool) : (resetRegs s p).quantum = s.quantum := rfl
@[simp] theorem resetRegs_free (s : State) (p : Nat → Bool) : (resetRegs s p).free = s.free := rfl
@[simp] theorem resetRegs_mem (s : State) (p : Nat → Bool) : (resetRegs s p).mem = s.mem := rfl
@[simp] theorem resetRegs_host (s : State) (p : Nat → Bool) : (resetRegs s p).host = s.host := rfl
@[simp] theorem resetRegs_poison (s : State) (p : Nat → Bool) : (resetRegs s p).poison = s.poison := rfl
@[simp] theorem resetRegs_upsets (s : State) (p : Nat → Bool) : (resetRegs s p).upsets = s.upsets := rfl
@[simp] theorem resetRegs_clusters (s : State) (p : Nat → Bool) : (resetRegs s p).clusters = s.clusters := rfl
@[simp] theorem resetRegs_cores (s : State) (p : Nat → Bool) : (resetRegs s p).cores = s.cores := rfl
@[simp] theorem resetRegs_threads (s : State) (p : Nat → Bool) : (resetRegs s p).threads = s.threads := rfl
@[simp] theorem resetRegs_units (s : State) (p : Nat → Bool) : (resetRegs s p).units = s.units := rfl
@[simp] theorem resetRegs_nextUnit (s : State) (p : Nat → Bool) : (resetRegs s p).nextUnit = s.nextUnit := rfl
@[simp] theorem resetRegs_dram (s : State) (p : Nat → Bool) : (resetRegs s p).dram = s.dram := rfl
@[simp] theorem resetRegs_moves (s : State) (p : Nat → Bool) : (resetRegs s p).moves = s.moves := rfl
@[simp] theorem resetRegs_moveWait (s : State) (p : Nat → Bool) : (resetRegs s p).moveWait = s.moveWait := rfl
@[simp] theorem resetRegs_flash (s : State) (p : Nat → Bool) : (resetRegs s p).flash = s.flash := rfl
@[simp] theorem resetRegs_handles (s : State) (p : Nat → Bool) : (resetRegs s p).handles = s.handles := rfl
@[simp] theorem resetRegs_parts (s : State) (p : Nat → Bool) : (resetRegs s p).parts = s.parts := rfl
@[simp] theorem resetRegs_srv (s : State) (p : Nat → Bool) : (resetRegs s p).srv = s.srv := rfl
@[simp] theorem resetRegs_repl (s : State) (p : Nat → Bool) : (resetRegs s p).repl = s.repl := rfl
@[simp] theorem resetRegs_hif (s : State) (p : Nat → Bool) : (resetRegs s p).hif = s.hif := rfl
@[simp] theorem resetRegs_evc (s : State) (p : Nat → Bool) : (resetRegs s p).evc = s.evc := rfl
@[simp] theorem resetRegs_flt (s : State) (p : Nat → Bool) : (resetRegs s p).flt = s.flt := rfl
@[simp] theorem resetRegs_dsp (s : State) (p : Nat → Bool) : (resetRegs s p).dsp = s.dsp := rfl
@[simp] theorem resetRegs_cam (s : State) (p : Nat → Bool) : (resetRegs s p).cam = s.cam := rfl
@[simp] theorem resetRegs_span (s : State) (p : Nat → Bool) : (resetRegs s p).span = s.span := rfl
@[simp] theorem resetRegs_pwr (s : State) (p : Nat → Bool) : (resetRegs s p).pwr = s.pwr := rfl
@[simp] theorem resetRegs_sec (s : State) (p : Nat → Bool) : (resetRegs s p).sec = s.sec := rfl
@[simp] theorem resetRegs_boot (s : State) (p : Nat → Bool) : (resetRegs s p).boot = s.boot := rfl
@[simp] theorem resetRegs_out (s : State) (p : Nat → Bool) : (resetRegs s p).out = s.out := rfl
@[simp] theorem resetRegs_pending (s : State) (p : Nat → Bool) : (resetRegs s p).pending = s.pending := rfl
@[simp] theorem resetRegs_regs (s : State) (p : Nat → Bool) : (resetRegs s p).regs = tdrop (fun k => p (k / 32)) s.regs := rfl

@[simp] theorem wb_time (s : State) (a : Nat) (v : Byte) : (wb s a v).time = s.time := rfl
@[simp] theorem wb_quantum (s : State) (a : Nat) (v : Byte) : (wb s a v).quantum = s.quantum := rfl
@[simp] theorem wb_free (s : State) (a : Nat) (v : Byte) : (wb s a v).free = s.free := rfl
@[simp] theorem wb_regs (s : State) (a : Nat) (v : Byte) : (wb s a v).regs = s.regs := rfl
@[simp] theorem wb_host (s : State) (a : Nat) (v : Byte) : (wb s a v).host = s.host := rfl
@[simp] theorem wb_poison (s : State) (a : Nat) (v : Byte) : (wb s a v).poison = s.poison := rfl
@[simp] theorem wb_upsets (s : State) (a : Nat) (v : Byte) : (wb s a v).upsets = s.upsets := rfl
@[simp] theorem wb_clusters (s : State) (a : Nat) (v : Byte) : (wb s a v).clusters = s.clusters := rfl
@[simp] theorem wb_cores (s : State) (a : Nat) (v : Byte) : (wb s a v).cores = s.cores := rfl
@[simp] theorem wb_threads (s : State) (a : Nat) (v : Byte) : (wb s a v).threads = s.threads := rfl
@[simp] theorem wb_units (s : State) (a : Nat) (v : Byte) : (wb s a v).units = s.units := rfl
@[simp] theorem wb_nextUnit (s : State) (a : Nat) (v : Byte) : (wb s a v).nextUnit = s.nextUnit := rfl
@[simp] theorem wb_dram (s : State) (a : Nat) (v : Byte) : (wb s a v).dram = s.dram := rfl
@[simp] theorem wb_moves (s : State) (a : Nat) (v : Byte) : (wb s a v).moves = s.moves := rfl
@[simp] theorem wb_moveWait (s : State) (a : Nat) (v : Byte) : (wb s a v).moveWait = s.moveWait := rfl
@[simp] theorem wb_flash (s : State) (a : Nat) (v : Byte) : (wb s a v).flash = s.flash := rfl
@[simp] theorem wb_handles (s : State) (a : Nat) (v : Byte) : (wb s a v).handles = s.handles := rfl
@[simp] theorem wb_parts (s : State) (a : Nat) (v : Byte) : (wb s a v).parts = s.parts := rfl
@[simp] theorem wb_srv (s : State) (a : Nat) (v : Byte) : (wb s a v).srv = s.srv := rfl
@[simp] theorem wb_repl (s : State) (a : Nat) (v : Byte) : (wb s a v).repl = s.repl := rfl
@[simp] theorem wb_hif (s : State) (a : Nat) (v : Byte) : (wb s a v).hif = s.hif := rfl
@[simp] theorem wb_evc (s : State) (a : Nat) (v : Byte) : (wb s a v).evc = s.evc := rfl
@[simp] theorem wb_flt (s : State) (a : Nat) (v : Byte) : (wb s a v).flt = s.flt := rfl
@[simp] theorem wb_dsp (s : State) (a : Nat) (v : Byte) : (wb s a v).dsp = s.dsp := rfl
@[simp] theorem wb_cam (s : State) (a : Nat) (v : Byte) : (wb s a v).cam = s.cam := rfl
@[simp] theorem wb_span (s : State) (a : Nat) (v : Byte) : (wb s a v).span = s.span := rfl
@[simp] theorem wb_pwr (s : State) (a : Nat) (v : Byte) : (wb s a v).pwr = s.pwr := rfl
@[simp] theorem wb_sec (s : State) (a : Nat) (v : Byte) : (wb s a v).sec = s.sec := rfl
@[simp] theorem wb_boot (s : State) (a : Nat) (v : Byte) : (wb s a v).boot = s.boot := rfl
@[simp] theorem wb_out (s : State) (a : Nat) (v : Byte) : (wb s a v).out = s.out := rfl
@[simp] theorem wb_pending (s : State) (a : Nat) (v : Byte) : (wb s a v).pending = s.pending := rfl
@[simp] theorem wb_mem (s : State) (a : Nat) (v : Byte) : (wb s a v).mem = tput 0 s.mem a v := rfl

@[simp] theorem hwb_time (s : State) (fn a : Nat) (v : Byte) : (hwb s fn a v).time = s.time := rfl
@[simp] theorem hwb_quantum (s : State) (fn a : Nat) (v : Byte) : (hwb s fn a v).quantum = s.quantum := rfl
@[simp] theorem hwb_free (s : State) (fn a : Nat) (v : Byte) : (hwb s fn a v).free = s.free := rfl
@[simp] theorem hwb_regs (s : State) (fn a : Nat) (v : Byte) : (hwb s fn a v).regs = s.regs := rfl
@[simp] theorem hwb_mem (s : State) (fn a : Nat) (v : Byte) : (hwb s fn a v).mem = s.mem := rfl
@[simp] theorem hwb_poison (s : State) (fn a : Nat) (v : Byte) : (hwb s fn a v).poison = s.poison := rfl
@[simp] theorem hwb_upsets (s : State) (fn a : Nat) (v : Byte) : (hwb s fn a v).upsets = s.upsets := rfl
@[simp] theorem hwb_clusters (s : State) (fn a : Nat) (v : Byte) : (hwb s fn a v).clusters = s.clusters := rfl
@[simp] theorem hwb_cores (s : State) (fn a : Nat) (v : Byte) : (hwb s fn a v).cores = s.cores := rfl
@[simp] theorem hwb_threads (s : State) (fn a : Nat) (v : Byte) : (hwb s fn a v).threads = s.threads := rfl
@[simp] theorem hwb_units (s : State) (fn a : Nat) (v : Byte) : (hwb s fn a v).units = s.units := rfl
@[simp] theorem hwb_nextUnit (s : State) (fn a : Nat) (v : Byte) : (hwb s fn a v).nextUnit = s.nextUnit := rfl
@[simp] theorem hwb_dram (s : State) (fn a : Nat) (v : Byte) : (hwb s fn a v).dram = s.dram := rfl
@[simp] theorem hwb_moves (s : State) (fn a : Nat) (v : Byte) : (hwb s fn a v).moves = s.moves := rfl
@[simp] theorem hwb_moveWait (s : State) (fn a : Nat) (v : Byte) : (hwb s fn a v).moveWait = s.moveWait := rfl
@[simp] theorem hwb_flash (s : State) (fn a : Nat) (v : Byte) : (hwb s fn a v).flash = s.flash := rfl
@[simp] theorem hwb_handles (s : State) (fn a : Nat) (v : Byte) : (hwb s fn a v).handles = s.handles := rfl
@[simp] theorem hwb_parts (s : State) (fn a : Nat) (v : Byte) : (hwb s fn a v).parts = s.parts := rfl
@[simp] theorem hwb_srv (s : State) (fn a : Nat) (v : Byte) : (hwb s fn a v).srv = s.srv := rfl
@[simp] theorem hwb_repl (s : State) (fn a : Nat) (v : Byte) : (hwb s fn a v).repl = s.repl := rfl
@[simp] theorem hwb_hif (s : State) (fn a : Nat) (v : Byte) : (hwb s fn a v).hif = s.hif := rfl
@[simp] theorem hwb_evc (s : State) (fn a : Nat) (v : Byte) : (hwb s fn a v).evc = s.evc := rfl
@[simp] theorem hwb_flt (s : State) (fn a : Nat) (v : Byte) : (hwb s fn a v).flt = s.flt := rfl
@[simp] theorem hwb_dsp (s : State) (fn a : Nat) (v : Byte) : (hwb s fn a v).dsp = s.dsp := rfl
@[simp] theorem hwb_cam (s : State) (fn a : Nat) (v : Byte) : (hwb s fn a v).cam = s.cam := rfl
@[simp] theorem hwb_span (s : State) (fn a : Nat) (v : Byte) : (hwb s fn a v).span = s.span := rfl
@[simp] theorem hwb_pwr (s : State) (fn a : Nat) (v : Byte) : (hwb s fn a v).pwr = s.pwr := rfl
@[simp] theorem hwb_sec (s : State) (fn a : Nat) (v : Byte) : (hwb s fn a v).sec = s.sec := rfl
@[simp] theorem hwb_boot (s : State) (fn a : Nat) (v : Byte) : (hwb s fn a v).boot = s.boot := rfl
@[simp] theorem hwb_out (s : State) (fn a : Nat) (v : Byte) : (hwb s fn a v).out = s.out := rfl
@[simp] theorem hwb_pending (s : State) (fn a : Nat) (v : Byte) : (hwb s fn a v).pending = s.pending := rfl
@[simp] theorem hwb_host (s : State) (fn a : Nat) (v : Byte) : (hwb s fn a v).host = tput 0 s.host (fn * 2 ^ 64 + a % 2 ^ 64) v := rfl

@[simp] theorem clearPoison_time (s : State) (a : Nat) : (clearPoison s a).time = s.time := rfl
@[simp] theorem clearPoison_quantum (s : State) (a : Nat) : (clearPoison s a).quantum = s.quantum := rfl
@[simp] theorem clearPoison_free (s : State) (a : Nat) : (clearPoison s a).free = s.free := rfl
@[simp] theorem clearPoison_regs (s : State) (a : Nat) : (clearPoison s a).regs = s.regs := rfl
@[simp] theorem clearPoison_mem (s : State) (a : Nat) : (clearPoison s a).mem = s.mem := rfl
@[simp] theorem clearPoison_host (s : State) (a : Nat) : (clearPoison s a).host = s.host := rfl
@[simp] theorem clearPoison_clusters (s : State) (a : Nat) : (clearPoison s a).clusters = s.clusters := rfl
@[simp] theorem clearPoison_cores (s : State) (a : Nat) : (clearPoison s a).cores = s.cores := rfl
@[simp] theorem clearPoison_threads (s : State) (a : Nat) : (clearPoison s a).threads = s.threads := rfl
@[simp] theorem clearPoison_units (s : State) (a : Nat) : (clearPoison s a).units = s.units := rfl
@[simp] theorem clearPoison_nextUnit (s : State) (a : Nat) : (clearPoison s a).nextUnit = s.nextUnit := rfl
@[simp] theorem clearPoison_dram (s : State) (a : Nat) : (clearPoison s a).dram = s.dram := rfl
@[simp] theorem clearPoison_moves (s : State) (a : Nat) : (clearPoison s a).moves = s.moves := rfl
@[simp] theorem clearPoison_moveWait (s : State) (a : Nat) : (clearPoison s a).moveWait = s.moveWait := rfl
@[simp] theorem clearPoison_flash (s : State) (a : Nat) : (clearPoison s a).flash = s.flash := rfl
@[simp] theorem clearPoison_handles (s : State) (a : Nat) : (clearPoison s a).handles = s.handles := rfl
@[simp] theorem clearPoison_parts (s : State) (a : Nat) : (clearPoison s a).parts = s.parts := rfl
@[simp] theorem clearPoison_srv (s : State) (a : Nat) : (clearPoison s a).srv = s.srv := rfl
@[simp] theorem clearPoison_repl (s : State) (a : Nat) : (clearPoison s a).repl = s.repl := rfl
@[simp] theorem clearPoison_hif (s : State) (a : Nat) : (clearPoison s a).hif = s.hif := rfl
@[simp] theorem clearPoison_evc (s : State) (a : Nat) : (clearPoison s a).evc = s.evc := rfl
@[simp] theorem clearPoison_flt (s : State) (a : Nat) : (clearPoison s a).flt = s.flt := rfl
@[simp] theorem clearPoison_dsp (s : State) (a : Nat) : (clearPoison s a).dsp = s.dsp := rfl
@[simp] theorem clearPoison_cam (s : State) (a : Nat) : (clearPoison s a).cam = s.cam := rfl
@[simp] theorem clearPoison_span (s : State) (a : Nat) : (clearPoison s a).span = s.span := rfl
@[simp] theorem clearPoison_pwr (s : State) (a : Nat) : (clearPoison s a).pwr = s.pwr := rfl
@[simp] theorem clearPoison_sec (s : State) (a : Nat) : (clearPoison s a).sec = s.sec := rfl
@[simp] theorem clearPoison_boot (s : State) (a : Nat) : (clearPoison s a).boot = s.boot := rfl
@[simp] theorem clearPoison_out (s : State) (a : Nat) : (clearPoison s a).out = s.out := rfl
@[simp] theorem clearPoison_pending (s : State) (a : Nat) : (clearPoison s a).pending = s.pending := rfl
@[simp] theorem clearPoison_poison (s : State) (a : Nat) : (clearPoison s a).poison = s.poison.filter (fun w => decide (w ≠ a / 8)) := rfl

@[simp] theorem setClu_time (s : State) (n : Nat) (c : Cluster) : (setClu s n c).time = s.time := rfl
@[simp] theorem setClu_quantum (s : State) (n : Nat) (c : Cluster) : (setClu s n c).quantum = s.quantum := rfl
@[simp] theorem setClu_free (s : State) (n : Nat) (c : Cluster) : (setClu s n c).free = s.free := rfl
@[simp] theorem setClu_regs (s : State) (n : Nat) (c : Cluster) : (setClu s n c).regs = s.regs := rfl
@[simp] theorem setClu_mem (s : State) (n : Nat) (c : Cluster) : (setClu s n c).mem = s.mem := rfl
@[simp] theorem setClu_host (s : State) (n : Nat) (c : Cluster) : (setClu s n c).host = s.host := rfl
@[simp] theorem setClu_poison (s : State) (n : Nat) (c : Cluster) : (setClu s n c).poison = s.poison := rfl
@[simp] theorem setClu_upsets (s : State) (n : Nat) (c : Cluster) : (setClu s n c).upsets = s.upsets := rfl
@[simp] theorem setClu_cores (s : State) (n : Nat) (c : Cluster) : (setClu s n c).cores = s.cores := rfl
@[simp] theorem setClu_threads (s : State) (n : Nat) (c : Cluster) : (setClu s n c).threads = s.threads := rfl
@[simp] theorem setClu_units (s : State) (n : Nat) (c : Cluster) : (setClu s n c).units = s.units := rfl
@[simp] theorem setClu_nextUnit (s : State) (n : Nat) (c : Cluster) : (setClu s n c).nextUnit = s.nextUnit := rfl
@[simp] theorem setClu_dram (s : State) (n : Nat) (c : Cluster) : (setClu s n c).dram = s.dram := rfl
@[simp] theorem setClu_moves (s : State) (n : Nat) (c : Cluster) : (setClu s n c).moves = s.moves := rfl
@[simp] theorem setClu_moveWait (s : State) (n : Nat) (c : Cluster) : (setClu s n c).moveWait = s.moveWait := rfl
@[simp] theorem setClu_flash (s : State) (n : Nat) (c : Cluster) : (setClu s n c).flash = s.flash := rfl
@[simp] theorem setClu_handles (s : State) (n : Nat) (c : Cluster) : (setClu s n c).handles = s.handles := rfl
@[simp] theorem setClu_parts (s : State) (n : Nat) (c : Cluster) : (setClu s n c).parts = s.parts := rfl
@[simp] theorem setClu_srv (s : State) (n : Nat) (c : Cluster) : (setClu s n c).srv = s.srv := rfl
@[simp] theorem setClu_repl (s : State) (n : Nat) (c : Cluster) : (setClu s n c).repl = s.repl := rfl
@[simp] theorem setClu_hif (s : State) (n : Nat) (c : Cluster) : (setClu s n c).hif = s.hif := rfl
@[simp] theorem setClu_evc (s : State) (n : Nat) (c : Cluster) : (setClu s n c).evc = s.evc := rfl
@[simp] theorem setClu_flt (s : State) (n : Nat) (c : Cluster) : (setClu s n c).flt = s.flt := rfl
@[simp] theorem setClu_dsp (s : State) (n : Nat) (c : Cluster) : (setClu s n c).dsp = s.dsp := rfl
@[simp] theorem setClu_cam (s : State) (n : Nat) (c : Cluster) : (setClu s n c).cam = s.cam := rfl
@[simp] theorem setClu_span (s : State) (n : Nat) (c : Cluster) : (setClu s n c).span = s.span := rfl
@[simp] theorem setClu_pwr (s : State) (n : Nat) (c : Cluster) : (setClu s n c).pwr = s.pwr := rfl
@[simp] theorem setClu_sec (s : State) (n : Nat) (c : Cluster) : (setClu s n c).sec = s.sec := rfl
@[simp] theorem setClu_boot (s : State) (n : Nat) (c : Cluster) : (setClu s n c).boot = s.boot := rfl
@[simp] theorem setClu_out (s : State) (n : Nat) (c : Cluster) : (setClu s n c).out = s.out := rfl
@[simp] theorem setClu_pending (s : State) (n : Nat) (c : Cluster) : (setClu s n c).pending = s.pending := rfl
@[simp] theorem setClu_clusters (s : State) (n : Nat) (c : Cluster) : (setClu s n c).clusters = tput {} s.clusters n c := rfl

@[simp] theorem setCore_time (s : State) (k : Nat) (c : Core) : (setCore s k c).time = s.time := rfl
@[simp] theorem setCore_quantum (s : State) (k : Nat) (c : Core) : (setCore s k c).quantum = s.quantum := rfl
@[simp] theorem setCore_free (s : State) (k : Nat) (c : Core) : (setCore s k c).free = s.free := rfl
@[simp] theorem setCore_regs (s : State) (k : Nat) (c : Core) : (setCore s k c).regs = s.regs := rfl
@[simp] theorem setCore_mem (s : State) (k : Nat) (c : Core) : (setCore s k c).mem = s.mem := rfl
@[simp] theorem setCore_host (s : State) (k : Nat) (c : Core) : (setCore s k c).host = s.host := rfl
@[simp] theorem setCore_poison (s : State) (k : Nat) (c : Core) : (setCore s k c).poison = s.poison := rfl
@[simp] theorem setCore_upsets (s : State) (k : Nat) (c : Core) : (setCore s k c).upsets = s.upsets := rfl
@[simp] theorem setCore_clusters (s : State) (k : Nat) (c : Core) : (setCore s k c).clusters = s.clusters := rfl
@[simp] theorem setCore_threads (s : State) (k : Nat) (c : Core) : (setCore s k c).threads = s.threads := rfl
@[simp] theorem setCore_units (s : State) (k : Nat) (c : Core) : (setCore s k c).units = s.units := rfl
@[simp] theorem setCore_nextUnit (s : State) (k : Nat) (c : Core) : (setCore s k c).nextUnit = s.nextUnit := rfl
@[simp] theorem setCore_dram (s : State) (k : Nat) (c : Core) : (setCore s k c).dram = s.dram := rfl
@[simp] theorem setCore_moves (s : State) (k : Nat) (c : Core) : (setCore s k c).moves = s.moves := rfl
@[simp] theorem setCore_moveWait (s : State) (k : Nat) (c : Core) : (setCore s k c).moveWait = s.moveWait := rfl
@[simp] theorem setCore_flash (s : State) (k : Nat) (c : Core) : (setCore s k c).flash = s.flash := rfl
@[simp] theorem setCore_handles (s : State) (k : Nat) (c : Core) : (setCore s k c).handles = s.handles := rfl
@[simp] theorem setCore_parts (s : State) (k : Nat) (c : Core) : (setCore s k c).parts = s.parts := rfl
@[simp] theorem setCore_srv (s : State) (k : Nat) (c : Core) : (setCore s k c).srv = s.srv := rfl
@[simp] theorem setCore_repl (s : State) (k : Nat) (c : Core) : (setCore s k c).repl = s.repl := rfl
@[simp] theorem setCore_hif (s : State) (k : Nat) (c : Core) : (setCore s k c).hif = s.hif := rfl
@[simp] theorem setCore_evc (s : State) (k : Nat) (c : Core) : (setCore s k c).evc = s.evc := rfl
@[simp] theorem setCore_flt (s : State) (k : Nat) (c : Core) : (setCore s k c).flt = s.flt := rfl
@[simp] theorem setCore_dsp (s : State) (k : Nat) (c : Core) : (setCore s k c).dsp = s.dsp := rfl
@[simp] theorem setCore_cam (s : State) (k : Nat) (c : Core) : (setCore s k c).cam = s.cam := rfl
@[simp] theorem setCore_span (s : State) (k : Nat) (c : Core) : (setCore s k c).span = s.span := rfl
@[simp] theorem setCore_pwr (s : State) (k : Nat) (c : Core) : (setCore s k c).pwr = s.pwr := rfl
@[simp] theorem setCore_sec (s : State) (k : Nat) (c : Core) : (setCore s k c).sec = s.sec := rfl
@[simp] theorem setCore_boot (s : State) (k : Nat) (c : Core) : (setCore s k c).boot = s.boot := rfl
@[simp] theorem setCore_out (s : State) (k : Nat) (c : Core) : (setCore s k c).out = s.out := rfl
@[simp] theorem setCore_pending (s : State) (k : Nat) (c : Core) : (setCore s k c).pending = s.pending := rfl
@[simp] theorem setCore_cores (s : State) (k : Nat) (c : Core) : (setCore s k c).cores = tput {} s.cores k c := rfl

@[simp] theorem setThr_time (s : State) (k : Nat) (t : Thread) : (setThr s k t).time = s.time := rfl
@[simp] theorem setThr_quantum (s : State) (k : Nat) (t : Thread) : (setThr s k t).quantum = s.quantum := rfl
@[simp] theorem setThr_free (s : State) (k : Nat) (t : Thread) : (setThr s k t).free = s.free := rfl
@[simp] theorem setThr_regs (s : State) (k : Nat) (t : Thread) : (setThr s k t).regs = s.regs := rfl
@[simp] theorem setThr_mem (s : State) (k : Nat) (t : Thread) : (setThr s k t).mem = s.mem := rfl
@[simp] theorem setThr_host (s : State) (k : Nat) (t : Thread) : (setThr s k t).host = s.host := rfl
@[simp] theorem setThr_poison (s : State) (k : Nat) (t : Thread) : (setThr s k t).poison = s.poison := rfl
@[simp] theorem setThr_upsets (s : State) (k : Nat) (t : Thread) : (setThr s k t).upsets = s.upsets := rfl
@[simp] theorem setThr_clusters (s : State) (k : Nat) (t : Thread) : (setThr s k t).clusters = s.clusters := rfl
@[simp] theorem setThr_cores (s : State) (k : Nat) (t : Thread) : (setThr s k t).cores = s.cores := rfl
@[simp] theorem setThr_units (s : State) (k : Nat) (t : Thread) : (setThr s k t).units = s.units := rfl
@[simp] theorem setThr_nextUnit (s : State) (k : Nat) (t : Thread) : (setThr s k t).nextUnit = s.nextUnit := rfl
@[simp] theorem setThr_dram (s : State) (k : Nat) (t : Thread) : (setThr s k t).dram = s.dram := rfl
@[simp] theorem setThr_moves (s : State) (k : Nat) (t : Thread) : (setThr s k t).moves = s.moves := rfl
@[simp] theorem setThr_moveWait (s : State) (k : Nat) (t : Thread) : (setThr s k t).moveWait = s.moveWait := rfl
@[simp] theorem setThr_flash (s : State) (k : Nat) (t : Thread) : (setThr s k t).flash = s.flash := rfl
@[simp] theorem setThr_handles (s : State) (k : Nat) (t : Thread) : (setThr s k t).handles = s.handles := rfl
@[simp] theorem setThr_parts (s : State) (k : Nat) (t : Thread) : (setThr s k t).parts = s.parts := rfl
@[simp] theorem setThr_srv (s : State) (k : Nat) (t : Thread) : (setThr s k t).srv = s.srv := rfl
@[simp] theorem setThr_repl (s : State) (k : Nat) (t : Thread) : (setThr s k t).repl = s.repl := rfl
@[simp] theorem setThr_hif (s : State) (k : Nat) (t : Thread) : (setThr s k t).hif = s.hif := rfl
@[simp] theorem setThr_evc (s : State) (k : Nat) (t : Thread) : (setThr s k t).evc = s.evc := rfl
@[simp] theorem setThr_flt (s : State) (k : Nat) (t : Thread) : (setThr s k t).flt = s.flt := rfl
@[simp] theorem setThr_dsp (s : State) (k : Nat) (t : Thread) : (setThr s k t).dsp = s.dsp := rfl
@[simp] theorem setThr_cam (s : State) (k : Nat) (t : Thread) : (setThr s k t).cam = s.cam := rfl
@[simp] theorem setThr_span (s : State) (k : Nat) (t : Thread) : (setThr s k t).span = s.span := rfl
@[simp] theorem setThr_pwr (s : State) (k : Nat) (t : Thread) : (setThr s k t).pwr = s.pwr := rfl
@[simp] theorem setThr_sec (s : State) (k : Nat) (t : Thread) : (setThr s k t).sec = s.sec := rfl
@[simp] theorem setThr_boot (s : State) (k : Nat) (t : Thread) : (setThr s k t).boot = s.boot := rfl
@[simp] theorem setThr_out (s : State) (k : Nat) (t : Thread) : (setThr s k t).out = s.out := rfl
@[simp] theorem setThr_pending (s : State) (k : Nat) (t : Thread) : (setThr s k t).pending = s.pending := rfl
@[simp] theorem setThr_threads (s : State) (k : Nat) (t : Thread) : (setThr s k t).threads = tput {} s.threads k t := rfl

@[simp] theorem setFn_time (s : State) (fn : Nat) (f : FnState) : (setFn s fn f).time = s.time := rfl
@[simp] theorem setFn_quantum (s : State) (fn : Nat) (f : FnState) : (setFn s fn f).quantum = s.quantum := rfl
@[simp] theorem setFn_free (s : State) (fn : Nat) (f : FnState) : (setFn s fn f).free = s.free := rfl
@[simp] theorem setFn_regs (s : State) (fn : Nat) (f : FnState) : (setFn s fn f).regs = s.regs := rfl
@[simp] theorem setFn_mem (s : State) (fn : Nat) (f : FnState) : (setFn s fn f).mem = s.mem := rfl
@[simp] theorem setFn_host (s : State) (fn : Nat) (f : FnState) : (setFn s fn f).host = s.host := rfl
@[simp] theorem setFn_poison (s : State) (fn : Nat) (f : FnState) : (setFn s fn f).poison = s.poison := rfl
@[simp] theorem setFn_upsets (s : State) (fn : Nat) (f : FnState) : (setFn s fn f).upsets = s.upsets := rfl
@[simp] theorem setFn_clusters (s : State) (fn : Nat) (f : FnState) : (setFn s fn f).clusters = s.clusters := rfl
@[simp] theorem setFn_cores (s : State) (fn : Nat) (f : FnState) : (setFn s fn f).cores = s.cores := rfl
@[simp] theorem setFn_threads (s : State) (fn : Nat) (f : FnState) : (setFn s fn f).threads = s.threads := rfl
@[simp] theorem setFn_units (s : State) (fn : Nat) (f : FnState) : (setFn s fn f).units = s.units := rfl
@[simp] theorem setFn_nextUnit (s : State) (fn : Nat) (f : FnState) : (setFn s fn f).nextUnit = s.nextUnit := rfl
@[simp] theorem setFn_dram (s : State) (fn : Nat) (f : FnState) : (setFn s fn f).dram = s.dram := rfl
@[simp] theorem setFn_moves (s : State) (fn : Nat) (f : FnState) : (setFn s fn f).moves = s.moves := rfl
@[simp] theorem setFn_moveWait (s : State) (fn : Nat) (f : FnState) : (setFn s fn f).moveWait = s.moveWait := rfl
@[simp] theorem setFn_flash (s : State) (fn : Nat) (f : FnState) : (setFn s fn f).flash = s.flash := rfl
@[simp] theorem setFn_handles (s : State) (fn : Nat) (f : FnState) : (setFn s fn f).handles = s.handles := rfl
@[simp] theorem setFn_parts (s : State) (fn : Nat) (f : FnState) : (setFn s fn f).parts = s.parts := rfl
@[simp] theorem setFn_srv (s : State) (fn : Nat) (f : FnState) : (setFn s fn f).srv = s.srv := rfl
@[simp] theorem setFn_repl (s : State) (fn : Nat) (f : FnState) : (setFn s fn f).repl = s.repl := rfl
@[simp] theorem setFn_evc (s : State) (fn : Nat) (f : FnState) : (setFn s fn f).evc = s.evc := rfl
@[simp] theorem setFn_flt (s : State) (fn : Nat) (f : FnState) : (setFn s fn f).flt = s.flt := rfl
@[simp] theorem setFn_dsp (s : State) (fn : Nat) (f : FnState) : (setFn s fn f).dsp = s.dsp := rfl
@[simp] theorem setFn_cam (s : State) (fn : Nat) (f : FnState) : (setFn s fn f).cam = s.cam := rfl
@[simp] theorem setFn_span (s : State) (fn : Nat) (f : FnState) : (setFn s fn f).span = s.span := rfl
@[simp] theorem setFn_pwr (s : State) (fn : Nat) (f : FnState) : (setFn s fn f).pwr = s.pwr := rfl
@[simp] theorem setFn_sec (s : State) (fn : Nat) (f : FnState) : (setFn s fn f).sec = s.sec := rfl
@[simp] theorem setFn_boot (s : State) (fn : Nat) (f : FnState) : (setFn s fn f).boot = s.boot := rfl
@[simp] theorem setFn_out (s : State) (fn : Nat) (f : FnState) : (setFn s fn f).out = s.out := rfl
@[simp] theorem setFn_pending (s : State) (fn : Nat) (f : FnState) : (setFn s fn f).pending = s.pending := rfl
@[simp] theorem setFn_fns (s : State) (fn : Nat) (f : FnState) : (setFn s fn f).hif.fns = tput {} s.hif.fns fn f := rfl
@[simp] theorem setFn_rings (s : State) (fn : Nat) (f : FnState) : (setFn s fn f).hif.rings = s.hif.rings := rfl
@[simp] theorem setFn_cmds (s : State) (fn : Nat) (f : FnState) : (setFn s fn f).hif.cmds = s.hif.cmds := rfl
@[simp] theorem setFn_numVfs (s : State) (fn : Nat) (f : FnState) : (setFn s fn f).hif.numVfs = s.hif.numVfs := rfl
@[simp] theorem setFn_refclk (s : State) (fn : Nat) (f : FnState) : (setFn s fn f).hif.refclk = s.hif.refclk := rfl

@[simp] theorem setRing_time (s : State) (fn r : Nat) (x : Ring) : (setRing s fn r x).time = s.time := rfl
@[simp] theorem setRing_quantum (s : State) (fn r : Nat) (x : Ring) : (setRing s fn r x).quantum = s.quantum := rfl
@[simp] theorem setRing_free (s : State) (fn r : Nat) (x : Ring) : (setRing s fn r x).free = s.free := rfl
@[simp] theorem setRing_regs (s : State) (fn r : Nat) (x : Ring) : (setRing s fn r x).regs = s.regs := rfl
@[simp] theorem setRing_mem (s : State) (fn r : Nat) (x : Ring) : (setRing s fn r x).mem = s.mem := rfl
@[simp] theorem setRing_host (s : State) (fn r : Nat) (x : Ring) : (setRing s fn r x).host = s.host := rfl
@[simp] theorem setRing_poison (s : State) (fn r : Nat) (x : Ring) : (setRing s fn r x).poison = s.poison := rfl
@[simp] theorem setRing_upsets (s : State) (fn r : Nat) (x : Ring) : (setRing s fn r x).upsets = s.upsets := rfl
@[simp] theorem setRing_clusters (s : State) (fn r : Nat) (x : Ring) : (setRing s fn r x).clusters = s.clusters := rfl
@[simp] theorem setRing_cores (s : State) (fn r : Nat) (x : Ring) : (setRing s fn r x).cores = s.cores := rfl
@[simp] theorem setRing_threads (s : State) (fn r : Nat) (x : Ring) : (setRing s fn r x).threads = s.threads := rfl
@[simp] theorem setRing_units (s : State) (fn r : Nat) (x : Ring) : (setRing s fn r x).units = s.units := rfl
@[simp] theorem setRing_nextUnit (s : State) (fn r : Nat) (x : Ring) : (setRing s fn r x).nextUnit = s.nextUnit := rfl
@[simp] theorem setRing_dram (s : State) (fn r : Nat) (x : Ring) : (setRing s fn r x).dram = s.dram := rfl
@[simp] theorem setRing_moves (s : State) (fn r : Nat) (x : Ring) : (setRing s fn r x).moves = s.moves := rfl
@[simp] theorem setRing_moveWait (s : State) (fn r : Nat) (x : Ring) : (setRing s fn r x).moveWait = s.moveWait := rfl
@[simp] theorem setRing_flash (s : State) (fn r : Nat) (x : Ring) : (setRing s fn r x).flash = s.flash := rfl
@[simp] theorem setRing_handles (s : State) (fn r : Nat) (x : Ring) : (setRing s fn r x).handles = s.handles := rfl
@[simp] theorem setRing_parts (s : State) (fn r : Nat) (x : Ring) : (setRing s fn r x).parts = s.parts := rfl
@[simp] theorem setRing_srv (s : State) (fn r : Nat) (x : Ring) : (setRing s fn r x).srv = s.srv := rfl
@[simp] theorem setRing_repl (s : State) (fn r : Nat) (x : Ring) : (setRing s fn r x).repl = s.repl := rfl
@[simp] theorem setRing_evc (s : State) (fn r : Nat) (x : Ring) : (setRing s fn r x).evc = s.evc := rfl
@[simp] theorem setRing_flt (s : State) (fn r : Nat) (x : Ring) : (setRing s fn r x).flt = s.flt := rfl
@[simp] theorem setRing_dsp (s : State) (fn r : Nat) (x : Ring) : (setRing s fn r x).dsp = s.dsp := rfl
@[simp] theorem setRing_cam (s : State) (fn r : Nat) (x : Ring) : (setRing s fn r x).cam = s.cam := rfl
@[simp] theorem setRing_span (s : State) (fn r : Nat) (x : Ring) : (setRing s fn r x).span = s.span := rfl
@[simp] theorem setRing_pwr (s : State) (fn r : Nat) (x : Ring) : (setRing s fn r x).pwr = s.pwr := rfl
@[simp] theorem setRing_sec (s : State) (fn r : Nat) (x : Ring) : (setRing s fn r x).sec = s.sec := rfl
@[simp] theorem setRing_boot (s : State) (fn r : Nat) (x : Ring) : (setRing s fn r x).boot = s.boot := rfl
@[simp] theorem setRing_out (s : State) (fn r : Nat) (x : Ring) : (setRing s fn r x).out = s.out := rfl
@[simp] theorem setRing_pending (s : State) (fn r : Nat) (x : Ring) : (setRing s fn r x).pending = s.pending := rfl
@[simp] theorem setRing_rings (s : State) (fn r : Nat) (x : Ring) : (setRing s fn r x).hif.rings = tput {} s.hif.rings (fn * 1024 + r) x := rfl
@[simp] theorem setRing_fns (s : State) (fn r : Nat) (x : Ring) : (setRing s fn r x).hif.fns = s.hif.fns := rfl
@[simp] theorem setRing_cmds (s : State) (fn r : Nat) (x : Ring) : (setRing s fn r x).hif.cmds = s.hif.cmds := rfl
@[simp] theorem setRing_numVfs (s : State) (fn r : Nat) (x : Ring) : (setRing s fn r x).hif.numVfs = s.hif.numVfs := rfl
@[simp] theorem setRing_refclk (s : State) (fn r : Nat) (x : Ring) : (setRing s fn r x).hif.refclk = s.hif.refclk := rfl

@[simp] theorem emit_time (s : State) (m : OutMsg) : (emit s m).time = s.time := rfl
@[simp] theorem emit_quantum (s : State) (m : OutMsg) : (emit s m).quantum = s.quantum := rfl
@[simp] theorem emit_free (s : State) (m : OutMsg) : (emit s m).free = s.free := rfl
@[simp] theorem emit_regs (s : State) (m : OutMsg) : (emit s m).regs = s.regs := rfl
@[simp] theorem emit_mem (s : State) (m : OutMsg) : (emit s m).mem = s.mem := rfl
@[simp] theorem emit_host (s : State) (m : OutMsg) : (emit s m).host = s.host := rfl
@[simp] theorem emit_poison (s : State) (m : OutMsg) : (emit s m).poison = s.poison := rfl
@[simp] theorem emit_upsets (s : State) (m : OutMsg) : (emit s m).upsets = s.upsets := rfl
@[simp] theorem emit_clusters (s : State) (m : OutMsg) : (emit s m).clusters = s.clusters := rfl
@[simp] theorem emit_cores (s : State) (m : OutMsg) : (emit s m).cores = s.cores := rfl
@[simp] theorem emit_threads (s : State) (m : OutMsg) : (emit s m).threads = s.threads := rfl
@[simp] theorem emit_units (s : State) (m : OutMsg) : (emit s m).units = s.units := rfl
@[simp] theorem emit_nextUnit (s : State) (m : OutMsg) : (emit s m).nextUnit = s.nextUnit := rfl
@[simp] theorem emit_dram (s : State) (m : OutMsg) : (emit s m).dram = s.dram := rfl
@[simp] theorem emit_moves (s : State) (m : OutMsg) : (emit s m).moves = s.moves := rfl
@[simp] theorem emit_moveWait (s : State) (m : OutMsg) : (emit s m).moveWait = s.moveWait := rfl
@[simp] theorem emit_flash (s : State) (m : OutMsg) : (emit s m).flash = s.flash := rfl
@[simp] theorem emit_handles (s : State) (m : OutMsg) : (emit s m).handles = s.handles := rfl
@[simp] theorem emit_parts (s : State) (m : OutMsg) : (emit s m).parts = s.parts := rfl
@[simp] theorem emit_srv (s : State) (m : OutMsg) : (emit s m).srv = s.srv := rfl
@[simp] theorem emit_repl (s : State) (m : OutMsg) : (emit s m).repl = s.repl := rfl
@[simp] theorem emit_hif (s : State) (m : OutMsg) : (emit s m).hif = s.hif := rfl
@[simp] theorem emit_evc (s : State) (m : OutMsg) : (emit s m).evc = s.evc := rfl
@[simp] theorem emit_flt (s : State) (m : OutMsg) : (emit s m).flt = s.flt := rfl
@[simp] theorem emit_dsp (s : State) (m : OutMsg) : (emit s m).dsp = s.dsp := rfl
@[simp] theorem emit_cam (s : State) (m : OutMsg) : (emit s m).cam = s.cam := rfl
@[simp] theorem emit_span (s : State) (m : OutMsg) : (emit s m).span = s.span := rfl
@[simp] theorem emit_pwr (s : State) (m : OutMsg) : (emit s m).pwr = s.pwr := rfl
@[simp] theorem emit_sec (s : State) (m : OutMsg) : (emit s m).sec = s.sec := rfl
@[simp] theorem emit_boot (s : State) (m : OutMsg) : (emit s m).boot = s.boot := rfl
@[simp] theorem emit_pending (s : State) (m : OutMsg) : (emit s m).pending = s.pending := rfl
@[simp] theorem emit_out (s : State) (m : OutMsg) : (emit s m).out = s.out ++ [m] := rfl

@[simp] theorem fresh_time (s : State) : ((fresh s).2).time = s.time := rfl
@[simp] theorem fresh_quantum (s : State) : ((fresh s).2).quantum = s.quantum := rfl
@[simp] theorem fresh_regs (s : State) : ((fresh s).2).regs = s.regs := rfl
@[simp] theorem fresh_mem (s : State) : ((fresh s).2).mem = s.mem := rfl
@[simp] theorem fresh_host (s : State) : ((fresh s).2).host = s.host := rfl
@[simp] theorem fresh_poison (s : State) : ((fresh s).2).poison = s.poison := rfl
@[simp] theorem fresh_upsets (s : State) : ((fresh s).2).upsets = s.upsets := rfl
@[simp] theorem fresh_clusters (s : State) : ((fresh s).2).clusters = s.clusters := rfl
@[simp] theorem fresh_cores (s : State) : ((fresh s).2).cores = s.cores := rfl
@[simp] theorem fresh_threads (s : State) : ((fresh s).2).threads = s.threads := rfl
@[simp] theorem fresh_units (s : State) : ((fresh s).2).units = s.units := rfl
@[simp] theorem fresh_nextUnit (s : State) : ((fresh s).2).nextUnit = s.nextUnit := rfl
@[simp] theorem fresh_dram (s : State) : ((fresh s).2).dram = s.dram := rfl
@[simp] theorem fresh_moves (s : State) : ((fresh s).2).moves = s.moves := rfl
@[simp] theorem fresh_moveWait (s : State) : ((fresh s).2).moveWait = s.moveWait := rfl
@[simp] theorem fresh_flash (s : State) : ((fresh s).2).flash = s.flash := rfl
@[simp] theorem fresh_handles (s : State) : ((fresh s).2).handles = s.handles := rfl
@[simp] theorem fresh_parts (s : State) : ((fresh s).2).parts = s.parts := rfl
@[simp] theorem fresh_srv (s : State) : ((fresh s).2).srv = s.srv := rfl
@[simp] theorem fresh_repl (s : State) : ((fresh s).2).repl = s.repl := rfl
@[simp] theorem fresh_hif (s : State) : ((fresh s).2).hif = s.hif := rfl
@[simp] theorem fresh_evc (s : State) : ((fresh s).2).evc = s.evc := rfl
@[simp] theorem fresh_flt (s : State) : ((fresh s).2).flt = s.flt := rfl
@[simp] theorem fresh_dsp (s : State) : ((fresh s).2).dsp = s.dsp := rfl
@[simp] theorem fresh_cam (s : State) : ((fresh s).2).cam = s.cam := rfl
@[simp] theorem fresh_span (s : State) : ((fresh s).2).span = s.span := rfl
@[simp] theorem fresh_pwr (s : State) : ((fresh s).2).pwr = s.pwr := rfl
@[simp] theorem fresh_sec (s : State) : ((fresh s).2).sec = s.sec := rfl
@[simp] theorem fresh_boot (s : State) : ((fresh s).2).boot = s.boot := rfl
@[simp] theorem fresh_out (s : State) : ((fresh s).2).out = s.out := rfl
@[simp] theorem fresh_pending (s : State) : ((fresh s).2).pending = s.pending := rfl
@[simp] theorem fresh_free (s : State) : ((fresh s).2).free = s.free + 1 := rfl

end Sys2Proof.Machine
end

