-- ==== Sys2Proof/Laws/Table.lean ====
section
/-!
SUPPORT. Sys2Proof/Laws/Table.lean: what a sparse table reads after a write, and that every table operation keeps the
canonical form.
-/
namespace Sys2Proof.Laws
open Sys2Proof.Machine

/-- Sortedness as a pairwise fact. -/
theorem tsorted_iff {α : Type} (t : List (Nat × α)) : tsorted t = true ↔ t.Pairwise (fun a b => a.1 < b.1) := by
  induction t with
  | nil => simp [tsorted]
  | cons a t ih =>
    cases t with
    | nil => simp [tsorted]
    | cons b t =>
      simp only [tsorted, Bool.and_eq_true, decide_eq_true_eq, ih]
      constructor
      · intro ⟨h, hp⟩
        refine List.Pairwise.cons (fun c hc => ?_) hp
        rcases List.mem_cons.1 hc with rfl | hc'
        · exact h
        · exact Nat.lt_trans h ((List.pairwise_cons.1 hp).1 c hc')
      · intro h
        exact ⟨(List.pairwise_cons.1 h).1 b (by simp), (List.pairwise_cons.1 h).2⟩

theorem tfind_none_of_lt {α : Type} {k : Nat} (t : List (Nat × α)) (h : ∀ e ∈ t, k < e.1) : tfind k t = none := by
  induction t with
  | nil => rfl
  | cons a t ih =>
    have ha := h a (by simp)
    have : a.1 ≠ k := by omega
    simp only [tfind, this, if_false]
    exact ih (fun e he => h e (by simp [he]))

theorem tfind_tset_same {α : Type} (k : Nat) (v : α) (t : List (Nat × α)) : tfind k (tset k v t) = some v := by
  induction t with
  | nil => simp [tset, tfind]
  | cons a t ih =>
    by_cases h1 : a.1 = k
    · simp [tset, tfind, h1]
    · by_cases h2 : k < a.1
      · simp [tset, tfind, h1, h2]
      · simp [tset, tfind, h1, h2, ih]

theorem tfind_tset_other {α : Type} {k j : Nat} (h : j ≠ k) (v : α) (t : List (Nat × α)) :
    tfind j (tset k v t) = tfind j t := by
  have hk : ¬ k = j := fun e => h e.symm
  induction t with
  | nil => simp [tset, tfind, hk]
  | cons a t ih =>
    by_cases h1 : a.1 = k
    · have : ¬ a.1 = j := by omega
      simp [tset, tfind, h1, hk]
    · by_cases h2 : k < a.1
      · simp [tset, tfind, h1, h2, hk]
      · simp [tset, tfind, h1, h2, ih]

theorem tfind_tdel_other {α : Type} {k j : Nat} (h : j ≠ k) (t : List (Nat × α)) : tfind j (tdel k t) = tfind j t := by
  induction t with
  | nil => rfl
  | cons a t ih =>
    by_cases h1 : a.1 = k
    · have : ¬ k = j := fun e => h e.symm
      simpa [tdel, tfind, h1, this] using ih
    · by_cases h2 : a.1 = j
      · simp [tdel, tfind, h2, h]
      · simpa [tdel, tfind, h1, h2] using ih

theorem tfind_tdel_same {α : Type} (k : Nat) (t : List (Nat × α)) : tfind k (tdel k t) = none := by
  induction t with
  | nil => rfl
  | cons a t ih =>
    by_cases h1 : a.1 = k
    · simpa [tdel, h1] using ih
    · simpa [tdel, tfind, h1] using ih

theorem tset_mem {α : Type} {k : Nat} {v : α} {t : List (Nat × α)} {e : Nat × α} (h : e ∈ tset k v t) :
    e = (k, v) ∨ e ∈ t := by
  induction t with
  | nil => simpa [tset] using h
  | cons a t ih =>
    by_cases h1 : a.1 = k
    · simp only [tset, h1, if_true, List.mem_cons] at h ⊢
      rcases h with h | h
      · exact .inl h
      · exact .inr (.inr h)
    · by_cases h2 : k < a.1
      · simp only [tset, h1, h2, if_true, if_false, List.mem_cons] at h ⊢
        exact h
      · simp only [tset, h1, h2, if_false, List.mem_cons] at h ⊢
        rcases h with h | h
        · exact .inr (.inl h)
        · rcases ih h with h | h
          · exact .inl h
          · exact .inr (.inr h)

theorem tdel_sublist {α : Type} (k : Nat) (t : List (Nat × α)) : (tdel k t).Sublist t := List.filter_sublist

theorem tset_sorted {α : Type} {k : Nat} {v : α} {t : List (Nat × α)} (h : tsorted t = true) :
    tsorted (tset k v t) = true := by
  rw [tsorted_iff] at h ⊢
  induction t with
  | nil => simp [tset]
  | cons a t ih =>
    have ⟨hlt, hrest⟩ := List.pairwise_cons.1 h
    by_cases h1 : a.1 = k
    · simp only [tset, h1, if_true]
      exact List.Pairwise.cons (fun e he => by have := hlt e he; simp only; omega) hrest
    · by_cases h2 : k < a.1
      · simp only [tset, h1, h2, if_true, if_false]
        refine List.Pairwise.cons (fun e he => ?_) h
        rcases List.mem_cons.1 he with rfl | he
        · exact h2
        · have := hlt e he; simp only; omega
      · simp only [tset, h1, h2, if_false]
        refine List.Pairwise.cons (fun e he => ?_) (ih hrest)
        rcases tset_mem he with rfl | he
        · simp only; omega
        · exact hlt e he

theorem tdel_sorted {α : Type} {k : Nat} {t : List (Nat × α)} (h : tsorted t = true) : tsorted (tdel k t) = true := by
  rw [tsorted_iff] at h ⊢
  exact h.sublist (tdel_sublist k t)

theorem twf_iff {α : Type} [DecidableEq α] {d : α} {t : List (Nat × α)} :
    twf d t = true ↔ tsorted t = true ∧ ∀ e ∈ t, e.2 ≠ d := by
  simp [twf]

theorem twf_nil {α : Type} [DecidableEq α] (d : α) : twf d ([] : List (Nat × α)) = true := rfl

/-- Every write keeps the canonical form. -/
theorem tput_wf {α : Type} [DecidableEq α] {d : α} {t : List (Nat × α)} (h : twf d t = true) (k : Nat) (v : α) :
    twf d (tput d t k v) = true := by
  have ⟨hs, hn⟩ := twf_iff.1 h
  unfold tput
  split
  · exact twf_iff.2 ⟨tdel_sorted hs, fun e he => hn e ((tdel_sublist k t).subset he)⟩
  · rename_i hv
    refine twf_iff.2 ⟨tset_sorted hs, fun e he => ?_⟩
    rcases tset_mem he with rfl | he
    · exact hv
    · exact hn e he

theorem tmod_wf {α : Type} [DecidableEq α] {d : α} {t : List (Nat × α)} (h : twf d t = true) (k : Nat) (f : α → α) :
    twf d (tmod d t k f) = true := tput_wf h k _

theorem tdrop_wf {α : Type} [DecidableEq α] {d : α} {t : List (Nat × α)} (h : twf d t = true) (p : Nat → Bool) :
    twf d (tdrop p t) = true := by
  have ⟨hs, hn⟩ := twf_iff.1 h
  refine twf_iff.2 ⟨(tsorted_iff _).2 (((tsorted_iff _).1 hs).sublist List.filter_sublist), fun e he => ?_⟩
  exact hn e (List.mem_filter.1 he).1

/-- A write is read back. -/
theorem tget_tput_same {α : Type} [DecidableEq α] (d : α) (t : List (Nat × α)) (k : Nat) (v : α) :
    tget d (tput d t k v) k = v := by
  unfold tput tget
  split
  · rename_i hv
    rw [tfind_tdel_same, hv]; rfl
  · rw [tfind_tset_same]; rfl

/-- A write leaves every other key as it was. -/
theorem tget_tput_other {α : Type} [DecidableEq α] {d : α} {t : List (Nat × α)} {k j : Nat} (h : j ≠ k) (v : α) :
    tget d (tput d t k v) j = tget d t j := by
  unfold tput tget
  split
  · rw [tfind_tdel_other h]
  · rw [tfind_tset_other h]

end Sys2Proof.Laws
end

