-- ==== Sys2Proof/Laws/Ops.lean ====
section
/-!
SUPPORT. Sys2Proof/Laws/Ops.lean: what registers, memories and the numbered parts of the state read after a write, and which
memories a longer write leaves alone.
-/
namespace Sys2Proof.Machine
open Laws

/-! ### Registers -/

theorem rd_congr {s t : State} (h : t.regs = s.regs) (f : RegField) : rd t f = rd s f := by simp [rd, h]

theorem rd_wr_same (s : State) (f : RegField) (v : Nat) : rd (wr s f v) f = v % 2 ^ f.width := tget_tput_same ..

/-- A write leaves every field with another key. -/
theorem rd_wr_other {s : State} {f g : RegField} (h : g.key ≠ f.key) (v : Nat) : rd (wr s f v) g = rd s g := by
  unfold rd wr tget tput
  dsimp only
  split
  · rw [tfind_tdel_other h]
  · rw [tfind_tset_other h]

@[simp] theorem rd_wb (s : State) (a : Nat) (v : Byte) (f : RegField) : rd (wb s a v) f = rd s f := rfl
@[simp] theorem rd_hwb (s : State) (fn a : Nat) (v : Byte) (f : RegField) : rd (hwb s fn a v) f = rd s f := rfl
@[simp] theorem rd_emit (s : State) (m : OutMsg) (f : RegField) : rd (emit s m) f = rd s f := rfl
@[simp] theorem rd_setClu (s : State) (n : Nat) (c : Cluster) (f : RegField) : rd (setClu s n c) f = rd s f := rfl
@[simp] theorem rd_setCore (s : State) (n : Nat) (c : Core) (f : RegField) : rd (setCore s n c) f = rd s f := rfl
@[simp] theorem rd_setThr (s : State) (k : Nat) (t : Thread) (f : RegField) : rd (setThr s k t) f = rd s f := rfl
@[simp] theorem rd_setFn (s : State) (k : Nat) (t : FnState) (f : RegField) : rd (setFn s k t) f = rd s f := rfl
@[simp] theorem rd_setRing (s : State) (k r : Nat) (t : Ring) (f : RegField) : rd (setRing s k r t) f = rd s f := rfl
@[simp] theorem rd_fresh (s : State) (f : RegField) : rd (fresh s).2 f = rd s f := rfl

/-! ### Memories -/

theorem rb_wb_same (s : State) (a : Nat) (v : Byte) : rb (wb s a v) a = v := tget_tput_same ..
theorem rb_wb_other {s : State} {a x : Nat} (h : x ≠ a) (v : Byte) : rb (wb s a v) x = rb s x := tget_tput_other h v
@[simp] theorem rb_wr (s : State) (f : RegField) (v a : Nat) : rb (wr s f v) a = rb s a := rfl

/-- A longer write leaves every byte outside it. -/
theorem rb_wrN_other (n : Nat) {s : State} {a v x : Nat} (h : ¬(a ≤ x ∧ x < a + n)) : rb (wrN s a n v) x = rb s x := by
  induction n generalizing s a v with
  | zero => rfl
  | succ n ih =>
    rw [wrN, ih (by omega), rb_wb_other (by omega)]

/-- What a longer write stores is read back, little-endian. -/
theorem rdN_wrN_same (n : Nat) (s : State) (a v : Nat) : rdN (wrN s a n v) a n = v % 256 ^ n := by
  induction n generalizing s a v with
  | zero => simp [rdN, Nat.mod_one]
  | succ n ih =>
    have h0 : (rb (wrN (wb s a (BitVec.ofNat 8 v)) (a + 1) n (v / 256)) a).toNat = v % 256 := by
      rw [rb_wrN_other n (by omega), rb_wb_same]; simp
    rw [wrN, rdN, ih, h0, Nat.pow_succ, Nat.mul_comm (256 ^ n) 256, Nat.mod_mul]

theorem hrb_hwb_same (s : State) (fn a : Nat) (v : Byte) : hrb (hwb s fn a v) fn a = v := tget_tput_same ..
theorem hrb_hwb_other {s : State} {fn a g x : Nat} (h : g * 2 ^ 64 + x % 2 ^ 64 ≠ fn * 2 ^ 64 + a % 2 ^ 64) (v : Byte) :
    hrb (hwb s fn a v) g x = hrb s g x := tget_tput_other h v

@[simp] theorem wrN_regs (n : Nat) (s : State) (a v : Nat) : (wrN s a n v).regs = s.regs := by
  induction n generalizing s a v with
  | zero => rfl
  | succ n ih => rw [wrN, ih]; rfl

@[simp] theorem wrN_host (n : Nat) (s : State) (a v : Nat) : (wrN s a n v).host = s.host := by
  induction n generalizing s a v with
  | zero => rfl
  | succ n ih => rw [wrN, ih]; rfl

@[simp] theorem hwrN_regs (n : Nat) (s : State) (fn a v : Nat) : (hwrN s fn a n v).regs = s.regs := by
  induction n generalizing s a v with
  | zero => rfl
  | succ n ih => rw [hwrN, ih]; rfl

@[simp] theorem hwrN_mem (n : Nat) (s : State) (fn a v : Nat) : (hwrN s fn a n v).mem = s.mem := by
  induction n generalizing s a v with
  | zero => rfl
  | succ n ih => rw [hwrN, ih]; rfl

@[simp] theorem hwrN_hif (n : Nat) (s : State) (fn a v : Nat) : (hwrN s fn a n v).hif = s.hif := by
  induction n generalizing s a v with
  | zero => rfl
  | succ n ih => rw [hwrN, ih]; rfl

@[simp] theorem rd_wrN (n : Nat) (s : State) (a v : Nat) (f : RegField) : rd (wrN s a n v) f = rd s f := rd_congr (by simp) f
@[simp] theorem rd_hwrN (n : Nat) (s : State) (fn a v : Nat) (f : RegField) : rd (hwrN s fn a n v) f = rd s f := rd_congr (by simp) f

/-! ### Numbered parts -/

theorem clu_setClu_same (s : State) (n : Nat) (c : Cluster) : clu (setClu s n c) n = c := tget_tput_same ..
theorem clu_setClu_other {s : State} {n m : Nat} (h : m ≠ n) (c : Cluster) : clu (setClu s n c) m = clu s m := tget_tput_other h c
theorem core_setCore_same (s : State) (n : Nat) (c : Core) : core (setCore s n c) n = c := tget_tput_same ..
theorem core_setCore_other {s : State} {n m : Nat} (h : m ≠ n) (c : Core) : core (setCore s n c) m = core s m := tget_tput_other h c
theorem thr_setThr_same (s : State) (k : Nat) (t : Thread) : thr (setThr s k t) k = t := tget_tput_same ..
theorem thr_setThr_other {s : State} {k j : Nat} (h : j ≠ k) (t : Thread) : thr (setThr s k t) j = thr s j := tget_tput_other h t
theorem fnSt_setFn_same (s : State) (fn : Nat) (f : FnState) : fnSt (setFn s fn f) fn = f := tget_tput_same ..
theorem fnSt_setFn_other {s : State} {fn g : Nat} (h : g ≠ fn) (f : FnState) : fnSt (setFn s fn f) g = fnSt s g := tget_tput_other h f
theorem ring_setRing_same (s : State) (fn r : Nat) (x : Ring) : ring (setRing s fn r x) fn r = x := tget_tput_same ..
theorem ring_setRing_other {s : State} {fn r g q : Nat} (h : g * 1024 + q ≠ fn * 1024 + r) (x : Ring) :
    ring (setRing s fn r x) g q = ring s g q := tget_tput_other h x

@[simp] theorem clu_wr (s : State) (f : RegField) (v n : Nat) : clu (wr s f v) n = clu s n := rfl
@[simp] theorem core_wr (s : State) (f : RegField) (v n : Nat) : core (wr s f v) n = core s n := rfl
@[simp] theorem thr_wr (s : State) (f : RegField) (v n : Nat) : thr (wr s f v) n = thr s n := rfl
@[simp] theorem fnSt_wr (s : State) (f : RegField) (v n : Nat) : fnSt (wr s f v) n = fnSt s n := rfl
@[simp] theorem ring_wr (s : State) (f : RegField) (v n m : Nat) : ring (wr s f v) n m = ring s n m := rfl

end Sys2Proof.Machine
end

