-- ==== Sys2Proof/Laws/Inv.lean ====
section
/-!
SUPPORT. Sys2Proof/Laws/Inv.lean: every operation over the registers and the memories keeps the canonical form (Safety.lean's
`Inv`), and so do the shared operations of Machine/Ops.lean; which of them leave registers or device memory as they were.
-/
namespace Sys2Proof.Machine
open Laws

/-! ### Fields fit their registers -/

/-- Every field a register template lists lies inside its 32-bit register. -/
theorem fieldsAt_fit {addr : Nat} {f : RegField} (h : f ∈ fieldsAt addr) : f.addr = addr ∧ f.lo + f.width ≤ 32 ∧ 0 < f.width := by
  have hall : regTemplates.all (fun t => t.fields.all (fun e => decide (e.1 + e.2.1 ≤ 32) && decide (0 < e.2.1))) = true := by decide
  unfold fieldsAt at h
  split at h
  · exact absurd h List.not_mem_nil
  · rename_i t ht
    obtain ⟨e, he, rfl⟩ := List.mem_map.1 h
    have := List.all_eq_true.1 (List.all_eq_true.1 hall t (List.mem_of_find?_eq_some ht)) e he
    simp only [Bool.and_eq_true, decide_eq_true_eq] at this
    exact ⟨rfl, this⟩

/-! ### The parts of the invariant under the primitive updates -/

/-- A value that fits its field leaves the register inside 32 bits. -/
theorem field_value_fits {f : RegField} (hf : f.lo + f.width ≤ 32) (hw : 0 < f.width) (v : Nat) :
    v % 2 ^ f.width * 2 ^ (f.key % 32) < 2 ^ 32 := by
  have hk : f.key % 32 = f.lo := by unfold RegField.key; omega
  have h1 : v % 2 ^ f.width < 2 ^ f.width := Nat.mod_lt _ (Nat.two_pow_pos _)
  rw [hk]
  calc v % 2 ^ f.width * 2 ^ f.lo < 2 ^ f.width * 2 ^ f.lo := Nat.mul_lt_mul_of_pos_right h1 (Nat.two_pow_pos _)
    _ = 2 ^ (f.width + f.lo) := (Nat.pow_add ..).symm
    _ ≤ 2 ^ 32 := Nat.pow_le_pow_right (by decide) (by omega)

theorem wr_regsWf {s : State} {f : RegField} (hf : f.lo + f.width ≤ 32) (hw : 0 < f.width) (v : Nat) (h : regsWf s = true) :
    regsWf (wr s f v) = true := by
  simp only [regsWf, Bool.and_eq_true, List.all_eq_true, decide_eq_true_eq, wr_regs] at h ⊢
  unfold tput
  split
  · exact ⟨tdel_sorted h.1, fun e he => h.2 e ((tdel_sublist ..).subset he)⟩
  · refine ⟨tset_sorted h.1, fun e he => ?_⟩
    rcases tset_mem he with rfl | he
    · exact field_value_fits hf hw v
    · exact h.2 e he

theorem resetRegs_regsWf {s : State} (p : Nat → Bool) (h : regsWf s = true) : regsWf (resetRegs s p) = true := by
  simp only [regsWf, Bool.and_eq_true, List.all_eq_true, decide_eq_true_eq] at h ⊢
  refine ⟨?_, fun e he => h.2 e (List.mem_filter.1 he).1⟩
  exact (tsorted_iff _).2 (((tsorted_iff _).1 h.1).sublist List.filter_sublist)

/-- The invariant reads four fields of the state. -/
theorem inv_congr {s t : State} (hm : t.mem = s.mem) (hh : t.host = s.host) (hr : t.regs = s.regs) (hc : t.cam = s.cam)
    (h : Inv s) : Inv t := by
  simpa [Inv, memWf, hostWf, regsWf, contextsWf, hm, hh, hr, hc] using h

theorem wr_inv {s : State} {f : RegField} (hf : f.lo + f.width ≤ 32) (hw : 0 < f.width) (v : Nat) (h : Inv s) : Inv (wr s f v) :=
  ⟨h.1, h.2.1, wr_regsWf hf hw v h.2.2.1, h.2.2.2⟩

theorem bump_inv {s : State} {f : RegField} (hf : f.lo + f.width ≤ 32) (hw : 0 < f.width) (n : Nat) (h : Inv s) : Inv (bump s f n) :=
  wr_inv hf hw _ h

theorem tick_inv {s : State} {f : RegField} (hf : f.lo + f.width ≤ 32) (hw : 0 < f.width) (h : Inv s) : Inv (tick s f) :=
  wr_inv hf hw _ h

theorem resetRegs_inv {s : State} (p : Nat → Bool) (h : Inv s) : Inv (resetRegs s p) :=
  ⟨h.1, h.2.1, resetRegs_regsWf p h.2.2.1, h.2.2.2⟩

theorem wb_inv {s : State} (a : Nat) (v : Byte) (h : Inv s) : Inv (wb s a v) :=
  ⟨tput_wf h.1 a v, h.2.1, h.2.2.1, h.2.2.2⟩

theorem hwb_inv {s : State} (fn a : Nat) (v : Byte) (h : Inv s) : Inv (hwb s fn a v) :=
  ⟨h.1, tput_wf h.2.1 _ v, h.2.2.1, h.2.2.2⟩

/-- Dropping whole address ranges of the device's memories keeps their canonical form. -/
theorem dropMem_inv {s : State} (p : Nat → Bool) (h : Inv s) : Inv { s with mem := tdrop p s.mem } :=
  ⟨tdrop_wf h.1 p, h.2.1, h.2.2.1, h.2.2.2⟩

theorem wrN_inv (n : Nat) {s : State} (a v : Nat) (h : Inv s) : Inv (wrN s a n v) := by
  induction n generalizing s a v with
  | zero => exact h
  | succ n ih => exact ih _ _ (wb_inv _ _ h)

theorem hwrN_inv (n : Nat) {s : State} (fn a v : Nat) (h : Inv s) : Inv (hwrN s fn a n v) := by
  induction n generalizing s a v with
  | zero => exact h
  | succ n ih => exact ih _ _ (hwb_inv _ _ _ h)

theorem hwrBytes_inv (l : List Nat) {s : State} (fn a : Nat) (h : Inv s) : Inv (hwrBytes s fn a l) := by
  induction l generalizing s a with
  | nil => exact h
  | cons b t ih => exact ih _ (hwb_inv _ _ _ h)

/-- A fold of an operation that keeps the invariant keeps it. -/
theorem foldl_inv {α : Type} {g : State → α → State} (hg : ∀ s x, Inv s → Inv (g s x)) (l : List α) {s : State} (h : Inv s) :
    Inv (l.foldl g s) := by
  induction l generalizing s with
  | nil => exact h
  | cons x l ih => exact ih (hg s x h)

/-! ### Updates that touch neither registers, memories nor stream contexts -/

theorem setFn_inv {s : State} (fn : Nat) (f : FnState) (h : Inv s) : Inv (setFn s fn f) := inv_congr rfl rfl rfl rfl h
theorem setRing_inv {s : State} (fn r : Nat) (x : Ring) (h : Inv s) : Inv (setRing s fn r x) := inv_congr rfl rfl rfl rfl h
theorem setClu_inv {s : State} (n : Nat) (c : Cluster) (h : Inv s) : Inv (setClu s n c) := inv_congr rfl rfl rfl rfl h
theorem setCore_inv {s : State} (n : Nat) (c : Core) (h : Inv s) : Inv (setCore s n c) := inv_congr rfl rfl rfl rfl h
theorem setThr_inv {s : State} (k : Nat) (t : Thread) (h : Inv s) : Inv (setThr s k t) := inv_congr rfl rfl rfl rfl h
theorem emit_inv {s : State} (m : OutMsg) (h : Inv s) : Inv (emit s m) := inv_congr rfl rfl rfl rfl h
theorem fresh_inv {s : State} (h : Inv s) : Inv (fresh s).2 := inv_congr rfl rfl rfl rfl h
theorem addLog_inv {s : State} (r : LogRec) (h : Inv s) : Inv (addLog s r) := inv_congr rfl rfl rfl rfl h
theorem dropCmds_inv {s : State} (p : Cmd → Bool) (h : Inv s) : Inv (dropCmds s p) := inv_congr rfl rfl rfl rfl h

theorem clearPoison_inv {s : State} (a : Nat) (h : Inv s) : Inv (clearPoison s a) := inv_congr rfl rfl rfl rfl h

theorem setPoison_inv {s : State} (a : Nat) (h : Inv s) : Inv (setPoison s a) := by
  unfold setPoison
  split
  · exact h
  · exact inv_congr rfl rfl rfl rfl h

theorem noteRewrite_inv {s : State} (cl a : Nat) (h : Inv s) : Inv (noteRewrite s cl a) := by
  unfold noteRewrite
  dsimp only
  split
  · exact setClu_inv _ _ h
  · exact h

theorem wrWord_inv {s : State} (cl m c w v : Nat) (h : Inv s) : Inv (wrWord s cl m c w v) :=
  noteRewrite_inv _ _ (clearPoison_inv _ (wrN_inv _ _ _ h))

/-! ### Threads -/

theorem thrField_fit (k : Nat) : (thrField k).lo + (thrField k).width ≤ 32 ∧ 0 < (thrField k).width := by
  simp only [thrField]; omega

theorem setThrState_inv {s : State} (k st : Nat) (w : Wait) (h : Inv s) : Inv (setThrState s k st w) := by
  unfold setThrState
  dsimp only
  split
  · exact setThr_inv _ _ h
  · exact wr_inv (thrField_fit k).1 (thrField_fit k).2 _ (setThr_inv _ _ h)

theorem advancePc_inv {s : State} (k : Nat) (arr : Bool) (h : Inv s) : Inv (advancePc s k arr) := by
  unfold advancePc
  dsimp only
  split
  · exact setThr_inv _ _ h
  · exact setThr_inv _ _ (fresh_inv h)

/-! ### Completion and event records -/

theorem noteMsg_inv {s : State} (fn vec : Nat) (h : Inv s) : Inv (noteMsg s fn vec) := inv_congr rfl rfl rfl rfl h

theorem signalVec_inv {s : State} (fn vec : Nat) (h : Inv s) : Inv (signalVec s fn vec) := by
  unfold signalVec
  dsimp only
  split
  · split
    · exact h
    · exact setFn_inv _ _ h
  · exact emit_inv _ (noteMsg_inv _ _ h)

theorem writeRec_inv {s : State} (fn rg : Nat) (x : CqRec) (h : Inv s) : Inv (writeRec s fn rg x) := by
  have h4 := fun (b : Nat) => hwrN_inv 8 fn (b + 24) x.w3 (hwrN_inv 8 fn (b + 16) x.w2 (hwrN_inv 8 fn (b + 8) x.w1 (hwrN_inv 8 fn b x.w0 h)))
  have h5 : ∀ (b c a t : Nat), Inv (if c = 0 then hwrN (hwrN (hwrN (hwrN s fn b 8 x.w0) fn (b + 8) 8 x.w1) fn (b + 16) 8 x.w2) fn (b + 24) 8 x.w3
      else hwrN (hwrN (hwrN (hwrN (hwrN s fn b 8 x.w0) fn (b + 8) 8 x.w1) fn (b + 16) 8 x.w2) fn (b + 24) 8 x.w3) fn a 2 t) := by
    intro b c a t
    split
    · exact h4 b
    · exact hwrN_inv 2 fn a t (h4 b)
  unfold writeRec
  extract_lets r base s1 tail s2 r2
  have h2 : Inv s2 := h5 base r.cfg.tailAddr r.cfg.tailAddr tail
  split
  · exact signalVec_inv _ _ (setRing_inv _ _ _ h2)
  · exact setRing_inv _ _ _ h2

theorem postRec_inv {s : State} (fn rg : Nat) (x : CqRec) (h : Inv s) : Inv (postRec s fn rg x) := by
  unfold postRec
  dsimp only
  split
  · exact h
  · split
    · exact writeRec_inv _ _ _ h
    · exact setRing_inv _ _ _ h

theorem drainWaiting_inv (fn rg : Nat) (l : List CqRec) {s : State} (h : Inv s) : Inv (drainWaiting fn rg l s) := by
  induction l generalizing s with
  | nil => exact setRing_inv _ _ _ h
  | cons x t ih =>
    unfold drainWaiting
    split
    · exact ih (writeRec_inv _ _ _ h)
    · exact setRing_inv _ _ _ h

theorem settleDrain_inv {s : State} (fn rg : Nat) (h : Inv s) : Inv (settleDrain s fn rg) := by
  unfold settleDrain
  dsimp only
  split
  · exact setRing_inv _ _ _ h
  · exact h

theorem complete_inv {s : State} (c : Cmd) (status : Nat) (x : Result) (h : Inv s) : Inv (complete s c status x) :=
  settleDrain_inv _ _ (postRec_inv _ _ _ (inv_congr rfl rfl rfl rfl h))

theorem finish_inv {s : State} (c : Cmd) (status : Nat) (x : Result) (h : Inv s) : Inv (finish s c status x) := by
  unfold finish
  split
  · exact complete_inv _ _ _ h
  · exact h

theorem finishOpt_inv {s : State} (c : Option Cmd) (status : Nat) (x : Result) (h : Inv s) : Inv (finishOpt s c status x) := by
  cases c with
  | none => exact h
  | some c => exact finish_inv _ _ _ h

theorem completeAll_inv {s : State} (p : Cmd → Bool) (status : Nat) (h : Inv s) : Inv (completeAll s p status) :=
  foldl_inv (fun _ _ => complete_inv _ _ _) _ h

theorem writeEv_inv {s : State} (fn : Nat) (e : EvRec) (h : Inv s) : Inv (writeEv s fn e) :=
  writeRec_inv _ _ _ (setFn_inv _ _ h)

theorem sendEvent_inv {s : State} (fn : Nat) (e : EvRec) (h : Inv s) : Inv (sendEvent s fn e) := by
  unfold sendEvent
  dsimp only
  split
  · exact writeEv_inv _ _ h
  · split <;> exact setFn_inv _ _ h

theorem event_inv {s : State} (fn code part detail : Nat) (h : Inv s) : Inv (event s fn code part detail) := sendEvent_inv _ _ h

theorem flushHeld_inv (fn : Nat) (l : List EvRec) {s : State} (h : Inv s) : Inv (flushHeld fn l s) := by
  induction l generalizing s with
  | nil => exact setFn_inv _ _ h
  | cons e t ih =>
    unfold flushHeld
    split
    · exact ih (writeEv_inv _ _ h)
    · exact setFn_inv _ _ h

theorem flushEvents_inv {s : State} (fn : Nat) (h : Inv s) : Inv (flushEvents s fn) := by
  unfold flushEvents
  dsimp only
  split
  · exact writeEv_inv _ _ (setFn_inv _ _ (flushHeld_inv _ _ h))
  · exact flushHeld_inv _ _ h

/-! ### Log, traces and reports -/

theorem logAlarm_inv {s : State} (code fltNum part : Nat) (d : LogData) (h : Inv s) : Inv (logAlarm s code fltNum part d) := by
  have h1 : Inv (wr (bump s Reg.FLT_LOG_STAT_ALM_LOST 1) Reg.FLT_EVT_STAT_ALARM_OVF 1) :=
    wr_inv (by decide) (by decide) _ (bump_inv (by decide) (by decide) _ h)
  unfold logAlarm
  dsimp only
  split
  · exact addLog_inv _ h
  · split
    · exact addLog_inv _ (fresh_inv h1)
    · exact inv_congr rfl rfl rfl rfl h1

theorem noteDrop_inv {s : State} (h : Inv s) : Inv (noteDrop s) :=
  inv_congr rfl rfl rfl rfl
    (wr_inv (f := Reg.FLT_EVT_STAT_TR_DROP) (by decide) (by decide) 1
      (bump_inv (f := Reg.FLT_LOG_TRACE_TR_DROP) (by decide) (by decide) 1 h))

theorem logEvent_inv {s : State} (level code fltNum part : Nat) (d : LogData) (h : Inv s) :
    Inv (logEvent s level code fltNum part d) := by
  unfold logEvent
  dsimp only
  split
  · exact h
  · split
    · exact addLog_inv _ h
    · split
      · exact addLog_inv _ (noteDrop_inv (inv_congr rfl rfl rfl rfl h))
      · exact addLog_inv _ (wr_inv (by decide) (by decide) _ (bump_inv (by decide) (by decide) _ (inv_congr rfl rfl rfl rfl h)))

theorem trace_inv {s : State} (group part : Nat) (h : Inv s) : Inv (trace s group part) := by
  unfold trace
  split
  · dsimp only
    split
    · split
      · exact addLog_inv _ (fresh_inv h)
      · exact noteDrop_inv (fresh_inv h)
    · split
      · exact inv_congr (s := s) rfl rfl rfl rfl h
      · exact noteDrop_inv (fresh_inv h)
  · exact h

theorem report_inv {s : State} (dom cls status part sub detail : Nat) (h : Inv s) : Inv (report s dom cls status part sub detail) := by
  have ht := trace_inv 6 part h
  have h1 : Inv (bump (trace s 6 part) (Reg.FLT_DOM_CNT_REPORTS dom) 1) :=
    bump_inv (by simp [Reg.FLT_DOM_CNT_REPORTS]) (by simp [Reg.FLT_DOM_CNT_REPORTS]) _ ht
  unfold report
  dsimp only
  split
  · exact bump_inv (by simp [Reg.FLT_DOM_CNT_CORR]) (by simp [Reg.FLT_DOM_CNT_CORR]) _ ht
  · split <;> exact inv_congr rfl rfl rfl rfl h1

/-! ### Event sources -/

theorem setPend_inv {s : State} (src : Nat) (h : Inv s) : Inv (setPend s src) :=
  wr_inv (by simp [Reg.EVC_PEND_PEND]) (by simp [Reg.EVC_PEND_PEND]) _ h

theorem clearPend_inv {s : State} (src : Nat) (h : Inv s) : Inv (clearPend s src) :=
  wr_inv (by simp [Reg.EVC_PEND_PEND]) (by simp [Reg.EVC_PEND_PEND]) _ h

theorem setLevel_inv {s : State} (src : Nat) (v : Bool) (h : Inv s) : Inv (setLevel s src v) :=
  wr_inv (by simp [Reg.EVC_LEVEL_LEVEL]) (by simp [Reg.EVC_LEVEL_LEVEL]) _ h

theorem signalSrc_inv {s : State} (src : Nat) (h : Inv s) : Inv (signalSrc s src) := by
  have h1 : ∀ fn vec, Inv (signalVec (clearPend s src) fn vec) := fun fn vec => signalVec_inv fn vec (clearPend_inv src h)
  unfold signalSrc
  dsimp only
  split
  · split
    · exact setPend_inv _ (h1 _ _)
    · exact h1 _ _
  · split
    · exact emit_inv _ h
    · exact h

theorem targetIdle_inv {s : State} (src : Nat) (h : Inv s) : Inv (targetIdle s src).2 := by
  unfold targetIdle
  dsimp only
  split
  · exact h
  · exact fresh_inv h

theorem deliver_inv {s : State} (src : Nat) (h : Inv s) : Inv (deliver s src) := by
  unfold deliver
  dsimp only
  split
  · split
    · exact signalSrc_inv _ h
    · split
      · split
        · split
          · exact signalSrc_inv _ (targetIdle_inv _ h)
          · exact targetIdle_inv _ h
        · exact h
      · exact wr_inv (by simp [Reg.EVC_MOD_BUSY]) (by simp [Reg.EVC_MOD_BUSY]) _ (signalSrc_inv _ h)
  · exact h

theorem deliverNew_inv {s : State} (before : State) (l : List Nat) (h : Inv s) : Inv (deliverNew before l s) := by
  refine foldl_inv (fun t src ht => ?_) l h
  split
  · exact deliver_inv _ ht
  · exact ht

/-! ### T2 and endpoint writes -/

/-- A unit's bytes written one by one, and its key noted. -/
theorem writeUnit_inv {s : State} (l : List Nat) (a : Nat) (b : Nat → Byte) (k u : Nat) (h : Inv s) :
    Inv { l.foldl (fun s i => wb s (a + i) (b i)) s with
      dram := { (l.foldl (fun s i => wb s (a + i) (b i)) s).dram with
        unitKey := tset u k (l.foldl (fun s i => wb s (a + i) (b i)) s).dram.unitKey } } :=
  inv_congr (s := l.foldl (fun s i => wb s (a + i) (b i)) s) rfl rfl rfl rfl (foldl_inv (fun _ _ => wb_inv _ _) l h)

theorem rekeyUnit_inv {s : State} (k u : Nat) (h : Inv s) : Inv (rekeyUnit s k u) := by
  have e : rekeyUnit s k u = if storedKey s u = k then s else
      { (List.range 64).foldl (fun s' i => wb s' (t2Base + 64 * u + i)
          (((List.range 64).map (fun i => t2Rb s k (t2Base + 64 * u + i))).getD i 0)) s with
        dram := { ((List.range 64).foldl (fun s' i => wb s' (t2Base + 64 * u + i)
          (((List.range 64).map (fun i => t2Rb s k (t2Base + 64 * u + i))).getD i 0)) s).dram with
            unitKey := tset u k ((List.range 64).foldl (fun s' i => wb s' (t2Base + 64 * u + i)
              (((List.range 64).map (fun i => t2Rb s k (t2Base + 64 * u + i))).getD i 0)) s).dram.unitKey } } := by
    unfold rekeyUnit; rfl
  rw [e]
  split
  · exact h
  · exact writeUnit_inv (List.range 64) (t2Base + 64 * u)
      (fun i => ((List.range 64).map (fun i => t2Rb s k (t2Base + 64 * u + i))).getD i 0) k u h

theorem t2Wb_inv {s : State} (k a : Nat) (v : Byte) (h : Inv s) : Inv (t2Wb s k a v) := wb_inv _ _ (rekeyUnit_inv _ _ h)

theorem devWb_inv {s : State} (a : Nat) (v : Byte) (h : Inv s) : Inv (devWb s a v) := by
  unfold devWb
  split
  · exact t2Wb_inv _ _ _ h
  · exact wb_inv _ _ h

theorem zeroGranule_inv {s : State} (g : Nat) (h : Inv s) : Inv (zeroGranule s g) :=
  inv_congr rfl rfl rfl rfl (dropMem_inv _ h)

/-! ### Tables brought into canonical form (R523) -/

theorem canonTable_wf {α : Type} [DecidableEq α] (d : α) (l : List (Nat × α)) : twf d (canonTable d l) = true := by
  unfold canonTable
  have : ∀ t : List (Nat × α), twf d t = true → twf d (l.foldl (fun t e => tput d t e.1 e.2) t) = true := by
    induction l with
    | nil => exact fun _ h => h
    | cons e l ih => exact fun t h => ih _ (tput_wf h _ _)
  exact this [] (twf_nil d)

theorem sortTable_sorted {α : Type} (l : List (Nat × α)) : tsorted (sortTable l) = true := by
  unfold sortTable
  have : ∀ t : List (Nat × α), tsorted t = true → tsorted (l.foldl (fun t e => tset e.1 e.2 t) t) = true := by
    induction l with
    | nil => exact fun _ h => h
    | cons e l ih => exact fun t h => ih _ (tset_sorted h)
  exact this [] rfl

/-- Any entries, as a register file: keys rising, values inside their registers. -/
theorem regTable_wf (l : List (Nat × Nat)) :
    tsorted (regTable l) = true ∧ ∀ e ∈ regTable l, e.2 * 2 ^ (e.1 % 32) < 2 ^ 32 := by
  constructor
  · have h := (tsorted_iff _).1 (sortTable_sorted l)
    exact (tsorted_iff _).2 (List.pairwise_map.2 h)
  · intro e he
    obtain ⟨x, -, rfl⟩ := List.mem_map.1 he
    have h1 : x.2 % 2 ^ (32 - x.1 % 32) < 2 ^ (32 - x.1 % 32) := Nat.mod_lt _ (Nat.two_pow_pos _)
    calc x.2 % 2 ^ (32 - x.1 % 32) * 2 ^ (x.1 % 32) < 2 ^ (32 - x.1 % 32) * 2 ^ (x.1 % 32) :=
          Nat.mul_lt_mul_of_pos_right h1 (Nat.two_pow_pos _)
      _ = 2 ^ (32 - x.1 % 32 + x.1 % 32) := (Nat.pow_add ..).symm
      _ = 2 ^ 32 := by congr 1; omega

/-! ### What completing a command leaves -/

@[simp] theorem signalVec_mem (s : State) (fn vec : Nat) : (signalVec s fn vec).mem = s.mem := by
  unfold signalVec; dsimp only; split
  · split <;> rfl
  · rfl

@[simp] theorem signalVec_regs (s : State) (fn vec : Nat) : (signalVec s fn vec).regs = s.regs := by
  unfold signalVec; dsimp only; split
  · split <;> rfl
  · rfl

/-- A record is written to host memory: registers and the device's own memories are as before. -/
theorem writeRec_keeps (s : State) (fn rg : Nat) (x : CqRec) :
    (writeRec s fn rg x).mem = s.mem ∧ (writeRec s fn rg x).regs = s.regs := by
  unfold writeRec
  extract_lets r base s1 tail s2 r2
  have h2 : s2.mem = s.mem ∧ s2.regs = s.regs := by
    simp only [s2]
    split <;> simp [s1]
  clear_value s2 r2
  split
  · simpa using h2
  · exact h2

theorem postRec_keeps (s : State) (fn rg : Nat) (x : CqRec) :
    (postRec s fn rg x).mem = s.mem ∧ (postRec s fn rg x).regs = s.regs := by
  unfold postRec
  dsimp only
  split
  · exact ⟨rfl, rfl⟩
  · split
    · exact writeRec_keeps s fn rg x
    · exact ⟨rfl, rfl⟩

/-- Completing a command changes no register and no byte of the device's memories. -/
theorem complete_keeps (s : State) (c : Cmd) (status : Nat) (x : Result) :
    (complete s c status x).mem = s.mem ∧ (complete s c status x).regs = s.regs := by
  have h := postRec_keeps { s with hif := { s.hif with cmds := s.hif.cmds.erase c } } c.fn c.ring (cmdRec c status x)
  unfold complete settleDrain
  dsimp only
  split
  · exact h
  · exact h

end Sys2Proof.Machine
end

