-- ==== Sys2Proof/Laws/Reads.lean ====
section
/-!
SUPPORT. Sys2Proof/Laws/Reads.lean: what a checked read or write of cluster-memory words does (R41-R45), once for each shared operation:
words without an error leave the state as it was.
-/
namespace Sys2Proof.Machine

/-- Everything a read of a word can do (R41, R43, R52): nothing, or one detection of an error, after which the word is delivered
poisoned exactly when the error is uncorrectable. -/
theorem readWord_cases (s : State) (n m c w : Nat) : let a := memBase n m c + 8 * w
    (badWord s a = false ∧ upset s a ≠ some false ∧ readWord s n m c w = (s, false)) ∨
      (badWord s a = false ∧ upset s a = some false ∧ readWord s n m c w = (eccDetect s n m c w false, false)) ∨
      (badWord s a = true ∧ readWord s n m c w = (eccDetect s n m c w true, true)) := by
  simp only [readWord]
  split
  · exact .inr (.inr ⟨‹_›, rfl⟩)
  · split
    · exact .inr (.inl ⟨by simpa using ‹¬badWord s _ = true›, ‹_›, rfl⟩)
    · exact .inl ⟨by simpa using ‹¬badWord s _ = true›, ‹_›, rfl⟩

theorem badWord_of_clean {s : State} {a : Nat} (h : cleanWord s a) : badWord s a = false := by simp [badWord, h.1, h.2]

/-- A word without an error is read as it is. -/
theorem readWord_of_clean {s : State} {n m c w : Nat} (h : cleanWord s (memBase n m c + 8 * w)) : readWord s n m c w = (s, false) := by
  simp [readWord, badWord_of_clean h, h.2]

theorem readWords_of_clean {s : State} {n : Nat} {l : List (Nat × Nat × Nat)}
    (h : ∀ x ∈ l, cleanWord s (memBase n x.1 x.2.1 + 8 * x.2.2)) : readWords n l s = (s, false) := by
  induction l with
  | nil => rfl
  | cons x t ih => simp [readWords, readWord_of_clean (h x (by simp)), ih fun y hy => h y (by simp [hy])]

/-- A write of fewer than 64 bits into a word without an error has nothing to merge. -/
theorem mergeWord_of_clean {s : State} {a : Nat} (h : cleanWord s a) : mergeWord s a = s := by
  simp only [mergeWord, h.1, h.2]
  split <;> simp_all

/-- A cluster that meets no condition of R18 is not retired. -/
theorem settleDoomed_of_calm {s : State} {n : Nat} (h : (clu s n).doomed = false) : settleDoomed s n = s := by simp [settleDoomed, h]

theorem settleAllDoomed_of_calm {s : State} (h : ∀ n < 34, (clu s n).doomed = false) : settleAllDoomed s = s := by
  have : ∀ l : List Nat, (∀ n ∈ l, n < 34) → l.foldl settleDoomed s = s := by
    intro l
    induction l with
    | nil => intro _; rfl
    | cons n t ih =>
      intro hl
      rw [List.foldl_cons, settleDoomed_of_calm (h n (hl n (by simp))), ih fun m hm => hl m (by simp [hm])]
  exact this _ (by simp)

/-- Reading the bytes of addresses whose words have no error changes nothing and finds nothing poisoned. -/
theorem readBytes_of_clean {s : State} (h : ∀ a, cleanWord s a) (l : List Nat) : readBytes l s = (s, false) := by
  have hb (n m c w : Nat) : readWord s n m c w = (s, false) := readWord_of_clean (h _)
  unfold readBytes
  induction dedupNext (l.map (· / 8)) with
  | nil => rfl
  | cons w t ih =>
    rw [List.foldl_cons]
    cases hc : cellOf (8 * w) with
    | none => simpa [hc, (h _).1] using ih
    | some x => simpa [hc, hb] using ih

end Sys2Proof.Machine
end

