-- ==== Sys2Proof/Tests/Slice0.lean ====
section
/-!
SUPPORT. Sys2Proof/Tests/Slice0.lean: the model's own tests: ill-formed terms, and for every statement with hypotheses a state
and operands that meet them.
-/
namespace Sys2Proof.Machine
open Reg

/-- An ill-formed term: a sample of 15 sensors (R447). -/
theorem test_wf_refuses_15_sensors : (Instr.thermalSample (List.replicate 15 none)).wf = false := by decide

/-! ### States the witnesses start from -/

/-- Thread `t` of a core is READY in a cluster that is ACTIVE; nothing else has happened since reset. -/
def readyState (cl c t : Nat) : State := wr (wr State.reset (CLU_STAT_STATE cl) 3) (thrField ((cl * 64 + c) * 8 + t)) 1

/-- No word of any memory is poisoned or has a stored bit error. -/
def errorFree (s : State) : Bool := s.poison.isEmpty && s.upsets.isEmpty

/-- Such a state meets every premise that words are without an error. -/
theorem errorFree.clean {s : State} (h : errorFree s = true) (a : Nat) : cleanWord s a := by
  simp only [errorFree, Bool.and_eq_true, List.isEmpty_iff] at h
  simp [cleanWord, poisoned, upset, h.1, h.2]
  rfl

/-- Thread 0 of cluster 0 runs the one work unit, number 1, of partition 0. -/
def unitState : State :=
  setThr (let s := readyState 0 0 0
          { s with units := [(1, { part := 0, kind := .other, threads := [0] })] }) 0 { unit := some 1 }


/-! ### IdleStepCountsOneTick -/

theorem wit_IdleStepCountsOneTick : State.reset.pending = [] ∧ State.reset.cam = [] := ⟨rfl, rfl⟩

/-! ### EveryCommandAnswers -/

theorem wit_EveryCommandAnswers : Instr.powerOn.wf = true ∧ ([] : List (Option Int)).length ≠ 16 := by decide

/-! ### EveryStepKeepsCanonicalForm -/

theorem wit_EveryStepKeepsCanonicalForm : Inv State.reset ∧ (∃ t, step State.reset = .next t) := ⟨⟨rfl, rfl, rfl, rfl⟩, _, rfl⟩

/-! ### ThreadsComputeLoadAndStore -/

theorem wit_ThreadsComputeLoadAndStore : let s := readyState 33 63 7; let t : ThreadId := ⟨33, 63, 7⟩
    canIssue s (tno t) = true ∧ accessOk .pm 8188 4 false = true ∧ (clu s t.cluster).doomed = false ∧ errorFree s = true ∧
    (∀ w ∈ wordsOf 8188 4, (tget {} (clu s t.cluster).scrub (bankKey 2 63 (w % memBanks 2))).writeBack ≠ some w) ∧
    accessOk .am 32767 1 true = true ∧ accessOk .wm 32766 4 false = false ∧ accessOk .wm 0 4 true = false := by decide

/-! ### ThreadFaultStopsItsThread -/

theorem wit_ThreadFaultStopsItsThread : let s := unitState
    Inv s ∧ (thr s 0).unit = some 1 ∧ (tfind 1 s.units).isSome = true ∧ (∀ cn ∈ faultCores s 0, (core s cn).arr = []) :=
  ⟨⟨rfl, rfl, rfl, rfl⟩, by decide⟩

theorem wit_ThreadFaultStopsItsThread_none : let s := setCore (readyState 0 0 0) 0 { arr := [{ word := 0, thread := 0, qset := 0 }] }
    Inv s ∧ (thr s 0).unit = none ∧ (∀ x ∈ (core s 0).arr, x.thread = 0) ∧ (core (readyState 0 0 0) 0).arr = [] :=
  ⟨⟨rfl, rfl, rfl, rfl⟩, by decide⟩

/-! ### ThreadsWaitAndEnd -/

/-- Thread 0 of cluster 0 and thread 7 of its core run unit 1. -/
def pairUnit : State :=
  let s := wr unitState (thrField 7) 1
  { s with units := [(1, { part := 0, kind := .other, threads := [0, 7] })] }

theorem wit_ThreadsWaitAndEnd : let t : ThreadId := ⟨0, 0, 0⟩
    (let s := readyState 0 0 0
     canIssue s (tno t) = true ∧ (thr s (tno t)).faultDue = false ∧ (thr s (tno t)).unit = none ∧
     (∀ i < 8, (thr s (tno t / 8 * 8 + i)).wait ≠ .clusterBarrier 15) ∧ arrivedCores s t.cluster 15 + 1 < 2 ∧
     1 = arrivedCores s t.cluster 15 + 1 ∧ (∀ j : Fin 8, j.val ≠ tno t → thrState s j = 0)) ∧
    (let s := setTag (setTag (setTag (setTag (readyState 0 0 0) 0 1 .done) 0 2 .pendMove) 0 3 .pendVector) 0 4 (.error 0x61)
     canIssue s (tno t) = true ∧ (thr s (tno t)).faultDue = false ∧ tagOf s (tno t) 1 = .done ∧ tagOf s (tno t) 2 = .pendMove ∧
     tagOf s (tno t) 3 = .pendVector ∧ tagOf s (tno t) 4 = .error 0x61) ∧
    (let s := setThr (wr (readyState 0 0 0) (thrField 7) 1) 0 { faultDue := true }
     canIssue s (tno t) = true ∧ (thr s (tno t)).faultDue = true) ∧
    (let s := wr (readyState 0 0 0) (thrField 7) 1
     canIssue s (tno t) = true ∧ 7 / 8 = tno t / 8 ∧ thrState s 7 = 1 ∧ (thr s 7).wait ≠ .coreBarrier) ∧
    (let s := setThr (wr (readyState 0 0 0) (thrField 7) 5) 7 { wait := .coreBarrier }
     canIssue s (tno t) = true ∧ thrState s 7 = 5 ∧ (thr s 7).wait = .coreBarrier) := by decide

theorem wit_ThreadsWaitAndEnd_unit :
    canIssue pairUnit 0 = true ∧ (thr pairUnit 0).unit = some 1 ∧ (tfind 1 pairUnit.units).map (·.threads) = some [0, 7] ∧
    thrState pairUnit 7 = 1 ∧ (clu pairUnit 0).initPend = false ∧ (thr unitState 0).unit = some 1 ∧
    (tfind 1 unitState.units).map (·.threads) = some [0] := by decide

/-! ### ClusterMapWrite -/

theorem wit_ClusterMapWrite : rd (wr State.reset (CLU_STAT_STATE 33) 2) (CLU_STAT_STATE 33) = 2 ∧
    (∀ m : Fin 34, m ≠ 33 → isSet (wr State.reset (CLU_STAT_STATE 33) 2) (CLU_MAP_MAPPED m) = false) ∧
    ¬ (rd State.reset (CLU_STAT_STATE 0) = 2) := by decide

/-! ### ClusterStatesAndControl -/

/-- Cluster 33 in a state of R27 with CLU_CTRL.POWER set. -/
def cluIn (st : Nat) : State := wr (wr State.reset (CLU_CTRL_POWER 33) 1) (CLU_STAT_STATE 33) st

theorem wit_ClusterStatesAndControl :
    (∀ st : Fin 6, rd (cluIn st) (CLU_STAT_STATE 33) = st ∧ (cluIn st).parts = []) ∧ isSet (cluIn 0) (CLU_CTRL_POWER 33) = true ∧
    isSet State.reset (CLU_CTRL_POWER 33) = false ∧ rd State.reset (CLU_STAT_STATE 33) = 0 ∧
    (clu (cluIn 0) 33).powerGood = false ∧ (clu (cluIn 0) 33).initPend = false ∧
    (clu (setClu (cluIn 0) 33 { powerGood := true }) 33).powerGood = true ∧
    (clu (setClu (cluIn 0) 33 { initPend := true }) 33).initPend = true ∧
    clusterBusy (cluIn 3) 33 = false ∧ vecBusy (cluIn 3) 33 = false ∧ clusterBusy unitState 0 = true ∧
    rd unitState (CLU_STAT_STATE 0) = 3 ∧ regsWf (cluIn 4) = true := by decide

theorem wit_ClusterStatesAndControl_inv : Inv (cluIn 4) := ⟨rfl, rfl, by decide, rfl⟩

/-! ### ScrubbersAdvance -/

theorem wit_ScrubbersAdvance : let s := wr State.reset (CLU_STAT_STATE 33) 2; let b : BankId := ⟨33, 4, 0, 31⟩
    let a := memBase 33 4 0 + 8 * 31
    scrubbed s b = true ∧ (scrubber s b).writeBack = none ∧ errorFree s = true ∧ forcedDue s b = false ∧
    forcedDue { s with time := 2 ^ 60 } b = true ∧
    (clu (eccDetect (addUpset s a false) 33 4 0 31 false) 33).doomed = false ∧
    (clu (eccDetect (addUpset s a true) 33 4 0 31 true) 33).doomed = false ∧
    (scrubber (setClu s 33 { scrub := [(bankKey 4 0 31, { writeBack := some 31 })] }) b).writeBack = some 31 := by decide

/-! ### ArrayInstructionsAreIssued -/

/-- A MATMUL word: INT8 by INT8, M = N = K = 1, all addresses 0, OMODE 0 (R62). -/
def mm1 : Nat := 0x20 * 2 ^ 120

/-- A CONV word and a STREAM word of the same formats: the STREAM emits INT8 results (OMODE 1) at word 8. -/
def cv1 : Nat := 0x21 * 2 ^ 120
def st1 : Nat := 0x22 * 2 ^ 120 + 8 * 2 ^ 38 + 1 * 2 ^ 36

/-- A window descriptor of one tap over a tile of one pixel (R126). -/
def oneWindow : List Nat := [0, 2 ^ 48 + 2 ^ 32 + 2 ^ 16 + 1, 0, 0]

/-- An instruction of thread 0, started. -/
def inArr (word : Nat) : ArrInstr := { word, thread := 0, qset := 0, started := true }

/-- Core 0 of cluster 0 with instructions in its array queue, thread 0 READY. -/
def arrayState (l : List ArrInstr) : State := setCore (readyState 0 0 0) 0 { arr := l }

theorem wit_ArrayInstructionsAreIssued : let s := readyState 0 0 0; let t : ThreadId := ⟨0, 0, 0⟩
    canIssue s (tno t) = true ∧ (clu s 0).doomed = false ∧ (∀ p, arrUndefined mm1 p 0 = false) ∧ (core s 0).arr = [] ∧
    (core s 0).freezers = [] ∧ (∀ p, arrUndefined cv1 p 0 = false) ∧ errorFree s = true ∧ winUndefined cv1 (winOf oneWindow) = false ∧
    (∀ p, arrUndefined (mm1 + 1) p 0 = true) ∧ canIssue (arrayState [inArr mm1]) 0 = true ∧
    (core (arrayState [inArr mm1]) 0).arr = [inArr mm1] ∧ (arrFields mm1).opc ≠ 0x22 ∧
    2 ≤ (core (arrayState [inArr mm1, { inArr mm1 with started := false }]) 0).arr.length := by decide

/-- The window descriptor written at AM words 0-3 of core 0 is what a CONV reads there. -/
theorem wit_ArrayInstructionsAreIssued_window :
    (List.range 4).map (fun i => rdWord (wrN (readyState 0 0 0) (memBase 0 1 0 + 8) 8 (oneWindow.getD 1 0)) 0 1 0 (bits cv1 12 12 + i)) =
      oneWindow := by decide

theorem wit_ArrayInstructionsAreIssued_unit :
    let s : State := { unitState with units := [(1, { part := 0, kind := .armature, threads := [0], priv := true })] }
    canIssue s 0 = true ∧ (thr s 0).unit = some 1 ∧ (tfind 1 s.units).map (·.priv) = some true ∧ arrUndefined st1 true 0 = false ∧
    (core s 0).arr = [] ∧ (core s 0).inCredit = 0 ∧ errorFree s = true := by decide

/-! ### ArrayInstructionsComplete -/

theorem wit_ArrayInstructionsComplete :
    let s := arrayState [inArr mm1]
    let x := { inArr mm1 with seen := operandValues s 0 (inArr mm1) }
    let s := arrayState [x]
    let z := runAccesses 0 ((passes x).flatMap (passAccesses x)) s
    (core s (coreNo 0 0)).arr = [x] ∧ x.hazard = false ∧ operandValues s 0 x = x.seen ∧ (core s 0).freezers = [] ∧ z.2 = .none ∧
    (clu z.1 0).doomed = false ∧ (arrFields mm1).opc = 0x20 ∧ (arrFields mm1).m = 1 ∧ (arrFields mm1).n = 1 ∧
    (arrFields mm1).k = 1 ∧ (arrFields mm1).omode = 0 ∧ (arrFields mm1).acc = false ∧ (arrFields mm1).p = 0 ∧
    (arrFields mm1).wfmt = 0 ∧ (arrFields mm1).afmt = 0 ∧ (arrFields mm1).a = 0 ∧ (arrFields mm1).w = 0 := by decide

theorem wit_ArrayInstructionsComplete_stream : let x := { inArr st1 with rows := 1 }
    (core (arrayState [x]) (coreNo 0 0)).arr = [x] ∧ (arrFields st1).opc = 0x22 ∧ x.rows = streamRows x.word ∧
    (clu (arrayState [x]) 0).doomed = false ∧ (core (arrayState [x]) 0).freezers = [] := by decide

/-! ### StreamCreditsAndStalls -/

theorem wit_StreamCreditsAndStalls : let x := inArr st1
    canIssue (arrayState [x]) 0 = true ∧ (clu (arrayState [x]) 0).doomed = false ∧ (core (arrayState [x]) 0).arr = [x] ∧
    (arrFields st1).opc = 0x22 ∧ (core (arrayState [x]) 0).outSpace = 0 ∧ (core (arrayState [x]) 0).inCredit = 0 ∧
    (core (arrayState []) 0).arr = [] ∧ executing (core (arrayState []) 0) = false ∧ executing (core (arrayState [x]) 0) = true ∧
    (core (arrayState [x]) 0).freezers = [] ∧ creditStalls (core (arrayState [x]) 0) ≠ [] := by decide

/-- A core that executes a MATMUL, frozen by link 15, two more steps behind than link 3. -/
theorem wit_StreamCreditsAndStalls_freeze :
    let k : Core := { arr := [inArr mm1], freezers := [15], slips := [(3, 2), (15, 4)] }
    executing k = true ∧ creditStalls k = [] ∧ 15 ∈ k.freezers ∧ 2 ≤ tget 0 k.slips 15 ∧ (∀ l ∈ k.freezers, l < 16 ∧ tget 0 k.slips l ≤ 4) ∧
    executing { k with freezers := [] } = true ∧ tget 0 k.slips 15 = 4 := by decide

/-! ### VectorInstructionsAreIssued -/

/-- An addition of `n` FP32 elements of AM. -/
def addCmd (n : Nat) : VecCmd := ⟨.add, ⟨false, 0⟩, ⟨false, 4⟩, ⟨false, 0⟩, ⟨false, 8⟩, n, 0⟩

/-- Core 0 of cluster 0 with entries in its vector queue, thread 0 READY. -/
def vectorState (l : List VecEntry) : State := setVecQueue (readyState 0 0 0) 0 l

theorem wit_VectorInstructionsAreIssued :
    canIssue (vectorState []) 0 = true ∧ vecUndefined (vectorState []) 0 (addCmd 1) = false ∧ (vecQueue (vectorState []) 0).length < 2 ∧
    canIssue (vectorState [.eng 0 0 0, .eng 0 4 1]) 0 = true ∧ 2 ≤ (vecQueue (vectorState [.eng 0 0 0, .eng 0 4 1]) 0).length ∧
    vecUndefined (vectorState [.eng 0 0 0, .eng 0 4 1]) 0 (addCmd 1) = false ∧
    vecUndefined (vectorState []) 0 (addCmd 8192) = true ∧ 4092 % 4 = 0 ∧ 4092 + 4 ≤ 4096 ∧ ¬(4093 % 4 = 0) ∧
    errorFree (vectorState []) = true ∧ (clu (vectorState []) 0).doomed = false := by decide

/-! ### VectorUnitCompletes -/

/-- The command of a 1 by 1 POOL of one INT8 element (R139): H = W = 1, one channel, output 1 by 1. -/
def poolWords : List Nat := [2 ^ 56, 2 ^ 48 + 2 ^ 32, 64 * 2 ^ 24, 2 ^ 16 + 1]

/-- Cluster 0 with the engine executing that command for core 0. -/
def engineState : State := setClu (readyState 0 0 0) 0 { engine := some ⟨0, 0, 7, poolWords⟩ }

theorem wit_VectorUnitCompletes : let e : VecEntry := .vec 0 (addCmd 1) 0
    (clu (vectorState [e]) 0).doomed = false ∧ (clu (vectorState [e]) 0).initPend = false ∧ errorFree (vectorState [e]) = true ∧
    vecQueue (vectorState [e]) (coreNo 0 0) = [e] ∧ (addCmd 1).count = 1 ∧ ofFp32 0 ≠ .nan ∧
    vecQueue (vectorState [.feed 0 0 0 ⟨false, 0⟩ 1 0]) (coreNo 0 0) = [.feed 0 0 0 ⟨false, 0⟩ 1 0] ∧
    vecQueue (vectorState [.eng 0 4092 7]) (coreNo 0 0) = [.eng 0 4092 7] ∧ (clu (vectorState [.eng 0 4092 7]) 0).engine = none ∧
    nextEng (vectorState [.eng 0 4092 7]) 0 = some 0 ∧
    (List.range 4).map (fun i => rdWord (vectorState [.eng 0 4092 7]) 0 1 0 (4092 + i)) = [0, 0, 0, 0] ∧
    engUndefined [0, 0, 0, 0] = true ∧
    engUndefined [2 * 2 ^ 56, 2 ^ 48 + 2 ^ 32, 0, 0] = false ∧ (engFields [2 * 2 ^ 56, 2 ^ 48 + 2 ^ 32, 0, 0]).op = 2 ∧
    bits (engFields [2 * 2 ^ 56, 2 ^ 48 + 2 ^ 32, 0, 0]).w0 9 11 = 0 := by decide

theorem wit_VectorUnitCompletes_engine :
    (clu engineState 0).engine = some ⟨0, 0, 7, poolWords⟩ ∧ engUndefined poolWords = false ∧ (engFields poolWords).op ≠ 2 ∧
    errorFree engineState = true ∧ (clu engineState 0).doomed = false ∧ (clu engineState 0).initPend = false := by decide

/-- The command of a RESAMPLE of no boxes stands in the four AM words that the engine operation names. -/
theorem wit_VectorUnitCompletes_boxes :
    let s := vectorState [.eng 0 0 7]
    let s := wrN (wrN s (memBase 0 1 0) 8 (2 * 2 ^ 56)) (memBase 0 1 0 + 8) 8 (2 ^ 48 + 2 ^ 32)
    (List.range 4).map (fun i => rdWord s 0 1 0 (0 + i)) = [2 * 2 ^ 56, 2 ^ 48 + 2 ^ 32, 0, 0] ∧ errorFree s = true ∧
    nextEng s 0 = some 0 := by decide

/-! ### CollectorsCollect -/

/-- Cluster 0 with collector 0 held by partition 0, and thread 0 of core 0 READY. -/
def collState (l : List VecEntry) : State := setColl (vectorState l) 0 0 { owner := some 0, channels := 1024, perChannel := true }

/-- The same with all eight collectors held. -/
def allHeld : State := (List.range 8).foldl (fun s i => setColl s 0 i { owner := some 0 }) (vectorState [])

theorem wit_CollectorsCollect :
    canIssue (collState []) 0 = true ∧ (coll (vectorState []) 0 0).owner = none ∧ (coll (collState []) 0 1).owner = none ∧
    (coll (collState []) 0 0).owner ≠ none ∧ canIssue allHeld 0 = true ∧ (∀ j : Fin 8, (coll allHeld 0 j).owner ≠ none) ∧
    regionOk ⟨false, 32767⟩ (ceilDiv (fmtBits 0 * 1) 8) = true ∧ (vecQueue (collState []) 0).length < 2 ∧
    regionOk ⟨false, 28672⟩ (4 * (coll (collState []) 0 0).channels) = true ∧ feedInFlight (collState []) 0 0 = false ∧
    feedInFlight (collState [.feed 0 0 0 ⟨false, 0⟩ 1 0]) 0 0 = true ∧ errorFree (collState []) = true := by decide

/-! ### MovesAreQueued -/

/-- A FILL of 64 bytes of CM of logical cluster 0 with a pattern (R252, R255). -/
def fillDesc : Desc :=
  { src := 0, dst := 0, srcTier := 0, dstTier := 1, xform := 4, comp := 0, flags := 0, creditN := 0, e0 := 64, e1 := 1, e2 := 1, e3 := 1,
    s1 := 0, s2 := 0, s3 := 0, d1 := 0, d2 := 0, d3 := 0, arg := 0x0102030405060708, rsvd := 0 }

/-- A FILL of the first 64 bytes of T2, as a packet asks for it. -/
def hostFill : Desc := { fillDesc with dst := 0x1000000000, dstTier := 2 }

/-- Cluster 0 is mapped as logical cluster 0 of partition 0, thread 0 of core 0 is READY, moves wait in queue 0. -/
def moveState (l : List Move) : State :=
  let s := wr (readyState 0 0 0) (CLU_MAP_MAPPED 0) 1
  { s with moves := tput [] [] (mq 0 0) l,
           parts := [(0, { owner := 0, logical := [0], clSet := 1, keySlot := 1, quota := ⟨0, 0, 0, 0, []⟩, ringFirst := 0,
                           ringCount := 1, minRate := 0 })] }

/-- The device serves packets; ring 0 of the PF is an enabled COMMAND ring of P0's ring set with one packet waiting. -/
def hostState : State :=
  let s := setRing (wr (moveState []) (HIF_STAT_READY 0) 1) 0 0
    { state := .enabled, cfg := { sqBase := 0x1000, cqBase := 0x2000 }, sqTail := 1 }
  { s with boot := { s.boot with pln := .up } }

/-- A packet of that ring: the PF, P0, tag 7, as R400 and R401 ask. -/
def hostPkt : Pkt :=
  { fn := 0, ring := 0, ver := 2, fence := false, noIrq := false, part := 0, tag := 7, replyAddr := 0x4000, replyLen := 256,
    formOk := true }

theorem wit_MovesAreQueued : let m : Move := { desc := fillDesc, owner := .thread 0 7 }
    canIssue (moveState []) 0 = true ∧ (moveQueue (moveState []) 0 0).length < 8 ∧ plainMove fillDesc = true ∧
    moveAllowed (moveState []) 0 m = some (⟨false, 0, 0, 0⟩, ⟨false, 0, 0x40100000, 1048576⟩) ∧
    moveAllowed (moveState []) 0 { m with desc := { fillDesc with e0 := 0 } } = none ∧
    (moveQueue (moveState (List.replicate 8 { desc := fillDesc, owner := .plinth })) 0 0).length = 8 ∧
    canIssue (moveState (List.replicate 8 { desc := fillDesc, owner := .plinth })) 0 = true := by decide

theorem wit_MovesAreQueued_packets :
    hostDescOk hostFill = true ∧ isFill hostFill = true ∧ (List.range 34).find? (fun n => cluPart hostState n == 0) = some 0 ∧
    (moveQueue hostState 0 64).length < 8 ∧ tget [] hostState.moveWait 0 = [] ∧
    accepted hostState hostPkt 0x40 .owned false = true ∧ accepted hostState hostPkt 0x41 .owned false = true ∧
    moveCheck (taken hostState hostPkt 0x40 0).2 0 (some 0) 0 hostFill true = none ∧
    moveCheck (taken hostState hostPkt 0x41 0).2 0 (some 0) 0 hostFill true = none ∧
    moveAllowed (taken hostState hostPkt 0x41 0).2 0 { desc := hostFill, owner := .packet (taken hostState hostPkt 0x41 0).1 } = none := by
  decide

/-! ### MovesWriteTheirDestination -/

theorem wit_MovesWriteTheirDestination : let m : Move := { desc := fillDesc, owner := .thread 0 7 }
    let s := moveState [m]; let a : Ep := ⟨false, 0, 0, 0⟩; let b : Ep := ⟨false, 0, 0x40100000, 1048576⟩
    moveQueue s 0 0 = [m] ∧ (∀ i < 34, (clu s i).doomed = false) ∧ nextQueue s 0 = some 0 ∧ plainMove fillDesc = true ∧ oneRow fillDesc ∧
    moveAllowed s 0 m = some (a, b) ∧ bit fillDesc.flags 0 = false ∧ rd s (CLU_DMA_STAT_ERR_CNT 0) < 255 ∧ errorFree s = true := by
  refine ⟨?_, ?_, ?_, ?_, ⟨rfl, rfl, rfl⟩, ?_⟩ <;> decide

/-- The same with its segment read. -/
theorem wit_MovesWriteTheirDestination_complete :
    let m : Move := { desc := fillDesc, owner := .thread 0 7, segs := 1, got := List.replicate 64 5 }
    let a : Ep := ⟨false, 0, 0, 0⟩; let b : Ep := ⟨false, 0, 0x40100000, 1048576⟩
    moveAllowed (moveState [m]) 0 m = some (a, b) ∧ moveSegs (moveState [m]) fillDesc a ≤ m.segs ∧ m.got.length = fillDesc.e0 ∧
    b.base + fillDesc.e0 ≤ 0x62000000 ∧ errorFree (moveState [m]) = true := by decide

theorem wit_MovesWriteTheirDestination_inv : Inv (moveState [{ desc := fillDesc, owner := .thread 0 7 }]) := ⟨rfl, rfl, by decide, rfl⟩

/-! ### DramConfigurationWrite -/

theorem wit_DramConfigurationWrite : isSet State.reset MEM_STAT_READY = false ∧ isSet State.reset MEM_CFG_START = false ∧
    bits 0x00500000 20 4 = 5 ∧ bit 0x00530001 16 = true ∧ bits 0x00310001 20 4 ≤ 3 ∧ ¬(bits 0x00600000 20 4 ≤ 3) := by decide

/-! ### DramTrainingAndGranules -/

/-- DRAM trained to 16 GiB, granule table index `g`. -/
def dramState (g : Nat) : State := wr (wr (wr State.reset MEM_CFG_START 1) MEM_STAT_SIZE 16) MEM_GTAB_IDX_GRAN g

theorem wit_DramTrainingAndGranules :
    isSet (dramState 0) MEM_CFG_START = true ∧ rd (dramState 8191) MEM_GTAB_IDX_GRAN < granCount (dramState 8191) ∧
    gV (gEntry (dramState 8191) 8191) = false ∧ (dramState 0).dram.fills = [] ∧
    ¬(rd (dramState 8192) MEM_GTAB_IDX_GRAN < granCount (dramState 8192)) ∧
    tfind (gPart (gEntry State.reset 16383)) State.reset.parts = none := by decide

/-! ### FlashDiesStartAndSuspend -/

/-- An enabled weight flash controller with channel 31's die in a state. -/
def dieState (x : Channel) : State := setChan (wr State.reset WFL_CTRL_ENABLE 1) 31 x

theorem wit_FlashDiesStartAndSuspend :
    (chan (dieState { waiting := [.read] }) 31).running = none ∧ isSet (dieState { waiting := [.read] }) WFL_CTRL_ENABLE = true ∧
    nextWork { waiting := [.read] } = some .read ∧ needsHoldup .read = none ∧ nextWork { waiting := [.store] } = some .store ∧
    needsHoldup .store = some false ∧ isSet (dieState {}) WFL_STAT_STOPPED = false ∧ holdupOk (dieState {}) false 1023 = false ∧
    holdupOk (wr (wr (dieState {}) WFL_HOLDUP_CFG_CAP 65535) WFL_HOLDUP_CFG_DIV 255) true 1023 = true ∧
    nextWork { waiting := [.recErase] } = some .recErase ∧ recEraseElsewhere (dieState {}) 31 = false ∧
    maqClass .store = true ∧ (∃ v ∈ ([.read] : List DieWork), rankOf v ≤ 1) ∧
    (chan (dieState { suspended := some .store }) 31).suspended = some .store ∧
    (chan (dieState { running := some .recErase, waiting := [.record 0] }) 31).nested = false ∧ rankOf (.record 0) = 1 ∧
    (chan (dieState { suspended := some .recErase, nested := true }) 31).nested = true := by
  refine ⟨?_, ?_, ?_, ?_, ?_, ?_, ?_, ?_, ?_, ?_, ?_, ?_, ⟨.read, ?_⟩, ?_⟩ <;> decide

/-! ### FlashOperationsEnd -/

/-- A clean page read of logical block 4. -/
def goodPage : PageRead := { worst := 0, high := 0, level := 0, ue := false, crcOk := true, lblk := 4, page := 0 }

/-- A manifest with one entry (role 0) and no section. -/
def emptyMan : Manifest :=
  { totalLen := 0, kind := 0, train := false, shapeCl := 0, clBase := 0, nmode := 0, stripe := 0, versionNo := 0, maqId := 0,
    castClass := 0, keyId := 0, maqDigest := 0, content := 0, sects := [], order := [], layers := [], roles := [0], arms := [],
    chunk := 1, attention := [], vocab := 2, adaptDims := 0 }

theorem wit_FlashOperationsEnd :
    (chan (dieState { running := some .read }) 31).running = some .read ∧ goodPage.level ≠ 8 ∧
    (chan (dieState { running := some (.record 0) }) 31).running = some (.record 0) ∧
    (chan (dieState { running := some .recErase }) 31).running = some .recErase ∧
    (chan (dieState { running := some (.erase 0) }) 31).running = some (.erase 0) ∧
    (chan (dieState { running := some .store }) 31).running = some .store := by decide

/-! ### FlashStoresAndControl -/

/-- A store, or an erase, of slot 255 with everything programmed, verified or erased, that a low hold-up sample holds back. -/
def doneJob (store : Bool) : FlashJob :=
  { cmd := none, store, slot := 255, part := 0, set := 1, man := some emptyMan, handle := 0, started := true, holdLow := true }

/-- Its state. -/
def jobState (store : Bool) : State := { State.reset with flash := { jobs := [doneJob store] } }

theorem wit_FlashStoresAndControl :
    (doneJob true).man = some emptyMan ∧ (doneJob true).left.all (fun e => e.2 == 0) = true ∧
    (doneJob true).verify.all (fun e => e.2 == 0) = true ∧ (freeBases (jobState true) 0).head? = some t3Base ∧
    tfind 255 (jobState true).flash.slots = none ∧ (doneJob false).eraseLeft = [] ∧
    (jobState false).flash.awaiting.find? (fun e => e.2.isEmpty) = none ∧ isSet State.reset WFL_CTRL_ENABLE = false ∧
    isSet State.reset WFL_STAT_STOPPED = false ∧
    isSet (wr (wr State.reset WFL_CTRL_PATROL_EN 1) WFL_STAT_READY 1) WFL_CTRL_PATROL_EN = true ∧
    isSet (wr (wr State.reset WFL_CTRL_PATROL_EN 1) WFL_STAT_READY 1) WFL_STAT_READY = true := by decide

/-- A patrolled die: channel 31 holds logical block 4 of a committed maquette and has a free block. -/
def patrolState : State :=
  let s := wr (wr (dieState { extra := [940] }) WFL_CTRL_PATROL_EN 1) WFL_STAT_READY 1
  { s with flash := { s.flash with slots := [(0, ⟨1, t3Base, emptyMan, 0, [(31, 1)], 0⟩)] } }

theorem wit_FlashOperationsEnd_patrol : (chan patrolState 31).running = none ∧ (chan patrolState 31).suspended = none ∧
    (chan patrolState 31).waiting = [] ∧ isSet patrolState WFL_CTRL_PATROL_EN = true ∧ isSet patrolState WFL_STAT_READY = true ∧
    (patrolState.flash.slots.any fun e => e.2.sets.contains (31, goodPage.lblk / 4)) = true ∧
    (chan patrolState 31).extra.find? (fun b => b % 4 == goodPage.lblk % 4) = some 940 := by decide

/-! ### MaquettesAndKeysAreKept -/

/-- A manifest that meets R320 to R323: one layer of one tensor of 16 bytes; its tensor is not narrow and not compressed. -/
def goodMan : Manifest :=
  { emptyMan with totalLen := 16384, kind := 1, shapeCl := 1, sects := [⟨1, 0, false, false, false, 0, 16, 16, 0⟩], order := [0], layers := [16] }

theorem wit_MaquettesAndKeysAreKept_manifest :
    manifestOk goodMan = true ∧ manifestOk emptyMan = false ∧ verifyFailure goodMan = none ∧
    verifyFailure { goodMan with layers := [17] } = some 0x22 := by decide

/-- P0 has a T4 area, a store slot 255 and handle 63 of the given state, staged from the host; one ADMIN key is listed. -/
def maqState (st : Nat) (ev : Option Cmd) (jobs : List FlashJob) : State :=
  { hostState with
    parts := [(0, { owner := 0, logical := [0], clSet := 1, keySlot := 1, quota := ⟨4096, 0, 4096, 16384, [(0, 16384)]⟩, ringFirst := 0,
                    ringCount := 1, minRate := 0 })]
    handles := [(63, { part := 0, slot := none, man := emptyMan, st := st, verified := true, inT2 := [], wm := false, evict := ev })]
    flash := { hostState.flash with slots := [(255, ⟨1, t3Base, emptyMan, 0, [(31, 1)], 0⟩)], jobs := jobs,
                                    pubs := [{ keyId := emptyMan.keyId, admin := true, revoked := false, qx := 1, qy := 2 }] } }

theorem wit_MaquettesAndKeysAreKept :
    accepted (maqState 0 none []) hostPkt 0x70 .any true = true ∧ authorised (maqState 0 none []) emptyMan.keyId true = true ∧
    authorised (maqState 0 none []) (emptyMan.keyId + 1) true = false ∧ accepted (maqState 0 none []) hostPkt 0x20 .owned false = true ∧
    inArea (maqState 0 none []) 0 0 emptyMan.totalLen = true ∧ keyListed (maqState 0 none []) goodMan.keyId = true ∧
    inArea (maqState 0 none []) 0 0 goodMan.totalLen = true ∧
    fitsT2 (maqState 0 none []) 0 (rawSize goodMan) = true ∧ accepted (maqState 0 none []) hostPkt 0x21 .owned false = true ∧
    accepted (maqState 1 none []) hostPkt 0x23 .owned false = true ∧ requestOn (maqState 1 none []) 63 = false ∧
    streamOn (maqState 1 none []) 63 = false ∧ castOn (maqState 1 none []) 63 = false ∧ slotsTaken (maqState 1 none []) < 64 ∧
    accepted (maqState 0 none []) hostPkt 0x24 .owned false = true ∧ accepted (maqState 0 none []) hostPkt 0x25 .any false = true ∧
    slotHeld (maqState 0 none []) 255 = false ∧ (0 : Nat) ∈ setChans 1 ∧ 0 < (freeHandles (maqState 0 none [])).length ∧
    isSet (wr (maqState 0 none []) (WFL_CH_STAT_WORN 0) 1) (WFL_CH_STAT_WORN 0) = true := by decide

/-! ### CastsGoLayerByLayer -/

/-- A maquette of two layers of no bytes. -/
def twoLayers : Manifest := { emptyMan with layers := [0, 0], order := [0, 1], shapeCl := 1 }

/-- P0 casts handle 5 in place of handle 6, or nothing, as far as given. -/
def castState (replace : Option Nat) (ready swapped : Nat) (failed : Option (Nat × Nat)) : State :=
  let s := maqState 1 none []
  let m : Handle := { part := 0, slot := some 255, man := twoLayers, st := 2, verified := true, inT2 := [], wm := false, evict := none }
  let k : Cast := { cmd := { fn := 0, ring := 0, sqIdx := 0, opcode := 0x22, tag := 1, noIrq := false, part := 0, key := 5 }, handle := 5,
                    replace := replace, drain := false, activate := false, before := [], started := decide (0 < ready), ready := ready,
                    swapped := swapped, failed := failed, toT2 := [0, 1], freed := [] }
  { s with handles := [(5, m), (6, { m with st := 1 })], parts := s.parts.map fun e => (e.1, { e.2 with cast := some k }) }

theorem wit_CastsGoLayerByLayer :
    (castOf (castState none 0 0 none) 0).map (fun y => (y.1.started, y.1.drain)) = some (false, false) ∧
    (castOf (castState none 1 0 none) 0).map (fun y => (y.1.started, y.1.ready, y.1.swapped, y.2.man.layers.length)) = some (true, 1, 0, 2) ∧
    (castOf (castState (some 6) 2 1 none) 0).map (fun y => (y.1.replace, y.1.ready, y.1.swapped)) = some (some 6, 2, 1) ∧
    (castOf (castState (some 6) 2 1 (some (0x41, 2))) 0).map (fun y => (y.1.failed, y.1.swapped)) = some (some (0x41, 2), 1) ∧
    castOf (maqState 1 none []) 0 = none ∧ (castOf (castState none 1 0 none) 0).map (fun y => (y.1.heldAt, layerHeld y.1)) = some (none, false) ∧
    layerHeld { cmd := ⟨0, 0, 0, 0x22, 1, false, 0, 5⟩, handle := 5, replace := none, drain := false, activate := false, before := [],
                started := true, ready := 1, swapped := 0, failed := none, toT2 := [0, 1], freed := [], heldAt := some 0 } = true := by decide

/-- A verified maquette of P0's kind may be cast, an unverified handle not. -/
theorem wit_CastsGoLayerByLayer_accept :
    let s := { maqState 0 none [] with handles := [(63, { part := 0, slot := none, man := { twoLayers with kind := 3 }, st := 0, verified := true,
                                                          inT2 := [], wm := false, evict := none })] }
    accepted s hostPkt 0x22 .owned false = true ∧ castFailure s 0 63 0xFF false = none ∧ castFailure s 0 63 0xFF true = none ∧
    castFailure s 0 63 63 false = some 0x21 := by decide

/-! ### RequestsAndBatchesAreAdmitted -/

/-- P0 has T2 quota; handle 63 is a RESIDENT model with roles serve and train; entry 9 holds a request of the given state. -/
def serveState (st : ReqState) (running : Bool) : State :=
  let s := maqState 1 none []
  let b : Batch :=
    { part := 0, handle := 63, entry := 0, cmd := none, fn := 0, ring := 0, rows := [⟨some 9, 2, 0, false⟩], greedy := false, steps := 0,
      prio := 0, out := 0x9000, kmax := 2, prefill := 0, tokens := 0, mask := 0, tokLen := 1, done := 0, held := false, running := true,
      waiting := false, replay := false, order := 0, admitted := 1 }
  let man := { emptyMan with roles := [0, 2], train := true, vocab := 8, chunk := 64 }
  { s with handles := s.handles.map fun e => (e.1, { e.2 with man := man })
           parts := [(0, { owner := 0, logical := [0], clSet := 1, keySlot := 1, quota := ⟨2 ^ 21, 0, 0, 0, []⟩, ringFirst := 0, ringCount := 1,
                           minRate := 0 })]
           srv := { reqs := [(9, { used := true, state := st, handle := 63, batch := 4 })]
                    batches := if running then [(4, b)] else [] } }

/-- A batch of one NEW row. -/
def batchHead : BatchHead := { handle := 63, entry := 0, mode := 1, steps := 2, prio := 3, mask := 0x8000, out := 0x9000, outLen := 4096, tokLen := 4 }
def newRow : RowParams := { kind := 0, pageLog2 := 4, k := 2, tag := 5, promptLen := 4, maxNew := 2, req := 0, globals := [], bias := [], stops := [] }

theorem wit_RequestsAndBatchesAreAdmitted :
    accepted (serveState .ready false) hostPkt 0x30 .owned false = true ∧
    (usable (serveState .ready false) 0 63 0 0).map (fun x => (rowOk x.man newRow 6,
      fitsT2 (serveState .ready false) 0 (reserveBytes x.man 6 (pageSize x.man 6 4) []))) = some (true, true) ∧
    roomFor (serveState .ready false) 0 1 = true ∧ batchHead.steps * slotBytes newRow.k ≤ batchHead.outLen ∧
    barrierUp (serveState .ready false) 0 = false ∧ usable (serveState .ready false) 0 63 0 1 = none ∧
    findReq (serveState .ready false) 9 = some 9 ∧ findReq (serveState .ready false) 10 = none ∧
    batch? (serveState .ready false) 4 = none ∧ inStep (serveState .active true) 9 = true ∧ inStep (serveState .paused false) 9 = false ∧
    accepted (serveState .ready false) hostPkt 0x32 .owned false = true ∧ accepted (serveState .ready false) hostPkt 0x33 .owned false = true ∧
    accepted (serveState .ready false) hostPkt 0x31 .owned false = true ∧ accepted (serveState .ready false) hostPkt 0x34 .owned false = true ∧
    (req (serveState .pausing false) 9).state = .pausing ∧ destroying (serveState .pausing false) 0 = false ∧
    (batch? (serveState .active true) 4).map (fun y => (y.part, y.greedy, y.waiting)) = some (0, false, false) ∧
    (∃ i < 4097, batch? (serveState .ready false) i = none) :=
  ⟨by decide, by decide, by decide, by decide, by decide, by decide, by decide, by decide, by decide, by decide, by decide, by decide, by decide,
   by decide, by decide, by decide, by decide, by decide, ⟨0, by decide, by decide⟩⟩

/-- P1 of the PF with one cluster or none, adapter 3 of rank 4 of its resident training model, and a HOST batch that waits. -/
def trainState (clusters : List Nat) : State :=
  let s := serveState .ready false
  let q : Part := { owner := 0, logical := clusters, clSet := 1, keySlot := 1, quota := ⟨2 ^ 21, 0, 0, 0, []⟩, ringFirst := 0, ringCount := 1,
                    minRate := 0, adapters := [(3, { digest := 0, rank := 4, acc := 0, charge := 4096 })] }
  let y : Option Batch := (batch? (serveState .active true) 4).map fun b => { b with part := 1, running := false, waiting := true }
  let t := { s with parts := [(1, q)], handles := s.handles.map fun e => (e.1, { e.2 with part := 1, man := { e.2.man with adaptDims := 2 } }) }
  { (wr t MEM_STAT_SIZE 16) with srv := { s.srv with batches := match y with | some b => [(4, b)] | none => [] }
                                 dram := { s.dram with gtab := [(0, 2 ^ 15 + 1 * 256 + 1)], keys := [(1, 1)] } }

def trainParams (init : Bool) : TrainParams :=
  { handle := 63, entry := 1, adapter := 3, rank := 4, apply := true, init, rows := 1, tokLen := 4, seed := 1, lr := 0, beta1 := 0, beta2 := 0,
    eps := 0, wd := 0, stepNo := 1, clip := 0, tokens := 0, mask := 0, targets := 0, initAddr := 0x1000000000 }

theorem wit_RequestsAndBatchesAreAdmitted_train : let h := { hostPkt with part := 1 }; let s := trainState [0]
    accepted s h 0x90 .owned false = true ∧ (usable s 1 63 2 1).map (fun x => (x.man.train, x.man.maqDigest, x.man.adaptDims)) = some (true, 0, 2) ∧
    (tfind 1 s.parts).map (fun q => ((tfind 3 q.adapters).map (fun a => (a.digest, a.rank, a.charge)), tfind 4 q.adapters, q.c2, q.quota.q2)) =
      some (some (0, 4, 4096), none, 0, 2 ^ 21) ∧
    roomFor s 1 1 = true ∧ t2Readable s 1 0x1000000000 (2 * 8) = true ∧ 0 - 4096 + adapterBytes 8 ≤ 2 ^ 21 := by decide

theorem wit_RequestsAndBatchesAreAdmitted_continue : let h := { hostPkt with part := 1 }
    accepted (trainState []) h 0x30 .owned false = true ∧ accepted (trainState [0]) h 0x30 .owned false = true ∧
    (batch? (trainState []) 4).map (fun y => (y.part, y.greedy, y.waiting, y.rows.length * slotBytes y.kmax)) = some (1, false, true, 32) ∧
    (part? (trainState []) 1).map (·.logical) = some [] ∧ (part? (trainState [0]) 1).map (·.logical) = some [0] := by decide

/-! ### StepsEndAtTheirBoundaries -/

/-- The running batch 4 of the state above, GREEDY with 3 steps, and a request of expected length 100. -/
def stepState : State :=
  let s := serveState .active true
  { s with srv := { s.srv with reqs := [(9, { used := true, state := .active, handle := 63, batch := 4, e := 100, written := 7 })]
                               batches := s.srv.batches.map fun e => (e.1, { e.2 with greedy := true, steps := 3 }) } }

theorem wit_StepsEndAtTheirBoundaries :
    (batch? stepState 4).map (fun x => (x.running, x.rows, x.prefill, x.greedy)) =
      some (true, [⟨some 9, 2, 0, false⟩], 0, true) ∧ (batch? stepState 4).map (fun x => (x.done, x.steps, x.fn)) = some (0, 3, 0) ∧
    stepState.units = [] ∧ (req stepState 9).written + 2 ≠ (req stepState 9).e ∧
    stepState.srv.reqs = [(9, req stepState 9)] ∧ (req stepState 9).pages = [] ∧ barrierUp stepState 0 = false ∧
    (tfind 0 stepState.parts).map (fun q => (q.destroying, q.joining, q.leaving, q.resize)) = some (false, [], [], none) ∧
    (tfind 63 stepState.handles).map (·.evict) = some none := by decide

theorem wit_StepsEndAtTheirBoundaries_candidates :
    candidates { req stepState 9 with written := 8 } 2 [0x3F800000, 0x40000000, 0x7FC00000] = [(1, 0x40000000), (0, 0x3F800000)] := by decide

/-- One unit of that batch has failed. -/
theorem wit_StepsEndAtTheirBoundaries_replay :
    let u : WorkUnit := { part := 0, kind := .batch 4, threads := [0], failed := true }
    let s := { wr stepState (thrField 0) 6 with units := [(1, u)] }
    unitRunning s u = false ∧ tfind 1 s.units = some u ∧ unitRunning (wr s (thrField 0) 1) u = true := by decide

/-! ### PartitionsAreCreatedAndResized -/

/-- P0 holds logical cluster 0, logical clusters 1 and 2 are free, key slot 1 holds a key of the PF. -/
def freeState : State :=
  let m := fun (n l : Nat) (s : State) => wr (wr s (CLU_MAP_MAPPED n) 1) (CLU_MAP_LOGICAL n) l
  let s := m 1 1 (m 2 2 hostState)
  { s with dram := { s.dram with keys := [(2, 99)] }, sec := { s.sec with owners := [(2, 1)] } }

/-- One cluster under key slot 2, without T2. -/
def partParams : PartParams :=
  { part := 5, owner := 0, clusters := 1, q2 := 0, wres := 0, q3 := 0, q4 := 0, areas := [], ringFirst := 1, ringCount := 1, keySlot := 2,
    minRate := 8 }

/-- A change of the minimum rate. -/
def rateParams : ResizeParams := { clusters := none, q2 := none, wres := none, q3 := none, q4 := none, minRate := some 16, zeroOk := true }

theorem wit_PartitionsAreCreatedAndResized :
    accepted freeState hostPkt 0x10 .admin true = true ∧ createFailure freeState { partParams with part := 0 } = some 0x21 ∧
    accepted freeState hostPkt 0x11 .admin true = true ∧ (tfind 0 freeState.parts).isSome = true ∧
    resizeFailure freeState 0 { rateParams with minRate := some 65 } = some 0x21 ∧
    accepted freeState { hostPkt with part := 9 } 0x11 .admin true = true ∧ tfind 9 freeState.parts = none := by decide

/-- The area of the maquettes is never below 0 bytes, whatever its size. -/
theorem wit_PartitionsAreCreatedAndResized_create (p : Nat) (h : p = 5 ∨ p = 0xFF) :
    createFailure freeState { partParams with part := p } = none := by
  have h0 : otherQ3 freeState 0xFF = 0 := by decide
  unfold createFailure
  simp only [h0, show partParams.q3 = 0 from rfl, Nat.add_zero, Nat.not_lt_zero, or_false]
  rcases h with rfl | rfl <;> decide

theorem wit_PartitionsAreCreatedAndResized_gran :
    (tfind 0 freeState.parts).map (fun q => decide ((partGrans freeState 0).length ≤ quotaGrans q.quota.q2)) = some true := by decide

theorem wit_PartitionsAreCreatedAndResized_rate : resizeFailure freeState 0 rateParams = none := by
  have h0 : otherQ3 freeState 0 = 0 := by decide
  have h1 : ∃ x, tfind 0 freeState.parts = some x ∧ x.quota.q3 = 0 := ⟨_, rfl, rfl⟩
  obtain ⟨x, hx, h3⟩ := h1
  unfold resizeFailure
  simp only [h0, Nat.add_zero, hx, h3, show rateParams.q3 = none from rfl, Option.getD_none, Nat.not_lt_zero]
  obtain rfl : _ = x := Option.some.inj hx
  decide

/-- P0 with 4 of 5 mapped clusters. -/
def growState : State :=
  let s := [1, 2, 3, 4].foldl (fun s n => wr (wr s (CLU_MAP_MAPPED n) 1) (CLU_MAP_LOGICAL n) n) hostState
  { s with parts := [(0, { owner := 0, logical := [0, 1, 2, 3], clSet := 4, keySlot := 1, quota := ⟨0, 0, 0, 0, []⟩, ringFirst := 0,
                           ringCount := 1, minRate := 0 })] }

theorem wit_PartitionsAreCreatedAndResized_grow :
    resizeFailure growState 0 { rateParams with clusters := some 5 } = none ∧ accepted growState hostPkt 0x11 .admin true = true := by
  refine ⟨?_, by decide⟩
  have h0 : otherQ3 growState 0 = 0 := by decide
  have h1 : ∃ x, tfind 0 growState.parts = some x ∧ x.quota.q3 = 0 := ⟨_, rfl, rfl⟩
  obtain ⟨x, hx, h3⟩ := h1
  unfold resizeFailure
  simp only [h0, Nat.add_zero, hx, h3, show rateParams.q3 = none from rfl, Option.getD_none, Nat.not_lt_zero]
  obtain rfl : _ = x := Option.some.inj hx
  decide

/-! ### PartitionsFenceResetAndEnd -/

/-- P5 of the PF holds logical cluster 1, with its fence as given. -/
def fenceState (f : FenceState) (d : Bool) : State :=
  let s := wr freeState (CLU_MAP_PART 1) 5
  { s with parts := s.parts ++ [(5, { owner := 0, logical := [1], clSet := 1, keySlot := 2, quota := ⟨0, 0, 0, 0, []⟩, ringFirst := 1,
                                      ringCount := 1, minRate := 0, fence := f, destroying := d })] }

theorem wit_PartitionsFenceResetAndEnd : let h := { hostPkt with part := 5 }
    accepted (fenceState .none false) h 0x13 .control false = true ∧ accepted (fenceState .up false) h 0x13 .control false = true ∧
    accepted (fenceState .none false) h 0x14 .control false = true ∧ accepted (fenceState .up false) h 0x14 .control false = true ∧
    accepted (fenceState .none false) h 0x12 .admin true = true ∧ accepted (fenceState .none false) hostPkt 0x12 .admin true = true ∧
    partPhys (fenceState .up false) 5 = [1] ∧ (∃ x, tfind 5 (fenceState .draining true).parts = some x ∧ x.destroying = true ∧ x.fence = .draining) ∧
    (∃ x, tfind 5 (fenceState .resetting false).parts = some x ∧ x.fence = .resetting ∧ x.ending = false) ∧
    (∀ e ∈ (fenceState .none false).parts, e.1 < 16) ∧
    (let s := setPart (fenceState .none false) 5 (fun q => { q with fenceDue := true })
     (tfind 5 s.parts).map (fun q => (q.fence, q.fenceDue)) = some (.none, true)) :=
  ⟨by decide, by decide, by decide, by decide, by decide, by decide, by decide, ⟨_, rfl, rfl, rfl⟩, ⟨_, rfl, rfl, rfl⟩, by decide, by decide⟩

theorem wit_PartitionsFenceResetAndEnd_inv (f : FenceState) (d : Bool) : Inv (fenceState f d) :=
  ⟨rfl, rfl, show regsWf (fenceState .none false) = true by decide, rfl⟩

/-! ### CompletionWritesItsRecord -/

theorem wit_CompletionWritesItsRecord : let r := ring hostState 0 0
    r.state = .enabled ∧ r.waiting = [] ∧ cqRoom r = true ∧ r.cfg.tailAddr = 0 ∧ r.cfg.cqBase + 32 * r.cqTail + 32 ≤ 2 ^ 64 ∧
    cqRoom { r with cqTail := 15, cqHead := 0 } = false ∧ (ring State.reset 0 0).state = .disabled := by decide

/-! ### NopIsAnswered -/

/-- The same device with P0 fenced. -/
def fencedState : State :=
  { hostState with parts := [(0, { owner := 0, logical := [0], clSet := 1, keySlot := 1, quota := ⟨0, 0, 0, 0, []⟩, ringFirst := 0,
                                   ringCount := 1, minRate := 0, fence := .up })] }

theorem wit_NopIsAnswered : slotPlain hostState hostPkt ∧ slotPlain fencedState hostPkt := by
  constructor <;> exact ⟨by decide, by decide⟩

theorem wit_NopIsAnswered_cases :
    canConsume State.reset hostPkt = false ∧ canConsume hostState hostPkt = true ∧ ringFenced hostState 0 0 = false ∧
    pktFailure hostState hostPkt 0x01 .any false = none ∧ canConsume fencedState hostPkt = true ∧
    ringFenced fencedState 0 0 = true ∧ pktFailure hostState { hostPkt with ver := 3 } 0x01 .any false = some 0x22 ∧
    canConsume hostState { hostPkt with ver := 3 } = true := by decide

/-! ### DoorbellsMoveTheRings -/

theorem wit_DoorbellsMoveTheRings : let r := ring hostState 0 0
    doorbellBad r 15 (2 ^ r.cfg.sqLog2) = false ∧ doorbellBad r 16 (2 ^ r.cfg.sqLog2) = true ∧
    doorbellBad r (2 ^ 16) (2 ^ r.cfg.cqLog2) = true ∧ doorbellBad r 0 (2 ^ r.cfg.cqLog2) = false ∧
    ¬((r.cqTail + 16 - r.cqHead) % 16 < (bits 0 0 16 + 16 - r.cqHead) % 16) ∧
    (r.cqTail + 16 - r.cqHead) % 16 < (bits 1 0 16 + 16 - r.cqHead) % 16 ∧ rd (wr hostState (HIF_EVT_CFG_RING 0) 5) (HIF_EVT_CFG_RING 0) ≠ 0 ∧
    r.state = .enabled ∧ r.waiting = [] := by decide

/-! ### WindowWritesAndRings -/

/-- Function 15 with a window write waiting, its window READY. -/
def windowState (o v : Nat) : State := setFn (wr (wr State.reset (HIF_STAT_READY 15) 1) (HIF_STAT_STALE 15) 0) 15 { wq := [(o, v)] }

/-- The same with ring 0 of the function enabled, or its bases staged. -/
def windowRing (x : Ring) (v : Nat) : State := setRing (windowState 0x24 v) 15 0 x

theorem wit_WindowWritesAndRings :
    (fnSt (windowState 0x20 7) 15).wq = [(0x20, 7)] ∧ appliesWindow (windowState 0x20 7) 15 = true ∧
    (fnSt (setFn State.reset 15 { wq := List.replicate 64 (0, 0) }) 15).wq.length = 64 ∧
    ringCfgOk { sqBase := 0x1000, cqBase := 0x2000, fmt := 0, kind := 0, sqLog2 := 12, cqLog2 := 4, vec := 63 } = true ∧
    ringCfgOk { sqBase := 0x1000, cqBase := 0x2000, sqLog2 := 13 } = false ∧
    (ring (windowRing { state := .enabled } 0) 15 0).state = .enabled ∧ bit (2 ^ 31) 31 = true ∧
    (ring (windowRing {} (2 ^ 31)) 15 0).state = .disabled ∧ hostState.boot.pln = .up ∧
    (pairHalted hostState false && pairHalted hostState true) = false ∧
    63 ∈ (fnSt (setFn State.reset 15 { pba := [63] }) 15).pba := by decide

/-! ### LinkAndFunctionEvents -/

theorem wit_LinkAndFunctionEvents :
    (ring (setRing State.reset 15 1023 { cfg := { coalUs := 1 }, sinceIrq := 1, cqTail := 1 }) 15 1023).cfg.coalUs ≠ 0 ∧
    0 < (ring (setRing State.reset 15 1023 { cfg := { coalUs := 1 }, sinceIrq := 1, cqTail := 1 }) 15 1023).sinceIrq ∧
    (ring (setRing State.reset 15 1023 { cfg := { coalUs := 1 }, sinceIrq := 1, cqTail := 1 }) 15 1023).cqHead ≠ 1 ∧
    State.reset.hif.numVfs = 0 ∧ ownedParts State.reset (fun f => f == 15) = [] ∧ ownedParts State.reset (fun f => f != 0) = [] ∧
    2 ≤ tget 0 (let s : State := { State.reset with sec := { owners := [(31, 16)] } }; s.sec.owners) 31 := by decide

/-! ### EventSourcesAreSensed -/

/-- Source 192 (a GPIO) in mode RISE, routed to a target with its mask bit as given, the controller enabled. -/
def evcState (src tgt : Nat) (masked : Bool) : State :=
  let s := wr (wr (wr State.reset EVC_CTRL_ENABLE 1) (EVC_ROUTE_MODE src) 3) (EVC_ROUTE_TGT src) tgt
  setFn (wr s (EVC_MASK_MASK (src / 32)) (b2n masked * 2 ^ (src % 32))) 0 { msix := [(0, { masked := false, addr := 0xFEE00000, data := 5 })] }

theorem wit_EventSourcesAreSensed :
    evMask (evcState 192 1 true) 192 = true ∧ evMask (evcState 192 1 false) 192 = false ∧ evPend (evcState 192 1 false) 192 = false ∧
    isSet (evcState 192 1 false) EVC_CTRL_ENABLE = true ∧ rd (evcState 192 1 false) (EVC_ROUTE_MODE 192) = 3 ∧
    evLevel (evcState 192 1 false) 192 = false ∧ (srcLevel (evcState 192 1 false) 192).getD true = true ∧
    rd (evcState 192 1 false) (EVC_ROUTE_MOD 192) < 32 ∧ rd (evcState 192 1 false) (EVC_MOD_INTERVAL (rd (evcState 192 1 false) (EVC_ROUTE_MOD 192))) = 0 ∧
    rd (evcState 192 1 false) (EVC_ROUTE_TGT 192) = 1 ∧ rd (evcState 192 2 false) (EVC_ROUTE_TGT 192) = 2 ∧
    (msixEntry (evcState 192 2 false) 0 0).masked = false ∧ rd (evcState 192 2 false) (EVC_ROUTE_FUNC 192) = 0 ∧
    evMask (evcState 2047 0 true) 2047 = true ∧ rd (evcState 2047 0 true) (EVC_ROUTE_MODE 2047) = 3 := by decide

/-! ### EventRoutesCountersAndHolds -/

theorem wit_EventRoutesCountersAndHolds :
    (6 ≤ bits 0x60000000 28 3 ∧ bits 0x0C000000 26 2 = 3 ∧ bits 0x08020000 26 2 = 2 ∧ bits 0x08020000 17 4 ≠ 0) ∧
    (¬(6 ≤ bits 0x50000000 28 3) ∧ bits 0x50000000 26 2 = 0) ∧ evMask (evcState 192 1 true) 192 = true ∧
    isSet (wr State.reset (EVC_MOD_BUSY 31) 1) (EVC_MOD_BUSY 31) = true ∧ isSet State.reset (EVC_MOD_BUSY 31) = false := by decide

/-- With the controller disabled no source is deliverable. -/
theorem wit_EventRoutesCountersAndHolds_idle :
    ∀ x < 2048, deliverable (wr State.reset (EVC_MOD_BUSY 31) 1) x = true → rd (wr State.reset (EVC_MOD_BUSY 31) 1) (EVC_ROUTE_MOD x) ≠ 31 := by
  intro x _ h
  have he : isSet (wr State.reset (EVC_MOD_BUSY 31) 1) EVC_CTRL_ENABLE = false := by decide
  simp [deliverable, he] at h

/-! ### PowerPoliciesAndPoints -/

/-- A transition to OP2 is in progress, cause 4 stands for 16 good quanta, the power ran above the forecast. -/
def powerState (op busy : Nat) (w : Option Nat) : State :=
  let s := wr (wr (wr (wr State.reset PWR_OP_STAT_OP op) PWR_OP_STAT_TARGET 2) PWR_OP_STAT_BUSY busy) DSP_STAT_CAUSE_SET 8
  { s with pwr := { s.pwr with okQuanta := 16, above := 4, waitOp := w } }

theorem wit_PowerPoliciesAndPoints :
    accepted hostState hostPkt 0x60 .any true = true ∧ isSet hostState DSP_STAT_LINE_LOCKED = false ∧
    accepted hostState hostPkt 0x60 .control false = true ∧ accepted hostState hostPkt 0x61 .any false = true ∧
    (ring hostState 0 0).cfg.cqBase + 32 * (ring hostState 0 0).cqTail + 32 ≤ hostPkt.replyAddr.toNat ∧
    isSet (powerState 1 1 none) PWR_OP_STAT_BUSY = true ∧ (powerState 1 1 none).pwr.returning = false ∧
    (powerState 1 1 (some 6)).pwr.waitOp = some 6 ∧ isSet (powerState 1 0 none) PWR_OP_STAT_BUSY = false ∧
    hasCause (powerState 2 0 none) 4 = true ∧ rd (powerState 2 0 none) PWR_OP_STAT_OP = 2 ∧ rd (powerState 1 0 none) PWR_OP_STAT_OP < 2 ∧
    16 ≤ (powerState 1 0 none).pwr.okQuanta ∧ 4 ≤ (powerState 1 0 none).pwr.above ∧ State.reset.pwr.above < 4 ∧
    isSet State.reset PWR_CTRL_PATINA_EN = true ∧ tfind 6 State.reset.pwr.lowerAt = none ∧ -8 < trimOf State.reset 6 ∧
    isSet (wr State.reset PWR_CTRL_PATINA_EN 0) PWR_CTRL_PATINA_EN = false ∧ hasCause State.reset 4 = false := by decide

/-! ### LimiterAndThermalResponse -/

/-- The limiter is in stage `st` at point `op`; P0 is line-locked or not; two samples have been at 115 degrees. -/
def limState (st op lock rate : Nat) : State :=
  let s := wr (wr (wr (wr freeState PWR_HWLIM_STAT_STAGE st) PWR_OP_STAT_OP op) DSP_STAT_LINE_LOCKED lock) (PWR_RATE_HW_RATE 0) rate
  { s with pwr := { s.pwr with hot := [(1, 1), (4, 2)], entered := [2] } }

theorem wit_LimiterAndThermalResponse :
    rd (limState 1 6 0 33) PWR_HWLIM_STAT_STAGE = 1 ∧ throttled (limState 1 6 0 33) = [0] ∧ effRate (limState 1 6 0 33) 0 = 33 ∧
    ((limState 1 6 0 33).parts.map Prod.fst).Nodup ∧ effRate (limState 1 6 0 1) 0 = 1 ∧ isSet (limState 1 6 0 1) PWR_OP_STAT_BUSY = false ∧
    (limState 1 6 0 1).pwr.waitOp = none ∧ rd (limState 2 2 1 1) PWR_OP_STAT_OP = 2 ∧ isSet (limState 2 2 1 1) DSP_STAT_LINE_LOCKED = true ∧
    (limState 0 0 0 1).pwr.trip = false ∧ tget 0 (limState 0 0 0 1).pwr.hot 1 = 1 ∧ (limState 0 0 0 1).pwr.entered.contains 1 = false ∧
    2 ∈ (limState 0 0 0 1).pwr.entered ∧ tget 0 (limState 0 0 0 1).pwr.hot 4 = 2 ∧ (List.replicate 16 (some (460 : Int))).length = 16 := by decide

theorem wit_LimiterAndThermalResponse_exit : Inv (limState 0 0 0 1) ∧ tj (limState 0 0 0 1) ≤ 4 * thermThr 2 - 12 := by
  refine ⟨⟨rfl, rfl, by decide, rfl⟩, ?_⟩
  unfold thermThr
  split <;> decide

/-! ### FaultRecordsAndLogs -/

/-- Domain 127 has an open record of class DEVICE. -/
def openState : State :=
  { State.reset with flt := { State.reset.flt with opens := [(127, { cls := 3, status := 0, time := 0, echo := 0, part := 0xFF, sub := 0xFF,
                                                                      span := 0, detail := 0, esc := false })] } }

/-- The buffer holds one record, at TAIL 0. -/
def bufState : State :=
  let s := wr openState FLT_REC_PTR_HEAD 1
  { s with flt := { s.flt with slots := [(0, { num := 9, domain := 127, lost := false,
                                               body := { cls := 3, status := 0, time := 0, echo := 0, part := 0xFF, sub := 0xFF, span := 0,
                                                         detail := 0, esc := false } })] } }

/-- The log holds one record, and the host has set up a buffer of 64 KiB. -/
def logState (cons : Nat) : State :=
  { State.reset with
      flt := { State.reset.flt with log := [mkLog State.reset 0 0 1 0 0xFF 0 .none], logBuf := { addr := 0x10000, len := 65536, prod := 1023 } }
      host := [(0x10008, BitVec.ofNat 8 cons)] }

theorem wit_FaultRecordsAndLogs :
    (∃ r, tfind 127 openState.flt.opens = some r) ∧ isSet openState FLT_REC_PTR_FULL = false ∧
    isSet (wr openState FLT_REC_PTR_FULL 1) FLT_REC_PTR_FULL = true ∧ tfind 3 openState.flt.opens = none ∧
    bufCount bufState = 1 ∧ (∃ x, tfind (rd bufState FLT_REC_PTR_TAIL) bufState.flt.slots = some x ∧ 2 ≤ x.body.cls) ∧
    logUsed bufState 0 < 64 ∧ evRoom bufState 0 = false ∧ (fnSt bufState 0).held.length < 64 ∧ bufCount State.reset = 0 :=
  ⟨⟨_, rfl⟩, by decide, by decide, by decide, by decide, ⟨_, rfl, by decide⟩, by decide, by decide, by decide, by decide⟩

theorem wit_FaultRecordsAndLogs_copy :
    bufRoom (logState 1) (logState 1).flt.logBuf = true ∧ bufRoom (logState 0) (logState 0).flt.logBuf = false ∧
    (logState 1).flt.log = [mkLog State.reset 0 0 1 0 0xFF 0 .none] ∧ (logState 1).flt.prev = [] ∧
    accepted hostState hostPkt 0x78 .any true = true ∧ accepted hostState hostPkt 0x79 .any true = true ∧ bufLenOk 65536 = true ∧
    bufLenOk 65535 = false := by decide

/-! ### PairsAndWatchdogsRecover -/

/-- Pair A has state `a`, pair B state `b`, the Plinth runs as given, the supplies are good. -/
def pairsState (a b : Nat) (p : Plinth) : State :=
  let s := wr (wr State.reset FLT_LOCKSTEP_STATE_A a) FLT_LOCKSTEP_STATE_B b
  { s with boot := { s.boot with released := true, pln := p } }

theorem wit_PairsAndWatchdogsRecover :
    pairState (pairsState 0 1 .up) false = 0 ∧ pairState (pairsState 0 1 .up) true = 1 ∧ pairState (pairsState 0 3 .up) true = 3 ∧
    pairState (pairsState 2 3 .up) false = 2 ∧ inServicePair (pairsState 2 3 .up) true = false ∧
    inServicePair (pairsState 2 4 .up) true = true ∧ (pairsState 0 0 .up).boot.released = true ∧ (pairsState 0 0 .up).boot.down = none ∧
    timersPause (pairsState 0 0 .up) = false ∧ timersPause (wr (pairsState 4 0 .up) PLN_DBGCTL_HALTED_A 1) = true ∧
    (pairsState 0 0 .wdog).boot.pln = .wdog ∧ (pairsState 0 0 .wdog).parts = [] ∧ (pairsState 0 0 .wdog).flash.records = [] ∧
    (∃ x : Bool, holdsDuty State.reset x = true ∧ x ≠ true ∧ (pairOf State.reset x).kicked = false) ∧
    isSet (wr State.reset FLT_WDOG_CTRL_CONFIRMED 1) FLT_WDOG_CTRL_CONFIRMED = true ∧ isSet State.reset FLT_WDOG_CTRL_CONFIRMED = false :=
  ⟨by decide, by decide, by decide, by decide, by decide, by decide, by decide, by decide, by decide, by decide, by decide, by decide, by decide,
   ⟨false, by decide⟩, by decide, by decide⟩

/-! ### SecurityMailboxesAnswer -/

/-- The island is ready and no VF is enabled. -/
def secState : State := wr State.reset SEC_STAT_READY 1

theorem wit_SecurityMailboxesAnswer :
    isSet secState SEC_STAT_READY = true ∧ secState.hif.numVfs < 15 ∧
    (∃ b, (measurementBlocks secState 0).find? (fun e => e.1 == 1) = some b) ∧
    (∀ b ∈ measurementBlocks secState 0, b.1 ≠ 7) :=
  ⟨by decide, by decide, ⟨_, rfl⟩, by simp [measurementBlocks, seenHandles, show secState.handles = [] from rfl]⟩

/-! ### SessionsAndKeySlots -/

/-- The same island with one session of the PF, finished or not, and key slot 31 owned by a function. -/
def sessState (fin : Bool) (own : Nat) : State :=
  { secState with sec := { secState.sec with sessions := [⟨3, 0, fin⟩], nextSession := 4, owners := [(31, own)] } }

theorem wit_SessionsAndKeySlots :
    mailbox (sessState false 0) 0 = true ∧ (sessionsOf (sessState false 0) 0).length < 4 ∧
    32 ≤ ({ secState with sec := { secState.sec with sessions := List.replicate 32 ⟨1, 1, true⟩ } } : State).sec.sessions.length ∧
    session? (sessState false 0) 0 3 = some ⟨3, 0, false⟩ ∧ session? (sessState true 1) 0 3 = some ⟨3, 0, true⟩ ∧
    tget 0 (sessState true 1).sec.owners 31 = 0 + 1 ∧ lowestSlot (sessState true 1) = some 1 ∧ (sessState true 1).parts = [] ∧ tget 0 (sessState true 2).sec.owners 31 = 2 ∧
    session? (sessState true 1) 0 4 = none := by decide

/-! ### AttestationReportIsWritten -/

theorem wit_AttestationReportIsWritten : let h := { hostPkt with replyLen := 0x1000 }
    accepted hostState h 0x71 .any false = true ∧ 640 + 112 * (seenHandles hostState h.fn).length ≤ 0x1000 ∧
    (ring hostState 0 0).cfg.cqBase + 32 * (ring hostState 0 0).cqTail + 32 ≤ h.replyAddr.toNat := by decide

/-! ### DebugAccessesReadAndWrite -/

/-- The supplies are good and the link is up; cluster 0 is ACTIVE, mapped to P0, and the aperture shows its memories. -/
def dbgState : State :=
  let s := wr (wr hostState BMC_STAT_STAGE 3) SEC_APT_BASE_BASE 0x100
  { s with boot := { s.boot with released := true, perst := false }, hif := { s.hif with refclk := true } }

theorem wit_DebugAccessesReadAndWrite :
    apertureOn dbgState = true ∧ debugOn dbgState = true ∧ rd dbgState SEC_APT_BASE_BASE * 0x400000 + 0x100000 = 0x40100000 ∧
    regionOf dbgState 0x40100000 = .cluMem 0 ∧ cluPart dbgState 0 < 16 ∧ apertureOn State.reset = false ∧ debugOn State.reset = false ∧
    rd (wr dbgState SEC_APT_BASE_BASE 0x88) SEC_APT_BASE_BASE * 0x400000 + 0x14 = 0x22000014 ∧
    regionOf dbgState 0x12000000 ≠ .reg ∧ errorFree dbgState = true ∧ cellOf 0x40100000 = some (0, 4, 0, 0) ∧
    (tget {} (clu dbgState 0).scrub (bankKey 4 0 0)).writeBack = none := by decide

/-- In that state no 8-byte access waits for a write-back. -/
theorem wit_DebugAccessesReadAndWrite_ready :
    ¬∃ c m k w, cellOf 0x40100000 = some (c, m, k, w) ∧ ¬noWriteBack dbgState c m k [w] := by
  rintro ⟨c, m, k, w, h, hw⟩
  obtain ⟨rfl, rfl, rfl, rfl⟩ : 0 = c ∧ 4 = m ∧ 0 = k ∧ 0 = w := by simpa [show cellOf 0x40100000 = some (0, 4, 0, 0) by decide] using h
  refine hw fun v hv => ?_
  obtain rfl : v = 0 := by simpa using hv
  decide

/-! ### SessionsHaltsAndSemaphores -/

/-- A session is open, the debugger holds semaphore 31, and pair B has the state given. -/
def haltState (st : Nat) : State :=
  wr (wr (wr (wr (wr dbgState SEC_DBG_STAT_ACTIVE 1) (PLN_SEM_HELD 31) 1) (PLN_SEM_OWNER 31) 2) FLT_LOCKSTEP_STATE_B st)
    PLN_DBGCTL_HALTED_B (b2n (st == 4))

theorem wit_SessionsHaltsAndSemaphores :
    debugOn (haltState 0) = true ∧ isSet (haltState 0) SEC_DBG_STAT_ACTIVE = true ∧ anyHalted (haltState 0) = false ∧
    anyHalted (haltState 4) = true ∧ pairState (haltState 1) true < 2 ∧ pairState (haltState 4) true = 4 ∧
    (pairOf (haltState 4) true).before < 2 ∧ isSet (haltState 0) (CLU_MAP_MAPPED 0) = true ∧ isSet (haltState 0) (CLU_MAP_MAPPED 33) = false ∧
    thrState (haltState 0) 0 = 1 ∧ isSet (haltState 0) (PLN_SEM_HELD 31) = true ∧ isSet (haltState 0) (PLN_SEM_HELD 0) = false ∧
    rd (haltState 0) (PLN_SEM_OWNER 31) = (2 : Fin 3) ∧ rd (haltState 0) PLN_SEM_CFG_HOLD_LIM ≠ 0 ∧ timersPause (haltState 0) = false ∧
    timersPause (haltState 4) = true ∧ thrState (wr (haltState 0) (thrField 7) 7) 7 = 7 := by decide

/-! ### SuppliesAndResetsTakeTheDevice -/

/-- A device in a stage, its supplies good, with the power-down it is in. -/
def stageState (st : Nat) (d : Option DownBy) (released : Bool) : State :=
  let s := wr (wr State.reset BMC_STAT_STAGE st) BMC_RAILS_GOOD 0x7FF
  { s with boot := { s.boot with released := released, down := d } }

theorem wit_SuppliesAndResetsTakeTheDevice :
    (stageState 3 none true).boot.released = true ∧ (stageState 3 none true).boot.down = none ∧ stage (stageState 0 none true) = 0 ∧
    (stageState 0 none true).boot.held = false ∧ stage (stageState 6 (some .bmc) true) = 6 ∧ stage (stageState 7 (some .refclk) true) = 7 ∧
    (stageState 7 (some .refclk) true).boot.down = some .refclk ∧ rd (stageState 7 (some .refclk) true) BMC_RAILS_GOOD = 0x7FF ∧
    (stageState 0 none false).boot.released = false ∧ (1 : BitVec 11) ≠ 0 ∧ (1 : BitVec 11).getLsbD 3 = false ∧
    (8 : BitVec 11).getLsbD 3 = true ∧ rd (wr (stageState 3 none true) (CLU_STAT_STATE 33) 5) (CLU_STAT_STATE 33) = 5 ∧
    bit (rd (stageState 3 none true) BMC_RAILS_GOOD) 8 = true ∧ bit (rd State.reset BMC_RAILS_GOOD) 8 = false := by decide

/-! ### BootAndFirmwareUpdate -/

/-- An image the ROM accepts, with a board record that passes R567 or not. -/
def goodImage (ok : Bool) : FwImage :=
  { magicOk := true, imageLen := 4096, version := 2, svn := 3, keyIdx := 0, hoVer := 1, hoMin := 1, hoMax := 1, raiseSvn := true, keyOk := true,
    sigOk := true, digest := 77, boardDigest := 78,
    board := { ver := 1, dramType := 0, dramRate := 0, dramDens := 0, dramRanks := 0, cap := 0, div := 0, vmin := 0, eBoard := 0,
               p0Clusters := 8, maxOp := 6, p0Q2 := 0, p0Q3 := 0, limit := 150, vreg := 0, i3c := 0, ok := ok } }

/-- No firmware key is revoked and the fused version is 0. -/
def fuseState (s : State) : State :=
  { s with regs := tset SEC_BOOT_FWKEY_REV.key 0 (tset SEC_BOOT_FUSED_SVN.key 0 s.regs) }

/-- The boot flash holds the image in slot A; the image runs from slot B or not; the Plinth and the stage are as given. -/
def bootState (st : Nat) (p : Plinth) (img : Option FwImage) : State :=
  let s := fuseState (wr State.reset BMC_STAT_STAGE st)
  { s with boot := { s.boot with released := true, pln := p, image := img, slot := 1, stopped := true,
                                 flash := { ctl0 := some { seq := 4, active := 0, trial := 0xFF, reverted := false, activeVer := 1 },
                                            slotA := some (goodImage true) },
                                 staged := some 0, activate := some { fn := 0, ring := 0, sqIdx := 0, opcode := 0x7D, tag := 0, noIrq := false,
                                                                      part := 0, key := 0 } } }

theorem wit_BootAndFirmwareUpdate :
    stage (bootState 1 .stopped none) = 1 ∧ goodSlot (bootState 1 .stopped none) 0 = some (goodImage true) ∧
    (ctlNow (bootState 1 .stopped none)).trial = 0xFF ∧ boardOk (goodImage true).board = true ∧ boardOk (goodImage false).board = false ∧
    isSet (wr State.reset MEM_STAT_READY 1) MEM_STAT_READY = true ∧ isSet (bootDram State.reset (goodImage true).board 0) MEM_STAT_READY = false ∧
    (bootState 3 .up (some (goodImage true))).boot.staged = some 0 ∧ (bootState 3 .up (some (goodImage true))).units = [] ∧
    (bootState 4 .trial (some (goodImage true))).boot.pln = .trial ∧ (bootState 4 .trial (some (goodImage true))).flash.records = [] ∧
    isSet (bootState 4 .trial (some (goodImage true))) FLT_WDOG_CTRL_CONFIRMED = false ∧
    slotImage (bootState 4 .trial (some (goodImage true))) 0 = some (goodImage true) ∧
    goodSlot (bootState 4 .trial (some (goodImage true))) (ctlNow (bootState 4 .trial (some (goodImage true)))).active = some (goodImage true) ∧
    rd (bootState 4 .trial none) SEC_BOOT_FUSED_SVN < 3 := by decide

/-- With empty slots the ROM accepts nothing. -/
theorem wit_BootAndFirmwareUpdate_none : ∀ k, goodSlot State.reset k = none := by
  intro k
  have h : slotImage State.reset k = none := by unfold slotImage; split <;> rfl
  simp [goodSlot, h]

/-- An image on trial over empty slots. -/
def lostTrial : State := { State.reset with boot := { State.reset.boot with pln := .trial, image := some (goodImage true) } }

theorem wit_BootAndFirmwareUpdate_trial : lostTrial.boot.pln = .trial ∧ lostTrial.boot.image = some (goodImage true) ∧
    isSet lostTrial FLT_WDOG_CTRL_CONFIRMED = false ∧ lostTrial.boot.down = none ∧ (∀ k, goodSlot lostTrial k = none) := by
  refine ⟨rfl, rfl, by decide, rfl, fun k => ?_⟩
  have h : slotImage lostTrial k = none := by unfold slotImage; split <;> rfl
  simp [goodSlot, h]

/-- The host's packets reach a device that runs the image from slot B. -/
def updateState (st : Option Nat) : State :=
  { fuseState hostState with boot := { hostState.boot with image := some (goodImage true), slot := 1, staged := st } }

theorem wit_BootAndFirmwareUpdate_packets :
    accepted (updateState none) hostPkt 0x7C .any true = true ∧ stageFailure (updateState none) 4096 0 (goodImage true) = none ∧
    stageFailure (updateState none) 4096 1 (goodImage true) = some 0x21 ∧ accepted (updateState (some 0)) hostPkt 0x7D .any true = true ∧
    (updateState (some 0)).boot.staged ≠ none ∧ (updateState (some 0)).boot.activate = none ∧ (updateState (some 0)).flash.jobs = [] ∧
    (∀ e ∈ (updateState (some 0)).parts, e.2.cast = none) ∧ (updateState none).boot.staged = none := by decide

/-! ### LinesAreSentAtTheirTicks -/

/-- A tiny picture of 2 x 2 pixels at 12 bits on one link. -/
def tinyCfg : DisplayCfg :=
  { enable := true, interp := false, dualIn := false, coef := none, txLanes := 4, txRate := 4, rxRate := 4, hActive := 2, vActive := 2,
    hTotal := 4, vTotal := 50, pixKhz := 1000, dscBpp := 0, dscSlices := 0, links := 1, depth := 12, edp := false, rxLanes := 4, iw := 2,
    ih := 2, inFrameNs := 1000000, fill := 0x3FF }

/-- An Armature of one cluster, DIRECT or RESIDUAL, two segments a line, whose ticks have no program. -/
def tinyArm (direct : Bool) : Armature :=
  { armId := 7, modeIdx := 0, clusters := 1, haloIn := 0, direct, rshift := 0, inFmt := 0, segs := 2, hActive := 2, vActive := 2, hTotal := 4,
    vTotal := 50, pixKhz := 1000, links := 1, depth := 12, dscBpp := 0, dscSlices := 0, edp := false, iw := 2, ih := 2, inPeriod := 512,
    p := 1, q := 1, proofOp := 2, proofUtil := 800, proofTick := 0, proofCore := 0, dramBudget := 0, ntick := 50, ticks := [], pzTicks := [],
    progs := [], descs := [], binding := 0x55, formatOk := true }

/-- The display runs at tick `t`, frame 1, TX0 trained, NEURAL_EN as given; bank 0 holds the Armature; both input rows have come in
`rows`; line t - 40 is chosen as in `buf`. -/
def dispState (t : Nat) (neural direct lost rows : Bool) (segs : List (Nat × List Pixel)) (buf : List (Nat × Option (List Pixel)) := []) :
    State :=
  let s := wr (wr (wr hostState DSP_CTRL_ENABLE 1) DSP_FRAME_CNT_FRAMES 1) DSP_CTRL_NEURAL_EN (b2n neural)
  let s := wr (wr (wr s (DSP_TX_STAT_TRAINED 0) 1) (CLU_STAT_STATE 0) 2) DSP_FILL_BLUE 0x3FF
  let row : List Pixel := [⟨100, 0, 0⟩, ⟨200, 0, 0⟩]
  { s with dsp := { s.dsp with cfg := some tinyCfg, bank0 := some (tinyArm direct), tick := t, inLost := lost, inFrames := 1, clusters := [0]
                               segs := [(t - 37, segs)], rows := if rows then [(0, row), (2, row)] else []
                               fallback := if rows then [(0, row), (1, row)] else []
                               linkBuf := buf.map fun b => (t - 40, b)
                               lastLines := if rows then [(0, [⟨1, 2, 3⟩, ⟨4, 5, 6⟩])] else [], coef := some (List.replicate 512 32) } }

theorem wit_LinesAreSentAtTheirTicks :
    let s := dispState 38 true true false false [(0, [⟨0x3F80, 0, 0⟩]), (1, [⟨0, 0, 0⟩])]
    s.dsp.cfg = some tinyCfg ∧ isSet s DSP_CTRL_ENABLE = true ∧ rd s DSP_FRAME_CNT_FRAMES ≠ 0 ∧ rd s BMC_STAT_STAGE ≠ 7 ∧
    38 < tinyCfg.vTotal ∧ tinyCfg.links ≤ 2 ∧ tinyCfg.depth = 12 ∧ isMaster s = false ∧
    neuralChosen s = true ∧ s.boot.down = none ∧ (activeArm s).map (·.direct) = some true ∧ s.dsp.takeover = false ∧
    ((tfind 1 s.dsp.segs).getD []).length = 2 ∧ fallbackLine (dispState 38 true true false false []) tinyCfg 1 = none := by decide

theorem wit_LinesAreSentAtTheirTicks_fallback :
    let s := dispState 38 true false false true []
    (activeArm s).map (·.direct) = some false ∧ superRes s = true ∧
    (fallbackLine s tinyCfg 1).map (fun l => decide (∀ p ∈ l, p.a < 4096 ∧ p.b < 4096 ∧ p.c < 4096)) = some true ∧
    neuralChosen (dispState 38 false false false true []) = false ∧ (dispState 38 true true true false []).dsp.inLost = true ∧
    isSet s (DSP_TX_STAT_TRAINED 0) = true ∧ (dispState 5 true true false false []).dsp.tick = 5 := by decide

theorem wit_LinesAreSentAtTheirTicks_sent :
    tfind 1 (dispState 41 true true false true [] [(2, some [⟨7, 8, 9⟩])]).dsp.linkBuf = some (2, some [⟨7, 8, 9⟩]) ∧
    tfind 1 (dispState 41 true true false true [] [(3, none)]).dsp.linkBuf = some (3, none) ∧
    (tfind 0 (dispState 41 true true false true [] [(3, none)]).dsp.lastLines).isSome = true ∧
    tfind 0 (dispState 41 true true false false [] [(3, none)]).dsp.lastLines = none ∧ 41 < 40 + tinyCfg.vActive ∧
    rd (wr State.reset BMC_STAT_STAGE 7) BMC_STAT_STAGE = 7 ∧ tinyCfg.vTotal ≤ (dispState 50 true true false false []).dsp.tick := by decide

/-! ### TickProgramEntriesAct -/

/-- The same display with entries due; logical cluster 0 is mapped to physical cluster 0; the Armature's one descriptor copies 6 bytes of
CM of cluster 0 to CM. -/
def progState (l : List ArmEntry) : State :=
  let s := wr (wr (dispState 5 true true false true []) (CLU_MAP_MAPPED 0) 1) (CLU_STAT_STATE 0) 2
  let d : Desc := { fillDesc with srcTier := 1, dstTier := 1, xform := 0, arg := 0, e0 := 6 }
  { s with dsp := { s.dsp with prog := l, bank0 := some { tinyArm true with descs := [d] } }
           parts := [(0, { owner := 0, logical := [0], clSet := 1, keySlot := 1, quota := ⟨0, 0, 0, 0, []⟩, ringFirst := 0, ringCount := 1,
                           minRate := 0 })] }

theorem wit_TickProgramEntriesAct : let disp := progState [.dispatch 0 3 2 64 9]
    armPhys disp 0 = some 0 ∧ thrState disp (coreNo 0 3 * 8 + 2) = 0 ∧ thrState (wr disp (thrField 26) 7) 26 = 7 ∧
    rd disp (CLU_STAT_STATE 0) = 2 ∧ bit disp.flt.traceMask 2 = false ∧ (core (progState [.credit 0 1 false 3]) 1).arr = [] ∧
    (progState [.segment 4 0 false]).dsp.checked = 0 ∧ (progState [.frame 64]).dsp.clusters = [0] ∧ physOf (progState [.frame 64]) 0 = some 0 ∧
    (∀ i < 16, (tget {} (clu (progState [.frame 64]) 0).scrub (bankKey 4 0 i)).writeBack = none) := by decide

theorem wit_TickProgramEntriesAct_running :
    let s := wr (progState [.dispatch 0 3 2 64 9]) (thrField 26) 1
    let s := setThr { s with units := [(3, { part := 0, kind := .armature, threads := [26] })] } 26 { unit := some 3 }
    thrState s 26 = 1 ∧ (thr s 26).unit = some 3 ∧ s.nextUnit ≠ 3 ∧ (core s 3).arr = [] := by decide

/-- A move into a memory of P0: queued, or fed from the row of two pixels that the line store holds. -/
theorem wit_TickProgramEntriesAct_move : let s := progState [.move 0, .frame 0]; let f : Feed := ⟨false, 0, 0⟩
    ∃ a d e l, activeArm s = some a ∧ a.descs[0]? = some d ∧ s.dsp.cfg = some tinyCfg ∧ entryCluster s d = some 0 ∧ tget [] s.moveWait 0 = [] ∧
      (moveQueue s 0 64).length < 8 ∧ descBad d false = false ∧ isCopy d = true ∧ oneRow d ∧ bit d.flags 0 = false ∧
      endpoint s 0 (some 0) 0 d.dstTier d.dst = some e ∧ d.e0 ≤ e.room ∧ errorFree s = true ∧
      (feedRow s tinyCfg f).map (fun l => l.flatMap fun p : Pixel => inBytes a.inFmt p.a ++ inBytes a.inFmt p.b ++ inBytes a.inFmt p.c) = some l ∧
      d.e0 ≤ l.length :=
  ⟨_, _, _, _, rfl, rfl, rfl, by decide, rfl, by decide, by decide, rfl, ⟨rfl, rfl, rfl⟩, by decide, rfl, by decide, rfl, rfl, by decide⟩

/-- Its one SEGMENT entry taken; the segment's move, which reads the six bytes of one pixel of CM, is named. -/
def segState : State := progState []
def segDesc : Desc := { fillDesc with srcTier := 1, dstTier := 1, xform := 0, arg := 0, e0 := 6 }

theorem wit_TickProgramEntriesAct_segment :
    (activeArm segState).isSome = true ∧ segmentData segState segDesc = (some [0, 0, 0, 0, 0, 0], segState) ∧
    segState.dsp.checked ≤ 4 ∧ 4 < segState.dsp.checked + 32 := by
  have he : endpoint segState 0 (some 0) 0 segDesc.srcTier segDesc.src = some ⟨false, 0, 0x40100000, 1048576⟩ := by decide
  have hb : (descBad { segDesc with dst := 0, dstTier := 1, flags := 0 } false || !isCopy segDesc || segDesc.comp != 0) = false := by decide
  refine ⟨by decide, Prod.ext (by decide) ?_, by decide, by decide⟩
  simp only [segmentData, show entryCluster segState segDesc = some 0 by decide, show sourceCore segState segDesc = none by decide, he,
    Bool.false_or, hb, show needSrc segDesc = 6 by decide, readBytes_of_clean (errorFree.clean (s := segState) (by decide))]
  have hc : segState.clusters = [] := rfl
  rw [settleAllDoomed_of_calm fun n _ => by simp [clu, hc, tget, tfind]]
  simp

/-! ### FramesBeginAtTheirBase -/

/-- The display runs with nothing waiting for its frame boundary; `arm`: an Armature is active, `pend`: one waits in the standby bank. -/
def frameState (neural arm pend : Bool) : State :=
  let s := wr (wr (dispState 50 neural true false false []) DSP_SUBST_THR_TAKEOVER 0) DSP_STAT_ARM_PEND (b2n pend)
  { s with dsp := { s.dsp with bank0 := if arm then some (tinyArm true) else none, bank1 := if pend then some (tinyArm true) else none
                               late := 3, lateFrames := 1 } }

theorem wit_FramesBeginAtTheirBase :
    let s := frameState false false false
    s.dsp.cfg.isSome = true ∧ isSet s DSP_CTRL_ENABLE = true ∧ rd s DSP_FRAME_CNT_FRAMES ≠ 0 ∧ s.poison = [] ∧ s.clusters = [] ∧
    s.span.cutLock = false ∧
    isMaster s = false ∧ isMember s = false ∧ s.dsp.next = none ∧ isSet s DSP_CTRL_RETRY_NOW = false ∧ s.dsp.modes = [] ∧
    isSet s DSP_CNT_CLR_CLR = false ∧ activeArm s = none ∧ isSet s DSP_STAT_ARM_PEND = false ∧ isSet s DSP_CTRL_NEURAL_EN = false ∧
    s.dsp.floorLost = false ∧ isSet (wr s (HIF_STAT_STALE 0) 0) (HIF_STAT_STALE 0) = false ∧
    ((tfind 0 s.parts).map fun x => (x.joining, x.leaving, x.resize)) = some ([], [], none) ∧ isSet (wr s DSP_CNT_CLR_CLR 1) DSP_CNT_CLR_CLR = true := by
  decide

theorem wit_FramesBeginAtTheirBase_takeover :
    let s := wr (frameState true true false) DSP_SUBST_THR_TAKEOVER 2
    neuralChosen s = true ∧ (activeArm s).isSome = true ∧ rd s DSP_STAT_CAUSE_SET = 0 ∧ s.dsp.takeover = false ∧ 2 ≤ s.dsp.late ∧
    s.dsp.lateFrames = 1 ∧ s.dsp.inLost = false ∧ s.dsp.floorLost = false ∧ (tinyArm true).clusters ≤ (p0Clusters s).length ∧ s.repl = [] ∧
    (∀ l ∈ s.dsp.clusters, l ∈ p0Clusters s ∧ (physOf s l).isSome = true) ∧
    (standbyArm (frameState false false true)).isSome = true ∧ rd s DSP_STAT_ARM_BANK ≤ 1 := by decide

/-- A DISPLAY_MODE of fallback only, given 100 µs or less before. -/
theorem wit_FramesBeginAtTheirBase_mode :
    let c : Cmd := ⟨0, 0, 0, 0x5A, 7, false, 0, 0⟩
    let m : DisplayMode := ⟨false, false, false, 1, 1, 0⟩
    let s := frameState false false false
    let s := { s with dsp := { s.dsp with modes := [(c, m, 5)] }, hif := { s.hif with cmds := [c] } }
    s.dsp.modes = [(c, m, 5)] ∧ s.hif.cmds = [c] ∧ m.neural = false ∧ m.swap = false ∧ s.time < 5 + 10000 ∧
    5 + 10000 ≤ ({ s with time := 10005 } : State).time ∧ rd s DSP_SUBST_THR_TAKEOVER = 0 := by decide

theorem wit_FramesBeginAtTheirBase_retry :
    let s := wr (frameState true true false) DSP_STAT_CAUSE_SET 1
    hasCause s 1 = true ∧ rd s DSP_CTRL_AUTO_RETRY ≠ 0 ∧ isSet State.reset DSP_CTRL_ENABLE = false ∧ State.reset.dsp.cfg = none := by decide

/-! ### InputsAndLinksAreFollowed -/

theorem wit_InputsAndLinksAreFollowed :
    let s := dispState 5 true true false false []
    ctxState s 0 = 0 ∧ ctxState s 1 = 0 ∧ s.dsp.inFrames = 1 ∧ superRes s = true ∧ portUp s 0 = false ∧ portUp s 1 = false ∧
    hasCause s 6 = false ∧ hasCause s 4 = false ∧ neuralChosen s = true ∧ s.dsp.takeover = false ∧ tinyCfg.dualIn = false ∧
    inTrack s = true ∧ inTrack { s with dsp := { s.dsp with inPeriod := 1003000000 } } = true ∧
    inTrack { s with dsp := { s.dsp with inPeriod := 1003000001 } } = false ∧
    ({ tinyCfg with dualIn := true }).dualIn = true ∧ s.dsp.rows = [] ∧ 1 < tinyCfg.ih ∧ ¬(2 < tinyCfg.ih) ∧
    tinyCfg.links ≤ 1 ∧ 0 < tinyCfg.links := by decide

/-- In interpolation after two input frames a field of vectors in reach is kept, one out of reach is not. -/
theorem wit_InputsAndLinksAreFollowed_field :
    let s := dispState 5 true true false false []
    let s := { s with dsp := { s.dsp with p := 2, inFrames := 2, cfg := some { tinyCfg with interp := true } } }
    superRes s = false ∧ s.dsp.cfg = some { tinyCfg with interp := true } ∧ fieldBlocks { tinyCfg with interp := true } = 1 ∧
    vectorsOk (([] : List (BitVec 54)).getD 0 0).toNat = true ∧ vectorsOk ((200 : BitVec 54).toNat * 2 ^ 44 * 1024) = false := by decide

/-! ### DisplayPacketsConfigure -/

/-- A 1080p configuration of one link without interpolation. -/
def hdCfg : DisplayCfg :=
  { tinyCfg with txRate := 4, hActive := 1920, vActive := 1080, hTotal := 2200, vTotal := 1125, pixKhz := 148500, depth := 8,
                 iw := 1920, ih := 1080, inFrameNs := 16666667, enable := true }

/-- A small output mode, and an Armature of four clusters for it. -/
def miniCfg : DisplayCfg := { tinyCfg with vTotal := 6 }
def miniArm : Armature :=
  { tinyArm true with vTotal := 6, ntick := 6, clusters := 4, ticks := [0, 65535, 65535, 65535, 65535, 65535], progs := [[.frame 64]] }

/-- P0 has four clusters; handle 5 holds a resident display maquette of P0 with one Armature. -/
def schedState (a : Armature) : State :=
  let man : Manifest := { emptyMan with kind := 3, nmode := 1, arms := [a], content := 0x55 }
  { growState with handles := [(5, { part := 0, slot := some 255, man := man, st := 1, verified := true, inT2 := [], wm := false, evict := none })]
                   dsp := { growState.dsp with cfg := some miniCfg } }

theorem wit_DisplayPacketsConfigure :
    accepted hostState hostPkt 0x58 .any true = true ∧ accepted hostState hostPkt 0x59 .any true = true ∧
    accepted hostState hostPkt 0x5A .any true = true ∧ configOk hdCfg = true ∧ configOk tinyCfg = false ∧ activeArm hostState = none ∧
    hostState.dsp.cfg = none ∧ hostState.dsp.next = none ∧ hostState.dsp.region ≤ granCount hostState ∧ regionFits hostState 1 = false ∧
    retrains hdCfg { hdCfg with fill := 1 } = false ∧ regionFits (wr hostState MEM_STAT_SIZE 1) (regionNeed hdCfg) = true ∧
    hdCfg.enable = true := by decide

theorem wit_DisplayPacketsConfigure_schedule :
    let s := schedState miniArm
    accepted s hostPkt 0x59 .any true = true ∧ slotPlain s hostPkt ∧
    (tfind 5 s.handles).map (fun x => (x.verified, x.st, x.part, x.man.kind, forcedOut x, armatureOk x.man miniArm)) =
      some (true, 1, 0, 3, false, true) ∧
    (tfind 5 s.handles).map (fun x => (x.man.content, armatureOk x.man { miniArm with segs := 0 })) = some (miniArm.binding, false) ∧
    miniArm.proofOp = 2 ∧ miniArm.proofUtil ≤ 850 ∧ miniArm.dramBudget ≤ 2400 ∧ modeEq miniArm miniCfg = true ∧
    paceOk s miniArm miniCfg = true ∧ miniArm.clusters ≤ (p0Clusters s).length ∧ (p0Clusters s).length < { miniArm with clusters := 5 }.clusters ∧
    phasesOk s miniCfg ⟨true, false, false, 1, 1, 0⟩ = true :=
  ⟨by decide, ⟨by decide, by decide⟩, by decide, by decide, by decide, by decide, by decide, by decide, by decide, by decide, by decide, by decide⟩

/-! ### QueriesAndQuantumBoundariesAnswer -/

/-- A reply buffer of 4 KiB for the PF's packet, away from its ring. -/
def queryPkt (part : Nat) : Pkt := { hostPkt with part := part, replyAddr := 0x100000, replyLen := 4096 }

theorem wit_QueriesAndQuantumBoundariesAnswer :
    let s := serveState .ready false
    let b := (ring s 0 0).cfg.cqBase + 32 * (ring s 0 0).cqTail
    accepted s (queryPkt 0) 0x02 .control false = true ∧ accepted s (queryPkt 0) 0x02 .any false = true ∧ partScope 1 = true ∧ partScope 6 = false ∧
    (0x100000 + 4096 ≤ b ∨ b + 32 ≤ 0x100000) ∧ (tfind 0 s.parts).isSome = true ∧ (queryReqs s 0).length = 1 := by decide

/-- The Plinth is stopped, the thermal trip stands, one unit ends its second quantum. -/
def hangState : State :=
  let s := wr hostState (thrField 5) 1
  { s with boot := { s.boot with pln := .stopped }, pwr := { s.pwr with trip := true }
           units := [(0, { part := 0, kind := .other, threads := [5], age := 1 })] }

theorem wit_QueriesAndQuantumBoundariesAnswer_quantum :
    plinthRuns hangState = false ∧ hangState.pwr.trip = true ∧ thrState hangState 5 = 1 ∧ (thr hangState 5).wait = .none ∧
    hangState.span.step = none ∧ hangState.boot.pln ≠ .up ∧
    hangState.cam = [] ∧
    mayStart (progState [.frame 0]) ⟨0, .other, [(0, 3, 2, 64)], true⟩ = true ∧
    startThreadNo (progState [.frame 0]) 0 false (0, 3, 2, 64) = some 26 := by decide

/-! ### FramesOpenAndCloseAtTicks -/

/-- A binding of partition 1 whose records go to the PF's ring 0. -/
def camBind : Binding := { gen := 2, part := 1, handle := 63, entry := 0, fn := 0, ring := 0, d := 1, scale := 0, pipe := 0, bufs := [64, 128, 192], charge := 0 }

/-- Context `c` in a state, on CSI0 channel 3 with YUV 4:2:2, bound when `bind`, with the given frames; partition 1 has cluster 1 when
`clusters`. -/
def camState (c st : Nat) (bind clusters : Bool) (frames : List Frame) : State :=
  let s := wr (wr (wr (wr hostState (CAM_CTX_CFG_STATE c) st) (CAM_CTX_CFG_VC c) 3) (CAM_CTX_CFG_DT c) 0x1E) (CAM_PORT_CFG_ENABLE 0) 1
  let q : Part := { owner := 0, logical := if clusters then [1] else [], clSet := 1, keySlot := 2, quota := ⟨2 ^ 31, 0, 0, 0, []⟩,
                    ringFirst := 1, ringCount := 1, minRate := 0 }
  setCtx { s with parts := s.parts ++ [(1, q)] } c
    { w := 8, h := 4, tp := 1000, bind := if bind then some camBind else none, frames }

/-- A frame of tick 0. -/
def camFrame (stage : FrameStage) (close lines : Nat) : Frame := { no := 0, time := 0, close, buf := 0, bind := camBind, stage, lines }

theorem wit_FramesOpenAndCloseAtTicks :
    portOn (camState 5 1 false true []) 0 = true ∧ portOn (camState 5 1 false true []) 1 = false ∧
    vcCtxs (camState 5 1 false true []) 0 3 = [5] ∧ (ctx (camState 5 1 false true []) 5).bind = none ∧
    fenced (camState 5 2 true true []) 1 = false ∧ bit (camState 5 2 true true []).flt.traceMask 1 = false ∧
    noClusters (camState 5 2 true true []) 1 = false ∧ noClusters (camState 5 2 true false []) 1 = true ∧
    freeBuf (ctx (camState 5 2 true true []) 5) 2 = some 0 ∧ freeBuf { ctx (camState 5 2 true true []) 5 with held := [8, 9, 10] } 2 = none ∧
    (ctx (camState 5 2 true true []) 5).bindCmd = none ∧ (ctx (camState 5 2 true true []) 5).closing = none ∧ listedType 0x1E = true ∧
    isSet (wr (camState 5 2 true true []) (CAM_CTX_CFG_RAW 5) 1) (CAM_CTX_CFG_RAW 5) = true ∧
    (ctx (camState 5 2 true true [camFrame .released 1 4]) 5).frames = [camFrame .released 1 4] ∧
    rd (camState 5 2 true true []) (CAM_CTX_TICKS_TICKS 5) = 0 ∧ rd (camState 5 2 true true []) (CAM_CTX_CFG_DT 5) = 0x1E ∧
    isSet (camState 5 2 true true []) (CAM_CTX_CFG_RAW 5) = false ∧ rd (camState 5 2 true true []) (CAM_CTX_CFG_KIND 5) = 1 := by decide

theorem wit_FramesOpenAndCloseAtTicks_rings :
    let r := ring (camState 40 2 true true []) 0 0
    r.state = .enabled ∧ r.waiting = [] ∧ cqRoom r = true ∧ r.cfg.tailAddr = 0 ∧ r.cfg.cqBase + 32 * r.cqTail + 32 ≤ 2 ^ 64 ∧
    rd (camState 40 2 true true []) (CAM_CTX_CFG_KIND 40) = 2 ∧ rd (camState 1 2 true true []) (CAM_CTX_CFG_KIND 1) = 0 ∧
    ctxState (camState 5 3 true true []) 5 = 3 ∧ (r.sqTail + 2 ^ r.cfg.sqLog2 - r.sqHead) % 2 ^ r.cfg.sqLog2 = 1 ∧
    (pushDesc (camState 40 2 true true []) 0 0 (r.sqHead % 2 ^ r.cfg.sqLog2)).ok = false := by decide

/-- The one descriptor posted names a frame of 8 x 4 in T4. -/
def pushState : State :=
  let s := camState 40 2 true true []
  let r := ring s 0 0
  let a := r.cfg.sqBase + 64 * r.sqHead
  hwrN (hwrN (hwrN (hwrN s 0 (a + 8) 1 4) 0 (a + 12) 2 8) 0 (a + 14) 2 4) 0 (a + 16) 4 64

theorem wit_FramesOpenAndCloseAtTicks_push :
    let d := pushDesc pushState 0 0 ((ring pushState 0 0).sqHead % 2 ^ (ring pushState 0 0).cfg.sqLog2)
    d.ok = true ∧ pushBytes d ≤ 3 * (ctx pushState 40).w * (ctx pushState 40).h ∧ pushReach pushState 1 d = true ∧
    freeBuf (ctx pushState 40) 2 = some 0 ∧ noClusters pushState 1 = false := by decide

/-! ### StreamsOpenBindAndClose -/

/-- Context 5 opens CSI0 channel 3 in YUV 4:2:2. -/
def openParams : StreamOpen :=
  { ctx := 5, port := 0, phy := 0, lanes := 2, rate := 50, vc := 3, dt := 0x1E, w := 64, h := 4, period := 33333, ring := 0, dropDamaged := true }

/-- Context 5 is OPEN; handle 63 is a resident VISION maquette of partition 1, which holds ring 0. -/
def bindState : State :=
  let s := serveState .ready false
  let c := camState 5 1 false true []
  let man : Manifest := { emptyMan with roles := [1], kind := 1 }
  { c with handles := s.handles.map fun e => (e.1, { e.2 with man := man, part := 1 })
           parts := c.parts.map fun e => (e.1, { e.2 with ringFirst := 1 - e.1 }) }

def bindParams : StreamBind := { ctx := 5, handle := 63, entry := 0, d := 1, ring := 0, scale := 0, pipe := 0 }

theorem wit_StreamsOpenBindAndClose :
    accepted hostState hostPkt 0x50 .any false = true ∧ openOk hostState openParams = true ∧ ctxState hostState 5 = 0 ∧
    openOk hostState { openParams with rate := 91 } = false ∧ (portCtxs hostState 0) = [] ∧ rawType 0x1E = false ∧
    (admitPipe hostState 64 33333).isSome = true ∧ accepted bindState { hostPkt with part := 1 } 0x51 .any false = true ∧ ctxState bindState 5 = 1 ∧
    (ctx bindState 5).fn = 0 ∧ (ctx bindState 5).closing = none ∧ (ctx bindState 5).waiting = [] ∧
    (({ closing := some ⟨0, 0, 0, 0x51, 7, false, 0, 5⟩ } : Ctx).closing.isSome) = true := by decide

theorem wit_StreamsOpenBindAndClose_bind :
    accepted bindState { hostPkt with part := 1 } 0x52 .owned false = true ∧ bindOk bindState 1 63 0 = true ∧
    (tfind 1 bindState.parts).map (fun q => (q.logical, q.c2, q.quota.q2)) = some ([1], 0, 2 ^ 31) ∧
    3 * ceilDiv (frameBytes bindState 5 0 + 5120) 4096 * 4096 ≤ 2 ^ 31 ∧ castRuns bindState 1 = false ∧
    vcCtxs bindState 0 3 = [5] ∧ isSet bindState (CAM_CTX_CFG_RAW 5) = false ∧ bufReach bindState 1 bindParams.pipe false = false := by decide

/-- A binding, or a closing, that waits for the next tick of context 5. -/
theorem wit_StreamsOpenBindAndClose_tick : let k : Cmd := ⟨0, 0, 0, 0x52, 7, false, 1, 5⟩
    let s := fun (w : Option Binding) => { setCtx bindState 5 { ctx bindState 5 with waiting := [(k, w)] } with
      hif := { bindState.hif with cmds := [k] } }
    portOn (s none) 0 = true ∧ vcCtxs (s none) 0 3 = [5] ∧ (ctx (s none) 5).waiting = [(k, none)] ∧ (s none).hif.cmds = [k] ∧
    (ctx (s none) 5).bind = none ∧ (ctx (s none) 5).bindCmd = none ∧ (ctx (s none) 5).frames = [] ∧ ctxState (s none) 5 ≠ 3 ∧
    (ctx (s (some camBind)) 5).waiting = [(k, some camBind)] ∧ castRuns (s (some camBind)) 1 = false ∧ fenced (s (some camBind)) 1 = false ∧
    noClusters (s (some camBind)) 1 = false ∧ bit (s (some camBind)).flt.traceMask 1 = false ∧
    freeBuf (ctx (s (some camBind)) 5) 2 = some 0 := by decide

/-- A frame ring of the PF for a pushed stream. -/
theorem wit_StreamsOpenBindAndClose_push :
    let s := setRing hostState 0 5 { ring hostState 0 0 with cfg := { (ring hostState 0 0).cfg with kind := 1 } }
    (ring s 0 5).state = .enabled ∧ (ring s 0 5).cfg.kind = 1 ∧ ctxState s 40 = 0 := by decide

/-! ### SpanLinksTrainAndRetry -/

/-- A device of a role at position 1 of 3, both ports in a state, port 0 holding the given flits. -/
def spanState (role st : Nat) (held : List HeldFlit) : State :=
  let s := wr (wr (wr hostState SPN_CTRL_ROLE role) SPN_CTRL_POSITION 1) SPN_CTRL_COUNT_M1 2
  let s := wr (wr (wr (wr s SPN_CTRL_EN_0 1) SPN_CTRL_EN_1 1) (SPN_PORT_STAT_STATE 0) st) (SPN_PORT_STAT_STATE 1) st
  setPort s 0 { held, nextSeq := held.length }

theorem wit_SpanLinksTrainAndRetry :
    let f : HeldFlit := { seq := 0, kind := 0x10, relay := false, dst := 0xF, src := 1, body := [7], replays := 7 }
    rd (spanState 2 2 []) (SPN_PORT_STAT_STATE 0) = 2 ∧ portEn (spanState 2 1 []) 0 = true ∧ rd (spanState 2 1 []) (SPN_PORT_STAT_STATE 0) = 1 ∧
    rd (spanState 2 3 []) (SPN_PORT_STAT_STATE 1) = 3 ∧ position (spanState 2 3 []) = 1 ∧ rd (spanState 2 3 []) SPN_CTRL_COUNT_M1 + 1 = 3 ∧
    (port (spanState 2 4 [f]) 0).held = [f] ∧ (port (spanState 2 4 [f]) 0).queue = [] ∧ isMaster (spanState 2 4 [f]) = false ∧
    isMember (spanState 2 4 [f]) = true ∧ (port (spanState 2 4 [f]) 1).held = [] ∧ (port (spanState 2 4 [f]) 1).queue = [] ∧
    haloIn (spanState 2 4 []) = 0 ∧ armTicks (spanState 2 4 []) = 0 := by decide

/-! ### ChainsShareHalosTimeAndPace -/

/-- A flit head for this device alone. -/
def plainHead (seq : Fin 65536) : FlitHead := { relay := false, src := 0, dst := 15, seq, ack := 65535 }

theorem wit_ChainsShareHalosTimeAndPace :
    portUp (spanState 2 4 []) 0 = true ∧ portUp (spanState 2 2 []) 0 = false ∧ (port (spanState 2 4 []) 0).held = [] ∧
    (port (spanState 2 4 []) 0).expect = 0 ∧ isMember (spanState 2 4 []) = true ∧ isMaster (spanState 1 4 []) = true ∧
    isMember (spanState 1 4 []) = false ∧
    forMe (spanState 2 4 []) (plainHead 0) = true ∧ isSet (spanState 2 4 []) DSP_CTRL_ENABLE = false ∧
    portUp (wr (spanState 2 4 []) (SPN_PORT_STAT_STATE 1) 2) 1 = false ∧ position (spanState 1 4 []) ≠ 15 ∧
    (port (setPort (spanState 2 4 []) 0 { synced := true }) 0).synced = true ∧ (port (spanState 2 4 []) 0).synced = false ∧
    ({ plainHead 0 with src := 2 }).src ≠ 0 ∧
    accepted (spanState 1 4 []) hostPkt 0x81 .any true = true ∧ accepted hostState hostPkt 0x80 .any true = true ∧
    rd hostState SPN_CTRL_ROLE ≠ 1 ∧ (spanState 1 4 []).span.cmds = [] := by decide

/-- The master's sweep has no report yet, or holds a commit for quantum boundary 2. -/
theorem wit_ChainsShareHalosTimeAndPace_sweep : let k : Cmd := ⟨0, 0, 0, 0x81, 7, false, 0, 0⟩
    let s := { spanState 1 4 [] with span := { (spanState 1 4 []).span with reports := some [] } }
    let c := { s with span := { s.span with commit := some (0, 3, 50000), running := [k] }, hif := { s.hif with cmds := [k] } }
    s.span.reports = some [] ∧ s.span.sweep = 0 ∧ s.span.running = [] ∧ isMaster s = true ∧ 1 ≤ rd s SPN_CTRL_COUNT_M1 ∧
    rd s SPN_CTRL_COUNT_M1 = 2 ∧ rd (wr s SPN_CTRL_COUNT_M1 1) SPN_CTRL_COUNT_M1 = 1 ∧ c.span.commit = some (0, 3, 50000) ∧ c.time < 50000 ∧
    50000 ≤ ({ c with time := 50000 } : State).time ∧ c.span.running = [k] ∧ c.hif.cmds = [k] := by decide

theorem wit_ChainsShareHalosTimeAndPace_rows :
    let d := dispState 5 true true false true []
    let s := setPort (wr (wr d SPN_CTRL_EN_1 1) (SPN_PORT_STAT_STATE 1) 4) 1 { haloOk := true }
    let s := { s with dsp := { s.dsp with bank0 := some { tinyArm true with haloIn := 1 } } }
    s.dsp.cfg = some tinyCfg ∧ s.dsp.inFrames = 1 ∧ tinyCfg.dualIn = false ∧ superRes s = true ∧ portUp s 1 = true ∧ portUp s 0 = false ∧
    haloIn s = 1 ∧ portEn s 1 = true ∧ (port s 1).haloOk = true ∧ (port s 1).haloWait = false ∧ (port s 1).held = [] ∧ (port s 1).queue = [] ∧
    (s.dsp.rows.filter (fun e => e.1 % 2 == 0 && decide (storeKey 0 0 0 < e.1))).length < 12 ∧
    (storedRow s tinyCfg 0 0).isSome = true ∧ tfind (haloKey 1 0 0) s.span.halos = none ∧ s.span.missed.contains (haloKey 1 0 0) = false := by
  decide

end Sys2Proof.Machine
end

section
/-!
O5: every step keeps the invariant (spec/00_scope.md R9, R10, R37). One lemma per function that changes the state says that it keeps
it, in the order in which the model defines the functions.

The lemmas are elaborated one after another: side by side, so many waiting proofs take more memory than the check allows.
-/
set_option Elab.async false

section
/-!
O5, the tools. The invariant reads four fields of the state and no other; a register write keeps it where the field lies inside
its 32-bit register (R10).
-/
namespace Sys2Proof.Machine
open Reg Laws

/-- An answer is sound when its next state, if it has one, meets the invariant. -/
def NextInv : Out → Prop
  | .next t => Inv t
  | _ => True

/-- The field lies inside its 32-bit register and has a width; a check that evaluates on a field given by its numbers. -/
def RegField.fits (f : RegField) : Bool := Nat.ble (f.lo + f.width) 32 && Nat.blt 0 f.width

variable {s : State}

theorem fits_iff {f : RegField} : f.fits = true ↔ f.lo + f.width ≤ 32 ∧ 0 < f.width := by
  rw [RegField.fits, Bool.and_eq_true, Nat.ble_eq, Nat.blt_eq]

theorem thrField_fits (k : Nat) : (thrField k).fits = true := fits_iff.2 (thrField_fit k)

theorem evCnt_fits (n : Nat) : (evCnt n).fits = true := fits_iff.2 (by simp only [evCnt]; omega)

theorem ite_fits {c : Prop} [Decidable c] {f g : RegField} (hf : f.fits = true) (hg : g.fits = true) :
    (if c then f else g).fits = true := by
  split
  exacts [hf, hg]

theorem wr_fits_inv {f : RegField} {v : Nat} (hs : Inv s) (hf : f.fits = true := by rfl) : Inv (wr s f v) :=
  wr_inv (fits_iff.1 hf).1 (fits_iff.1 hf).2 v hs

theorem bump_fits_inv {f : RegField} {n : Nat} (hs : Inv s) (hf : f.fits = true := by rfl) : Inv (bump s f n) := wr_fits_inv hs hf

theorem tick_fits_inv {f : RegField} (hs : Inv s) (hf : f.fits = true := by rfl) : Inv (tick s f) := wr_fits_inv hs hf

theorem inv_ite {c : Prop} [Decidable c] {a b : State} (ha : Inv a) (hb : Inv b) : Inv (if c then a else b) := by
  split
  exacts [ha, hb]

theorem next_ite {c : Prop} [Decidable c] {a b : Out} (ha : NextInv a) (hb : NextInv b) : NextInv (if c then a else b) := by
  split
  exacts [ha, hb]

theorem inv_ite_fst {α : Type} {c : Prop} [Decidable c] {a b : State × α} (ha : Inv a.1) (hb : Inv b.1) :
    Inv (if c then a else b).1 := by
  split
  exacts [ha, hb]

theorem inv_ite_snd {α : Type} {c : Prop} [Decidable c] {a b : α × State} (ha : Inv a.2) (hb : Inv b.2) :
    Inv (if c then a else b).2 := by
  split
  exacts [ha, hb]

/-- A state that differs in none of the four fields the invariant reads. -/
theorem inv_same {t : State} (e : t = { t with mem := s.mem, host := s.host, regs := s.regs, cam := s.cam }) (hs : Inv s) :
    Inv t := by
  rw [e]
  exact inv_congr (s := s) rfl rfl rfl rfl hs

/-- A fold over a pair of a value and a state keeps the invariant of its state when each round does. -/
theorem foldl_snd_inv {α β : Type} {g : β × State → α → β × State} (hg : ∀ p x, Inv p.2 → Inv (g p x).2) (l : List α)
    {p : β × State} (hp : Inv p.2) : Inv (l.foldl g p).2 :=
  List.foldlRecOn (motive := fun p => Inv p.2) l g hp fun p hp x _ => hg p x hp

theorem foldl_fst_inv {α β : Type} {g : State × β → α → State × β} (hg : ∀ p x, Inv p.1 → Inv (g p x).1) (l : List α)
    {p : State × β} (hp : Inv p.1) : Inv (l.foldl g p).1 :=
  List.foldlRecOn (motive := fun p => Inv p.1) l g hp fun p hp x _ => hg p x hp

theorem foldl_snd_snd_inv {α β γ : Type} {g : β × γ × State → α → β × γ × State} (hg : ∀ p x, Inv p.2.2 → Inv (g p x).2.2)
    (l : List α) {p : β × γ × State} (hp : Inv p.2.2) : Inv (l.foldl g p).2.2 :=
  List.foldlRecOn (motive := fun p => Inv p.2.2) l g hp fun p hp x _ => hg p x hp

theorem inv_flash {x : Flash} (hs : Inv s) : Inv { s with flash := x } := inv_congr (s := s) rfl rfl rfl rfl hs

theorem inv_serving {x : Serving} (hs : Inv s) : Inv { s with srv := x } := inv_congr (s := s) rfl rfl rfl rfl hs

theorem inv_units {x : List (Nat × WorkUnit)} (hs : Inv s) : Inv { s with units := x } := inv_congr (s := s) rfl rfl rfl rfl hs

theorem inv_hif {x : Hif} (hs : Inv s) : Inv { s with hif := x } := inv_congr (s := s) rfl rfl rfl rfl hs

theorem inv_flt {x : Flt} (hs : Inv s) : Inv { s with flt := x } := inv_congr (s := s) rfl rfl rfl rfl hs

theorem inv_boot {x : Boot} (hs : Inv s) : Inv { s with boot := x } := inv_congr (s := s) rfl rfl rfl rfl hs

theorem inv_noCam (hs : Inv s) : Inv { s with cam := [] } := ⟨hs.1, hs.2.1, hs.2.2.1, rfl⟩

theorem trimField_fits (k : Nat) : (trimField k).fits = true := by
  have hall : [PWR_TRIM_LO_TRIM_0, PWR_TRIM_LO_TRIM_1, PWR_TRIM_LO_TRIM_2, PWR_TRIM_LO_TRIM_3, PWR_TRIM_HI_TRIM_4,
      PWR_TRIM_HI_TRIM_5, PWR_TRIM_HI_TRIM_6].all RegField.fits = true := rfl
  simp only [trimField, List.getD_eq_getElem?_getD]
  rcases h : _[k]? with _ | f
  · rfl
  · exact List.all_eq_true.1 hall f (List.mem_of_getElem? h)

theorem fields_fits {a : Nat} {f : RegField} (h : f ∈ fieldsAt a) : f.fits = true := fits_iff.2 (fieldsAt_fit h).2

end Sys2Proof.Machine
end

section
/-!
O5: each function of Sys2Proof/Machine/Ops.lean that changes the state keeps the invariant.
-/
namespace Sys2Proof.Machine
open Reg Laws

variable {s : State}

theorem addUpset_inv {a : Nat} {ue : Bool} (hs : Inv s) : Inv (addUpset s a ue) := inv_same rfl hs

theorem dropUpset_inv {a : Nat} (hs : Inv s) : Inv (dropUpset s a) := inv_same rfl hs

theorem addEcc_inv {a : Nat} {x : Ecc} (hs : Inv s) : Inv (addEcc s a x) := by
  unfold addEcc
  split
  exacts [hs, addUpset_inv hs, addUpset_inv hs]

theorem addErrs_inv {cl : Nat} {errs : List WordErr} (hs : Inv s) : Inv (addErrs s cl errs) :=
  foldl_inv (fun _ _ ht => inv_ite (addUpset_inv ht) ht) _ hs

theorem noteIssue_inv {k : Nat} (hs : Inv s) : Inv (noteIssue s k) := setCore_inv _ _ hs

end Sys2Proof.Machine
end

section
/-!
O5: each function of Sys2Proof/Machine/Frames.lean that changes the state keeps the invariant.
-/
namespace Sys2Proof.Machine
open Reg Laws

variable {s : State}

theorem setCtx_inv {c : Nat} {x : Ctx} (hc : c < 48) (hs : Inv s) : Inv (setCtx s c x) := by
  obtain ⟨hm, hh, hr, hk⟩ := hs
  simp only [contextsWf, List.all_eq_true, decide_eq_true_eq] at hk
  refine ⟨hm, hh, hr, ?_⟩
  simp only [contextsWf, setCtx, tput, List.all_eq_true, decide_eq_true_eq]
  intro e he
  split at he
  · exact hk e ((tdel_sublist ..).subset he)
  · rcases tset_mem he with rfl | he
    exacts [hc, hk e he]

theorem cam_foldl_inv {t : State} {g : State → Nat × Ctx → State} (hg : ∀ u e, e.1 < 48 → Inv u → Inv (g u e))
    (ht : Inv t) (hs : Inv s) : Inv (t.cam.foldl g s) := by
  have hk := ht.2.2.2
  simp only [contextsWf, List.all_eq_true, decide_eq_true_eq] at hk
  exact List.foldlRecOn t.cam g hs fun u hu e he => hg u e (hk e he) hu

/-- No context beside the device's 48 is listed, so any other reads as unused. -/
theorem ctx_of_ge {c : Nat} (hs : Inv s) (hc : ¬c < 48) : ctx s c = {} := by
  have hk := hs.2.2.2
  simp only [contextsWf, List.all_eq_true, decide_eq_true_eq] at hk
  have hnone : ∀ l : List (Nat × Ctx), (∀ e ∈ l, e.1 < 48) → tfind c l = none := by
    intro l hl
    induction l with
    | nil => rfl
    | cons e l ih =>
      have he : e.1 ≠ c := fun h => hc (h ▸ hl e (by simp))
      simp only [tfind, he, if_false]
      exact ih fun x hx => hl x (by simp [hx])
  simp [ctx, tget, hnone _ hk]

/-- A change that leaves an unused context unused keeps the contexts among the device's. -/
theorem setCtx_unused_inv {c : Nat} {x : Ctx} (hx : ctx s c = {} → x = {}) (hs : Inv s) : Inv (setCtx s c x) := by
  by_cases hc : c < 48
  · exact setCtx_inv hc hs
  · obtain ⟨hm, hh, hr, hk⟩ := hs
    refine ⟨hm, hh, hr, ?_⟩
    rw [hx (ctx_of_ge ⟨hm, hh, hr, hk⟩ hc)]
    simp only [contextsWf, List.all_eq_true, decide_eq_true_eq] at hk ⊢
    intro e he
    simp only [setCtx, tput, if_true] at he
    exact hk e ((tdel_sublist ..).subset he)

theorem countFate_inv {c fate : Nat} (hs : Inv s) : Inv (countFate s c fate) := by
  unfold countFate
  extract_lets +onlyGivenNames s1
  have h1 : Inv s1 := inv_ite hs (inv_ite (bump_fits_inv hs) (inv_ite (bump_fits_inv hs) (inv_ite (bump_fits_inv hs)
      (bump_fits_inv hs))))
  exact inv_ite (wr_fits_inv h1) h1

theorem decideFrame_inv {c : Nat} {f : Frame} {fate flags : Nat} (hs : Inv s) (hc : c < 48) : Inv (decideFrame s c f fate flags) :=
  postRec_inv _ _ _ (countFate_inv (setCtx_inv hc hs))

theorem frameOf_lt {c no : Nat} {f : Frame} (hs : Inv s) (hf : frameOf s c no = some f) : c < 48 := by
  by_contra hc
  simp [frameOf, ctx_of_ge hs hc] at hf

theorem dropFrame_inv {c no fate : Nat} (hs : Inv s) : Inv (dropFrame s c no fate) := by
  unfold dropFrame
  split
  · exact decideFrame_inv hs (frameOf_lt hs ‹_›)
  · exact hs

theorem dropPartFrames_inv {p fate : Nat} (hs : Inv s) : Inv (dropPartFrames s p fate) :=
  cam_foldl_inv (fun _ _ _ ht => foldl_inv (fun _ _ hu => dropFrame_inv hu) _ ht) hs hs

theorem freeBuffer_inv {ref : Nat} (hs : Inv s) : Inv (freeBuffer s ref) := inv_ite hs (setCtx_inv (by omega) hs)

theorem modFrame_inv {c no : Nat} {g : Frame → Frame} (hs : Inv s) : Inv (modFrame s c no g) :=
  setCtx_unused_inv (fun h => by simp [h]) hs

theorem completeFrames_inv (hs : Inv s) : Inv (completeFrames s) :=
  cam_foldl_inv (fun _ _ h1 ht => foldl_inv (fun _ _ hu => trace_inv _ _ (decideFrame_inv hu h1)) _ ht) hs hs

end Sys2Proof.Machine
end

section
/-!
O5: each function of Sys2Proof/Machine/Operands.lean that changes the state keeps the invariant.
-/
namespace Sys2Proof.Machine
open Reg Laws

variable {s : State}

theorem storeBits_inv {cl m c : Nat} {pl : Nat × Nat × Nat} {v : Nat} (hs : Inv s) : Inv (storeBits s cl m c pl v) := wrN_inv _ _ _ hs

end Sys2Proof.Machine
end

section
/-!
O5: each function of Sys2Proof/Machine/Threads.lean that changes the state keeps the invariant.
-/
namespace Sys2Proof.Machine
open Reg Laws

variable {s : State}

theorem eccCapture_inv {n mem c w : Nat} {ue : Bool} (hs : Inv s) : Inv (eccCapture s n mem c w ue) :=
  inv_ite (wr_fits_inv (wr_fits_inv (wr_fits_inv (wr_fits_inv (wr_fits_inv (wr_fits_inv (wr_fits_inv hs))))))) hs

theorem eccHistory_inv {n mem c w : Nat} {ue : Bool} (hs : Inv s) : Inv (eccHistory s n mem c w ue) :=
  inv_ite (setClu_inv _ _ hs) (setClu_inv _ _ hs)

theorem eccDetect_inv {n mem c w : Nat} {ue : Bool} (hs : Inv s) : Inv (eccDetect s n mem c w ue) := by
  unfold eccDetect
  extract_lets +onlyGivenNames s1 _ s2
  have h1 : Inv s1 := bump_fits_inv hs (ite_fits rfl rfl)
  have h2 : Inv s2 := inv_ite (wr_fits_inv (eccCapture_inv h1)) (eccCapture_inv h1)
  exact report_inv _ _ _ _ _ _ (inv_ite h2 (eccHistory_inv h2))

theorem readWord_inv {n m c w : Nat} (hs : Inv s) : Inv (readWord s n m c w).1 :=
  inv_ite_fst (eccDetect_inv hs) (inv_ite_fst (eccDetect_inv hs) hs)

theorem readWords_inv {n : Nat} {l : List (Nat × Nat × Nat)} (hs : Inv s) : Inv (readWords n l s).1 := by
  induction l generalizing s with
  | nil => exact hs
  | cons x t ih =>
    unfold readWords
    dsimp only
    split
    exacts [readWord_inv hs, ih (readWord_inv hs)]

theorem settleSweep_inv {n : Nat} (hs : Inv s) : Inv (settleSweep s n) := inv_ite (setClu_inv _ _ (wr_fits_inv (wr_fits_inv hs))) hs

theorem scrubAdvance_inv {n mem c b : Nat} (hs : Inv s) : Inv (scrubAdvance s n mem c b) := settleSweep_inv (setClu_inv _ _ hs)

theorem portWrote_inv {a : Nat} (hs : Inv s) : Inv (portWrote s a) := by
  unfold portWrote
  split
  exacts [hs, inv_ite (scrubAdvance_inv hs) hs]

theorem mergeWord_inv {a : Nat} (hs : Inv s) : Inv (mergeWord s a) := by
  unfold mergeWord
  split
  exacts [setPoison_inv _ (eccDetect_inv hs), dropUpset_inv (eccDetect_inv hs), hs]

theorem fullWrite_inv {a : Nat} (hs : Inv s) : Inv (fullWrite s a) := by
  unfold fullWrite
  split
  · exact noteRewrite_inv _ _ (clearPoison_inv _ hs)
  · exact clearPoison_inv _ hs

theorem wroteWord_inv {l : List Nat} {w : Nat} (hs : Inv s) : Inv (wroteWord l s w) :=
  portWrote_inv (inv_ite hs (inv_ite (fullWrite_inv hs) (mergeWord_inv hs)))

theorem wroteBytes_inv {l : List Nat} (hs : Inv s) : Inv (wroteBytes s l) := foldl_inv (fun _ _ ht => wroteWord_inv ht) _ hs

theorem wroteRange_inv {a n : Nat} (hs : Inv s) : Inv (wroteRange s a n) := wroteBytes_inv hs

theorem setTag_inv {k tag : Nat} {v : Tag} (hs : Inv s) : Inv (setTag s k tag v) := setThr_inv _ _ hs

theorem wakeCore_inv {cn : Nat} {w : Wait} (hs : Inv s) : Inv (wakeCore s cn w) :=
  foldl_inv (fun _ _ ht => inv_ite (setThrState_inv _ _ _ ht) ht) _ hs

theorem settleCluster_inv {n : Nat} (hs : Inv s) : Inv (settleCluster s n) :=
  inv_ite (wr_fits_inv hs) (inv_ite (wr_fits_inv (wr_fits_inv hs)) hs)

theorem scramble_inv {a n : Nat} (hs : Inv s) : Inv (scramble s a n) := by
  induction n generalizing s a with
  | zero => exact hs
  | succ n ih => exact ih (wrN_inv _ _ _ (fresh_inv hs))

theorem stopOthers_inv {l : List Nat} (hs : Inv s) : Inv (stopOthers s l) := by
  unfold stopOthers
  refine foldl_inv (fun _ _ ht => inv_ite ht ?_) _ hs
  split
  · exact setThr_inv _ _ (setThrState_inv _ _ _ ht)
  · exact setThr_inv _ _ (setThrState_inv _ _ _ ht)
  · exact setThrState_inv _ _ _ ht

theorem settleCoreBarrier_inv {cn : Nat} (hs : Inv s) : Inv (settleCoreBarrier s cn) := inv_ite (wakeCore_inv hs) hs

end Sys2Proof.Machine
end

section
/-!
O5: each function of Sys2Proof/Machine/Array.lean that changes the state keeps the invariant.
-/
namespace Sys2Proof.Machine
open Reg Laws

variable {s : State}

theorem addCounts_inv {cn satA satO nonf : Nat} (hs : Inv s) : Inv (addCounts s cn satA satO nonf) := setCore_inv _ _ hs

theorem chanScale_inv {cn q n : Nat} (hs : Inv s) : Inv (chanScale s cn q n).2 := inv_ite_snd (inv_ite_snd hs (fresh_inv hs)) hs

theorem emitConvert_inv {cn : Nat} {x : ArrInstr} {n c t : Nat} (hs : Inv s) : Inv (emitConvert s cn x n c t).2 :=
  addCounts_inv (inv_ite (setCore_inv _ _ (chanScale_inv hs)) (chanScale_inv hs))

theorem emitWrite_inv {cn : Nat} {f : ArrF} {rows row n code : Nat} (hs : Inv s) : Inv (emitWrite s cn f rows row n code) :=
  storeBits_inv hs

theorem passCell_inv {x : ArrInstr} {cn : Nat} {p : PassAt} {ws : List Nat} {src : RowSrc} {m c : Nat} {first last : Bool} (hs : Inv s)
    : Inv (passCell x cn p ws src m c first last s) :=
  inv_ite (inv_ite (emitWrite_inv (emitConvert_inv (addCounts_inv hs))) (addCounts_inv hs)) (storeBits_inv (addCounts_inv hs))

theorem runPass_inv {x : ArrInstr} {cn : Nat} {p : Pass} (hs : Inv s) : Inv (runPass x cn s p) :=
  foldl_inv (fun _ _ ht => foldl_inv (fun _ _ hu => passCell_inv hu) _ ht) _ (setCore_inv _ _ hs)

theorem runPasses_inv {x : ArrInstr} {cn : Nat} (hs : Inv s) : Inv (runPasses x cn s) :=
  foldl_inv (fun _ _ ht => runPass_inv ht) _ hs

theorem scramblePlaces_inv {cn m : Nat} {l : List (Nat × Nat × Nat)} (hs : Inv s) : Inv (scramblePlaces s cn m l) :=
  foldl_inv (fun _ _ ht => storeBits_inv (fresh_inv ht)) _ hs

theorem scrambleDest_inv {cn : Nat} {x : ArrInstr} (hs : Inv s) : Inv (scrambleDest s cn x) :=
  scramblePlaces_inv (scramblePlaces_inv hs)

theorem afterEmit_inv {cn : Nat} {x : ArrInstr} (hs : Inv s) : Inv (afterEmit s cn x) := inv_ite (scramblePlaces_inv hs) hs

theorem freeResults_inv {cn : Nat} {x : ArrInstr} (hs : Inv s) : Inv (freeResults s cn x) :=
  addCounts_inv (fresh_inv (fresh_inv (fresh_inv (scrambleDest_inv hs))))

theorem runAccesses_inv {cn : Nat} {l : List Access} (hs : Inv s) : Inv (runAccesses cn l s).1 := by
  induction l generalizing s with
  | nil => exact hs
  | cons x t ih =>
    cases x with
    | read m w =>
      unfold runAccesses
      dsimp only
      split
      exacts [readWord_inv hs, ih (readWord_inv hs)]
    | merge m w =>
      unfold runAccesses
      exact ih (portWrote_inv (mergeWord_inv hs))
    | outside =>
      unfold runAccesses
      exact hs

theorem abandonWhere_inv {cn : Nat} {p : ArrInstr → Bool} (hs : Inv s) : Inv (abandonWhere s cn p) :=
  inv_ite (wakeCore_inv (foldl_inv (fun _ _ ht => scrambleDest_inv ht) _ (setCore_inv _ _ hs))) hs

theorem abandonArray_inv {cn unit : Nat} (hs : Inv s) : Inv (abandonArray s cn unit) := abandonWhere_inv hs

theorem faultOnce_inv {k status : Nat} {reported : Bool} (hs : Inv s) : Inv (faultOnce s k status reported) := by
  unfold faultOnce
  extract_lets +onlyGivenNames n c t s1 _ s2
  have h1 : Inv s1 := wr_fits_inv (setThr_inv _ _ hs) (thrField_fits _)
  have h2 : Inv s2 := inv_ite (wr_fits_inv h1) (report_inv _ _ _ _ _ _ (wr_fits_inv h1))
  split
  · exact settleCluster_inv (settleCoreBarrier_inv (abandonWhere_inv h2))
  · extract_lets +onlyGivenNames cores _ _ _ _ s3
    have h3 : Inv s3 := foldl_inv (fun _ _ ht => settleCluster_inv ht) _ (foldl_inv (fun _ _ ht => settleCoreBarrier_inv ht)
        _ (foldl_inv (fun _ _ ht => abandonArray_inv ht) _ (stopOthers_inv (inv_same rfl h2))))
    split
    exacts [dropFrame_inv h3, inv_same rfl h3, h3]

theorem beginInstr_inv {cn : Nat} {x : ArrInstr} (hs : Inv s) : Inv (beginInstr s cn x) := setCore_inv _ _ hs

theorem startWith_inv {fault : State → Nat → Nat → Bool → State} {cn : Nat} (hs : Inv s)
    (hf : ∀ t k st r, Inv t → Inv (fault t k st r)) : Inv (startWith fault s cn) := by
  unfold startWith
  extract_lets +onlyGivenNames k
  split
  · exact hs
  · extract_lets +onlyGivenNames f ids l p1 p2 p3
    have h1 : Inv p1.1 := readWords_inv hs
    have h2 : Inv p2.2 := by
      refine foldl_snd_inv (fun _ _ ht => ?_) _ h1
      split
      exacts [fresh_inv ht, ht]
    have h3 : Inv p3.1 := readWords_inv hs
    exact inv_ite hs (inv_ite (inv_ite (hf _ _ _ _ h1) (inv_ite (hf _ _ _ _ h2) (beginInstr_inv h2)))
      (inv_ite (inv_ite (hf _ _ _ _ h3) (setCore_inv _ _ (beginInstr_inv h3))) (beginInstr_inv hs)))

theorem streamRow_inv {x : ArrInstr} {cn i : Nat} (hs : Inv s) : Inv (streamRow x cn i s) := by
  unfold streamRow
  refine foldl_inv (fun _ _ ht => ?_) _ hs
  extract_lets +onlyGivenNames pl old z p1
  have h1 : Inv p1.2 := inv_ite_snd (fresh_inv ht) ht
  exact inv_ite (emitWrite_inv (emitConvert_inv (addCounts_inv h1))) (addCounts_inv h1)

theorem pumpStream_inv {fault : State → Nat → Nat → Bool → State} {cn n : Nat} (hs : Inv s)
    (hf : ∀ t k st r, Inv t → Inv (fault t k st r)) : Inv (pumpStream fault cn n s) := by
  induction n generalizing s with
  | zero => exact hs
  | succ n ih =>
    unfold pumpStream
    dsimp only
    split
    · exact hs
    · exact inv_ite hs (inv_ite hs (inv_ite (hf _ _ _ _ (runAccesses_inv hs))
        (ih (setCore_inv _ _ (streamRow_inv (runAccesses_inv hs))))))

theorem pumpWith_inv {fault : State → Nat → Nat → Bool → State} {cn : Nat} (hs : Inv s) (hf : ∀ t k st r, Inv t → Inv (fault t k st r))
    : Inv (pumpWith fault s cn) := by
  unfold pumpWith
  split
  · exact hs
  · exact pumpStream_inv hs (fun _ _ _ _ ht => hf _ _ _ _ ht)

theorem faultN_inv {n k status : Nat} {reported : Bool} (hs : Inv s) : Inv (faultN n s k status reported) := by
  induction n generalizing s k status reported with
  | zero => exact faultOnce_inv hs
  | succ n ih =>
    have hf : ∀ t k st r, Inv t → Inv (faultN n t k st r) := fun _ _ _ _ ht => ih ht
    exact foldl_inv (fun _ _ ht => pumpWith_inv (startWith_inv ht hf) hf) _ (faultOnce_inv hs)

theorem threadFault_inv {k status : Nat} {reported : Bool} (hs : Inv s) : Inv (threadFault s k status reported) := faultN_inv hs

theorem issueFault_inv {k status : Nat} (hs : Inv s) : Inv (issueFault s k status) := threadFault_inv (noteIssue_inv hs)

theorem restart_inv {cn : Nat} (hs : Inv s) : Inv (restart s cn) :=
  pumpWith_inv (startWith_inv hs (fun _ _ _ _ ht => threadFault_inv ht)) (fun _ _ _ _ ht => threadFault_inv ht)

theorem completeTag_inv {k tag : Nat} {ok : Bool} {status : Nat} (hs : Inv s) : Inv (completeTag s k tag ok status) :=
  inv_ite (inv_ite (setThrState_inv _ _ _ (setTag_inv hs)) (threadFault_inv (setTag_inv hs))) (setTag_inv hs)

theorem issueArray_inv {k word : Nat} (hs : Inv s) : Inv (issueArray s k word) :=
  inv_ite (inv_ite (issueFault_inv hs) (inv_ite (setThrState_inv _ _ _ hs) (restart_inv (setCore_inv _ _ (inv_ite (setTag_inv
      (advancePc_inv _ _ hs)) (advancePc_inv _ _ hs)))))) hs

theorem popArray_inv {cn : Nat} {x : ArrInstr} (hs : Inv s) : Inv (popArray s cn x) :=
  restart_inv (wakeCore_inv (inv_ite (completeTag_inv (setCore_inv _ _ hs)) (setCore_inv _ _ hs)))

theorem arrayComplete_inv {cl : Fin 34} {c : Fin 64} {errs : List WordErr} (hs : Inv s) : Inv (arrayComplete cl c errs s) := by
  unfold arrayComplete
  dsimp only
  split
  · exact addErrs_inv hs
  · refine inv_ite (addErrs_inv hs) ?_
    split
    · exact threadFault_inv (runAccesses_inv (addErrs_inv hs))
    · exact threadFault_inv (runAccesses_inv (addErrs_inv hs))
    · exact popArray_inv (setCore_inv _ _ (inv_ite (freeResults_inv (runPasses_inv (runAccesses_inv (addErrs_inv hs))))
        (afterEmit_inv (runPasses_inv (runAccesses_inv (addErrs_inv hs))))))

theorem addCredit_inv {cn : Nat} {output : Bool} {n : Nat} (hs : Inv s) : Inv (addCredit s cn output n) :=
  pumpWith_inv (setCore_inv _ _ hs) (fun _ _ _ _ ht => threadFault_inv ht)

theorem streamEnd_inv {cl : Fin 34} {c : Fin 64} {stopped : Bool} (hs : Inv s) : Inv (streamEnd cl c stopped s) := by
  unfold streamEnd
  dsimp only
  split
  · exact hs
  · exact inv_ite hs (inv_ite (popArray_inv (afterEmit_inv hs)) hs)

theorem thaw_inv {cn : Nat} (hs : Inv s) : Inv (thaw s cn) := inv_ite (restart_inv (setCore_inv _ _ hs)) hs

theorem arrayStall_inv {cl : Fin 34} {c : Fin 64} {links : List (Fin 16)} (hs : Inv s) : Inv (arrayStall cl c links s) :=
  inv_ite hs (inv_ite (thaw_inv (setCore_inv _ _ hs)) (setCore_inv _ _ hs))

theorem freezeEnd_inv {cl : Fin 34} {c : Fin 64} (hs : Inv s) : Inv (freezeEnd cl c s) :=
  inv_ite hs (thaw_inv (setCore_inv _ _ hs))

theorem execGapLimitReached_inv {cl : Fin 34} {c : Fin 64} (hs : Inv s) : NextInv (execGapLimitReached cl c s) :=
  next_ite hs (setCore_inv _ _ hs)

end Sys2Proof.Machine
end

section
/-!
O5: each function of Sys2Proof/Machine/Event.lean that changes the state keeps the invariant.
-/
namespace Sys2Proof.Machine
open Reg Laws

variable {s : State}

theorem senseAt_inv {src : Nat} {new : Bool} (hs : Inv s) : Inv (senseAt s src new) := by
  unfold senseAt
  extract_lets +onlyGivenNames old mode _ s1 s2
  have h1 : Inv s1 := inv_ite (bump_fits_inv (setLevel_inv _ _ hs) (evCnt_fits _)) (setLevel_inv _ _ hs)
  have h2 : Inv s2 := inv_ite (setPend_inv _ h1) h1
  exact inv_ite (deliver_inv _ h2) h2

theorem execEventSense_inv {src : Fin 2048} {pin : Bool} (hs : Inv s) : NextInv (execEventSense src pin s) := by
  unfold execEventSense
  split
  exacts [senseAt_inv hs, next_ite (senseAt_inv hs) hs]

theorem signalTargets_inv {l : List Nat} (hs : Inv s) : Inv (signalTargets l s) :=
  foldl_fst_inv (fun _ _ ht => inv_ite_fst (inv_ite (inv_ite (setPend_inv _ (clearPend_inv _ ht)) (clearPend_inv _ ht)) ht)
      (signalSrc_inv _ ht)) _ hs

theorem execModerationHoldEnd_inv {timer : Fin 32} (hs : Inv s) : NextInv (execModerationHoldEnd timer s) := by
  unfold execModerationHoldEnd
  refine next_ite ?_ hs
  split
  exacts [wr_fits_inv hs, signalTargets_inv hs]

theorem execEvcSwSet_inv {src : Fin 2048} (hs : Inv s) : NextInv (execEvcSwSet src s) :=
  next_ite (wr_fits_inv hs) (senseAt_inv (senseAt_inv hs))

theorem execEvcCntClr_inv {all : Bool} {src : Fin 2048} (hs : Inv s) : NextInv (execEvcCntClr all src s) :=
  next_ite (resetRegs_inv _ hs) (wr_fits_inv hs (evCnt_fits _))

theorem routeWrite_inv {src v : Nat} (hs : Inv s) : Inv (routeWrite s src v) := by
  unfold routeWrite
  refine inv_ite (wr_fits_inv hs) ?_
  extract_lets +onlyGivenNames _ s1
  have h1 : Inv s1 := wr_fits_inv (wr_fits_inv (wr_fits_inv (wr_fits_inv (wr_fits_inv (inv_ite hs (wr_fits_inv hs
      (evCnt_fits _)))))))
  exact deliverNew_inv _ _ (inv_ite (setPend_inv _ h1) h1)

theorem execEvcRouteWrite_inv {src : Fin 2048} {value : BitVec 32} (hs : Inv s) : NextInv (execEvcRouteWrite src value s) :=
  routeWrite_inv hs

end Sys2Proof.Machine
end

section
/-!
O5: each function of Sys2Proof/Machine/Memory.lean that changes the state keeps the invariant.
-/
namespace Sys2Proof.Machine
open Reg Laws

variable {s : State}

theorem setGran_inv {g e : Nat} (hs : Inv s) : Inv (setGran s g e) := inv_same rfl hs

theorem refuseAccess_inv {r : Requester} {g kind : Nat} (hs : Inv s) : Inv (refuseAccess s r g kind) := by
  unfold refuseAccess
  extract_lets +onlyGivenNames _ s1
  have h1 : Inv s1 := inv_ite (wr_fits_inv (wr_fits_inv hs)) (wr_fits_inv hs)
  exact report_inv _ _ _ _ _ _ (inv_ite h1 (wr_fits_inv (wr_fits_inv (wr_fits_inv (wr_fits_inv h1)))))

theorem epWb_inv {e : Ep} {o : Nat} {v : Byte} (hs : Inv s) : Inv (epWb s e o v) := inv_ite (hwb_inv _ _ _ hs) (devWb_inv _ _ hs)

theorem readBytes_inv {l : List Nat} (hs : Inv s) : Inv (readBytes l s).1 := by
  unfold readBytes
  refine foldl_fst_inv (fun _ _ ht => inv_ite_fst ht ?_) _ hs
  split
  exacts [readWord_inv ht, ht]

theorem writeLinear_inv {e : Ep} {l : List Nat} (hs : Inv s) : Inv (writeLinear s e l) :=
  wroteBytes_inv (foldl_inv (fun _ _ ht => epWb_inv ht) _ hs)

theorem writePlain_inv {d : Desc} {dst : Ep} {got : List Byte} (hs : Inv s) : Inv (writePlain s d dst got) :=
  wroteBytes_inv (foldl_inv (fun _ _ ht => epWb_inv ht) _ hs)

theorem moveData_inv {d : Desc} {src dst : Ep} (hs : Inv s) : Inv (moveData s d src dst).1 := by
  unfold moveData
  refine inv_ite_fst ?_ (inv_ite_fst (inv_ite_fst (writeLinear_inv hs) (wroteBytes_inv (foldl_inv (fun _ _ ht => epWb_inv ht) _
      hs))) ?_)
  · split
    · exact hs
    · exact inv_ite_fst hs (inv_ite_fst hs (inv_ite_fst hs (writeLinear_inv hs)))
  · split
    · exact hs
    · exact inv_ite_fst (inv_ite_fst (writeLinear_inv hs) (wroteBytes_inv (foldl_inv (fun _ _ ht => foldl_inv (fun _ _ hu =>
        wrN_inv _ _ _ hu) _ ht) _ hs))) (inv_ite_fst (writeLinear_inv hs) (wroteBytes_inv (foldl_inv (fun _ _ ht => epWb_inv ht) _
        hs)))

theorem scrambleDst_inv {d : Desc} {src dst : Ep} (hs : Inv s) : Inv (scrambleDst s d src dst) :=
  foldl_inv (fun _ _ ht => epWb_inv (fresh_inv ht)) _ hs

theorem refreshDma_inv {cl : Nat} (hs : Inv s) : Inv (refreshDma s cl) := wr_fits_inv (wr_fits_inv hs)

theorem setMoveQueue_inv {cl q : Nat} {l : List Move} (hs : Inv s) : Inv (setMoveQueue s cl q l) := refreshDma_inv (inv_same rfl hs)

theorem undefineDst_inv {cl : Nat} {m : Move} (hs : Inv s) : Inv (undefineDst s cl m) := by
  unfold undefineDst
  split
  exacts [scrambleDst_inv hs, hs]

theorem queueMove_inv {cl q : Nat} {m : Move} (hs : Inv s) : Inv (queueMove s cl q m) := setMoveQueue_inv (undefineDst_inv hs)

theorem queuePlinth_inv {cl : Nat} {m : Move} (hs : Inv s) : Inv (queuePlinth s cl m) := by
  unfold queuePlinth
  dsimp only
  split
  exacts [queueMove_inv hs, inv_same rfl hs]

theorem admitPlinth_inv {cl : Nat} (hs : Inv s) : Inv (admitPlinth s cl) := by
  unfold admitPlinth
  split
  exacts [queueMove_inv (inv_same rfl hs), hs]

theorem popMove_inv {cl q : Nat} (hs : Inv s) : Inv (popMove s cl q) :=
  inv_ite (wakeCore_inv (setMoveQueue_inv hs)) (admitPlinth_inv (setMoveQueue_inv hs))

theorem tellOwner_inv {m : Move} {status : Nat} (hs : Inv s) : Inv (tellOwner s m status) := by
  unfold tellOwner
  split
  exacts [completeTag_inv hs, finish_inv _ _ _ hs, hs]

theorem failMove_inv {cl q status : Nat} (hs : Inv s) : Inv (failMove s cl q status) := by
  unfold failMove
  split
  · exact hs
  · exact tellOwner_inv (popMove_inv (bump_fits_inv (undefineDst_inv hs)))

theorem finishMove_inv {cl q : Nat} (hs : Inv s) : Inv (finishMove s cl q) := by
  unfold finishMove
  split
  · exact hs
  · exact tellOwner_inv (inv_ite (addCredit_inv (popMove_inv hs)) (popMove_inv hs))

end Sys2Proof.Machine
end

section
/-!
O5: each function of Sys2Proof/Machine/Flash.lean that changes the state keeps the invariant.
-/
namespace Sys2Proof.Machine
open Reg Laws

variable {s : State}

theorem setChan_inv {c : Nat} {x : Channel} (hs : Inv s) : Inv (setChan s c x) := inv_same rfl hs

theorem setMap_inv {c l e : Nat} (hs : Inv s) : Inv (setMap s c l e) := setChan_inv hs

theorem refreshChan_inv {c : Nat} (hs : Inv s) : Inv (refreshChan s c) := wr_fits_inv hs

theorem enqueueDie_inv {c : Nat} {w : DieWork} (hs : Inv s) : Inv (enqueueDie s c w) := setChan_inv hs

theorem refreshThr_inv (hs : Inv s) : Inv (refreshThr s) := wr_fits_inv (wr_fits_inv hs)

theorem holdupSample_inv {code : Nat} (hs : Inv s) : Inv (holdupSample s code) := wr_fits_inv (wr_fits_inv hs)

theorem modRec_inv {seq : Nat} {f : FlashRec → FlashRec} (hs : Inv s) : Inv (modRec s seq f) := inv_same rfl hs

theorem writeDevRec_inv {b : RecBody} (hs : Inv s) : Inv (writeDevRec s b) := enqueueDie_inv (enqueueDie_inv (inv_same rfl hs))

theorem refreshWear_inv {c : Nat} (hs : Inv s) : Inv (refreshWear s c) := wr_fits_inv (wr_fits_inv hs)

theorem takeSpare_inv {c p b : Nat} {t : State} (hs : Inv s) (h : takeSpare s c p = some (b, t)) : Inv t := by
  unfold takeSpare at h
  dsimp only at h
  split at h
  · cases h
  · cases h
    exact wr_fits_inv (setChan_inv hs)

theorem takeFree_inv {c p b : Nat} {t : State} (hs : Inv s) (h : takeFree s c p = some (b, t)) : Inv t := by
  unfold takeFree at h
  dsimp only at h
  split at h
  · cases h
    exact setChan_inv hs
  · split at h
    · cases h
    · cases h
      exact setChan_inv hs

theorem replacement_inv {c p : Nat} (hs : Inv s) : Inv (replacement s c p).2 := by
  unfold replacement
  split
  · exact takeSpare_inv hs ‹_›
  · have h1 : Inv (if isSet s (WFL_CH_STAT_WORN c) then s
        else report (wr (wr s (WFL_CH_STAT_WORN c) 1) WFL_EVT_STAT_FLASH_WORN 1) 35 clsDevice 0x51 0xFF c (flashCapture s)) :=
      inv_ite hs (report_inv _ _ _ _ _ _ (wr_fits_inv (wr_fits_inv hs)))
    dsimp only
    split
    exacts [takeFree_inv h1 ‹_›, h1]

theorem growBad_inv {c b : Nat} (hs : Inv s) : Inv (growBad s c b) := wr_fits_inv (bump_fits_inv (setChan_inv hs))

theorem retireBlock_inv {c l : Nat} {data : Bool} (hs : Inv s) : Inv (retireBlock s c l data) := by
  unfold retireBlock
  extract_lets +onlyGivenNames old p1
  have h1 : Inv p1.2 := replacement_inv (growBad_inv hs)
  split
  · exact setMap_inv h1
  · exact inv_ite (enqueueDie_inv (setMap_inv h1)) (setMap_inv h1)

theorem replaceRec_inv {c i : Nat} (hs : Inv s) : Inv (replaceRec s c i) := by
  unfold replaceRec
  extract_lets +onlyGivenNames p1
  have h1 : Inv p1.2 := replacement_inv (growBad_inv hs)
  split
  exacts [h1, setChan_inv h1]

theorem setJobs_inv {l : List FlashJob} (hs : Inv s) : Inv (setJobs s l) := wr_fits_inv (inv_same rfl hs)

theorem setFront_inv {j : FlashJob} (hs : Inv s) : Inv (setFront s j) := by
  unfold setFront
  split
  exacts [hs, setJobs_inv hs]

theorem eraseLater_inv {seq : Nat} {sets : List (Nat × Nat)} (hs : Inv s) : Inv (eraseLater s seq sets) :=
  foldl_inv (fun _ _ ht => enqueueDie_inv ht) _ (inv_same rfl hs)

theorem refreshCount_inv (hs : Inv s) : Inv (refreshCount s) := wr_fits_inv hs

theorem tellJob_inv {j : FlashJob} {status : Nat} {x : Result} (hs : Inv s) : Inv (tellJob s j status x) := by
  unfold tellJob
  split
  exacts [finish_inv _ _ _ hs, hs]

theorem setPart_inv {p : Nat} {f : Part → Part} (hs : Inv s) : Inv (setPart s p f) := by
  unfold setPart
  split
  exacts [inv_same rfl hs, hs]

theorem freeOldSets_inv (hs : Inv s) : Inv (freeOldSets s) :=
  foldl_inv (fun _ _ ht => eraseLater_inv (writeDevRec_inv ht)) _ (inv_same rfl hs)

theorem pick_inv {l : List Nat} (hs : Inv s) : Inv (pick s l).2 := fresh_inv hs

theorem startOne_inv (hs : Inv s) : Inv (startOne s) := by
  unfold startOne
  split
  · exact hs
  · refine inv_ite hs (inv_ite (inv_ite (tellJob_inv (setPart_inv (setJobs_inv hs))) (inv_ite (tellJob_inv (setPart_inv
      (setJobs_inv hs))) (foldl_inv (fun _ _ ht => inv_ite ht (enqueueDie_inv ht)) _ (writeDevRec_inv (setJobs_inv hs))))) ?_)
    split
    · exact tellJob_inv (setJobs_inv hs)
    · exact foldl_inv (fun _ _ ht => enqueueDie_inv ht) _ (writeDevRec_inv (refreshCount_inv (setJobs_inv (setPart_inv (inv_same
        rfl hs)))))

theorem startJob_inv (hs : Inv s) : Inv (startJob s) := foldl_inv (fun _ _ ht => startOne_inv ht) _ hs

theorem dropStoreWork_inv (hs : Inv s) : Inv (dropStoreWork s) := foldl_inv (fun _ _ ht => setChan_inv ht) _ hs

theorem abortStore_inv {status : Nat} (hs : Inv s) : Inv (abortStore s status) := by
  unfold abortStore
  split
  · exact hs
  · exact startJob_inv (tellJob_inv (setJobs_inv (setPart_inv (inv_ite (eraseLater_inv (writeDevRec_inv (dropStoreWork_inv hs)))
      (dropStoreWork_inv hs)))))

theorem beginWork_inv {c : Nat} {w : DieWork} (hs : Inv s) : Inv (beginWork s c w) := refreshChan_inv (setChan_inv hs)

theorem execFlashOpStart_inv {ch : Fin 32} {code : Fin 1024} (hs : Inv s) : NextInv (execFlashOpStart ch code s) := by
  unfold execFlashOpStart
  refine next_ite hs ?_
  split
  · exact hs
  · split
    · exact beginWork_inv hs
    · refine next_ite hs (next_ite (beginWork_inv ?_) ?_)
      · split
        exacts [setFront_inv (holdupSample_inv hs), holdupSample_inv hs]
      · dsimp only
        split
        · exact inv_ite (setFront_inv (wr_fits_inv (holdupSample_inv hs))) (wr_fits_inv (holdupSample_inv hs))
        · exact wr_fits_inv (holdupSample_inv hs)

theorem endWork_inv {c : Nat} (hs : Inv s) : Inv (endWork s c) := refreshChan_inv (setChan_inv hs)

theorem countRead_inv {c : Nat} {r : PageRead} (hs : Inv s) : Inv (countRead s c r) := by
  unfold countRead
  extract_lets +onlyGivenNames _ s1
  have h1 : Inv s1 := inv_ite (bump_fits_inv (bump_fits_inv hs)) (bump_fits_inv hs)
  refine inv_ite ?_ (inv_ite (report_inv _ _ _ _ _ _ h1) h1)
  extract_lets +onlyGivenNames s2
  have h2 : Inv s2 := wr_fits_inv (bump_fits_inv h1)
  exact report_inv _ _ _ _ _ _ (inv_ite h2 (wr_fits_inv (wr_fits_inv (wr_fits_inv (wr_fits_inv h2)))))

theorem storeFailure_inv {c l k : Nat} (hs : Inv s) : Inv (storeFailure s c l k) := by
  unfold storeFailure
  split
  · exact hs
  · exact inv_ite (abortStore_inv (retireBlock_inv hs)) (enqueueDie_inv (setFront_inv (retireBlock_inv hs)))

theorem execFlashReadDone_inv {ch : Fin 32} {r : PageRead} {waited : Nat} (hs : Inv s) : NextInv (execFlashReadDone ch r waited s)
    := by
  unfold execFlashReadDone
  split
  · extract_lets +onlyGivenNames s1
    have h1 : Inv s1 := countRead_inv (endWork_inv hs)
    exact inv_ite (retireBlock_inv (wr_fits_inv h1)) (wr_fits_inv h1)
  · extract_lets +onlyGivenNames s2
    have h2 : Inv s2 := countRead_inv (endWork_inv hs)
    split
    · exact next_ite (storeFailure_inv h2) (inv_ite (setFront_inv h2) (enqueueDie_inv (setFront_inv h2)))
    · exact h2
  · exact hs

theorem recordDone_inv {c seq : Nat} {ok : Bool} (hs : Inv s) : Inv (recordDone s c seq ok) :=
  inv_ite (enqueueDie_inv (replaceRec_inv hs)) (inv_ite (enqueueDie_inv (setChan_inv (modRec_inv hs))) (setChan_inv (modRec_inv
      hs)))

theorem recordErased_inv {c : Nat} {ok : Bool} (hs : Inv s) : Inv (recordErased s c ok) :=
  inv_ite (replaceRec_inv (setChan_inv hs)) (setChan_inv hs)

theorem execFlashProgramDone_inv {ch : Fin 32} {ok : Bool} {plane : Fin 4} (hs : Inv s) :
    NextInv (execFlashProgramDone ch ok plane s) := by
  unfold execFlashProgramDone
  split
  · extract_lets s1
    have h1 : Inv s1 := endWork_inv hs
    split
    · exact next_ite (enqueueDie_inv (setFront_inv h1)) (storeFailure_inv h1)
    · exact h1
  · exact recordDone_inv (endWork_inv hs)
  · refine next_ite (next_ite (setMap_inv (endWork_inv hs))
      (wr_fits_inv (writeDevRec_inv (setChan_inv (setMap_inv (endWork_inv hs)))))) ?_
    have h1 {b p : Nat} : Inv (replacement (growBad (endWork s ch) ch b) ch p).2 := replacement_inv (growBad_inv (endWork_inv hs))
    extract_lets r
    split
    exacts [enqueueDie_inv h1, h1]
  · exact hs

theorem countErase_inv {c ps : Nat} {ok : Bool} {plane : Nat} (hs : Inv s) : Inv (countErase s c ps ok plane) :=
  refreshWear_inv (foldl_inv (fun _ _ ht => inv_ite (retireBlock_inv (setChan_inv ht)) (setChan_inv ht)) _ hs)

theorem execFlashEraseDone_inv {ch : Fin 32} {ok : Bool} {plane : Fin 4} (hs : Inv s) :
    NextInv (execFlashEraseDone ch ok plane s) := by
  unfold execFlashEraseDone
  split
  · extract_lets +onlyGivenNames s1 fl s2 s3
    have h1 : Inv s1 := countErase_inv (endWork_inv hs)
    have h2 : Inv s2 := inv_flash h1
    have h3 : Inv s3 := by
      dsimp only [s3]
      split
      exacts [setFront_inv h2, h2]
    clear_value s3
    split
    · split
      exacts [enqueueDie_inv (takeFree_inv h3 ‹_›), h3]
    · exact h3
  · exact recordErased_inv (endWork_inv hs)
  · exact hs

theorem execFlashSuspend_inv {ch : Fin 32} (hs : Inv s) : NextInv (execFlashSuspend ch s) := by
  unfold execFlashSuspend
  dsimp only
  split
  · exact next_ite (bump_fits_inv (refreshChan_inv (setChan_inv hs))) hs
  · exact hs

theorem execFlashResume_inv {ch : Fin 32} (hs : Inv s) : NextInv (execFlashResume ch s) := by
  unfold execFlashResume
  dsimp only
  split
  · exact next_ite hs (refreshChan_inv (setChan_inv hs))
  · exact hs

theorem execHoldupRetryTimeout_inv (hs : Inv s) : NextInv (execHoldupRetryTimeout s) := by
  unfold execHoldupRetryTimeout
  split
  · exact next_ite (next_ite (abortStore_inv hs) (startJob_inv (tellJob_inv (setJobs_inv (inv_same rfl hs))))) hs
  · exact hs

theorem execPatrolRead_inv {ch : Fin 32} {r : PageRead} (hs : Inv s) : NextInv (execPatrolRead ch r s) := by
  unfold execPatrolRead
  refine next_ite hs (next_ite (retireBlock_inv (countRead_inv hs)) (next_ite ?_ (countRead_inv hs)))
  split
  · exact enqueueDie_inv (wr_fits_inv (writeDevRec_inv (setChan_inv (countRead_inv hs))))
  · exact wr_fits_inv (wr_fits_inv (countRead_inv hs))

theorem execStoreCommit_inv {ok : Bool} (hs : Inv s) : NextInv (execStoreCommit ok s) := by
  unfold execStoreCommit
  split
  case h_1 j t _ =>
    split
    · refine next_ite hs (next_ite (abortStore_inv hs) ?_)
      extract_lets +onlyGivenNames p
      have hp : Inv p.2 := pick_inv hs
      split
      · exact abortStore_inv hp
      · extract_lets +onlyGivenNames s0 old new fl s1 s2 s3
        have h2 : Inv s2 := writeDevRec_inv (refreshCount_inv (inv_flash hp))
        have h3 : Inv s3 := by
          clear_value old s2
          dsimp only [s3]
          split
          exacts [h2, inv_ite (inv_flash (setPart_inv h2)) (eraseLater_inv (writeDevRec_inv (setPart_inv h2)))]
        exact startJob_inv (tellJob_inv (setJobs_inv h3))
    · exact hs
  case h_2 => exact hs

theorem execEraseDone_inv {ok : Bool} (hs : Inv s) : NextInv (execEraseDone ok s) := by
  unfold execEraseDone
  split
  · exact inv_ite (writeDevRec_inv (inv_same rfl hs)) (inv_same rfl hs)
  · split
    · exact next_ite (startJob_inv (tellJob_inv (setJobs_inv (inv_ite (writeDevRec_inv hs) hs)))) hs
    · exact hs

theorem replayJournal_inv (hs : Inv s) : Inv (replayJournal s) := by
  unfold replayJournal
  refine refreshCount_inv (freeOldSets_inv (wr_fits_inv (foldl_inv (fun _ _ ht => inv_ite ht ?_) _ (inv_same rfl (inv_ite
      (wr_fits_inv (inv_same rfl hs)) (inv_same rfl hs))))))
  split
  · exact eraseLater_inv (writeDevRec_inv ht)
  · exact eraseLater_inv (inv_ite (inv_same rfl ht) ht)
  · exact setChan_inv ht
  · exact ht

theorem rebuildChan_inv {c : Nat} (hs : Inv s) : Inv (rebuildChan s c) :=
  refreshWear_inv (wr_fits_inv (wr_fits_inv (wr_fits_inv (wr_fits_inv (inv_ite hs (setChan_inv hs))))))

theorem readyFlash_inv (hs : Inv s) : Inv (readyFlash s) :=
  wr_fits_inv (foldl_inv (fun _ _ ht => rebuildChan_inv ht) _ (replayJournal_inv (wr_fits_inv hs)))

theorem enableFlash_inv (hs : Inv s) : Inv (enableFlash s) := inv_ite (wr_fits_inv hs) (readyFlash_inv hs)

theorem execWflEnable_inv (hs : Inv s) : NextInv (execWflEnable s) := enableFlash_inv hs

theorem closeFlash_inv (hs : Inv s) : Inv (closeFlash s) := by
  unfold closeFlash
  refine wr_fits_inv (foldl_inv (fun _ _ ht => refreshChan_inv (setChan_inv ?_)) _ (wr_fits_inv hs))
  dsimp only
  split
  · refine recordDone_inv ?_
    split
    exacts [recordDone_inv ht, ht]
  · split
    exacts [recordDone_inv ht, ht]

theorem writeLogHead_inv {valid : Bool} (hs : Inv s) : Inv (writeLogHead s valid) := inv_ite (inv_same rfl hs) hs

theorem stopFlash_inv (hs : Inv s) : Inv (stopFlash s) := closeFlash_inv (writeLogHead_inv (wr_fits_inv hs))

theorem execWflStop_inv (hs : Inv s) : NextInv (execWflStop s) := stopFlash_inv hs

theorem execWflHoldupCfgWrite_inv {ext : Bool} {value : BitVec 32} (hs : Inv s) : NextInv (execWflHoldupCfgWrite ext value s) :=
  next_ite (refreshThr_inv (wr_fits_inv hs)) (refreshThr_inv (wr_fits_inv (wr_fits_inv (wr_fits_inv hs))))

theorem execWflEccCntRead_inv (hs : Inv s) : NextInv (execWflEccCntRead s) :=
  emit_inv _ (wr_fits_inv (wr_fits_inv (wr_fits_inv hs)))

theorem execWflSuspCntRead_inv (hs : Inv s) : NextInv (execWflSuspCntRead s) := emit_inv _ (wr_fits_inv (wr_fits_inv hs))

end Sys2Proof.Machine
end

section
/-!
O5: each function of Sys2Proof/Machine/Packet.lean that changes the state keeps the invariant.
-/
namespace Sys2Proof.Machine
open Reg Laws

variable {s : State}

theorem takePkt_inv {h : Pkt} {op key : Nat} (hs : Inv s) : Inv (takePkt s h op key).2 := inv_same rfl (setRing_inv _ _ _ hs)

theorem withPkt_inv {h : Pkt} {op key : Nat} {sc : Scope} {pfOnly : Bool} {act : Cmd → State → State} (hs : Inv s) (ha : ∀ c t, Inv
    t → Inv (act c t)) : Inv (withPkt s h op key sc pfOnly act) := by
  unfold withPkt
  refine inv_ite ?_ hs
  extract_lets +onlyGivenNames p1
  have h1 : Inv p1.2 := takePkt_inv (trace_inv _ _ hs)
  refine inv_ite (complete_inv _ _ _ h1) ?_
  split
  exacts [complete_inv _ _ _ h1, ha _ _ h1]

theorem replyTo_inv {h : Pkt} {c : Cmd} {bytes : List Nat} {r : Result} (hs : Inv s) : Inv (replyTo s h c bytes r) :=
  complete_inv _ _ _ (hwrBytes_inv _ _ _ hs)

theorem answer_inv {st : Nat} {c : Cmd} (hs : Inv s) : Inv (answer st c s) := complete_inv _ _ _ hs

end Sys2Proof.Machine
end

section
/-!
O5: each function of Sys2Proof/Machine/Takeover.lean that changes the state keeps the invariant.
-/
namespace Sys2Proof.Machine
open Reg Laws

variable {s : State}

theorem setDsp_inv {f : Dsp → Dsp} (hs : Inv s) : Inv (setDsp s f) := inv_same rfl hs

theorem refreshSource_inv (hs : Inv s) : Inv (refreshSource s) := wr_fits_inv hs

theorem breachEvent_inv {fn p broken kept : Nat} {fin : Bool} {quanta : Nat} (hs : Inv s) : Inv (breachEvent s fn p broken kept fin
    quanta) :=
  sendEvent_inv _ _ hs

theorem breachBegin_inv {p broken kept : Nat} (hs : Inv s) : Inv (breachBegin s p broken kept) := by
  unfold breachBegin
  split
  · exact hs
  · exact inv_ite hs (breachEvent_inv (setPart_inv hs))

theorem breachEnd_inv {p broken : Nat} (hs : Inv s) : Inv (breachEnd s p broken) := by
  unfold breachEnd
  split
  · exact hs
  · split
    exacts [hs, breachEvent_inv (setPart_inv hs)]

theorem beginTakeover_inv {c : Nat} (hs : Inv s) : Inv (beginTakeover s c) := by
  unfold beginTakeover
  refine inv_ite ?_ hs
  extract_lets +onlyGivenNames _ s1
  have h1 : Inv s1 := wr_fits_inv (bump_fits_inv (wr_fits_inv (setDsp_inv hs)))
  exact inv_ite (breachBegin_inv (refreshSource_inv h1)) (refreshSource_inv h1)

theorem endTakeover_inv (hs : Inv s) : Inv (endTakeover s) := breachEnd_inv (setDsp_inv (wr_fits_inv hs))

theorem raiseCause_inv {c : Nat} (hs : Inv s) : Inv (raiseCause s c) := by
  unfold raiseCause
  refine inv_ite hs ?_
  extract_lets +onlyGivenNames s1
  have h1 : Inv s1 := beginTakeover_inv (wr_fits_inv hs)
  refine inv_ite ?_ h1
  extract_lets +onlyGivenNames s2
  have h2 : Inv s2 := inv_ite (breachBegin_inv h1) h1
  exact inv_ite (setDsp_inv (wr_fits_inv h2)) h2

theorem dropCause_inv {c : Nat} (hs : Inv s) : Inv (dropCause s c) := wr_fits_inv hs

theorem checkArmature_inv (hs : Inv s) : Inv (checkArmature s) := inv_ite (raiseCause_inv hs) (dropCause_inv hs)

theorem toDepth_inv {depth o : Nat} (hs : Inv s) : Inv (toDepth s depth o).2 := inv_ite_snd hs (fresh_inv hs)

theorem depthLine_inv {depth : Nat} {l : List Pixel} (hs : Inv s) : Inv (depthLine depth l s).2 := by
  induction l generalizing s with
  | nil => exact hs
  | cons p t ih => exact ih (toDepth_inv (toDepth_inv (toDepth_inv hs)))

theorem writeRegionRow_inv {c : DisplayCfg} {n y : Nat} {row : List Pixel} (hs : Inv s) : Inv (writeRegionRow s c n y row) :=
  setDsp_inv (wroteRange_inv (foldl_inv (fun _ _ ht => foldl_inv (fun _ _ hu => devWb_inv _ _ hu) _ ht) _ (depthLine_inv hs)))

theorem storeRow_inv {rx n y : Nat} {l : List Pixel} (hs : Inv s) : Inv (storeRow s rx n y l) := setDsp_inv hs

theorem formFallback_inv {c : DisplayCfg} {n y : Nat} (hs : Inv s) : Inv (formFallback s c n y) := by
  unfold formFallback
  refine foldl_inv (fun _ _ ht => ?_) _ (setDsp_inv hs)
  split
  exacts [setDsp_inv ht, ht]

end Sys2Proof.Machine
end

section
/-!
O5: each function of Sys2Proof/Machine/Work.lean that changes the state keeps the invariant.
-/
namespace Sys2Proof.Machine
open Reg Laws

variable {s : State}

theorem seedCore_inv {seed cn : Nat} (hs : Inv s) : Inv (seedCore s seed cn) := setCore_inv _ _ hs

theorem seedCluster_inv {seed n : Nat} (hs : Inv s) : Inv (seedCluster s seed n) := setClu_inv _ _ hs

theorem startThread_inv {unit k im : Nat} {g1 : Option (BitVec 32)} (hs : Inv s) : Inv (startThread s unit k im g1) :=
  wr_fits_inv (setThr_inv _ _ hs) (thrField_fits _)

theorem clearFaults_inv {n : Nat} (hs : Inv s) : Inv (clearFaults s n) := inv_ite hs (foldl_inv (fun _ _ ht => wr_fits_inv ht) _ hs)

theorem startUnit_inv {u : WorkUnit} {seed : Nat} {ims : List Nat} {g1 : Option (BitVec 32)} (hs : Inv s) : Inv (startUnit s u seed
    ims g1) := by
  unfold startUnit
  extract_lets +onlyGivenNames id _ _ _ _ _ s1
  have h1 : Inv s1 := foldl_inv (fun _ _ ht => inv_ite (wr_fits_inv ht) ht) _ (foldl_inv (fun _ _ ht => startThread_inv
      ht) _ (foldl_inv (fun _ _ ht => seedCluster_inv ht) _ (foldl_inv (fun _ _ ht => seedCore_inv ht) _ (inv_same rfl (trace_inv
      _ _ hs)))))
  exact inv_ite h1 (foldl_inv (fun _ _ ht => clearFaults_inv ht) _ h1)

theorem addTotals_inv {u : WorkUnit} (hs : Inv s) : Inv (addTotals s u) := by
  unfold addTotals
  split
  exacts [inv_same rfl (setPart_inv hs), setPart_inv hs]

theorem forgetUnit_inv {id : Nat} {u : WorkUnit} (hs : Inv s) : Inv (forgetUnit s id u) :=
  inv_same rfl (foldl_inv (fun _ _ ht => inv_ite (setThr_inv _ _ ht) ht) _ hs)

theorem stopUnit_inv {id : Nat} (hs : Inv s) : Inv (stopUnit s id) := by
  unfold stopUnit
  split
  · exact hs
  · exact foldl_inv (fun _ _ ht => clearFaults_inv (settleCluster_inv ht)) _ (foldl_inv (fun _ _ ht => restart_inv ht) _
      (foldl_inv (fun _ _ ht => settleCoreBarrier_inv ht) _ (forgetUnit_inv (foldl_inv (fun _ _ ht => inv_ite (wr_fits_inv
      (setThr_inv _ _ ht) (thrField_fits _)) ht) _ (foldl_inv (fun _ _ ht => abandonArray_inv ht) _ hs)))))

theorem endUnit_inv {id : Nat} (hs : Inv s) : Inv (endUnit s id) := by
  unfold endUnit
  split
  · exact hs
  · refine inv_ite hs ?_
    extract_lets +onlyGivenNames _ s1
    have h1 : Inv s1 := foldl_inv (fun _ _ ht => clearFaults_inv (settleCluster_inv ht)) _ (forgetUnit_inv (trace_inv _ _
        (addTotals_inv hs)))
    split
    · extract_lets +onlyGivenNames s2
      have h2 : Inv s2 := inv_ite (modFrame_inv h1) h1
      exact inv_ite h2 (modFrame_inv h2)
    · exact inv_ite h1 (inv_same rfl h1)
    · exact h1

theorem setReq_inv {e : Nat} {r : Req} (hs : Inv s) : Inv (setReq s e r) := inv_same rfl hs

theorem setBatch_inv {b : Nat} {x : Batch} (hs : Inv s) : Inv (setBatch s b x) := inv_same rfl hs

theorem newReq_inv {r : Req} {x : Nat × State} (hs : Inv s) (h : newReq s r = some x) : Inv x.2 := by
  unfold newReq at h
  split at h
  · cases h
  · cases h
    exact setReq_inv hs

theorem charge2_inv {p n : Nat} (hs : Inv s) : Inv (charge2 s p n) := setPart_inv hs

theorem credit2_inv {p n : Nat} (hs : Inv s) : Inv (credit2 s p n) := setPart_inv hs

theorem charge4_inv {p n : Nat} (hs : Inv s) : Inv (charge4 s p n) := setPart_inv hs

theorem credit4_inv {p n : Nat} (hs : Inv s) : Inv (credit4 s p n) := setPart_inv hs

theorem clearRow_inv {e : Nat} (hs : Inv s) : Inv (clearRow s e) := inv_same rfl hs

theorem endReq_inv {e status : Nat} (hs : Inv s) : Inv (endReq s e status) :=
  inv_ite hs (finishOpt_inv _ _ _ (finishOpt_inv _ _ _ (finishOpt_inv _ _ _ (finishOpt_inv _ _ _ (setReq_inv (clearRow_inv
      (credit4_inv (credit2_inv (inv_ite hs (postRec_inv _ _ _ hs))))))))))

theorem endBatch_inv {b status : Nat} (hs : Inv s) : Inv (endBatch s b status) := by
  unfold endBatch
  split
  exacts [hs, inv_same rfl (finishOpt_inv _ _ _ hs)]

theorem settleBatch_inv {b : Nat} (hs : Inv s) : Inv (settleBatch s b) := by
  unfold settleBatch
  split
  exacts [hs, inv_ite hs (endBatch_inv hs)]

theorem abandonStep_inv {b : Nat} (hs : Inv s) : Inv (abandonStep s b) := by
  unfold abandonStep
  extract_lets +onlyGivenNames s1
  have h1 : Inv s1 := foldl_inv (fun _ _ ht => stopUnit_inv ht) _ hs
  split
  exacts [setBatch_inv h1, h1]

theorem releaseHandle_inv {h : Nat} (hs : Inv s) : Inv (releaseHandle s h) := by
  unfold releaseHandle
  split
  · exact hs
  · exact freeOldSets_inv (inv_same rfl (credit2_inv hs))

theorem unwindCast_inv {p status f : Nat} (hs : Inv s) : Inv (unwindCast s p status f) := by
  unfold unwindCast
  split
  · exact hs
  · refine finish_inv _ _ _ ?_
    split
    · exact inv_same rfl (credit2_inv (setPart_inv hs))
    · exact setPart_inv hs

end Sys2Proof.Machine
end

section
/-!
O5: each function of Sys2Proof/Machine/Pages.lean that changes the state keeps the invariant.
-/
namespace Sys2Proof.Machine
open Reg Laws

variable {s : State}

theorem placeT2_inv {gs : List Nat} {n : Nat} (hs : Inv s) : Inv (placeT2 s gs n).2 := by
  unfold placeT2
  extract_lets taken fits g
  have hg : Inv g.2 := pick_inv hs
  split
  exacts [hg, pick_inv hg]

theorem placeT4_inv {p n : Nat} (hs : Inv s) : Inv (placeT4 s p n).2 := by
  unfold placeT4
  split
  exacts [hs, pick_inv hs]

theorem allocPage_inv {m : Manifest} {e l i : Nat} (hs : Inv s) : Inv (allocPage m s e l i) :=
  inv_ite hs (setReq_inv (placeT2_inv hs))

theorem settlePages_inv {e next : Nat} (hs : Inv s) : Inv (settlePages s e next) := by
  unfold settlePages
  split
  · exact hs
  · exact foldl_inv (fun _ _ ht => foldl_inv (fun _ _ hu => allocPage_inv hu) _ ht) _ (setReq_inv hs)

theorem pageWrite_inv {p : Nat} {g : KvPage} {off : Nat} {l : List Byte} (hs : Inv s) : Inv (pageWrite s p g off l) := by
  unfold pageWrite
  split
  · exact hs
  · exact wroteBytes_inv (foldl_inv (fun _ _ ht => devWb_inv _ _ ht) _ hs)

theorem spillPage_inv {m : Manifest} {e : Nat} {g : KvPage} (hs : Inv s) : Inv (spillPage m e s g).2 := by
  unfold spillPage
  dsimp only
  split
  · exact placeT4_inv hs
  · exact foldl_inv (fun _ _ ht => hwrBytes_inv _ _ _ ht) _ (placeT4_inv hs)

theorem restorePage_inv {m : Manifest} {e : Nat} {g : KvPage} (hs : Inv s) : Inv (restorePage m e s g).2 :=
  pageWrite_inv (placeT2_inv hs)

theorem movePages_inv {e : Nat} {f : State → KvPage → KvPage × State} (hs : Inv s) (hf : ∀ t g, Inv t → Inv (f t g).2) : Inv
    (movePages s e f) :=
  foldl_inv (fun _ _ ht => setReq_inv (hf _ _ ht)) _ hs

theorem clearGrans_inv {p : Nat} {gs : List Nat} (hs : Inv s) : Inv (clearGrans s p gs) := by
  unfold clearGrans
  refine foldl_inv (fun _ _ ht => ?_) _ hs
  split
  · exact ht
  · refine movePages_inv ht (fun _ _ hu => ?_)
    split
    · exact inv_ite_snd (pageWrite_inv (placeT2_inv hu)) hu
    · exact hu

theorem pagesForStep_inv {b : Nat} (hs : Inv s) : Inv (pagesForStep s b) := by
  unfold pagesForStep
  split
  · exact hs
  · refine foldl_inv (fun _ _ ht => ?_) _ hs
    split
    exacts [inv_ite ht (settlePages_inv ht), ht]

end Sys2Proof.Machine
end

section
/-!
O5: each function of Sys2Proof/Machine/Recovery.lean that changes the state keeps the invariant.
-/
namespace Sys2Proof.Machine
open Reg Laws

variable {s : State}

theorem settleTimers_inv (hs : Inv s) : Inv (settleTimers s) := inv_same rfl hs

theorem freeSem_inv {n : Nat} (hs : Inv s) : Inv (freeSem s n) := wr_fits_inv (inv_same rfl hs)

theorem closeSession_inv (hs : Inv s) : Inv (closeSession s) :=
  wr_fits_inv (wr_fits_inv (foldl_inv (fun _ _ ht => freeSem_inv ht) _ hs))

theorem settleSession_inv (hs : Inv s) : Inv (settleSession s) := inv_ite (closeSession_inv hs) hs

theorem clearCluster_inv {n : Nat} (hs : Inv s) : Inv (clearCluster s n) := by
  unfold clearCluster
  extract_lets +onlyGivenNames lo inMem u s1
  have h1 : Inv s1 := setClu_inv _ _ hs
  exact settleSession_inv (refreshDma_inv (clearFaults_inv (resetRegs_inv _ (inv_same rfl (dropMem_inv inMem h1)))))

theorem gateCluster_inv {n : Nat} (hs : Inv s) : Inv (gateCluster s n) :=
  wr_fits_inv (wr_fits_inv (wr_fits_inv (wr_fits_inv (setClu_inv _ _ (clearCluster_inv hs)))))

theorem ungateInit_inv {n : Nat} (hs : Inv s) : Inv (ungateInit s n) := setClu_inv _ _ (wr_fits_inv (wr_fits_inv hs))

theorem enterInit_inv {n : Nat} (hs : Inv s) : Inv (enterInit s n) :=
  wr_fits_inv (wr_fits_inv (wr_fits_inv (setClu_inv _ _ (clearCluster_inv (resetRegs_inv _ hs)))))

theorem settleInit_inv {n : Nat} (hs : Inv s) : Inv (settleInit s n) := inv_ite (enterInit_inv hs) hs

theorem leaveCluster_inv {n : Nat} (hs : Inv s) : Inv (leaveCluster s n) :=
  inv_ite (settleInit_inv (settleCluster_inv (wr_fits_inv (wr_fits_inv (setClu_inv _ _ (wr_fits_inv hs)))))) (wr_fits_inv hs)

theorem partState_inv {p detail : Nat} (hs : Inv s) : Inv (partState s p detail) :=
  inv_ite (event_inv _ _ _ _ hs) (event_inv _ _ _ _ (event_inv _ _ _ _ hs))

theorem endTrain_inv {t : Train} {status : Nat} {x : Result} (hs : Inv s) : Inv (endTrain s t status x) :=
  finish_inv _ _ _ (endReq_inv (inv_same rfl (foldl_inv (fun _ _ ht => stopUnit_inv ht) _ hs)))

theorem failBatch_inv {b status : Nat} (hs : Inv s) : Inv (failBatch s b status) := by
  unfold failBatch
  split
  · exact hs
  · exact settleBatch_inv (foldl_inv (fun _ _ ht => endReq_inv ht) _ (abandonStep_inv hs))

theorem retireBatch_inv {b : Nat} (hs : Inv s) : Inv (retireBatch s b) := by
  unfold retireBatch
  split
  · exact hs
  · exact inv_ite (failBatch_inv hs) (setBatch_inv (abandonStep_inv hs))

theorem abandonWork_inv {p : Nat} (hs : Inv s) : Inv (abandonWork s p) := by
  unfold abandonWork
  extract_lets +onlyGivenNames _ s1
  have h1 : Inv s1 := foldl_inv (fun _ _ ht => stopUnit_inv ht) _ (foldl_inv (fun _ _ ht => retireBatch_inv ht) _ hs)
  exact foldl_inv (fun _ _ ht => endTrain_inv ht) _ (cam_foldl_inv (fun _ _ _ ht => foldl_inv (fun _ _ hu => dropFrame_inv hu) _
      ht) h1 h1)

theorem castWm_inv {m : Manifest} {i n c : Nat} (hs : Inv s) : Inv (castWm s m i n c) :=
  wroteRange_inv (foldl_inv (fun _ _ ht => wb_inv _ _ ht) _ hs)

theorem castCluster_inv {m : Manifest} {i n : Nat} (hs : Inv s) : Inv (castCluster s m i n) :=
  foldl_inv (fun _ _ ht => castWm_inv ht) _ hs

theorem castImage_inv {p : Nat} {m : Manifest} (hs : Inv s) : Inv (castImage s p m) := by
  unfold castImage
  split
  · exact hs
  · refine foldl_inv (fun _ _ ht => ?_) _ hs
    split
    exacts [ht, castCluster_inv ht]

theorem recastHandles_inv {p : Nat} (hs : Inv s) : Inv (recastHandles s p) := foldl_inv (fun _ _ ht => castImage_inv ht) _ hs

theorem castDisplay_inv {l : Nat} (hs : Inv s) : Inv (castDisplay s l) := by
  unfold castDisplay
  split
  exacts [castCluster_inv hs, hs]

theorem setProg_inv {p v : Nat} (hs : Inv s) : Inv (setProg s p v) := wr_fits_inv hs

theorem raiseFence_inv {p : Nat} {hang : Bool} (hs : Inv s) : Inv (raiseFence s p hang) := by
  unfold raiseFence
  extract_lets +onlyGivenNames _ _ _ s1
  have h1 : Inv s1 := report_inv _ _ _ _ _ _ (partState_inv (inv_ite_snd (fresh_inv (dropPartFrames_inv (setProg_inv
      (setPart_inv hs)))) (dropPartFrames_inv (setProg_inv (setPart_inv hs)))))
  exact inv_ite (raiseCause_inv h1) h1

theorem askFence_inv {p : Nat} (hs : Inv s) : Inv (askFence s p) := setPart_inv hs

theorem raiseDue_inv (hs : Inv s) : Inv (raiseDue s) := foldl_inv (fun _ _ ht => raiseFence_inv ht) _ hs

theorem endCommands_inv {p : Nat} (hs : Inv s) : Inv (endCommands s p) := foldl_inv (fun _ _ ht => complete_inv _ _ _ ht) _ hs

theorem resetRequest_inv {e : Nat} (hs : Inv s) : Inv (resetRequest s e) :=
  inv_ite (endReq_inv hs) (inv_ite (inv_ite (endReq_inv (setReq_inv (credit4_inv (credit2_inv hs)))) (inv_ite (endReq_inv
      (setReq_inv (credit4_inv (credit2_inv hs)))) (setReq_inv (credit4_inv (credit2_inv hs))))) hs)

theorem finishReset_inv {p : Nat} (hs : Inv s) : Inv (finishReset s p) := by
  unfold finishReset
  extract_lets +onlyGivenNames _ _ s1
  have h1 : Inv s1 := foldl_inv (fun _ _ ht => endTrain_inv ht) _ (foldl_inv (fun _ _ ht => settleBatch_inv ht) _
      (foldl_inv (fun _ _ ht => resetRequest_inv ht) _ hs))
  exact foldl_inv (fun _ _ ht => finish_inv _ _ _ ht) _ (partState_inv (partState_inv (setProg_inv (inv_ite (dropCause_inv
      (foldl_inv (fun _ _ ht => castDisplay_inv ht) _ (recastHandles_inv (setPart_inv (unwindCast_inv h1)))))
      (recastHandles_inv (setPart_inv (unwindCast_inv h1)))))))

theorem startReset_inv {p : Nat} (hs : Inv s) : Inv (startReset s p) := by
  unfold startReset
  extract_lets +onlyGivenNames s1 _ s2 l s3 s4 s5
  have h2 : Inv s2 := inv_same (s := s1) rfl (foldl_inv (fun _ _ ht => stopUnit_inv ht) _ hs)
  have h4 : Inv s4 := setProg_inv (setPart_inv (foldl_inv (fun _ _ ht => ungateInit_inv (gateCluster_inv ht)) _ h2))
  have h5 : Inv s5 := inv_ite (raiseCause_inv h4) h4
  exact inv_ite (finishReset_inv h5) h5

theorem freeGranules_inv {p : Nat} (hs : Inv s) : Inv (freeGranules s p) := inv_same rfl hs

theorem dropBinds_inv {p : Nat} (hs : Inv s) : Inv (dropBinds s p) :=
  cam_foldl_inv (fun _ _ h1 ht => credit2_inv (setCtx_inv h1 ht)) hs hs

theorem unbindPart_inv {p : Nat} (hs : Inv s) : Inv (unbindPart s p) := by
  unfold unbindPart
  refine cam_foldl_inv (fun _ _ h1 ht => ?_) hs hs
  split
  · exact inv_ite (wr_fits_inv (setCtx_inv h1 ht)) ht
  · exact ht

theorem completeDestroy_inv {p : Nat} (hs : Inv s) : Inv (completeDestroy s p) :=
  foldl_inv (fun _ _ ht => finish_inv _ _ _ ht) _ (setProg_inv (inv_same rfl (freeGranules_inv hs)))

theorem endPartWork_inv {p : Nat} {noRecords : Bool} (hs : Inv s) : Inv (endPartWork s p noRecords) := by
  unfold endPartWork
  extract_lets +onlyGivenNames s1 s2 s3 s4 srv s5 s6 s7 s8 l s9
  have h1 : Inv s1 := inv_ite (dropCmds_inv _ hs) hs
  have h3 : Inv s3 := dropBinds_inv (endCommands_inv (foldl_inv (fun _ _ ht => endReq_inv ht) _ h1))
  have h5 : Inv s5 := inv_serving (foldl_inv (fun _ _ ht => endTrain_inv ht) _ h3)
  have h6 : Inv s6 := unbindPart_inv (dropPartFrames_inv h5)
  have h7 : Inv s7 := foldl_inv (fun _ _ ht => stopUnit_inv ht) _ h6
  clear_value s7
  have h8 : Inv s8 := inv_same rfl h7
  exact setPart_inv (foldl_inv (fun _ _ ht => leaveCluster_inv ht) _ h8)

theorem finishDestroy_inv {p : Nat} {noRecords : Bool} (hs : Inv s) : Inv (finishDestroy s p noRecords) := by
  unfold finishDestroy
  split
  · exact hs
  · refine inv_ite hs ?_
    dsimp only
    split
    · exact endPartWork_inv hs
    · exact inv_ite (completeDestroy_inv (endPartWork_inv hs)) (endPartWork_inv hs)

theorem drainEnd_inv {p : Nat} (hs : Inv s) : Inv (drainEnd s p) := by
  unfold drainEnd
  split
  · exact hs
  · refine inv_ite hs (inv_ite (finishDestroy_inv hs) ?_)
    extract_lets +onlyGivenNames _ s1
    have h1 : Inv s1 := foldl_inv (fun _ _ ht => finish_inv _ _ _ ht) _ (setPart_inv (dropBinds_inv (endCommands_inv hs)))
    exact inv_ite (startReset_inv h1) (setProg_inv (setPart_inv h1))

theorem initPassed_inv {n : Nat} (hs : Inv s) : Inv (initPassed s n) := by
  unfold initPassed
  refine foldl_inv (fun _ _ ht => ?_) _ hs
  split
  · exact ht
  · exact inv_ite (inv_ite (setPart_inv ht) (inv_ite (completeDestroy_inv (setPart_inv ht)) (finishReset_inv (setPart_inv ht))))
      ht

theorem shrinkPart_inv {p l : Nat} (hs : Inv s) : Inv (shrinkPart s p l) := by
  unfold shrinkPart
  split
  · exact hs
  · extract_lets +onlyGivenNames s1
    have h1 : Inv s1 := partState_inv (setPart_inv hs)
    exact inv_ite (dropPartFrames_inv (foldl_inv (fun _ _ ht => settleBatch_inv ht) _ (foldl_inv (fun _ _ ht => endReq_inv ht) _
        (foldl_inv (fun _ _ ht => endTrain_inv ht) _ h1)))) h1

theorem checkClusters_inv (hs : Inv s) : Inv (checkClusters s) := by
  unfold checkClusters
  split
  exacts [hs, inv_ite (raiseCause_inv hs) hs]

theorem replaceCluster_inv {n l p : Nat} (hs : Inv s) : Inv (replaceCluster s n l p) := by
  unfold replaceCluster
  split
  · exact ungateInit_inv (inv_same rfl hs)
  · split
    exacts [shrinkPart_inv (inv_same rfl hs), inv_ite hs (shrinkPart_inv hs)]

theorem failPacketMoves_inv {n : Nat} (hs : Inv s) : Inv (failPacketMoves s n) := by
  unfold failPacketMoves
  refine foldl_inv (fun _ _ ht => ?_) _ hs
  split
  exacts [finish_inv _ _ _ ht, ht]

theorem retireCluster_inv {n status : Nat} (hs : Inv s) : Inv (retireCluster s n status) := by
  unfold retireCluster
  extract_lets p l mapped leaving repl s1 s2 s3 s4 s5 s6 u s7 s8 s9 s10
  clear_value repl
  have h2 : Inv s2 := foldl_inv (fun _ _ ht => stopUnit_inv ht) _ (report_inv _ _ _ _ _ _ hs)
  clear_value s2
  have h5 : Inv s5 := wr_fits_inv (wr_fits_inv (gateCluster_inv (failPacketMoves_inv (abandonWork_inv h2))))
  clear_value s5
  have h8 : Inv s8 := writeDevRec_inv (setClu_inv _ _ (wr_fits_inv h5))
  clear_value s8
  have h9 : Inv s9 := inv_same rfl h8
  have h10 : Inv s10 := by
    dsimp only [s10]
    split
    exacts [replaceCluster_inv h9, inv_ite h9 (inv_ite (setPart_inv h9) (replaceCluster_inv h9))]
  exact inv_ite hs (checkClusters_inv (initPassed_inv h10))

theorem settleDoomed_inv {n : Nat} (hs : Inv s) : Inv (settleDoomed s n) := inv_ite (retireCluster_inv hs) hs

theorem settleAllDoomed_inv (hs : Inv s) : Inv (settleAllDoomed s) := foldl_inv (fun _ _ ht => settleDoomed_inv ht) _ hs

end Sys2Proof.Machine
end

section
/-!
O5: each function of Sys2Proof/Machine/Train.lean that changes the state keeps the invariant.
-/
namespace Sys2Proof.Machine
open Reg Laws

variable {s : State}

theorem gradStore_inv {x : Nat} {l : List Nat} (hs : Inv s) : Inv (gradStore s x l).2 := by
  induction l generalizing s with
  | nil => exact hs
  | cons v t ih => exact ih (fresh_inv hs)

theorem gradBlock_inv {a : Adapter} {grads : List Nat} {b n : Nat} (hs : Inv s) : Inv (gradBlock s a grads b n).2.2 :=
  gradStore_inv hs

theorem accumulate_inv {a : Adapter} {grads : List Nat} {n : Nat} (hs : Inv s) : Inv (accumulate s a grads n).2 := by
  refine foldl_snd_snd_inv (fun _ _ ht => ?_) _ hs
  exact gradBlock_inv ht

theorem storeMoments_inv {l : List Nat} (hs : Inv s) : Inv (storeMoments s l).2.2 := by
  unfold storeMoments
  dsimp only
  split
  · refine fresh_inv (foldl_snd_inv (fun _ _ ht => ?_) _ hs)
    exact fresh_inv ht
  · split
    all_goals exact hs

theorem storeAllMoments_inv {n : Nat} {l : List Nat} (hs : Inv s) : Inv (storeAllMoments s n l).2.2 := by
  induction n generalizing s l with
  | zero => exact hs
  | succ n ih => exact ih (storeMoments_inv hs)

theorem storeWeights_inv {l : List Nat} (hs : Inv s) : Inv (storeWeights s l).2 := by
  induction l generalizing s with
  | nil => exact hs
  | cons v t ih => exact ih (fresh_inv hs)

theorem updateAdapter_inv {t : TrainParams} {a : Adapter} {norm n : Nat} (hs : Inv s) : Inv (updateAdapter s t a norm n).2 :=
  storeAllMoments_inv (storeAllMoments_inv (storeWeights_inv hs))

theorem trainResult_inv {t : TrainParams} {a : Adapter} {grads : List Nat} {norm n : Nat} (hs : Inv s) : Inv (trainResult s t a grads
    norm n).2 :=
  inv_ite_snd hs (inv_ite_snd (updateAdapter_inv (accumulate_inv hs)) (accumulate_inv hs))

end Sys2Proof.Machine
end

section
/-!
O5: each function of Sys2Proof/Machine/Attention.lean that changes the state keeps the invariant.
-/
namespace Sys2Proof.Machine
open Reg Laws

variable {s : State}

theorem convertRow_inv {a : AttnLayer} {scales : List Nat} {l : List (BitVec 32)} (hs : Inv s) : Inv (convertRow s a scales l).2 :=
    by
  unfold convertRow
  refine foldl_snd_inv (fun _ _ ht => ?_) _ hs
  split
  exacts [ht, fresh_inv ht]

theorem countKv_inv {p : Nat} {l : List Conv} (hs : Inv s) : Inv (countKv s p l) := setPart_inv hs

theorem writePosition_inv {e l pos : Nat} {a : AttnLayer} {k v : List (BitVec 32)} (hs : Inv s) : Inv (writePosition s e l pos a k
    v) := by
  unfold writePosition
  dsimp only
  split
  · exact hs
  · exact foldl_inv (fun _ _ ht => pageWrite_inv ht) _ (foldl_inv (fun _ _ ht => pageWrite_inv ht) _ (countKv_inv (convertRow_inv
      (convertRow_inv hs))))

theorem writeKv_inv {e row from' n : Nat} {kv : List KvRow} (hs : Inv s) : Inv (writeKv s e row from' n kv) := by
  unfold writeKv
  split
  · exact hs
  · exact foldl_inv (fun _ _ ht => foldl_inv (fun _ _ hu => writePosition_inv hu) _ ht) _ hs

theorem writeOutput_inv {p : Nat} {x : AttnRow} {l : List Nat} (hs : Inv s) : Inv (writeOutput s p x l) := by
  unfold writeOutput
  split
  · exact hs
  · exact inv_ite (wroteRange_inv (foldl_inv (fun _ _ ht => wrN_inv _ _ _ ht) _ hs)) hs

theorem attendRow_inv {e row from' : Nat} {l : List AttnRow} (hs : Inv s) : Inv (attendRow s e row from' l).1 := by
  unfold attendRow
  split
  · exact hs
  · refine foldl_fst_inv (fun _ _ ht => inv_ite_fst ht ?_) _ hs
    split
    · exact ht
    · dsimp only
      split
      exacts [ht, writeOutput_inv (setPart_inv ht)]

end Sys2Proof.Machine
end

section
/-!
O5: each function of Sys2Proof/Machine/Vector.lean that changes the state keeps the invariant.
-/
namespace Sys2Proof.Machine
open Reg Laws

variable {s : State}

theorem setq_inv {t : ThreadId} {entry : Fin 64} {addr : Fin 4096} {ecc : Ecc} (hs : Inv s) : Inv (setq t entry addr ecc s) :=
  inv_ite (inv_ite (threadFault_inv (noteIssue_inv (readWord_inv (addEcc_inv hs)))) (advancePc_inv _ _ (setCore_inv _ _
      (readWord_inv (addEcc_inv hs))))) hs

theorem setReg_inv {k rdx : Nat} {v : BitVec 32} (hs : Inv s) : Inv (setReg s k rdx v) := setThr_inv _ _ hs

theorem execCntRd_inv {t : ThreadId} {which : Fin 3} {vector : Bool} {rdx : Fin 32} (hs : Inv s) : NextInv (execCntRd t which
    vector rdx s) :=
  next_ite (advancePc_inv _ _ (setReg_inv hs)) hs

theorem setVecQueue_inv {cn : Nat} {l : List VecEntry} (hs : Inv s) : Inv (setVecQueue s cn l) := setClu_inv _ _ hs

theorem issueVec_inv {k tag : Nat} {e : VecEntry} (hs : Inv s) : Inv (issueVec s k tag e) :=
  inv_ite (setThrState_inv _ _ _ hs) (advancePc_inv _ _ (setVecQueue_inv (setTag_inv hs)))

theorem popVec_inv {cn : Nat} (hs : Inv s) : Inv (popVec s cn) := settleCluster_inv (wakeCore_inv (setVecQueue_inv hs))

theorem wrElem_inv {a w i v : Nat} (hs : Inv s) : Inv (wrElem s a w i v) := inv_ite (wb_inv _ _ hs) (wrN_inv _ _ _ hs)

theorem execVectorOp_inv {t : ThreadId} {op : VecCmd} (hs : Inv s) : NextInv (execVectorOp t op s) :=
  next_ite (next_ite (issueFault_inv hs) (issueVec_inv hs)) hs

theorem addVecCounts_inv {n satO nonf : Nat} (hs : Inv s) : Inv (addVecCounts s n satO nonf) := setClu_inv _ _ hs

theorem vecElem_inv {cn : Nat} {c : VecCmd} {e i : Nat} (hs : Inv s) : Inv (vecElem cn c e s i) := by
  unfold vecElem
  split
  · exact wrElem_inv hs
  · exact wrElem_inv hs
  · exact inv_ite (wrElem_inv (fresh_inv hs)) (wrElem_inv hs)
  · exact wrElem_inv hs
  · exact inv_ite (wrElem_inv (chanScale_inv hs)) (addVecCounts_inv (wrElem_inv (inv_ite (setClu_inv _ _ (chanScale_inv hs))
      (chanScale_inv hs))))
  · exact wrElem_inv (fresh_inv hs)

theorem setColl_inv {n i : Nat} {c : Collector} (hs : Inv s) : Inv (setColl s n i c) := setClu_inv _ _ hs

theorem wakeCollector_inv {n : Nat} (hs : Inv s) : Inv (wakeCollector s n) := foldl_inv (fun _ _ ht => wakeCore_inv ht) _ hs

theorem releaseColl_inv {n i : Nat} (hs : Inv s) : Inv (releaseColl s n i) := wakeCollector_inv (setColl_inv hs)

theorem execStatAcq_inv {t : ThreadId} {perChannel : Bool} {channels : Nat} {decay : BitVec 8} (hs : Inv s) : NextInv (execStatAcq t
    perChannel channels decay s) := by
  unfold execStatAcq
  refine next_ite (next_ite (issueFault_inv hs) ?_) hs
  split
  exacts [setThrState_inv _ _ _ hs, advancePc_inv _ _ (setColl_inv hs)]

theorem execStatFeed_inv {t : ThreadId} {collector : Fin 8} {fmt : Fin 16} {src : Sys2Proof.Region} {count : Nat} {tag : Fin 8} (hs
    : Inv s) : NextInv (execStatFeed t collector fmt src count tag s) :=
  next_ite (next_ite (issueFault_inv hs) (issueVec_inv hs)) hs

theorem feedElem_inv {cn i fmt : Nat} {src : Sys2Proof.Region} {e : Nat} (hs : Inv s) : Inv (feedElem cn i fmt src s e) :=
  inv_ite (addVecCounts_inv hs) (setColl_inv hs)

theorem onCollector_inv {t : ThreadId} {i : Fin 8} {f : State → Collector → State} (hs : Inv s) (hf : ∀ t c, Inv t → Inv (f t c))
    : NextInv (onCollector t i s f) :=
  next_ite (next_ite (issueFault_inv hs) (advancePc_inv _ _ (hf _ _ hs))) hs

theorem execStatCommit_inv {t : ThreadId} {collector : Fin 8} (hs : Inv s) : NextInv (execStatCommit t collector s) :=
  onCollector_inv hs (fun _ _ ht => setColl_inv ht)

theorem execStatRead_inv {t : ThreadId} {collector : Fin 8} {dst : Sys2Proof.Region} (hs : Inv s) : NextInv (execStatRead t
    collector dst s) :=
  next_ite (issueFault_inv hs) (onCollector_inv hs (fun _ _ ht => wroteRange_inv (foldl_inv (fun _ _ hu => wrElem_inv hu) _ ht)))

theorem execStatFree_inv {t : ThreadId} {collector : Fin 8} (hs : Inv s) : NextInv (execStatFree t collector s) :=
  onCollector_inv hs (fun _ _ ht => inv_ite (setColl_inv ht) (releaseColl_inv ht))

theorem settleFeed_inv {cl i : Nat} (hs : Inv s) : Inv (settleFeed s cl i) := inv_ite (releaseColl_inv hs) hs

theorem vectorComplete_inv {cl : Fin 34} {c : Fin 64} {errs : List WordErr} (hs : Inv s) : Inv (vectorComplete cl c errs s) := by
  unfold vectorComplete
  dsimp only
  split
  · exact inv_ite (popVec_inv (completeTag_inv (readWords_inv (addErrs_inv hs)))) (popVec_inv (completeTag_inv (wroteRange_inv
      (foldl_inv (fun _ _ ht => vecElem_inv ht) _ (readWords_inv (addErrs_inv hs))))))
  · exact inv_ite (settleFeed_inv (popVec_inv (completeTag_inv (readWords_inv (addErrs_inv hs))))) (settleFeed_inv (popVec_inv
      (completeTag_inv (foldl_inv (fun _ _ ht => feedElem_inv ht) _ (readWords_inv (addErrs_inv hs))))))
  · exact addErrs_inv hs

end Sys2Proof.Machine
end

section
/-!
O5: each function of Sys2Proof/Machine/Image.lean that changes the state keeps the invariant.
-/
namespace Sys2Proof.Machine
open Reg Laws

variable {s : State}

theorem execEng_inv {t : ThreadId} {addr : Nat} {tag : Fin 8} (hs : Inv s) : NextInv (execEng t addr tag s) :=
  next_ite (next_ite (issueVec_inv hs) (issueFault_inv hs)) hs

theorem engPut_inv {n : Nat} {f : EngF} {i v : Nat} (hs : Inv s) : Inv (engPut s n f i v) := wrN_inv _ _ _ hs

theorem engConvert_inv {n : Nat} {f : EngF} {i v : Nat} (hs : Inv s) : Inv (engConvert s n f i v) := addVecCounts_inv (engPut_inv hs)

theorem poolElem_inv {n : Nat} {f : EngF} {oy ox c i : Nat} (hs : Inv s) : Inv (poolElem n f s oy ox c i) :=
  inv_ite (addVecCounts_inv (engPut_inv hs)) (inv_ite (engPut_inv hs) (engConvert_inv hs))

theorem runPool_inv {n : Nat} {f : EngF} (hs : Inv s) : Inv (runPool n f s) :=
  foldl_inv (fun _ _ ht => foldl_inv (fun _ _ hu => foldl_inv (fun _ _ hv => poolElem_inv hv) _ hu) _ ht) _ hs

theorem resampleElem_inv {n : Nat} {f : EngF} {sy sx c i : Nat} (hs : Inv s) : Inv (resampleElem n f s sy sx c i) := by
  unfold resampleElem
  split
  exacts [engConvert_inv (fresh_inv hs), engConvert_inv hs, engConvert_inv hs]

theorem runResample_inv {n : Nat} {f : EngF} (hs : Inv s) : Inv (runResample n f s) :=
  foldl_inv (fun _ _ ht => foldl_inv (fun _ _ hu => foldl_inv (fun _ _ hv => foldl_inv (fun _ _ hw => inv_ite (addVecCounts_inv
      (engPut_inv hw)) (resampleElem_inv hw)) _ hv) _ hu) _ (inv_ite (addVecCounts_inv ht) ht)) _ hs

theorem runRegroup_inv {n : Nat} {f : EngF} (hs : Inv s) : Inv (runRegroup n f s) :=
  inv_ite (foldl_inv (fun _ _ ht => foldl_inv (fun _ _ hu => foldl_inv (fun _ _ hv => engPut_inv hv) _ hu) _ ht) _ hs) (foldl_inv
      (fun _ _ ht => foldl_inv (fun _ _ hu => foldl_inv (fun _ _ hv => engPut_inv hv) _ hu) _ ht) _ hs)

theorem engineStart_inv {cl : Fin 34} {c : Fin 64} {errs : List WordErr} (hs : Inv s) : Inv (engineStart cl c errs s) := by
  unfold engineStart
  dsimp only
  split
  · exact inv_ite (addErrs_inv hs) (inv_ite (popVec_inv (completeTag_inv (setClu_inv _ _ (readWords_inv (addErrs_inv hs)))))
      (inv_ite (popVec_inv (completeTag_inv (setClu_inv _ _ (setClu_inv _ _ (readWords_inv (addErrs_inv hs)))))) (setClu_inv _ _
      (setClu_inv _ _ (readWords_inv (addErrs_inv hs))))))
  · exact addErrs_inv hs

theorem engineComplete_inv {cl : Fin 34} {errs : List WordErr} (hs : Inv s) : Inv (engineComplete cl errs s) := by
  unfold engineComplete
  dsimp only
  split
  · exact addErrs_inv hs
  · exact inv_ite (popVec_inv (completeTag_inv (setClu_inv _ _ (addErrs_inv hs)))) (inv_ite (popVec_inv (completeTag_inv
      (readWords_inv (setClu_inv _ _ (addErrs_inv hs))))) (popVec_inv (completeTag_inv (wroteRange_inv (inv_ite (addVecCounts_inv
      (wrN_inv _ _ _ (fresh_inv (fresh_inv (fresh_inv (readWords_inv (setClu_inv _ _ (addErrs_inv hs)))))))) (inv_ite (runPool_inv
      (readWords_inv (setClu_inv _ _ (addErrs_inv hs)))) (inv_ite (runResample_inv (readWords_inv (setClu_inv _ _ (addErrs_inv
      hs)))) (runRegroup_inv (readWords_inv (setClu_inv _ _ (addErrs_inv hs)))))))))))

end Sys2Proof.Machine
end

section
/-!
O5: each function of Sys2Proof/Machine/Cluster.lean that changes the state keeps the invariant.
-/
namespace Sys2Proof.Machine
open Reg Laws

variable {s : State}

theorem checked_inv {n : Nat} {errs : List WordErr} {f : State → State} (hs : Inv s) (hf : ∀ t, Inv t → Inv (f t)) : NextInv
    (checked n errs f s) :=
  settleDoomed_inv (hf _ (addErrs_inv hs))

theorem execMatmul_inv {t : ThreadId} {word : BitVec 120} (hs : Inv s) : NextInv (execMatmul t word s) :=
  checked_inv hs (fun _ ht => issueArray_inv ht)

theorem execConv_inv {t : ThreadId} {word : BitVec 120} {errs : List WordErr} (hs : Inv s) : NextInv (execConv t word errs s) :=
  checked_inv hs (fun _ ht => issueArray_inv ht)

theorem execStream_inv {t : ThreadId} {word : BitVec 120} {errs : List WordErr} (hs : Inv s) : NextInv (execStream t word errs s)
    :=
  checked_inv hs (fun _ ht => issueArray_inv ht)

theorem execArrCredit_inv {t : ThreadId} {output : Bool} {n : Nat} {errs : List WordErr} (hs : Inv s) : NextInv (execArrCredit t
    output n errs s) :=
  checked_inv hs (fun _ ht => inv_ite (addCredit_inv (advancePc_inv _ _ ht)) ht)

theorem execSetq_inv {t : ThreadId} {entry : Fin 64} {addr : Fin 4096} {ecc : Ecc} (hs : Inv s) : NextInv (execSetq t entry addr
    ecc s) :=
  checked_inv hs (fun _ ht => setq_inv ht)

theorem execArrayInstructionComplete_inv {cl : Fin 34} {c : Fin 64} {errs : List WordErr} (hs : Inv s) : NextInv
    (execArrayInstructionComplete cl c errs s) :=
  checked_inv hs (fun _ ht => arrayComplete_inv ht)

theorem execStreamEnd_inv {cl : Fin 34} {c : Fin 64} {stopped : Bool} {errs : List WordErr} (hs : Inv s) : NextInv (execStreamEnd
    cl c stopped errs s) :=
  checked_inv hs (fun _ ht => streamEnd_inv ht)

theorem execArrayStall_inv {cl : Fin 34} {c : Fin 64} {links : List (Fin 16)} (hs : Inv s) : NextInv (execArrayStall cl c links s)
    :=
  checked_inv hs (fun _ ht => arrayStall_inv ht)

theorem execFreezeEnd_inv {cl : Fin 34} {c : Fin 64} (hs : Inv s) : NextInv (execFreezeEnd cl c s) :=
  checked_inv hs (fun _ ht => freezeEnd_inv ht)

theorem settleUnits_inv {n : Nat} (hs : Inv s) : Inv (settleUnits n s) := settleInit_inv (settleCluster_inv hs)

theorem execVectorComplete_inv {cl : Fin 34} {c : Fin 64} {errs : List WordErr} (hs : Inv s) : NextInv (execVectorComplete cl c
    errs s) :=
  checked_inv hs (fun _ ht => settleUnits_inv (vectorComplete_inv ht))

theorem execEngineOpStart_inv {cl : Fin 34} {c : Fin 64} {errs : List WordErr} (hs : Inv s) : NextInv (execEngineOpStart cl c errs
    s) :=
  checked_inv hs (fun _ ht => settleUnits_inv (engineStart_inv ht))

theorem execEngineOpComplete_inv {cl : Fin 34} {errs : List WordErr} (hs : Inv s) : NextInv (execEngineOpComplete cl errs s) :=
  checked_inv hs (fun _ ht => settleUnits_inv (engineComplete_inv ht))

theorem setG_inv {k r : Nat} {v : BitVec 32} (hs : Inv s) : Inv (setG s k r v) := setThr_inv _ _ hs

theorem execScalarOp_inv {t : ThreadId} {op : ScalarCmd} (hs : Inv s) : NextInv (execScalarOp t op s) := by
  unfold execScalarOp
  refine next_ite ?_ hs
  split
  · exact advancePc_inv _ _ (setG_inv hs)
  · exact setThr_inv _ _ (noteIssue_inv hs)
  · exact settleDoomed_inv (issueFault_inv hs)

theorem loadValue_inv {a len : Nat} (hs : Inv s) : Inv (loadValue s a len).2 := inv_ite_snd hs (fresh_inv hs)

theorem execThreadLoad_inv {t : ThreadId} {m : CoreMem} {addr len : Nat} {r : Fin 32} {ecc : Ecc} (hs : Inv s) : NextInv
    (execThreadLoad t m addr len r ecc s) := by
  unfold execThreadLoad
  refine next_ite hs (next_ite (settleDoomed_inv (issueFault_inv hs)) ?_)
  extract_lets +onlyGivenNames base p1
  have h1 : Inv p1.1 := readWords_inv (addEcc_inv hs)
  exact next_ite (settleDoomed_inv (threadFault_inv (noteIssue_inv h1))) (settleDoomed_inv (advancePc_inv _ _ (setG_inv
      (loadValue_inv h1))))

theorem storeValue_inv {v : BitVec 32} {len : Nat} (hs : Inv s) : Inv (storeValue s v len).2 := inv_ite_snd hs (fresh_inv hs)

theorem execThreadStore_inv {t : ThreadId} {m : CoreMem} {addr len : Nat} {r : Fin 32} {ecc : Ecc} (hs : Inv s) : NextInv
    (execThreadStore t m addr len r ecc s) :=
  next_ite hs (next_ite (settleDoomed_inv (issueFault_inv hs)) (settleDoomed_inv (advancePc_inv _ _ (wroteRange_inv (wrN_inv _ _ _
      (storeValue_inv (addEcc_inv hs)))))))

theorem dueFault_inv {k : Nat} (hs : Inv s) : NextInv (dueFault s k) := settleDoomed_inv (issueFault_inv hs)

theorem execWait_inv {t : ThreadId} {tag : Fin 8} (hs : Inv s) : NextInv (execWait t tag s) := by
  unfold execWait
  refine next_ite hs (next_ite (dueFault_inv hs) ?_)
  split
  · exact advancePc_inv _ _ hs
  · exact settleDoomed_inv (threadFault_inv (noteIssue_inv hs))
  · exact setThrState_inv _ _ _ (advancePc_inv _ _ hs)
  · exact setThrState_inv _ _ _ (advancePc_inv _ _ hs)

theorem execCoreBarrier_inv {t : ThreadId} (hs : Inv s) : NextInv (execCoreBarrier t s) :=
  next_ite hs (next_ite (dueFault_inv hs) (settleCoreBarrier_inv (setThrState_inv _ _ _ (advancePc_inv _ _ hs))))

theorem execClusterBarrier_inv {t : ThreadId} {counter : Fin 16} {cores : Nat} (hs : Inv s) : NextInv (execClusterBarrier t counter
    cores s) := by
  unfold execClusterBarrier
  refine next_ite hs (next_ite (dueFault_inv hs) ?_)
  extract_lets +onlyGivenNames s1
  have h1 : Inv s1 := setThrState_inv _ _ _ (advancePc_inv _ _ hs)
  exact next_ite (foldl_inv (fun _ _ ht => wakeCore_inv ht) _ h1) h1

theorem execThreadEnd_inv {t : ThreadId} (hs : Inv s) : NextInv (execThreadEnd t s) := by
  unfold execThreadEnd
  refine next_ite hs ?_
  extract_lets +onlyGivenNames s1
  have h1 : Inv s1 := settleCoreBarrier_inv (setThrState_inv _ _ _ (noteIssue_inv hs))
  split
  exacts [settleInit_inv (endUnit_inv h1), h1]

theorem scrubRead_inv {n mem c b : Nat} {ecc : Ecc} (hs : Inv s) : Inv (scrubRead s n mem c b ecc) :=
  inv_ite (settleDoomed_inv (scrubAdvance_inv (setPoison_inv _ (readWord_inv (addEcc_inv hs))))) (inv_ite (settleDoomed_inv
      (setClu_inv _ _ (readWord_inv (addEcc_inv hs)))) (scrubAdvance_inv (readWord_inv (addEcc_inv hs))))

theorem scrubWrites_inv {n mem c b w : Nat} (hs : Inv s) : Inv (scrubWrites s n mem c b w) := scrubAdvance_inv (dropUpset_inv hs)

theorem execScrubRead_inv {b : BankId} {ecc : Ecc} (hs : Inv s) : NextInv (execScrubRead b ecc s) :=
  next_ite (scrubRead_inv hs) hs

theorem execForcedScrubSlot_inv {b : BankId} {ecc : Ecc} (hs : Inv s) : NextInv (execForcedScrubSlot b ecc s) := by
  unfold execForcedScrubSlot
  refine next_ite ?_ hs
  split
  exacts [scrubWrites_inv hs, scrubRead_inv hs]

theorem execScrubWriteBack_inv {b : BankId} (hs : Inv s) : NextInv (execScrubWriteBack b s) := by
  unfold execScrubWriteBack
  refine next_ite ?_ hs
  split
  exacts [scrubWrites_inv hs, hs]

theorem execClusterPowerGood_inv {cl : Fin 34} (hs : Inv s) : NextInv (execClusterPowerGood cl s) :=
  next_ite (next_ite (enterInit_inv (setClu_inv _ _ hs)) (setClu_inv _ _ hs)) hs

theorem execQuiesceTimeout_inv {cl : Fin 34} (hs : Inv s) : NextInv (execQuiesceTimeout cl s) :=
  next_ite (retireCluster_inv hs) hs

theorem cluMapWrite_inv {n v : Nat} (hs : Inv s) : Inv (cluMapWrite s n v) :=
  inv_ite (wr_fits_inv (wr_fits_inv (wr_fits_inv hs))) (wr_fits_inv hs)

theorem execCluMapWrite_inv {cl : Fin 34} {value : BitVec 32} (hs : Inv s) : NextInv (execCluMapWrite cl value s) :=
  cluMapWrite_inv hs

theorem cluPower_inv {n : Nat} {on : Bool} (hs : Inv s) : Inv (cluPower s n on) :=
  inv_ite (inv_ite (wr_fits_inv hs) (wr_fits_inv hs)) (inv_ite (gateCluster_inv hs) (wr_fits_inv hs))

theorem cluInit_inv {n : Nat} (hs : Inv s) : Inv (cluInit s n) :=
  inv_ite (enterInit_inv hs) (inv_ite (setClu_inv _ _ (wr_fits_inv hs)) (wr_fits_inv hs))

theorem cluQuiesce_inv {n : Nat} (hs : Inv s) : Inv (cluQuiesce s n) :=
  inv_ite (settleCluster_inv (wr_fits_inv (wr_fits_inv hs))) (wr_fits_inv hs)

theorem execCluCtrlPower_inv {cl : Fin 34} {on : Bool} (hs : Inv s) : NextInv (execCluCtrlPower cl on s) := cluPower_inv hs

theorem execCluCtrlInit_inv {cl : Fin 34} (hs : Inv s) : NextInv (execCluCtrlInit cl s) := cluInit_inv hs

theorem execCluCtrlQuiesce_inv {cl : Fin 34} (hs : Inv s) : NextInv (execCluCtrlQuiesce cl s) := cluQuiesce_inv hs

theorem execCluCtrlRetire_inv {cl : Fin 34} (hs : Inv s) : NextInv (execCluCtrlRetire cl s) := retireCluster_inv hs

theorem execCluEccCntRead_inv {cl : Fin 34} {m : Fin 5} (hs : Inv s) : NextInv (execCluEccCntRead cl m s) :=
  emit_inv _ (wr_fits_inv (wr_fits_inv hs))

theorem execCluDmaStatRead_inv {cl : Fin 34} (hs : Inv s) : NextInv (execCluDmaStatRead cl s) := emit_inv _ (wr_fits_inv hs)

end Sys2Proof.Machine
end

section
/-!
O5: each function of Sys2Proof/Machine/Moves.lean that changes the state keeps the invariant.
-/
namespace Sys2Proof.Machine
open Reg Laws

variable {s : State}

theorem askFlash_inv {cl : Nat} {m : Move} (hs : Inv s) : Inv (askFlash s cl m) := by
  unfold askFlash
  refine inv_ite ?_ hs
  split
  · exact foldl_inv (fun _ _ ht => enqueueDie_inv ht) _ hs
  · exact hs

theorem execMoveOp_inv {t : ThreadId} {d : Desc} {tag : Fin 8} (hs : Inv s) : NextInv (execMoveOp t d tag s) :=
  next_ite hs (next_ite (setThrState_inv _ _ _ hs) (askFlash_inv (queueMove_inv (setTag_inv (advancePc_inv _ _ hs)))))

theorem leccCapture_inv {off : Nat} {ue : Bool} (hs : Inv s) : Inv (leccCapture s off ue) := by
  unfold leccCapture
  extract_lets +onlyGivenNames s1
  have h1 : Inv s1 := wr_fits_inv hs (ite_fits rfl rfl)
  exact inv_ite (wr_fits_inv (wr_fits_inv (wr_fits_inv (wr_fits_inv h1)))) h1

theorem segEvent_inv {p : Nat} {x : SegEvent} (hs : Inv s) : Inv (segEvent s p x).1 := by
  unfold segEvent
  split
  · exact hs
  · exact addErrs_inv hs
  · exact report_inv _ _ _ _ _ _ (leccCapture_inv (bump_fits_inv (bump_fits_inv hs)))
  · exact report_inv _ _ _ _ _ _ (bump_fits_inv hs)
  · exact report_inv _ _ _ _ _ _ (leccCapture_inv (bump_fits_inv (bump_fits_inv hs)))
  · exact hs

theorem noteErr_inv {cl q status : Nat} (hs : Inv s) : Inv (noteErr s cl q status) := by
  unfold noteErr
  split
  exacts [hs, setMoveQueue_inv hs]

theorem noteSeg_inv {cl q : Nat} {got : List Byte} (hs : Inv s) : Inv (noteSeg s cl q got) := by
  unfold noteSeg
  split
  exacts [hs, setMoveQueue_inv hs]

theorem segmentDone_inv {cl q : Nat} {ev : SegEvent} (hs : Inv s) : Inv (segmentDone s cl q ev) := by
  unfold segmentDone
  split
  · exact hs
  · extract_lets +onlyGivenNames x
    split
    · exact noteErr_inv hs
    · exact noteErr_inv hs
    · split
      · exact noteErr_inv (refuseAccess_inv hs)
      · extract_lets +onlyGivenNames lo n z p1
        have h1 : Inv p1.1 := inv_ite_fst (segEvent_inv hs) (readBytes_inv (segEvent_inv hs))
        exact inv_ite (noteErr_inv h1) (noteSeg_inv h1)

theorem execDmaSegmentDone_inv {cl : Fin 34} {q : Fin 68} {ev : SegEvent} (hs : Inv s) : NextInv (execDmaSegmentDone cl q ev s) :=
  next_ite (settleAllDoomed_inv (segmentDone_inv (setClu_inv _ _ hs))) hs

theorem execMoveComplete_inv {cl : Fin 34} {q : Fin 68} (hs : Inv s) : NextInv (execMoveComplete cl q s) := by
  unfold execMoveComplete
  split
  · exact hs
  · refine next_ite (settleDoomed_inv (failMove_inv hs)) ?_
    split
    · exact settleDoomed_inv (failMove_inv hs)
    · exact next_ite hs (next_ite (settleAllDoomed_inv (finishMove_inv (writePlain_inv hs))) (settleAllDoomed_inv (inv_ite
        (finishMove_inv (moveData_inv hs)) (failMove_inv (moveData_inv hs)))))

theorem execMoveTimeout_inv {cl : Fin 34} {q : Fin 68} (hs : Inv s) : NextInv (execMoveTimeout cl q s) := by
  unfold execMoveTimeout
  split
  · exact hs
  · exact failMove_inv (report_inv _ _ _ _ _ _ hs)

theorem tensorAct_inv {d : Desc} {ok : Bool} {c : Cmd} (hs : Inv s) : Inv (tensorAct d ok c s) := by
  unfold tensorAct
  refine inv_ite (complete_inv _ _ _ hs) ?_
  split
  · exact complete_inv _ _ _ hs
  · split
    exacts [complete_inv _ _ _ hs, queuePlinth_inv hs]

theorem execTensorMove_inv {h : Pkt} {d : Desc} (hs : Inv s) : NextInv (execTensorMove h d s) :=
  withPkt_inv hs (fun _ _ ht => tensorAct_inv ht)

theorem execTensorFill_inv {h : Pkt} {d : Desc} (hs : Inv s) : NextInv (execTensorFill h d s) :=
  withPkt_inv hs (fun _ _ ht => tensorAct_inv ht)

theorem memCfgWrite_inv {v : Nat} (hs : Inv s) : Inv (memCfgWrite s v) := by
  unfold memCfgWrite
  refine inv_ite ?_ (wr_fits_inv hs)
  extract_lets +onlyGivenNames s1
  have h1 : Inv s1 := wr_fits_inv (wr_fits_inv (wr_fits_inv (wr_fits_inv hs)))
  exact inv_ite (wr_fits_inv h1) h1

theorem execMemCfgStart_inv {value : BitVec 32} (hs : Inv s) : NextInv (execMemCfgStart value s) := memCfgWrite_inv hs

theorem trainDone_inv {trained : Nat} (hs : Inv s) : Inv (trainDone s trained) := by
  unfold trainDone
  refine inv_ite ?_ hs
  extract_lets +onlyGivenNames s1
  have h1 : Inv s1 := foldl_inv (fun _ _ ht => wr_fits_inv ht) _ (wr_fits_inv hs)
  exact inv_ite (wr_fits_inv (wr_fits_inv h1)) (wr_fits_inv h1)

theorem execDramTrainingDone_inv {trained : BitVec 16} (hs : Inv s) : NextInv (execDramTrainingDone trained s) := trainDone_inv hs

theorem gtabWrite_inv {v : Nat} (hs : Inv s) : Inv (gtabWrite s v) :=
  inv_ite (wr_fits_inv hs) (inv_ite (inv_same rfl (setGran_inv hs)) (setGran_inv hs))

theorem execMemGtabDataWrite_inv {value : BitVec 32} (hs : Inv s) : NextInv (execMemGtabDataWrite value s) := gtabWrite_inv hs

theorem execMemLeccCntRead_inv (hs : Inv s) : NextInv (execMemLeccCntRead s) :=
  emit_inv _ (wr_fits_inv (wr_fits_inv (wr_fits_inv hs)))

theorem execMemChStatRead_inv {ch : Fin 16} (hs : Inv s) : NextInv (execMemChStatRead ch s) := emit_inv _ (wr_fits_inv hs)

theorem execMr4RefreshRateChange_inv {ch : Fin 16} {rate : BitVec 3} (hs : Inv s) : NextInv (execMr4RefreshRateChange ch rate s)
    :=
  wr_fits_inv hs

end Sys2Proof.Machine
end

section
/-!
O5: each function of Sys2Proof/Machine/Picture.lean that changes the state keeps the invariant.
-/
namespace Sys2Proof.Machine
open Reg Laws

variable {s : State}

theorem untrainTx_inv {n : Nat} (hs : Inv s) : Inv (untrainTx s n) :=
  wr_fits_inv (wr_fits_inv (wr_fits_inv (wr_fits_inv (wr_fits_inv (wr_fits_inv hs))))) (ite_fits rfl rfl)

theorem relock_inv {lock : Nat} (hs : Inv s) : Inv (relock s lock) := raiseCause_inv (wr_fits_inv (setDsp_inv hs))

theorem popEntry_inv (hs : Inv s) : Inv (popEntry s) := setDsp_inv hs

theorem overrun_inv (hs : Inv s) : Inv (overrun s) := wr_fits_inv (bump_fits_inv hs)

theorem dispatchEntry_inv {cluster c thread im : Nat} {param : BitVec 32} (hs : Inv s) : Inv (dispatchEntry s cluster c thread im
    param) := by
  unfold dispatchEntry
  split
  · exact hs
  · refine inv_ite (overrun_inv hs) (inv_ite hs (startUnit_inv (inv_ite hs ?_)))
    split
    · exact setDsp_inv (stopUnit_inv (overrun_inv hs))
    · exact overrun_inv hs

theorem frameEntry_inv {off : Nat} (hs : Inv s) : Inv (frameEntry s off) := by
  unfold frameEntry
  refine foldl_inv (fun _ _ ht => ?_) _ hs
  split
  · exact ht
  · exact wroteBytes_inv (wrN_inv _ _ _ (wrN_inv _ _ _ ht))

theorem acceptSegment_inv {y k : Nat} {l : List Pixel} (hs : Inv s) : Inv (acceptSegment s y k l) :=
  inv_ite (setDsp_inv hs) (overrun_inv hs)

theorem chooseLine_inv {y source : Nat} {l : Option (List Pixel)} (hs : Inv s) : Inv (chooseLine s y source l) := setDsp_inv hs

theorem fillLine_inv {c : DisplayCfg} (hs : Inv s) : Inv (fillLine s c).2 := depthLine_inv hs

theorem chooseFill_inv {c : DisplayCfg} {y : Nat} (hs : Inv s) : Inv (chooseFill s c y) :=
  chooseLine_inv (bump_fits_inv (fillLine_inv hs))

theorem sendOn_inv {c : DisplayCfg} {y source : Nat} {l : Option (List Pixel)} {n : Nat} (hs : Inv s) :
    Inv (sendOn c y source l s n) := by
  refine emit_inv _ (setDsp_inv ?_)
  split
  exacts [hs, hs, fillLine_inv hs]

theorem sendLine_inv {c : DisplayCfg} {y : Nat} (hs : Inv s) : Inv (sendLine s c y) := by
  unfold sendLine
  split
  · exact hs
  · exact setDsp_inv (foldl_inv (fun _ _ ht => sendOn_inv ht) _ hs)

theorem sendFallback_inv {c : DisplayCfg} {y : Nat} {read late : Bool} (hs : Inv s) : Inv (sendFallback s c y read late) := by
  unfold sendFallback
  split
  · exact chooseLine_inv (bump_fits_inv hs)
  · exact chooseLine_inv (depthLine_inv (inv_ite (setDsp_inv hs) (inv_ite (setDsp_inv hs) hs)))

theorem checkLine_inv {c : DisplayCfg} {y : Nat} {read : Bool} (hs : Inv s) : Inv (checkLine s c y read) := by
  unfold checkLine
  refine inv_ite (chooseFill_inv hs) ?_
  split
  · exact sendFallback_inv hs
  · split
    exacts [chooseLine_inv (depthLine_inv hs), sendFallback_inv hs]

theorem countLinkLost_inv {c : DisplayCfg} (hs : Inv s) : Inv (countLinkLost s c) := bump_fits_inv hs

theorem publishFrame_inv (hs : Inv s) : Inv (publishFrame s) := by
  unfold publishFrame
  extract_lets +onlyGivenNames d _ _ _ warn s1
  have h1 : Inv s1 := inv_ite (wr_fits_inv (wr_fits_inv (bump_fits_inv (wr_fits_inv (wr_fits_inv hs))))) (wr_fits_inv
      (bump_fits_inv (wr_fits_inv (wr_fits_inv hs))))
  exact inv_ite (raiseCause_inv (setDsp_inv h1)) (setDsp_inv h1)

theorem clearCounters_inv (hs : Inv s) : Inv (clearCounters s) :=
  inv_ite (wr_fits_inv (foldl_inv (fun _ _ ht => wr_fits_inv (wr_fits_inv ht)) _ (wr_fits_inv (wr_fits_inv (wr_fits_inv
      (wr_fits_inv (wr_fits_inv (wr_fits_inv hs)))))))) hs

theorem applyMode_inv {m : DisplayMode} (hs : Inv s) : Inv (applyMode s m) := by
  unfold applyMode
  extract_lets +onlyGivenNames was ratio _ _ s1 s2 s3
  have h1 : Inv s1 := inv_ite (wr_fits_inv (setDsp_inv (wr_fits_inv (wr_fits_inv hs)))) (setDsp_inv (wr_fits_inv
      (wr_fits_inv hs)))
  have h2 : Inv s2 := inv_ite (setDsp_inv (wr_fits_inv h1)) (inv_ite h1 (inv_ite (setDsp_inv h1) (wr_fits_inv
      h1)))
  have h3 : Inv s3 := inv_ite (endTakeover_inv h2) h2
  exact inv_ite (relock_inv h3) h3

theorem applyModes_inv {frame : Nat} (hs : Inv s) : Inv (applyModes s frame) :=
  foldl_inv (fun _ _ ht => finish_inv _ _ _ (applyMode_inv ht)) _ (setDsp_inv hs)

theorem dropArmWork_inv (hs : Inv s) : Inv (dropArmWork s) :=
  setDsp_inv (inv_same rfl (foldl_inv (fun _ _ ht => inv_ite ht (setMoveQueue_inv ht)) _ (foldl_inv (fun _ _ ht => stopUnit_inv
      ht) _ hs)))

theorem swapBank_inv (hs : Inv s) : Inv (swapBank s) := by
  unfold swapBank
  refine inv_ite ?_ hs
  extract_lets +onlyGivenNames _ s1
  have h1 : Inv s1 := dropArmWork_inv (wr_fits_inv (wr_fits_inv (wr_fits_inv hs)))
  split
  · exact setDsp_inv (wr_fits_inv h1)
  · extract_lets +onlyGivenNames s2
    have h2 : Inv s2 := setDsp_inv (wr_fits_inv h1)
    exact inv_ite (dropCause_inv h2) h2

theorem restoreClusters_inv (hs : Inv s) : Inv (restoreClusters s) := by
  unfold restoreClusters
  split
  · exact dropCause_inv hs
  · exact inv_ite hs (inv_ite (dropCause_inv hs) (foldl_inv (fun _ _ ht => castDisplay_inv ht) _ (setDsp_inv hs)))

theorem recastPoison_inv (hs : Inv s) : Inv (recastPoison s) := by
  unfold recastPoison
  refine foldl_inv (fun _ _ ht => ?_) _ hs
  split
  exacts [castWm_inv ht, ht]

theorem neuralReturn_inv (hs : Inv s) : Inv (neuralReturn s) := by
  unfold neuralReturn
  extract_lets +onlyGivenNames s1
  have h1 : Inv s1 := inv_ite (inv_ite (endTakeover_inv hs) (inv_ite (wr_fits_inv (endTakeover_inv hs)) hs)) (inv_ite
      (beginTakeover_inv hs) hs)
  exact inv_ite (setDsp_inv (wr_fits_inv h1)) h1

theorem noteLock_inv {err : Int} (hs : Inv s) : Inv (noteLock s err) :=
  inv_ite (dropCause_inv (wr_fits_inv (wr_fits_inv (setDsp_inv (wr_fits_inv hs))))) (setDsp_inv (wr_fits_inv hs))

theorem startFrame_inv {peak mean : Nat} (hs : Inv s) : Inv (startFrame s peak mean) :=
  setDsp_inv (wr_fits_inv (wr_fits_inv (wr_fits_inv (wr_fits_inv hs))))

end Sys2Proof.Machine
end

section
/-!
O5: each function of Sys2Proof/Machine/Partition.lean that changes the state keeps the invariant.
-/
namespace Sys2Proof.Machine
open Reg Laws

variable {s : State}

theorem giveGrans_inv {p slot : Nat} {l : List Nat} (hs : Inv s) : Inv (giveGrans s p slot l) :=
  inv_same rfl (foldl_inv (fun _ _ ht => setGran_inv ht) _ hs)

theorem wakeLogical_inv {l : Nat} (hs : Inv s) : Inv (wakeLogical s l) := by
  unfold wakeLogical
  split
  exacts [inv_ite (ungateInit_inv hs) hs, hs]

theorem setOwner_inv {l p : Nat} (hs : Inv s) : Inv (setOwner s l p) := by
  unfold setOwner
  split
  exacts [wr_fits_inv hs, hs]

theorem settleLeaving_inv {p l : Nat} (hs : Inv s) : Inv (settleLeaving s p l) := by
  unfold settleLeaving
  extract_lets out
  have hout {t : State} (ht : Inv t) : Inv (out t) := setPart_inv ht
  split
  · exact hout hs
  · extract_lets st s1 st'
    have h1 : Inv s1 := inv_ite (cluQuiesce_inv hs) hs
    exact inv_ite (hout (wr_fits_inv (enterInit_inv h1))) (inv_ite (hout (wr_fits_inv h1)) h1)

theorem settleJoining_inv {p l : Nat} (hs : Inv s) : Inv (settleJoining s p l) := by
  unfold settleJoining
  split
  · exact inv_ite hs (setPart_inv hs)
  · exact inv_ite (wr_fits_inv (setPart_inv hs)) (wakeLogical_inv hs)

theorem settleGrans_inv {p : Nat} (hs : Inv s) : Inv (settleGrans s p) := by
  unfold settleGrans
  split
  · exact hs
  · exact foldl_inv (fun _ _ ht => setGran_inv ht) _ (clearGrans_inv hs)

theorem settleResize_inv {p : Nat} {leave : Bool} (hs : Inv s) : Inv (settleResize s p leave) := by
  unfold settleResize
  split
  · exact hs
  · extract_lets +onlyGivenNames s1 s2
    have h1 : Inv s1 := foldl_inv (fun _ _ ht => settleJoining_inv ht) _ hs
    have h2 : Inv s2 := inv_ite (foldl_inv (fun _ _ ht => settleLeaving_inv ht) _ h1) h1
    split
    · exact h2
    · extract_lets +onlyGivenNames s3
      have h3 : Inv s3 := by
        refine inv_ite (settleGrans_inv ?_) h2
        split
        exacts [setPart_inv h2, h2]
      split
      · exact h3
      · exact inv_ite (finish_inv _ _ _ (setPart_inv h3)) h3

theorem settleIdle_inv {p : Nat} (hs : Inv s) : Inv (settleIdle s p) := inv_ite hs (settleResize_inv hs)

theorem execClusterInitDone_inv {cl : Fin 34} {passed : Bool} (hs : Inv s) : NextInv (execClusterInitDone cl passed s) :=
  next_ite (foldl_inv (fun _ _ ht => settleIdle_inv ht) _ (inv_ite (initPassed_inv (wr_fits_inv (wr_fits_inv hs)))
      (retireCluster_inv hs))) hs

theorem createPart_inv {q : PartParams} {c : Cmd} (hs : Inv s) : Inv (createPart q c s) := by
  unfold createPart
  split
  · exact complete_inv _ _ _ hs
  · extract_lets +onlyGivenNames p l g x _ _ s1
    have h1 : Inv s1 := giveGrans_inv (setProg_inv (foldl_inv (fun _ _ ht => setOwner_inv (wakeLogical_inv ht)) _
        (wr_fits_inv (inv_same rfl hs))))
    exact inv_ite (complete_inv _ _ _ h1) h1

theorem execPartCreate_inv {h : Pkt} {q : PartParams} (hs : Inv s) : NextInv (execPartCreate h q s) :=
  withPkt_inv hs (fun _ _ ht => createPart_inv ht)

theorem resizePart_inv {q : ResizeParams} {c : Cmd} (hs : Inv s) : Inv (resizePart q c s) := by
  unfold resizePart
  extract_lets p
  split
  · exact complete_inv _ _ _ hs
  · exact complete_inv _ _ _ hs
  · extract_lets +onlyGivenNames n join leave raise g s1 s2
    have h2 : Inv s2 := foldl_inv (fun _ _ ht => wakeLogical_inv ht) _ (giveGrans_inv (setPart_inv hs))
    exact inv_ite (inv_ite (settleResize_inv h2) h2) (inv_ite (inv_ite (settleResize_inv h2) h2) (settleResize_inv h2))

theorem execPartResize_inv {h : Pkt} {q : ResizeParams} (hs : Inv s) : NextInv (execPartResize h q s) :=
  withPkt_inv hs (fun _ _ ht => resizePart_inv ht)

theorem execZeroFillDone_inv (hs : Inv s) : NextInv (execZeroFillDone s) := by
  unfold execZeroFillDone
  split
  · exact hs
  · extract_lets +onlyGivenNames _ s1 p left
    have h1 : Inv s1 := zeroGranule_inv _ (inv_same rfl hs)
    split
    · exact h1
    · extract_lets +onlyGivenNames s2 s3
      have h2 : Inv s2 := setPart_inv h1
      have h3 : Inv s3 := by
        refine inv_ite h2 ?_
        split
        exacts [finish_inv _ _ _ (setPart_inv h2), h2]
      exact inv_ite (inv_ite (settleResize_inv h3) h3) (settleResize_inv h3)

theorem endIdleRequests_inv {p : Nat} (hs : Inv s) : Inv (endIdleRequests s p) := foldl_inv (fun _ _ ht => endReq_inv ht) _ hs

theorem destroyPart_inv {c : Cmd} (hs : Inv s) : Inv (destroyPart c s) := by
  unfold destroyPart
  dsimp only
  split
  · exact complete_inv _ _ _ hs
  · exact inv_ite (setPart_inv hs) (inv_ite (askFence_inv (endIdleRequests_inv (setPart_inv hs))) (inv_ite (endIdleRequests_inv
      (setPart_inv hs)) (finishDestroy_inv (endIdleRequests_inv (setPart_inv hs)))))

theorem execPartDestroy_inv {h : Pkt} (hs : Inv s) : NextInv (execPartDestroy h s) :=
  withPkt_inv hs (fun _ _ ht => destroyPart_inv ht)

theorem fencePart_inv {c : Cmd} (hs : Inv s) : Inv (fencePart c s) := by
  unfold fencePart
  split
  · exact complete_inv _ _ _ hs
  · exact inv_ite (complete_inv _ _ _ hs) (inv_ite (askFence_inv (setPart_inv hs)) (setPart_inv hs))

theorem execPartFence_inv {h : Pkt} (hs : Inv s) : NextInv (execPartFence h s) := withPkt_inv hs (fun _ _ ht => fencePart_inv ht)

theorem resetPart_inv {c : Cmd} (hs : Inv s) : Inv (resetPart c s) := by
  unfold resetPart
  split
  · exact complete_inv _ _ _ hs
  · exact inv_ite (askFence_inv (setPart_inv hs)) (inv_ite (startReset_inv (setPart_inv hs)) (setPart_inv hs))

theorem execPartReset_inv {h : Pkt} (hs : Inv s) : NextInv (execPartReset h s) := withPkt_inv hs (fun _ _ ht => resetPart_inv ht)

theorem execDrainEnd_inv {p : Fin 16} (hs : Inv s) : NextInv (execDrainEnd p s) := drainEnd_inv hs

end Sys2Proof.Machine
end

section
/-!
O5: each function of Sys2Proof/Machine/Camera.lean that changes the state keeps the invariant.
-/
namespace Sys2Proof.Machine
open Reg Laws

variable {s : State}

theorem setCtxState_inv {c v : Nat} (hs : Inv s) : Inv (setCtxState s c v) := wr_fits_inv hs

theorem settleCtxState_inv {c : Nat} (hs : Inv s) : Inv (settleCtxState s c) := setCtxState_inv hs

theorem refreshPipe_inv {p : Nat} (hs : Inv s) : Inv (refreshPipe s p) :=
  inv_ite (wr_fits_inv (wr_fits_inv (wr_fits_inv hs))) (wr_fits_inv (wr_fits_inv hs))

theorem refreshPort_inv {p : Nat} (hs : Inv s) : Inv (refreshPort s p) :=
  inv_ite (wr_fits_inv (wr_fits_inv (wr_fits_inv (wr_fits_inv (wr_fits_inv (wr_fits_inv (wr_fits_inv (wr_fits_inv hs))))))))
      (wr_fits_inv hs)

theorem finishBind_inv {c k : Nat} (hs : Inv s) (hc : c < 48) : Inv (finishBind s c k) := by
  unfold finishBind
  split
  exacts [finish_inv _ _ _ (setCtx_inv hc hs), hs]

theorem settleClose_inv {c : Nat} (hs : Inv s) (hc : c < 48) : Inv (settleClose s c) := by
  unfold settleClose
  extract_lets x
  split
  · exact hs
  · refine inv_ite ?_ hs
    have h1 : Inv (match x.bind with | some b => credit2 s b.part b.charge | none => s) := by
      split
      exacts [credit2_inv hs, hs]
    have h2 {g : State → Cmd × Option Binding → State} (hg : ∀ t w, Inv t → Inv (g t w)) : Inv (x.waiting.foldl g (match x.bind with | some b => credit2 s b.part b.charge | none => s)) :=
      foldl_inv hg _ h1
    refine finish_inv _ _ _ (inv_ite (refreshPipe_inv (refreshPort_inv (setCtxState_inv (setCtx_inv hc (h2 ?_))))) (setCtxState_inv (setCtx_inv hc (h2 ?_))))
    all_goals
      intro t w ht
      refine finish_inv _ _ _ ?_
      split
      exacts [credit2_inv ht, ht]

theorem applyWaiting_inv {c k : Nat} {w : Cmd × Option Binding} (hs : Inv s) (hc : c < 48) : Inv (applyWaiting c k s w) := by
  unfold applyWaiting
  split
  · refine inv_ite (wr_fits_inv (setCtx_inv hc (finishBind_inv ?_ hc))) (settleCtxState_inv (wr_fits_inv (setCtx_inv hc (finishBind_inv ?_ hc))))
    all_goals
      split
      exacts [credit2_inv hs, hs]
  · exact finishBind_inv (setCtx_inv hc hs) hc

theorem closeFrames_inv {c k : Nat} (hs : Inv s) : Inv (closeFrames s c k) := foldl_inv (fun _ _ ht => dropFrame_inv ht) _ hs

theorem camTick_inv {c : Nat} {synth opens : Bool} {ticks : Nat} {desc : Option PushDesc} (hs : Inv s) (hc : c < 48) :
    Inv (camTick s c synth opens ticks desc) := by
  unfold camTick
  extract_lets +onlyGivenNames k s0 w behind x0 s1 x
  have h1 : Inv s1 := foldl_inv (fun _ _ ht => applyWaiting_inv ht hc) _ (setCtx_inv hc (closeFrames_inv (wr_fits_inv hs)))
  split
  · exact settleClose_inv h1 hc
  · refine inv_ite (settleClose_inv (inv_ite (finishBind_inv h1 hc) h1) hc) ?_
    extract_lets +onlyGivenNames f s2
    have h2 : Inv s2 := finishBind_inv (setCtx_inv hc h1) hc
    exact inv_ite (dropFrame_inv h2) (inv_ite (dropFrame_inv h2) (trace_inv _ _ h2))

theorem markFrame_inv {c no flag : Nat} (hs : Inv s) : Inv (markFrame s c no flag) := modFrame_inv hs

theorem releaseFrame_inv {c no flags : Nat} (hs : Inv s) : Inv (releaseFrame s c no flags) := by
  unfold releaseFrame
  split
  · exact hs
  · exact inv_ite (dropFrame_inv hs) (modFrame_inv hs)

theorem markChannel_inv {p vc flag : Nat} (hs : Inv s) : Inv (markChannel s p vc flag) := by
  unfold markChannel
  refine foldl_inv (fun _ _ ht => ?_) _ hs
  split
  exacts [markFrame_inv ht, ht]

theorem packetHeader_inv {p : Nat} {header : Ecc} (hs : Inv s) : Inv (packetHeader s p header) := by
  unfold packetHeader
  split
  · exact wr_fits_inv hs
  · exact wr_fits_inv (bump_fits_inv (wr_fits_inv hs))
  · exact wr_fits_inv (bump_fits_inv (wr_fits_inv hs))

theorem headerMarked_inv {p vc : Nat} {header : Ecc} (hs : Inv s) : Inv (headerMarked s p vc header) :=
  inv_ite (packetHeader_inv hs) (markChannel_inv (packetHeader_inv hs))

theorem writeBuf_inv {f : Frame} {off : Nat} {l : List (BitVec 8)} (hs : Inv s) : Inv (writeBuf s f off l) :=
  wroteBytes_inv (foldl_inv (fun _ _ ht => devWb_inv _ _ ht) _ hs)

theorem writeFree_inv {f : Frame} {off n : Nat} (hs : Inv s) : Inv (writeFree s f off n) :=
  foldl_inv (fun _ _ ht => writeBuf_inv (fresh_inv ht)) _ hs

theorem readBlock_inv {c : Nat} (hs : Inv s) (hc : c < 48) : Inv (readBlock s c) := by
  unfold readBlock
  split
  exacts [inv_ite (setCtx_inv hc hs) hs, hs]

theorem frameStart_inv {c : Nat} (hs : Inv s) (hc : c < 48) : Inv (frameStart c s) := by
  unfold frameStart
  extract_lets s1 s2
  have h1 : Inv s1 := by
    dsimp only [s1]
    split
    exacts [markFrame_inv hs, hs]
  exact readBlock_inv (camTick_inv (inv_ite (settleCtxState_inv h1) h1) hc) hc

theorem vcCtxs_lt {p vc c : Nat} (h : c ∈ vcCtxs s p vc) : c < 48 := by
  simp only [vcCtxs, portCtxs, List.mem_filter, List.mem_map, List.mem_range] at h
  omega

theorem execFrameStartPacket_inv {p : Fin 4} {vc : Fin 16} {header : Ecc} (hs : Inv s) :
    NextInv (execFrameStartPacket p vc header s) := by
  unfold execFrameStartPacket
  refine next_ite hs ?_
  extract_lets s1 s2
  have h1 : Inv s1 := packetHeader_inv hs
  have h2 : Inv s2 := inv_ite h1 (List.foldlRecOn (vcCtxs s1 p vc) _ h1 fun _ ht _ hc => frameStart_inv ht (vcCtxs_lt hc))
  exact inv_ite h2 (markChannel_inv h2)

theorem frameEnd_inv {c : Nat} (hs : Inv s) : Inv (frameEnd c s) := by
  unfold frameEnd
  split
  · exact hs
  · extract_lets +onlyGivenNames s1
    have h1 : Inv s1 := inv_ite hs (markFrame_inv hs)
    exact inv_ite (modFrame_inv h1) (releaseFrame_inv (modFrame_inv h1))

theorem execFrameEndPacket_inv {p : Fin 4} {vc : Fin 16} {header : Ecc} (hs : Inv s) : NextInv (execFrameEndPacket p vc header s)
    :=
  next_ite hs (next_ite (headerMarked_inv hs) (foldl_inv (fun _ _ ht => frameEnd_inv ht) _ (headerMarked_inv hs)))

theorem frameLine_inv {overflow : Bool} {payload : List (BitVec 8)} {c : Nat} (hs : Inv s) : Inv (frameLine overflow payload c s) :=
    by
  unfold frameLine
  split
  · exact hs
  · exact inv_ite (wr_fits_inv (markFrame_inv (inv_ite (bump_fits_inv (modFrame_inv (inv_ite hs (writeBuf_inv hs)))) (modFrame_inv
      (inv_ite hs (writeBuf_inv hs)))))) (modFrame_inv (inv_ite hs (writeBuf_inv hs)))

theorem execLongPacket_inv {p : Fin 4} {vc : Fin 16} {dt : Fin 64} {header : Ecc} {crcOk overflow : Bool} {payload : List (BitVec
    8)} (hs : Inv s) : NextInv (execLongPacket p vc dt header crcOk overflow payload s) :=
  next_ite hs (next_ite (headerMarked_inv hs) (foldl_inv (fun _ _ ht => frameLine_inv ht) _ (inv_ite (headerMarked_inv hs)
      (markChannel_inv (wr_fits_inv (bump_fits_inv (headerMarked_inv hs)))))))

theorem execDeskew_inv {p : Fin 4} (hs : Inv s) : NextInv (execDeskew p s) := next_ite (wr_fits_inv hs) hs

theorem execSourceLost_inv {c : Fin 48} (hs : Inv s) : NextInv (execSourceLost c s) :=
  next_ite (wr_fits_inv (setCtxState_inv hs)) hs

theorem execSyntheticTick_inv {c : Fin 48} (hs : Inv s) : NextInv (execSyntheticTick c s) :=
  next_ite (camTick_inv hs (by omega)) hs

theorem copyPushed_inv {c : Nat} {f : Frame} {d : PushDesc} (hs : Inv s) : Inv (copyPushed s c f d) :=
  foldl_inv (fun _ _ ht => writeBuf_inv ht) _ hs

theorem pushDrop_inv {c fate : Nat} {d : PushDesc} (hs : Inv s) (hc : c < 48) : Inv (pushDrop s c fate d) := by
  unfold pushDrop
  split
  exacts [hs, decideFrame_inv hs hc]

theorem pushTick_inv {c : Nat} (hs : Inv s) (hc : c < 48) : Inv (pushTick s c) := by
  unfold pushTick
  extract_lets x r n ds s1
  have h1 : Inv s1 := setRing_inv _ _ _ hs
  split
  · exact camTick_inv h1 hc
  · extract_lets +onlyGivenNames bad s2 x' live s3
    have h2 : Inv s2 := camTick_inv h1 hc
    have h3 : Inv s3 := foldl_inv (fun _ _ ht => pushDrop_inv ht hc) _ h2
    exact inv_ite (inv_ite (pushDrop_inv h3 hc) h3) h2

theorem execHostPushedTick_inv {c : Fin 48} (hs : Inv s) : NextInv (execHostPushedTick c s) :=
  next_ite (pushTick_inv hs (by omega)) hs

theorem execPipeFrameRelease_inv {c : Fin 48} (hs : Inv s) : NextInv (execPipeFrameRelease c s) := by
  unfold execPipeFrameRelease
  split
  exacts [releaseFrame_inv (writeFree_inv hs), hs]

theorem execPushedFrameCopied_inv {c : Fin 48} (hs : Inv s) : NextInv (execPushedFrameCopied c s) := by
  unfold execPushedFrameCopied
  refine next_ite ?_ hs
  split
  · refine releaseFrame_inv ?_
    split
    exacts [copyPushed_inv hs, hs]
  · exact hs

theorem execTapFrameWritten_inv {c : Fin 48} (hs : Inv s) : NextInv (execTapFrameWritten c s) := by
  unfold execTapFrameWritten
  refine next_ite ?_ hs
  split
  exacts [releaseFrame_inv (writeFree_inv hs), hs]

theorem tapTick_inv {c : Nat} (hs : Inv s) (hc : c < 48) : Inv (tapTick s c) := inv_ite hs (camTick_inv (setCtx_inv hc hs) hc)

theorem execCamPortStatRead_inv {p : Fin 4} (hs : Inv s) : NextInv (execCamPortStatRead p s) :=
  emit_inv _ (wr_fits_inv (wr_fits_inv (wr_fits_inv hs)))

theorem execCamPipeStatRead_inv {p : Fin 4} (hs : Inv s) : NextInv (execCamPipeStatRead p s) := emit_inv _ (wr_fits_inv hs)

theorem openCtx_inv {c : Nat} {x : Ctx} {drop : Bool} (hs : Inv s) (hc : c < 48) : Inv (openCtx s c x drop) :=
  wr_fits_inv (wr_fits_inv (wr_fits_inv (wr_fits_inv (wr_fits_inv (wr_fits_inv (setCtxState_inv (setCtx_inv hc hs)))))))

theorem openCamera_inv {h : Pkt} {p : StreamOpen} {c : Cmd} (hs : Inv s) (hc : p.ctx < 48) : Inv (openCamera s h p c) := by
  unfold openCamera
  refine inv_ite (complete_inv _ _ _ hs) (inv_ite (complete_inv _ _ _ hs) ?_)
  split
  · exact complete_inv _ _ _ hs
  · extract_lets s1 s2 s3 s4
    have h2 : Inv s2 := wr_fits_inv (wr_fits_inv (wr_fits_inv (openCtx_inv hs hc)))
    have h4 : Inv s4 := wr_fits_inv (wr_fits_inv (wr_fits_inv (wr_fits_inv (wr_fits_inv (wr_fits_inv h2)))))
    exact complete_inv _ _ _ (refreshPipe_inv (refreshPort_inv h4))

theorem openStream_inv {h : Pkt} {p : StreamOpen} {c : Cmd} (hs : Inv s) : Inv (openStream h p c s) := by
  unfold openStream
  split
  · exact complete_inv _ _ _ hs
  · have hc : p.ctx < 48 := by omega
    exact inv_ite (complete_inv _ _ _ hs) (inv_ite (openCamera_inv hs hc)
      (inv_ite (complete_inv _ _ _ hs) (complete_inv _ _ _ (openCtx_inv hs hc))))

theorem execStreamOpen_inv {h : Pkt} {p : StreamOpen} (hs : Inv s) : NextInv (execStreamOpen h p s) :=
  withPkt_inv hs (fun _ _ ht => openStream_inv ht)

theorem closeStream_inv {h : Pkt} {c : Nat} {cmd : Cmd} (hs : Inv s) : Inv (closeStream h c cmd s) := by
  unfold closeStream
  extract_lets x
  split
  · exact complete_inv _ _ _ hs
  · exact setCtx_inv (by omega) hs

theorem execStreamClose_inv {h : Pkt} {c : Fin 256} (hs : Inv s) : NextInv (execStreamClose h c s) :=
  withPkt_inv hs (fun _ _ ht => closeStream_inv ht)

theorem bindStream_inv {h : Pkt} {p : StreamBind} {c : Cmd} (hs : Inv s) : Inv (bindStream h p c s) := by
  unfold bindStream
  extract_lets bytes
  split
  · exact complete_inv _ _ _ hs
  · have hc : p.ctx < 48 := by omega
    exact inv_ite (complete_inv _ _ _ hs) (inv_ite (complete_inv _ _ _ hs) (inv_ite (complete_inv _ _ _ hs)
      (inv_ite (complete_inv _ _ _ hs) (setCtx_inv hc (charge2_inv (fresh_inv (fresh_inv (fresh_inv hs))))))))

theorem execStreamBind_inv {h : Pkt} {p : StreamBind} (hs : Inv s) : NextInv (execStreamBind h p s) :=
  withPkt_inv hs (fun _ _ ht => bindStream_inv ht)

end Sys2Proof.Machine
end

section
/-!
O5: each function of Sys2Proof/Machine/Span.lean that changes the state keeps the invariant.
-/
namespace Sys2Proof.Machine
open Reg Laws

variable {s : State}

theorem setPort_inv {n : Nat} {p : SpanPort} (hs : Inv s) : Inv (setPort s n p) := inv_same rfl hs

theorem setSpan_inv {f : Span → Span} (hs : Inv s) : Inv (setSpan s f) := inv_same rfl hs

theorem putFlit_inv {n : Nat} {f : HeldFlit} (hs : Inv s) : Inv (putFlit s n f) := emit_inv _ hs

theorem sendUnseq_inv {n kind : Nat} {relay : Bool} {dst : Nat} {body : List Nat} (hs : Inv s) : Inv (sendUnseq s n kind relay dst body)
    :=
  putFlit_inv hs

theorem pumpPort_inv {n k : Nat} (hs : Inv s) : Inv (pumpPort n k s) := by
  induction k generalizing s with
  | zero => exact hs
  | succ k ih =>
    unfold pumpPort
    dsimp only
    split
    · exact hs
    · exact inv_ite (ih (putFlit_inv (setPort_inv hs))) hs

theorem queueFlit_inv {n : Nat} {f : HeldFlit} (hs : Inv s) : Inv (queueFlit s n f) := inv_ite (pumpPort_inv (setPort_inv hs)) hs

theorem sendSeq_inv {n kind : Nat} {relay : Bool} {dst : Nat} {body : List Nat} (hs : Inv s) : Inv (sendSeq s n kind relay dst body) :=
  queueFlit_inv hs

theorem broadcast_inv {kind : Nat} {body : List Nat} (hs : Inv s) : Inv (broadcast s kind body) := sendSeq_inv (sendSeq_inv hs)

theorem sendHello_inv {n : Nat} (hs : Inv s) : Inv (sendHello s n) := sendUnseq_inv hs

theorem startTraining_inv {n : Nat} (hs : Inv s) : Inv (startTraining s n) :=
  bump_fits_inv (wr_fits_inv (wr_fits_inv (setPort_inv hs)))

theorem loseAlign_inv (hs : Inv s) : Inv (loseAlign s) := inv_ite (wr_fits_inv (wr_fits_inv hs)) hs

theorem dropCommit_inv (hs : Inv s) : Inv (dropCommit s) := setSpan_inv (wr_fits_inv hs)

theorem endSweeps_inv {l : List Cmd} {discarded : Bool} (hs : Inv s) : Inv (endSweeps s l discarded) :=
  foldl_inv (fun _ _ ht => finish_inv _ _ _ ht) _ hs

theorem endSweepCmds_inv {discarded : Bool} (hs : Inv s) : Inv (endSweepCmds s discarded) := endSweeps_inv (setSpan_inv hs)

theorem endWaitingSweeps_inv (hs : Inv s) : Inv (endWaitingSweeps s) := endSweeps_inv (setSpan_inv hs)

theorem discardSweep_inv (hs : Inv s) : Inv (discardSweep s) :=
  inv_ite (endSweepCmds_inv (wr_fits_inv (setSpan_inv (dropCommit_inv hs)))) hs

theorem cutOff_inv (hs : Inv s) : Inv (cutOff s) := setSpan_inv (loseAlign_inv (wr_fits_inv (wr_fits_inv hs)))

theorem spanDown_inv {n : Nat} (hs : Inv s) : Inv (spanDown s n) := by
  unfold spanDown
  extract_lets +onlyGivenNames s1 _ _ s2
  have h1 : Inv s1 := report_inv _ _ _ _ _ _ (wr_fits_inv hs)
  have h2 : Inv s2 := inv_ite (discardSweep_inv (sendSeq_inv (startTraining_inv h1))) (dropCommit_inv (sendSeq_inv
      (startTraining_inv h1)))
  exact inv_ite (cutOff_inv h2) h2

theorem execSpanTrainingDone_inv {n : Fin 2} {width : Fin 4} {reversed : Bool} (hs : Inv s) : NextInv (execSpanTrainingDone n
    width reversed s) :=
  next_ite (next_ite (wr_fits_inv hs) (sendHello_inv (setPort_inv (wr_fits_inv (wr_fits_inv (wr_fits_inv hs)))))) hs

theorem execSpanTrainRetry_inv {n : Fin 2} (hs : Inv s) : NextInv (execSpanTrainRetry n s) := next_ite (startTraining_inv hs) hs

theorem execSpanAckTimeout_inv {n : Fin 2} (hs : Inv s) : NextInv (execSpanAckTimeout n s) := next_ite (spanDown_inv hs) hs

theorem execBlockLockLost_inv {n : Fin 2} (hs : Inv s) : NextInv (execBlockLockLost n s) := next_ite (spanDown_inv hs) hs

theorem takeAck_inv {n ack : Nat} (hs : Inv s) : Inv (takeAck s n ack) := pumpPort_inv (setPort_inv hs)

theorem dropFlit_inv {n : Nat} {sequenced : Bool} (hs : Inv s) : Inv (dropFlit s n sequenced) :=
  inv_ite (sendUnseq_inv (bump_fits_inv hs)) (bump_fits_inv hs)

theorem execFlitCrcError_inv {n : Fin 2} {sequenced : Bool} (hs : Inv s) : NextInv (execFlitCrcError n sequenced s) :=
  next_ite (dropFlit_inv hs) hs

theorem relayFlit_inv {n : Nat} {hd : FlitHead} {kind : Nat} {body : List Nat} {seq : Bool} (hs : Inv s) : Inv (relayFlit s n hd kind
    body seq) :=
  inv_ite (inv_ite (queueFlit_inv hs) (inv_ite (putFlit_inv hs) hs)) hs

theorem recvSeq_inv {n : Nat} {hd : FlitHead} {kind : Nat} {body : List Nat} {act : State → State} (hs : Inv s) (ha : ∀ t, Inv t → Inv
    (act t)) : Inv (recvSeq s n hd kind body act) :=
  inv_ite (inv_ite (sendUnseq_inv (inv_ite (ha _ (relayFlit_inv (setPort_inv (takeAck_inv hs)))) (relayFlit_inv (setPort_inv
      (takeAck_inv hs))))) (dropFlit_inv (takeAck_inv hs))) hs

theorem recvUnseq_inv {n : Nat} {hd : FlitHead} {act : State → State} (hs : Inv s) (ha : ∀ t, Inv t → Inv (act t)) : Inv (recvUnseq
    s n hd act) :=
  inv_ite (inv_ite (ha _ (takeAck_inv hs)) (takeAck_inv hs)) hs

theorem execIdleFlit_inv {n : Fin 2} {hd : FlitHead} (hs : Inv s) : NextInv (execIdleFlit n hd s) := inv_ite (takeAck_inv hs) hs

theorem replayFrom_inv {n expected : Nat} (hs : Inv s) : Inv (replayFrom s n expected) := by
  unfold replayFrom
  extract_lets +onlyGivenNames p due held again _ s1
  have h1 : Inv s1 := foldl_inv (fun _ _ ht => wr_fits_inv (bump_fits_inv (putFlit_inv ht))) _ (setPort_inv hs)
  exact inv_ite (spanDown_inv h1) h1

theorem execNak_inv {n : Fin 2} {_hd : FlitHead} {expected : Fin 65536} (hs : Inv s) : NextInv (execNak n _hd expected s) :=
  next_ite (replayFrom_inv (takeAck_inv hs)) hs

theorem execHello_inv {n : Fin 2} {_hd : FlitHead} {_role pos count halo : Fin 256} {ntick : Fin 65536} (hs : Inv s) :
    NextInv (execHello n _hd _role pos count halo ntick s) := by
  unfold execHello
  split
  · refine next_ite ?_ (wr_fits_inv (wr_fits_inv (wr_fits_inv hs)))
    extract_lets +onlyGivenNames same was s1 sp s2 s3
    have h1 : Inv s1 := inv_ite (wr_fits_inv hs) (wr_fits_inv (wr_fits_inv hs))
    have h2 : Inv s2 := setPort_inv h1
    have h3 : Inv s3 := inv_ite h2 (wr_fits_inv (wr_fits_inv h2))
    exact inv_ite (wr_fits_inv h3) h3
  · exact hs

theorem sendHalos_inv {frame row : Nat} {l : List Pixel} (hs : Inv s) : Inv (sendHalos s frame row l) :=
  inv_ite (sendSeq_inv (inv_ite (sendSeq_inv hs) hs)) (inv_ite (sendSeq_inv hs) hs)

theorem execHalo_inv {n : Fin 2} {hd : FlitHead} {frame : BitVec 32} {row : Fin 65536} {edge : Fin 2} {pixels : List Pixel} (hs :
    Inv s) : NextInv (execHalo n hd frame row edge pixels s) :=
  recvSeq_inv hs (fun _ ht => inv_ite ht (setSpan_inv ht))

theorem execHaloDeadline_inv {n : Fin 2} {row : Fin 65536} (hs : Inv s) : NextInv (execHaloDeadline n row s) := by
  unfold execHaloDeadline
  refine next_ite hs ?_
  split
  · exact hs
  · exact wr_fits_inv (bump_fits_inv (setSpan_inv hs))

theorem dropHalos_inv {frame : Nat} (hs : Inv s) : Inv (dropHalos s frame) := setSpan_inv hs

theorem execDelayMeasurement_inv {fine : Fin 10} (hs : Inv s) : NextInv (execDelayMeasurement fine s) :=
  next_ite (sendUnseq_inv hs) hs

theorem execDelayReq_inv {n : Fin 2} {hd : FlitHead} {t1 : BitVec 64} {fine : Fin 10} (hs : Inv s) : NextInv (execDelayReq n hd t1
    fine s) :=
  recvUnseq_inv hs (fun _ ht => sendUnseq_inv ht)

theorem execDelayResp_inv {n : Fin 2} {hd : FlitHead} {t1 t2 t3 : BitVec 64} {fine : Fin 10} (hs : Inv s) : NextInv (execDelayResp
    n hd t1 t2 t3 fine s) :=
  recvUnseq_inv hs (fun _ ht => wr_fits_inv (setPort_inv ht))

theorem execTickSync_inv {n : Fin 2} {hd : FlitHead} {frame : BitVec 32} {line : Fin 65536} {timeNs : BitVec 64} {corr : BitVec
    32} {fine : Fin 10} {residence : BitVec 32} (hs : Inv s) : NextInv (execTickSync n hd frame line timeNs corr fine residence s)
    := by
  unfold execTickSync
  refine recvUnseq_inv hs (fun _ ht => inv_ite ?_ (relayFlit_inv ht))
  extract_lets +onlyGivenNames off s1 s2
  have h1 : Inv s1 := wr_fits_inv (wr_fits_inv (relayFlit_inv ht))
  have h2 : Inv s2 := inv_ite h1 (loseAlign_inv (setSpan_inv h1))
  refine inv_ite h2 ?_
  extract_lets +onlyGivenNames again s3 s4
  have h3 : Inv s3 := setSpan_inv (setPort_inv h2)
  have h4 : Inv s4 := inv_ite h3 (setSpan_inv h3)
  exact inv_ite (relock_inv h4) h4

theorem applyStep_inv (hs : Inv s) : Inv (applyStep s) := by
  unfold applyStep
  split
  exacts [hs, inv_same rfl (setSpan_inv hs)]

theorem alignFrame_inv (hs : Inv s) : Inv (alignFrame s) := by
  unfold alignFrame
  extract_lets +onlyGivenNames s1
  have h1 : Inv s1 := inv_ite (setSpan_inv (wr_fits_inv (setDsp_inv hs))) hs
  refine inv_ite ?_ h1
  extract_lets +onlyGivenNames s2
  have h2 : Inv s2 := inv_ite (foldl_inv (fun _ _ ht => setPort_inv ht) _ h1) h1
  exact inv_ite (wr_fits_inv (setSpan_inv h2)) (setSpan_inv h2)

theorem commitSweep_inv {pace : Nat} (hs : Inv s) : Inv (commitSweep s pace) := setSpan_inv (wr_fits_inv (broadcast_inv hs))

theorem startSweep_inv {own : Nat} (hs : Inv s) : Inv (startSweep s own) := by
  unfold startSweep
  extract_lets +onlyGivenNames n _ s1
  have h1 : Inv s1 := wr_fits_inv (wr_fits_inv (setSpan_inv hs))
  exact inv_ite (commitSweep_inv (broadcast_inv h1)) (broadcast_inv h1)

theorem sweepFrame_inv {own : Nat} (hs : Inv s) : Inv (sweepFrame s own) :=
  inv_ite (inv_ite (inv_ite (setSpan_inv hs) (startSweep_inv hs)) (setSpan_inv hs)) hs

theorem execPaceReq_inv {n : Fin 2} {hd : FlitHead} {sweep : BitVec 32} {sust : Fin 7} (hs : Inv s) : NextInv (execPaceReq n hd
    sweep sust s) :=
  recvSeq_inv hs (fun _ ht => inv_ite (sendSeq_inv (setSpan_inv (wr_fits_inv (wr_fits_inv ht)))) ht)

theorem execPaceReport_inv {n : Fin 2} {hd : FlitHead} {sweep : BitVec 32} {pos op : Fin 256} {own : Fin 7} (hs : Inv s) : NextInv
    (execPaceReport n hd sweep pos op own s) := by
  unfold execPaceReport
  refine recvSeq_inv hs (fun _ ht => ?_)
  split
  · exact ht
  · exact inv_ite (inv_ite (commitSweep_inv ht) (setSpan_inv ht)) ht

theorem execPaceCommit_inv {n : Fin 2} {hd : FlitHead} {sweep : BitVec 32} {pace : Fin 256} {applyAt : BitVec 64} (hs : Inv s) :
    NextInv (execPaceCommit n hd sweep pace applyAt s) :=
  recvSeq_inv hs (fun _ ht => inv_ite (setSpan_inv (wr_fits_inv ht)) ht)

theorem execPaceAbort_inv {n : Fin 2} {hd : FlitHead} {sweep : BitVec 32} (hs : Inv s) : NextInv (execPaceAbort n hd sweep s) :=
  recvSeq_inv hs (fun _ ht => inv_ite (broadcast_inv (discardSweep_inv ht)) (inv_ite (cutOff_inv (setPort_inv (dropCommit_inv
      ht))) (dropCommit_inv ht)))

theorem execPaceReportTimeout_inv (hs : Inv s) : NextInv (execPaceReportTimeout s) := next_ite (discardSweep_inv hs) hs

theorem execPaceApply_inv (hs : Inv s) : NextInv (execPaceApply s) := by
  unfold execPaceApply
  split
  · exact hs
  · refine next_ite hs ?_
    extract_lets +onlyGivenNames changed s1
    have h1 : Inv s1 := wr_fits_inv (tick_fits_inv (dropCommit_inv hs))
    exact endSweepCmds_inv (inv_ite (wr_fits_inv h1) h1)

theorem applySpan_inv {role pos countM1 ports : Nat} (hs : Inv s) : Inv (applySpan s role pos countM1 ports) := by
  unfold applySpan
  extract_lets +onlyGivenNames changes _ _ s1 _ s2 s3
  have h1 : Inv s1 := wr_fits_inv (wr_fits_inv (wr_fits_inv (wr_fits_inv (wr_fits_inv (inv_ite (inv_ite (discardSweep_inv
      (endWaitingSweeps_inv hs)) (dropCommit_inv hs)) hs)))))
  have h2 : Inv s2 := inv_ite (wr_fits_inv (wr_fits_inv (wr_fits_inv h1))) (wr_fits_inv h1)
  have h3 : Inv s3 := inv_ite (wr_fits_inv h2) h2
  exact foldl_inv (fun _ _ ht => inv_ite (inv_ite (startTraining_inv ht) ht) (wr_fits_inv (wr_fits_inv (setPort_inv ht)))) _
      (inv_ite (wr_fits_inv h3) h3)

theorem configSpan_inv {role pos count ports : Nat} {c : Cmd} (hs : Inv s) : Inv (configSpan role pos count ports c s) :=
  inv_ite (complete_inv _ _ _ hs) (complete_inv _ _ _ (applySpan_inv hs))

theorem execSpanConfig_inv {h : Pkt} {role pos count ports : Fin 256} (hs : Inv s) : NextInv (execSpanConfig h role pos count
    ports s) :=
  withPkt_inv hs (fun _ _ ht => configSpan_inv ht)

theorem sweepPace_inv {period : Nat} {c : Cmd} (hs : Inv s) : Inv (sweepPace period c s) :=
  inv_ite (complete_inv _ _ _ hs) (inv_ite (complete_inv _ _ _ (endWaitingSweeps_inv (setSpan_inv hs))) (setSpan_inv hs))

theorem execPaceSweep_inv {h : Pkt} {period : BitVec 32} (hs : Inv s) : NextInv (execPaceSweep h period s) :=
  withPkt_inv hs (fun _ _ ht => sweepPace_inv ht)

theorem execSpnPortStatRead_inv {n : Fin 2} (hs : Inv s) : NextInv (execSpnPortStatRead n s) := emit_inv _ (wr_fits_inv hs)

theorem execSpnPortErrRead_inv {n : Fin 2} (hs : Inv s) : NextInv (execSpnPortErrRead n s) :=
  emit_inv _ (wr_fits_inv (wr_fits_inv hs))

theorem execSpnHaloRead_inv {n : Fin 2} (hs : Inv s) : NextInv (execSpnHaloRead n s) := emit_inv _ (wr_fits_inv hs)

end Sys2Proof.Machine
end

section
/-!
O5: each function of Sys2Proof/Machine/Display.lean that changes the state keeps the invariant.
-/
namespace Sys2Proof.Machine
open Reg Laws

variable {s : State}

theorem tickSync_inv {t fine : Nat} (hs : Inv s) : Inv (tickSync s t fine) :=
  inv_ite (foldl_inv (fun _ _ ht => inv_ite (sendUnseq_inv ht) ht) _ hs) hs

theorem tickCheck_inv {c : DisplayCfg} {t : Nat} {read : Bool} (hs : Inv s) : Inv (tickCheck s c t read) :=
  inv_ite (setDsp_inv (checkLine_inv hs)) hs

theorem tickSend_inv {c : DisplayCfg} {t : Nat} (hs : Inv s) : Inv (tickSend s c t) :=
  inv_ite (countLinkLost_inv (sendLine_inv hs)) hs

theorem execLineTick_inv {dramLate : Bool} {ev : SegEvent} {fine : Fin 10} (hs : Inv s) : NextInv (execLineTick dramLate ev fine
    s) := by
  unfold execLineTick
  split
  · exact hs
  · refine next_ite hs ?_
    extract_lets +onlyGivenNames s1
    have h1 : Inv s1 := by
      dsimp only [s1]
      split
      exacts [setDsp_inv hs, hs]
    exact refreshSource_inv (tickSync_inv (setDsp_inv (tickSend_inv (tickCheck_inv (segEvent_inv (inv_ite (wr_fits_inv
        (wr_fits_inv h1)) h1))))))

theorem execDispatch_inv (hs : Inv s) : NextInv (execDispatch s) := by
  unfold execDispatch
  split
  exacts [dispatchEntry_inv (popEntry_inv hs), hs]

theorem feedMove_inv {n : Nat} {a : Armature} {c : DisplayCfg} {d : Desc} {f : Feed} (hs : Inv s) :
    Inv (feedMove s n a c d f) := by
  unfold feedMove
  split
  · exact hs
  · refine inv_ite ?_ hs
    extract_lets +onlyGivenNames l k p1
    have h1 : Inv p1.2 := by
      refine foldl_snd_inv (fun _ _ ht => ?_) _ hs
      exact fresh_inv ht
    exact inv_ite (addCredit_inv (writePlain_inv h1)) (writePlain_inv h1)

theorem execMoveEntry_inv {feed : Option Feed} (hs : Inv s) : NextInv (execMoveEntry feed s) := by
  unfold execMoveEntry
  split
  · extract_lets s1
    have h1 : Inv s1 := popEntry_inv hs
    split
    · split
      · exact h1
      · split
        · exact setDsp_inv h1
        · exact h1
        · split
          exacts [feedMove_inv h1, queuePlinth_inv h1]
    · exact h1
  · exact hs

theorem execCreditEntry_inv (hs : Inv s) : NextInv (execCreditEntry s) := by
  unfold execCreditEntry
  split
  · dsimp only
    split
    exacts [popEntry_inv hs, addCredit_inv (popEntry_inv hs)]
  · exact hs

theorem segmentData_inv {d : Desc} (hs : Inv s) : Inv (segmentData s d).2 := by
  unfold segmentData
  split
  · exact hs
  · extract_lets lost
    split
    · exact hs
    · split
      · exact hs
      · dsimp only
        exact settleAllDoomed_inv (readBytes_inv hs)

theorem execSegment_inv {wrote : Bool} (hs : Inv s) : NextInv (execSegment wrote s) := by
  unfold execSegment
  split
  · extract_lets mv s1
    have h1 : Inv s1 := setDsp_inv (popEntry_inv hs)
    split
    · rename_i d _ _
      have h2 : Inv (segmentData s1 d).2 := segmentData_inv h1
      extract_lets r
      split
      · exact h2
      · exact next_ite (acceptSegment_inv (acceptSegment_inv h2)) (acceptSegment_inv h2)
    · exact h1
  · exact hs

theorem execFrame_inv (hs : Inv s) : NextInv (execFrame s) := by
  unfold execFrame
  split
  exacts [frameEntry_inv (popEntry_inv hs), hs]

theorem setRegion_inv {need : Nat} (hs : Inv s) : Inv (setRegion s need) :=
  setDsp_inv (foldl_inv (fun _ _ ht => setGran_inv ht) _ (foldl_inv (fun _ _ ht => setGran_inv ht) _ hs))

theorem openDisplayCtx_inv {c : DisplayCfg} {n : Nat} (hn : n < 48) (hs : Inv s) :
    Inv (if ctxState s n = 0 then openCtx s n { w := if c.dualIn then c.iw / 2 else c.iw, h := c.ih, tp := c.inFrameNs / 1000 } false
      else setCtx s n { ctx s n with w := if c.dualIn then c.iw / 2 else c.iw, h := c.ih, tp := c.inFrameNs / 1000 }) :=
  inv_ite (openCtx_inv hs hn) (setCtx_inv hn hs)

theorem applyCfg_inv {c : DisplayCfg} (hs : Inv s) : Inv (applyCfg s c) := by
  unfold applyCfg
  extract_lets +onlyGivenNames moved other s1 s2 s3 w s4
  have h1 : Inv s1 := setDsp_inv hs
  have h2 : Inv s2 := setRegion_inv (inv_ite (setDsp_inv h1) h1)
  have h3 : Inv s3 := wr_fits_inv (wr_fits_inv (wr_fits_inv h2))
  have h4 : Inv s4 := openDisplayCtx_inv (by decide) (openDisplayCtx_inv (by decide) h3)
  exact inv_ite (relock_inv h4) h4

theorem retryNow_inv (hs : Inv s) : Inv (retryNow s) := inv_ite (dropCause_inv (wr_fits_inv hs)) hs

theorem frameChanges_inv (hs : Inv s) : Inv (frameChanges s) := by
  unfold frameChanges
  refine retryNow_inv (restoreClusters_inv (settleResize_inv (checkClusters_inv (checkArmature_inv (swapBank_inv ?_)))))
  split
  exacts [applyCfg_inv (applyModes_inv hs), applyModes_inv hs]

theorem smoothP0_inv (hs : Inv s) : Inv (smoothP0 s) := inv_same rfl hs

theorem publishMirror_inv (hs : Inv s) : Inv (publishMirror s) := inv_ite hs (setFn_inv _ _ hs)

theorem execOutputFrameBoundary_inv {base : Nat} {peak mean : BitVec 16} {sust : Fin 7} {errs0 errs1 : Nat} (hs : Inv s) : NextInv
    (execOutputFrameBoundary base peak mean sust errs0 errs1 s) := by
  unfold execOutputFrameBoundary
  split
  · exact hs
  · refine next_ite hs ?_
    extract_lets +onlyGivenNames _ s1 _ s2
    have h1 : Inv s1 := frameChanges_inv (clearCounters_inv (bump_fits_inv (bump_fits_inv (inv_ite hs (publishFrame_inv
        hs)))))
    have h2 : Inv s2 := by
      dsimp only [s2]
      split
      · exact noteLock_inv (recastPoison_inv h1)
      · exact recastPoison_inv h1
    exact publishMirror_inv (refreshSource_inv (startFrame_inv (sweepFrame_inv (alignFrame_inv (neuralReturn_inv (smoothP0_inv
        h2))))))

theorem execLateRetry_inv (hs : Inv s) : NextInv (execLateRetry s) := next_ite (dropCause_inv hs) hs

theorem execRetryNow_inv (hs : Inv s) : NextInv (execRetryNow s) := wr_fits_inv hs

theorem execDspCntClr_inv (hs : Inv s) : NextInv (execDspCntClr s) := wr_fits_inv hs

theorem dspEnable_inv {on : Bool} (hs : Inv s) : Inv (dspEnable s on) :=
  refreshSource_inv (inv_ite (setDsp_inv (wr_fits_inv (wr_fits_inv (wr_fits_inv hs)))) (wr_fits_inv (wr_fits_inv hs)))

theorem execDspEnable_inv {on : Bool} (hs : Inv s) : NextInv (execDspEnable on s) := dspEnable_inv hs

theorem unlockInput_inv (hs : Inv s) : Inv (unlockInput s) := relock_inv (wr_fits_inv hs)

theorem pictureFrame_inv {start linePeriod : Nat} (hs : Inv s) : Inv (pictureFrame s start linePeriod) :=
  refreshSource_inv (dropHalos_inv (inv_ite (unlockInput_inv (setDsp_inv hs)) (inv_ite (wr_fits_inv (setDsp_inv hs)) (setDsp_inv
      hs))))

theorem execInputFrameStart_inv {rx : Fin 2} {start linePeriod errs : Nat} {dsc : Bool} (hs : Inv s) : NextInv (execInputFrameStart
    rx start linePeriod errs dsc s) := by
  unfold execInputFrameStart
  extract_lets +onlyGivenNames _ s1
  have h1 : Inv s1 := bump_fits_inv (wr_fits_inv (wr_fits_inv (wr_fits_inv hs (ite_fits rfl rfl))))
  exact tapTick_inv (inv_ite (pictureFrame_inv h1) (refreshSource_inv (setDsp_inv h1))) (by omega)

theorem takeRow_inv {c : DisplayCfg} {rx y : Nat} {l : List Pixel} (hs : Inv s) : Inv (takeRow s c rx y l) := by
  unfold takeRow
  extract_lets f n s1
  refine inv_ite hs ?_
  have h1 : Inv s1 := storeRow_inv hs
  split
  · exact h1
  · exact sendHalos_inv (inv_ite (formFallback_inv h1) (inv_ite (writeRegionRow_inv h1) h1))

theorem receiveRow_inv {c : DisplayCfg} {rx : Nat} {x : RxRow} (hs : Inv s) : Inv (receiveRow s c rx x) := by
  unfold receiveRow
  refine inv_ite (takeRow_inv (setDsp_inv hs)) (inv_ite (takeRow_inv ?_) (inv_ite (takeRow_inv (setDsp_inv hs)) (setDsp_inv
      (setDsp_inv hs))))
  split
  · exact inv_ite (takeRow_inv (setDsp_inv hs)) (setDsp_inv hs)
  · exact setDsp_inv hs

theorem execInputRowReceived_inv {rx : Fin 2} {row : Fin 16384} {kind : PixelKind} {depth : Nat} {pixels : List Pixel} (hs : Inv s)
    : NextInv (execInputRowReceived rx row kind depth pixels s) := by
  unfold execInputRowReceived
  split
  exacts [hs, receiveRow_inv hs]

theorem execInputLost_inv {rx : Fin 2} (hs : Inv s) : NextInv (execInputLost rx s) := by
  unfold execInputLost
  extract_lets +onlyGivenNames s1
  have h1 : Inv s1 := wr_fits_inv (wr_fits_inv hs (ite_fits rfl rfl))
  exact next_ite (refreshSource_inv (relock_inv (setDsp_inv (wr_fits_inv h1)))) h1

theorem execInputUnlocked_inv (hs : Inv s) : NextInv (execInputUnlocked s) := next_ite hs (refreshSource_inv (unlockInput_inv hs))

theorem execMotionFieldDone_inv {field : List (BitVec 54)} (hs : Inv s) : NextInv (execMotionFieldDone field s) := by
  unfold execMotionFieldDone
  split
  · exact hs
  · exact next_ite (wroteRange_inv (foldl_inv (fun _ _ ht => foldl_inv (fun _ _ hu => devWb_inv _ _ hu) _ ht) _ (setDsp_inv hs)))
      hs

theorem execTxLinkLost_inv {n : Fin 2} (hs : Inv s) : NextInv (execTxLinkLost n s) := wr_fits_inv (untrainTx_inv hs)

theorem execTxLinkTrained_inv {n : Fin 2} (hs : Inv s) : NextInv (execTxLinkTrained n s) := by
  unfold execTxLinkTrained
  split
  · exact hs
  · exact next_ite hs (wr_fits_inv (wr_fits_inv (wr_fits_inv (wr_fits_inv (wr_fits_inv (wr_fits_inv (wr_fits_inv (wr_fits_inv
      hs))))))) (ite_fits rfl rfl))

theorem execRxLinkRetrain_inv {n : Fin 2} {rate : Fin 8} {lanes : Fin 4} (hs : Inv s) : NextInv (execRxLinkRetrain n rate lanes s)
    :=
  wr_fits_inv (wr_fits_inv (wr_fits_inv (wr_fits_inv (wr_fits_inv hs))))

theorem configDisplay_inv {c : DisplayCfg} {cmd : Cmd} (hs : Inv s) : Inv (configDisplay c cmd s) :=
  inv_ite (complete_inv _ _ _ hs) (inv_ite (complete_inv _ _ _ hs) (complete_inv _ _ _ (dspEnable_inv (inv_ite (applyCfg_inv
      (foldl_inv (fun _ _ ht => untrainTx_inv ht) _ (setRegion_inv hs))) (inv_ite (setDsp_inv (setRegion_inv hs)) (applyCfg_inv
      (setRegion_inv hs)))))))

theorem execDisplayConfig_inv {h : Pkt} {c : DisplayCfg} (hs : Inv s) : NextInv (execDisplayConfig h c s) :=
  withPkt_inv hs (fun _ _ ht => configDisplay_inv ht)

theorem setStandby_inv {a : Option Armature} (hs : Inv s) : Inv (setStandby s a) := setDsp_inv hs

theorem scheduleDisplay_inv {handle modeIdx : Nat} {cmd : Cmd} (hs : Inv s) : Inv (scheduleDisplay handle modeIdx cmd s) := by
  unfold scheduleDisplay
  split
  · exact complete_inv _ _ _ (setStandby_inv hs)
  · exact complete_inv _ _ _ (setStandby_inv hs)

theorem execDisplaySchedule_inv {h : Pkt} {handle modeIdx : Fin 256} (hs : Inv s) : NextInv (execDisplaySchedule h handle modeIdx
    s) :=
  withPkt_inv hs (fun _ _ ht => scheduleDisplay_inv ht)

theorem modeDisplay_inv {m : DisplayMode} {cmd : Cmd} (hs : Inv s) : Inv (modeDisplay m cmd s) := by
  unfold modeDisplay
  split
  · exact complete_inv _ _ _ hs
  · exact inv_ite (complete_inv _ _ _ hs) (setDsp_inv hs)

theorem execDisplayMode_inv {h : Pkt} {m : DisplayMode} (hs : Inv s) : NextInv (execDisplayMode h m s) :=
  withPkt_inv hs (fun _ _ ht => modeDisplay_inv ht)

end Sys2Proof.Machine
end

section
/-!
O5: each function of Sys2Proof/Machine/Maquette.lean that changes the state keeps the invariant.
-/
namespace Sys2Proof.Machine
open Reg Laws

variable {s : State}

theorem changePubs_inv {l : List PubKey} {c : Cmd} (hs : Inv s) : Inv (changePubs s l c) :=
  complete_inv _ _ _ (writeDevRec_inv (inv_same rfl hs))

theorem addPub_inv {listSeq : Nat} {e : PubKey} {authKey : Nat} {sigOk : Bool} {c : Cmd} (hs : Inv s) : Inv (addPub listSeq e authKey
    sigOk c s) :=
  inv_ite (complete_inv _ _ _ hs) (inv_ite (complete_inv _ _ _ hs) (inv_ite (complete_inv _ _ _ hs) (inv_ite (complete_inv _ _ _
      hs) (changePubs_inv hs))))

theorem execPubAdd_inv {h : Pkt} {listSeq : BitVec 64} {entry : PubKey} {authKey : Nat} {sigOk : Bool} (hs : Inv s) : NextInv
    (execPubAdd h listSeq entry authKey sigOk s) :=
  withPkt_inv hs (fun _ _ ht => addPub_inv ht)

theorem revokePub_inv {listSeq keyId authKey : Nat} {sigOk : Bool} {c : Cmd} (hs : Inv s) : Inv (revokePub listSeq keyId authKey
    sigOk c s) :=
  inv_ite (complete_inv _ _ _ hs) (inv_ite (complete_inv _ _ _ hs) (inv_ite (complete_inv _ _ _ hs) (changePubs_inv hs)))

theorem execPubRevoke_inv {h : Pkt} {listSeq : BitVec 64} {keyId authKey : Nat} {sigOk : Bool} (hs : Inv s) : NextInv (execPubRevoke
    h listSeq keyId authKey sigOk s) :=
  withPkt_inv hs (fun _ _ ht => revokePub_inv ht)

theorem clearPubs_inv {listSeq : Nat} {c : Cmd} (hs : Inv s) : Inv (clearPubs listSeq c s) :=
  inv_ite (complete_inv _ _ _ hs) (changePubs_inv hs)

theorem execPubClear_inv {h : Pkt} {listSeq : BitVec 64} (hs : Inv s) : NextInv (execPubClear h listSeq s) :=
  withPkt_inv hs (fun _ _ ht => clearPubs_inv ht)

theorem newHandle_inv {x : Handle} {c : Cmd} (hs : Inv s) : Inv (newHandle s x c) := by
  unfold newHandle
  dsimp only
  split
  · exact complete_inv _ _ _ (pick_inv hs)
  · exact complete_inv _ _ _ (inv_same rfl (pick_inv hs))

theorem stageHost_inv {addr len : Nat} {m : Manifest} {format : Verdict} {sigOk digestsOk : Bool} {c : Cmd} (hs : Inv s) : Inv
    (stageHost addr len m format sigOk digestsOk c s) := by
  unfold stageHost
  refine inv_ite (complete_inv _ _ _ hs) (inv_ite (complete_inv _ _ _ hs) ?_)
  split
  · exact complete_inv _ _ _ hs
  · exact inv_ite (complete_inv _ _ _ hs) (inv_ite (complete_inv _ _ _ hs) (inv_ite (complete_inv _ _ _ hs) (inv_ite (complete_inv
      _ _ _ hs) (inv_ite (complete_inv _ _ _ hs) (newHandle_inv (charge2_inv hs))))))

theorem execMaqStage_inv {h : Pkt} {addr len : Nat} {man : Manifest} {format : Verdict} {sigOk digestsOk : Bool} (hs : Inv s) :
    NextInv (execMaqStage h addr len man format sigOk digestsOk s) :=
  withPkt_inv hs (fun _ _ ht => stageHost_inv ht)

theorem stageSlot_inv {slot : Nat} {manOk sigOk : Bool} {c : Cmd} (hs : Inv s) : Inv (stageSlot slot manOk sigOk c s) := by
  unfold stageSlot
  split
  · exact complete_inv _ _ _ hs
  · exact inv_ite (complete_inv _ _ _ hs) (inv_ite (complete_inv _ _ _ hs) (inv_ite (complete_inv _ _ _ hs) (newHandle_inv hs)))

theorem execMaqStageSlot_inv {h : Pkt} {slot : Fin 256} {manOk sigOk : Bool} (hs : Inv s) : NextInv (execMaqStageSlot h slot manOk
    sigOk s) :=
  withPkt_inv hs (fun _ _ ht => stageSlot_inv ht)

theorem verifyHandle_inv {n : Nat} {v : Verdict} {c : Cmd} (hs : Inv s) : Inv (verifyHandle n v c s) := by
  unfold verifyHandle
  split
  · exact complete_inv _ _ _ hs
  · split
    exacts [complete_inv _ _ _ hs, complete_inv _ _ _ hs, complete_inv _ _ _ (inv_same rfl hs)]

theorem execMaqVerify_inv {h : Pkt} {handle : Fin 256} {v : Verdict} (hs : Inv s) : NextInv (execMaqVerify h handle v s) :=
  withPkt_inv hs (fun _ _ ht => verifyHandle_inv ht)

theorem castMaq_inv {n r : Nat} {drain activate : Bool} {c : Cmd} (hs : Inv s) : Inv (castMaq n r drain activate c s) := by
  unfold castMaq
  split
  · exact setPart_inv (inv_ite (inv_same rfl hs) hs)
  · exact complete_inv _ _ _ hs
  · exact complete_inv _ _ _ hs

theorem execMaqCast_inv {h : Pkt} {handle replace : Fin 256} {drain activate : Bool} (hs : Inv s) : NextInv (execMaqCast h handle
    replace drain activate s) :=
  withPkt_inv hs (fun _ _ ht => castMaq_inv ht)

theorem setCast_inv {p : Nat} {k : Cast} (hs : Inv s) : Inv (setCast s p k) := setPart_inv hs

theorem scrambleWm_inv {p : Nat} {m : Manifest} (hs : Inv s) : Inv (scrambleWm s p m) := by
  unfold scrambleWm
  split
  · exact hs
  · refine foldl_inv (fun _ _ ht => ?_) _ hs
    split
    · exact ht
    · exact foldl_inv (fun _ _ hu => scramble_inv hu) _ ht

theorem displaceWm_inv {p n : Nat} {m : Manifest} (hs : Inv s) : Inv (displaceWm s p n m) := by
  unfold displaceWm
  split
  exacts [hs, inv_same rfl hs]

theorem renameHandle_inv {o n : Nat} (hs : Inv s) : Inv (renameHandle s o n) := by
  obtain ⟨hm, hh, hr, hk⟩ := hs
  refine ⟨hm, hh, hr, ?_⟩
  simp only [contextsWf, List.all_eq_true, decide_eq_true_eq] at hk
  simpa [contextsWf, renameHandle] using hk

theorem commitCast_inv {p : Nat} (hs : Inv s) : Inv (commitCast s p) := by
  unfold commitCast
  split
  · exact hs
  · extract_lets +onlyGivenNames m wm _ _ s1 s2
    have h1 : Inv s1 := inv_ite (displaceWm_inv (castImage_inv (inv_same rfl (setPart_inv hs)))) (inv_same rfl
        (setPart_inv hs))
    have h2 : Inv s2 := by
      dsimp only [s2]
      split
      · exact releaseHandle_inv (renameHandle_inv h1)
      · exact h1
    exact finish_inv _ _ _ h2

theorem endFailed_inv {p st f : Nat} (hs : Inv s) : Inv (endFailed s p st f) := by
  unfold endFailed
  split
  · exact hs
  · exact inv_ite (finish_inv _ _ _ (inv_same rfl (setPart_inv hs))) (unwindCast_inv hs)

theorem execCastStart_inv {p : Fin 16} {v : Verdict} (hs : Inv s) : NextInv (execCastStart p v s) := by
  unfold execCastStart
  split
  · exact hs
  · refine next_ite hs ?_
    extract_lets +onlyGivenNames _ s1
    have h1 : Inv s1 := inv_ite (charge2_inv (setCast_inv hs)) (setCast_inv hs)
    split
    · exact endFailed_inv h1
    · exact inv_ite (scrambleWm_inv h1) h1

theorem execCastLayerReady_inv {p : Fin 16} {v : Verdict} (hs : Inv s) : NextInv (execCastLayerReady p v s) := by
  unfold execCastLayerReady
  split
  · exact hs
  · refine next_ite hs ?_
    split
    · exact next_ite (endFailed_inv hs) (setCast_inv hs)
    · extract_lets +onlyGivenNames s1 s2
      have h2 : Inv s2 := setCast_inv (inv_ite (charge2_inv hs) hs)
      split
      · exact h2
      · extract_lets s3
        have h3 : Inv s3 := inv_ite (scrambleWm_inv h2) h2
        exact inv_ite (commitCast_inv h3) h3

theorem execLayerSwap_inv {p : Fin 16} (hs : Inv s) : NextInv (execLayerSwap p s) := by
  unfold execLayerSwap
  split
  · exact hs
  · split
    · exact hs
    · refine next_ite hs ?_
      extract_lets +onlyGivenNames l s1 _ s2
      have h1 : Inv s1 := by
        dsimp only [s1]
        split
        · exact inv_ite (credit2_inv (inv_same rfl hs)) hs
        · exact hs
      have h2 : Inv s2 := inv_ite (scrambleWm_inv (setCast_inv h1)) (setCast_inv h1)
      exact inv_ite (commitCast_inv h2) h2

theorem execLayerSwapBack_inv {p : Fin 16} (hs : Inv s) : NextInv (execLayerSwapBack p s) := by
  unfold execLayerSwapBack
  split
  · exact hs
  · split
    · exact hs
    · refine next_ite hs ?_
      extract_lets +onlyGivenNames _ s1
      have h1 : Inv s1 := inv_ite (scrambleWm_inv (setCast_inv hs)) (setCast_inv hs)
      refine inv_ite (endFailed_inv ?_) h1
      split
      exacts [inv_ite (castImage_inv h1) h1, h1]

theorem evictMaq_inv {n : Nat} {force : Bool} {c : Cmd} (hs : Inv s) : Inv (evictMaq n force c s) := by
  unfold evictMaq
  split
  · exact complete_inv _ _ _ hs
  · exact inv_ite (complete_inv _ _ _ (releaseHandle_inv hs)) (inv_ite (complete_inv _ _ _ hs) (inv_same rfl hs))

theorem execMaqEvict_inv {h : Pkt} {handle : Fin 256} {force : Bool} (hs : Inv s) : NextInv (execMaqEvict h handle force s) :=
  withPkt_inv hs (fun _ _ ht => evictMaq_inv ht)

theorem cancelForced_inv {n : Nat} (hs : Inv s) : Inv (cancelForced s n) :=
  foldl_inv (fun _ _ ht => settleBatch_inv ht) _ (foldl_inv (fun _ _ ht => endReq_inv ht) _ hs)

theorem execEvictRelease_inv {n : Fin 256} (hs : Inv s) : NextInv (execEvictRelease n s) := by
  unfold execEvictRelease
  split
  · exact hs
  · split
    · exact hs
    · extract_lets +onlyGivenNames s1
      have h1 : Inv s1 := inv_ite (cancelForced_inv hs) hs
      exact next_ite h1 (finish_inv _ _ _ (releaseHandle_inv h1))

theorem storeMaq_inv {n slot set : Nat} {c : Cmd} (hs : Inv s) : Inv (storeMaq n slot set c s) := by
  unfold storeMaq
  split
  · exact inv_ite (complete_inv _ _ _ hs) (inv_ite (complete_inv _ _ _ hs) (inv_ite (complete_inv _ _ _ hs) (startJob_inv
      (setJobs_inv (setPart_inv hs)))))
  · exact complete_inv _ _ _ hs

theorem execMaqStore_inv {h : Pkt} {handle slot : Fin 256} {set : BitVec 32} (hs : Inv s) : NextInv (execMaqStore h handle slot
    set s) :=
  withPkt_inv hs (fun _ _ ht => storeMaq_inv ht)

theorem eraseMaq_inv {slot : Nat} {c : Cmd} (hs : Inv s) : Inv (eraseMaq slot c s) := by
  unfold eraseMaq
  split
  · exact complete_inv _ _ _ hs
  · exact inv_ite (complete_inv _ _ _ hs) (startJob_inv (setJobs_inv hs))

theorem execMaqErase_inv {h : Pkt} {slot : Fin 256} (hs : Inv s) : NextInv (execMaqErase h slot s) :=
  withPkt_inv hs (fun _ _ ht => eraseMaq_inv ht)

end Sys2Proof.Machine
end

section
/-!
O5: each function of Sys2Proof/Machine/Serving.lean that changes the state keeps the invariant.
-/
namespace Sys2Proof.Machine
open Reg Laws

variable {s : State}

theorem refuseRow_inv {c : Cmd} {id i tag status : Nat} (hs : Inv s) : Inv (refuseRow s c id i tag status) := postRec_inv _ _ _ hs

theorem admitNew_inv {c : Cmd} {m : Manifest} {handle id i : Nat} {held : Bool} {r : RowParams} (hs : Inv s) :
    Inv (admitNew s c m handle id i held r).2 := by
  unfold admitNew
  extract_lets +onlyGivenNames e p n q
  refine inv_ite_snd (refuseRow_inv hs) (inv_ite_snd (refuseRow_inv hs) ?_)
  split
  · exact refuseRow_inv hs
  · exact charge2_inv (newReq_inv hs ‹_›)

theorem admitContinue_inv {c : Cmd} {m : Manifest} {handle id i : Nat} {held : Bool} {r : RowParams} (hs : Inv s) : Inv
    (admitContinue s c m handle id i held r).2 := by
  unfold admitContinue
  split
  · exact refuseRow_inv hs
  · exact inv_ite_snd (refuseRow_inv hs) (inv_ite_snd (refuseRow_inv hs) (setReq_inv (charge2_inv (credit2_inv hs))))

theorem admitRows_inv {c : Cmd} {m : Manifest} {handle id i : Nat} {held : Bool} {l : List RowParams} (hs : Inv s) :
    Inv (admitRows c m handle id held i l s).2 := by
  induction l generalizing i s with
  | nil => exact hs
  | cons r t ih => exact ih (inv_ite_snd hs (inv_ite_snd (admitNew_inv hs) (admitContinue_inv hs)))

theorem submitBatch_inv {b : BatchHead} {rows : List RowParams} {listsOk : Bool} {c : Cmd} (hs : Inv s) :
    Inv (submitBatch b rows listsOk c s) := by
  unfold submitBatch
  split
  · exact complete_inv _ _ _ hs
  · rename_i x _
    refine inv_ite (complete_inv _ _ _ hs) (inv_ite (complete_inv _ _ _ hs) ?_)
    extract_lets id
    have h1 : Inv id.2 := pick_inv hs
    split
    · exact complete_inv _ _ _ h1
    · rename_i id' _
      have h2 {held : Bool} : Inv (admitRows c x.man b.handle id' held 0 rows id.2).2 := admitRows_inv h1
      exact pagesForStep_inv (settleBatch_inv (setBatch_inv (inv_serving h2)))

theorem execBatchSubmit_inv {h : Pkt} {b : BatchHead} {rows : List RowParams} {listsOk : Bool} (hs : Inv s) : NextInv
    (execBatchSubmit h b rows listsOk s) :=
  next_ite hs (withPkt_inv hs (fun _ _ ht => submitBatch_inv ht))

theorem continueBatch_inv {id out outLen : Nat} {c : Cmd} (hs : Inv s) : Inv (continueBatch id out outLen c s) := by
  unfold continueBatch
  split
  · exact complete_inv _ _ _ hs
  · exact inv_ite (complete_inv _ _ _ hs) (inv_ite (complete_inv _ _ _ hs) (setBatch_inv (foldl_inv (fun _ _ ht => setReq_inv ht)
      _ hs)))

theorem execBatchSubmitContinue_inv {h : Pkt} {batch : BitVec 32} {out outLen : Nat} (hs : Inv s) : NextInv (execBatchSubmitContinue
    h batch out outLen s) :=
  withPkt_inv hs (fun _ _ ht => continueBatch_inv ht)

theorem enterPaused_inv {e tier : Nat} (hs : Inv s) : Inv (enterPaused s e tier) :=
  inv_ite (endReq_inv (finishOpt_inv _ _ _ (setReq_inv hs))) (inv_ite (endReq_inv (finishOpt_inv _ _ _ (setReq_inv hs)))
      (finishOpt_inv _ _ _ (setReq_inv hs)))

theorem enterPausing_inv {e : Nat} (hs : Inv s) : Inv (enterPausing s e) :=
  inv_ite (charge4_inv (setReq_inv (clearRow_inv hs))) (enterPaused_inv (clearRow_inv hs))

theorem pauseReq_inv {h ttl place : Nat} {c : Cmd} (hs : Inv s) : Inv (pauseReq h ttl place c s) := by
  unfold pauseReq
  split
  · exact complete_inv _ _ _ hs
  · exact inv_ite (complete_inv _ _ _ hs) (inv_ite (setReq_inv hs) (settleBatch_inv (enterPausing_inv (setReq_inv hs))))

theorem execReqPause_inv {h : Pkt} {req ttl : BitVec 32} {place : Fin 256} (hs : Inv s) : NextInv (execReqPause h req ttl place s)
    :=
  withPkt_inv hs (fun _ _ ht => pauseReq_inv ht)

theorem dropReq_inv {cancel : Bool} {h : Nat} {c : Cmd} (hs : Inv s) : Inv (dropReq cancel h c s) := by
  unfold dropReq
  split
  · exact complete_inv _ _ _ hs
  · exact inv_ite (complete_inv _ _ _ hs) (inv_ite (setReq_inv hs) (settleBatch_inv (endReq_inv (setReq_inv hs))))

theorem execReqCancel_inv {h : Pkt} {req : BitVec 32} (hs : Inv s) : NextInv (execReqCancel h req s) :=
  withPkt_inv hs (fun _ _ ht => dropReq_inv ht)

theorem execReqRelease_inv {h : Pkt} {req : BitVec 32} (hs : Inv s) : NextInv (execReqRelease h req s) :=
  withPkt_inv hs (fun _ _ ht => dropReq_inv ht)

theorem resumeNow_inv {e : Nat} (hs : Inv s) : Inv (resumeNow s e) :=
  inv_ite (finishOpt_inv _ _ _ (setReq_inv hs)) (inv_ite (charge2_inv (setReq_inv hs)) (finishOpt_inv _ _ _ (setReq_inv hs)))

theorem resumeReq_inv {h : Nat} {c : Cmd} (hs : Inv s) : Inv (resumeReq h c s) := by
  unfold resumeReq
  split
  · exact complete_inv _ _ _ hs
  · exact inv_ite (complete_inv _ _ _ hs) (inv_ite (setReq_inv hs) (resumeNow_inv (setReq_inv hs)))

theorem execReqResume_inv {h : Pkt} {req : BitVec 32} (hs : Inv s) : NextInv (execReqResume h req s) :=
  withPkt_inv hs (fun _ _ ht => resumeReq_inv ht)

theorem execPauseSpillDone_inv {e : Fin 4096} (hs : Inv s) : NextInv (execPauseSpillDone e s) := by
  unfold execPauseSpillDone
  refine next_ite hs ?_
  extract_lets +onlyGivenNames keep s1 r s2
  have h1 : Inv s1 := by
    dsimp only [s1]
    split
    · exact movePages_inv (setReq_inv hs) (fun _ _ ht => spillPage_inv ht)
    · exact hs
  have h2 : Inv s2 := enterPaused_inv (credit2_inv (setReq_inv h1))
  exact inv_ite (endReq_inv h2) h2

theorem execResumeCopyDone_inv {e : Fin 4096} (hs : Inv s) : NextInv (execResumeCopyDone e s) := by
  unfold execResumeCopyDone
  refine next_ite hs ?_
  extract_lets +onlyGivenNames s1 r s2
  have h1 : Inv s1 := by
    dsimp only [s1]
    split
    · exact movePages_inv (setReq_inv hs) (fun _ _ ht => restorePage_inv ht)
    · exact hs
  have h2 : Inv s2 := credit4_inv (setReq_inv h1)
  exact inv_ite (endReq_inv (finishOpt_inv _ _ _ h2)) (inv_ite (endReq_inv (finishOpt_inv _ _ _ h2)) (finishOpt_inv _ _ _
      h2))

theorem execTtlExpiry_inv {e : Fin 4096} (hs : Inv s) : NextInv (execTtlExpiry e s) :=
  next_ite (settleBatch_inv (endReq_inv hs)) hs

theorem lseOf_inv {c : List (Nat × Nat)} (hs : Inv s) : Inv (lseOf s c).2 := inv_ite_snd hs (fresh_inv hs)

theorem writeCands_inv {fn at' pos k : Nat} {stop : Bool} {c : List (Nat × Nat)} (hs : Inv s) : Inv (writeCands s fn at' pos k stop c)
    := by
  unfold writeCands
  refine foldl_inv (fun _ _ ht => ?_) _ (hwrN_inv _ _ _ _ (hwrN_inv _ _ _ _ (hwrN_inv _ _ _ _ (hwrN_inv _ _ _ _ (hwrN_inv _ _ _ _
      (lseOf_inv hs))))))
  split
  · exact hwrN_inv _ _ _ _ (hwrN_inv _ _ _ _ ht)
  · exact hwrN_inv _ _ _ _ (fresh_inv ht)

theorem writePadding_inv {fn at' pos : Nat} {stopped : Bool} (hs : Inv s) : Inv (writePadding s fn at' pos stopped) :=
  hwrN_inv _ _ _ _ (hwrN_inv _ _ _ _ (hwrN_inv _ _ _ _ (hwrN_inv _ _ _ _ (hwrN_inv _ _ _ _ hs))))

theorem attendStep_inv {x : Batch} {attn : List AttnRow} (hs : Inv s) : Inv (attendStep s x attn).1 := by
  unfold attendStep
  refine foldl_fst_inv (fun _ _ ht => ?_) _ hs
  split
  exacts [ht, attendRow_inv ht]

theorem writeKvs_inv {x : Batch} {chunk : Nat} {kv : List KvRow} (hs : Inv s) : Inv (writeKvs s x chunk kv) := by
  unfold writeKvs
  refine foldl_inv (fun _ _ ht => ?_) _ hs
  split
  exacts [ht, writeKv_inv ht]

theorem writePositions_inv {b : Nat} {x : Batch} {chunk : Nat} (hs : Inv s) : Inv (writePositions s b x chunk) := by
  unfold writePositions
  refine foldl_inv (fun _ _ ht => ?_) _ hs
  split
  · exact ht
  · dsimp only
    split
    exacts [setBatch_inv (setReq_inv ht), setReq_inv ht]

theorem rowBoundary_inv {b : Nat} {x : Batch} {i : Nat} {r : Row} {l : List (BitVec 32)} {fail : Option Nat} (hs : Inv s) :
    Inv (rowBoundary s b x i r l fail) := by
  unfold rowBoundary
  extract_lets at'
  split
  · exact writePadding_inv hs
  · extract_lets +onlyGivenNames q c stop cancelled s1 s2
    split
    · exact endReq_inv (writePadding_inv hs)
    · have h1 : Inv s1 := inv_ite (writePadding_inv hs) (setPart_inv (writeCands_inv hs))
      have h2 : Inv s2 := by
        dsimp only [s2]
        split
        exacts [setBatch_inv h1, h1]
      exact inv_ite (endReq_inv h2) (inv_ite (endReq_inv h1) (inv_ite (enterPausing_inv h1) (inv_ite (endReq_inv h1) h1)))

theorem liftHeld_inv {p : Nat} (hs : Inv s) : Inv (liftHeld s p) :=
  inv_ite hs (foldl_inv (fun _ _ ht => resumeNow_inv ht) _ (inv_same rfl hs))

theorem rowChange_inv {e : Nat} (hs : Inv s) : Inv (rowChange s e) :=
  inv_ite hs (inv_ite (enterPausing_inv hs) (inv_ite (endReq_inv hs) (inv_ite (endReq_inv hs) hs)))

theorem cancelDestroyed_inv {p b : Nat} (hs : Inv s) : Inv (cancelDestroyed s p b) := by
  unfold cancelDestroyed
  split
  · exact inv_ite (settleBatch_inv (foldl_inv (fun _ _ ht => endReq_inv ht) _ hs)) hs
  · exact hs

theorem boundaryActs_inv {p b handle : Nat} (hs : Inv s) : Inv (boundaryActs s p b handle) := by
  unfold boundaryActs
  extract_lets +onlyGivenNames _ s1
  have h1 : Inv s1 := by
    dsimp only [s1]
    split
    · exact inv_ite (cancelForced_inv (cancelDestroyed_inv hs)) (cancelDestroyed_inv hs)
    · exact cancelDestroyed_inv hs
  exact liftHeld_inv (inv_ite h1 (settleResize_inv h1))

theorem stepEnds_inv {b : Nat} {x : Batch} {logits : List (List (BitVec 32))} {fails : List (Nat × Nat)} {kv : List KvRow}
    {attn : List AttnRow} (hs : Inv s) : Inv (stepEnds s b x logits fails kv attn) := by
  unfold stepEnds
  extract_lets +onlyGivenNames chunk z fs s1
  have h1 : Inv s1 := writePositions_inv (attendStep_inv (writeKvs_inv hs))
  split
  · exact h1
  · rename_i x' _
    refine inv_ite (pagesForStep_inv (settleBatch_inv (foldl_inv (fun _ _ ht => rowChange_inv ht) _
      (foldl_inv (fun _ _ ht => ?_) _ (setBatch_inv h1))))) ?_
    · split
      exacts [endReq_inv ht, ht]
    · extract_lets +onlyGivenNames s2
      have h2 : Inv s2 := foldl_inv (fun _ _ ht => rowBoundary_inv ht) _ h1
      split
      · exact h2
      · exact pagesForStep_inv (settleBatch_inv (inv_ite (setBatch_inv h2) (finishOpt_inv _ _ _ (setBatch_inv h2))))

theorem execStepBoundary_inv {batch : BitVec 32} {logits : List (List (BitVec 32))} {fails : List (Nat × Nat)} {kv : List KvRow} {attn
    : List AttnRow} (hs : Inv s) : NextInv (execStepBoundary batch logits fails kv attn s) := by
  unfold execStepBoundary
  dsimp only
  split
  · exact hs
  · exact next_ite hs (next_ite (boundaryActs_inv (stepEnds_inv (foldl_inv (fun _ _ ht => endUnit_inv ht) _ hs))) (next_ite
      (setBatch_inv (abandonStep_inv hs)) (boundaryActs_inv (failBatch_inv hs))))

theorem trainAct_inv {t : TrainParams} {c : Cmd} (hs : Inv s) : Inv (trainAct t c s) := by
  unfold trainAct
  split
  · extract_lets +onlyGivenNames n bytes old bound free a s1 q
    refine inv_ite (complete_inv _ _ _ hs) (inv_ite (complete_inv _ _ _ hs) (inv_ite (complete_inv _ _ _ hs) ?_))
    have h1 : Inv s1 := inv_ite (setPart_inv (charge2_inv (credit2_inv hs))) hs
    split
    · exact complete_inv _ _ _ h1
    · exact inv_serving (newReq_inv h1 ‹_›)
  · exact complete_inv _ _ _ hs

theorem execTrainStep_inv {h : Pkt} {p : TrainParams} (hs : Inv s) : NextInv (execTrainStep h p s) :=
  withPkt_inv hs (fun _ _ ht => trainAct_inv ht)

theorem trainReply_inv {t : Train} {x : TrainEnd} (hs : Inv s) : Inv (trainReply s t x) := by
  unfold trainReply
  refine endTrain_inv ?_
  split
  exacts [hs, setPart_inv (trainResult_inv hs)]

theorem trainEnds_inv {x : TrainEnd} (hs : Inv s) : Inv (trainEnds s x) := by
  unfold trainEnds
  split
  · exact hs
  · refine inv_ite hs ?_
    split
    · exact endTrain_inv hs
    · refine inv_ite ?_ hs
      extract_lets +onlyGivenNames s1
      have h1 : Inv s1 := foldl_inv (fun _ _ ht => endUnit_inv ht) _ hs
      split
      exacts [h1, trainReply_inv h1]

theorem trainCancels_inv (hs : Inv s) : Inv (trainCancels s) := foldl_inv (fun _ _ ht => inv_ite (endTrain_inv ht) ht) _ hs

theorem mapSpares_inv (hs : Inv s) : Inv (mapSpares s) := by
  unfold mapSpares
  refine foldl_inv (fun _ _ ht => inv_ite ?_ ht) _ hs
  extract_lets +onlyGivenNames s1
  have h1 : Inv s1 := wr_fits_inv (wr_fits_inv (wr_fits_inv ht))
  exact inv_ite (castDisplay_inv (inv_same rfl h1)) (inv_same rfl h1)

theorem markStart_inv {w : WorkStart} (hs : Inv s) : Inv (markStart s w).2 := by
  unfold markStart
  split
  · exact setCtx_unused_inv (fun h => by simp [h]) hs
  · split
    exacts [setBatch_inv hs, hs]
  · split
    exacts [inv_serving hs, hs]
  · exact hs

theorem startWork_inv {w : WorkStart} (hs : Inv s) : Inv (startWork s w) := inv_ite (startUnit_inv (markStart_inv hs)) hs

theorem startAll_inv {l : List WorkStart} (hs : Inv s) : Inv (startAll s l) := foldl_inv (fun _ _ ht => startWork_inv ht) _ hs

theorem monitor_inv (hs : Inv s) : Inv (monitor s) := by
  unfold monitor
  refine foldl_inv (fun t e ht => inv_ite ?_ ht) _ (inv_units hs)
  have h1 : Inv { t with units := tset e.1 { e.2 with hung := true } t.units } := inv_units ht
  extract_lets +onlyGivenNames u s1 s2 s3
  have h3 : Inv s3 := wr_fits_inv (wr_fits_inv (bump_fits_inv h1))
  split
  · exact h3
  · exact inv_ite (raiseFence_inv (setPart_inv h3)) (setPart_inv h3)

end Sys2Proof.Machine
end

section
/-!
O5: each function of Sys2Proof/Machine/Window.lean that changes the state keeps the invariant.
-/
namespace Sys2Proof.Machine
open Reg Laws

variable {s : State}

theorem statIrq_inv {fn : Nat} (hs : Inv s) : Inv (statIrq s fn) := signalVec_inv _ _ hs

theorem setReady_inv {fn : Nat} {v : Bool} (hs : Inv s) : Inv (setReady s fn v) := inv_ite hs (statIrq_inv (wr_fits_inv hs))

theorem setStale_inv {fn : Nat} {v : Bool} (hs : Inv s) : Inv (setStale s fn v) := inv_ite hs (statIrq_inv (wr_fits_inv hs))

theorem rejectDoorbell_inv {fn rg : Nat} (hs : Inv s) : Inv (rejectDoorbell s fn rg) :=
  report_inv _ _ _ _ _ _ (setRing_inv _ _ _ hs)

theorem execSqDoorbell_inv {fn : Fin 16} {rg : Fin 1024} {value : BitVec 31} (hs : Inv s) : NextInv (execSqDoorbell fn rg value s)
    :=
  next_ite (rejectDoorbell_inv (trace_inv _ _ hs)) (setRing_inv _ _ _ (trace_inv _ _ hs))

theorem consumeRecords_inv {fn rg head : Nat} (hs : Inv s) : Inv (consumeRecords s fn rg head) :=
  foldl_inv (fun _ _ ht => freeBuffer_inv ht) _ (setRing_inv _ _ _ hs)

theorem execCqDoorbell_inv {fn : Fin 16} {rg : Fin 1024} {value : BitVec 31} (hs : Inv s) : NextInv (execCqDoorbell fn rg value s)
    := by
  unfold execCqDoorbell
  refine next_ite (rejectDoorbell_inv (trace_inv _ _ hs)) ?_
  extract_lets +onlyGivenNames _ s1
  have h1 : Inv s1 := settleDrain_inv _ _ (drainWaiting_inv _ _ _ (consumeRecords_inv (trace_inv _ _ hs)))
  exact inv_ite (flushEvents_inv _ h1) h1

theorem msixWrite_inv {fn o v : Nat} (hs : Inv s) : Inv (msixWrite s fn o v) :=
  inv_ite hs (inv_ite (signalVec_inv _ _ (setFn_inv _ _ (setFn_inv _ _ hs))) (setFn_inv _ _ hs))

theorem bar0Write_inv {fn o v : Nat} (hs : Inv s) : Inv (bar0Write s fn o v) :=
  inv_ite (msixWrite_inv hs) (inv_ite (setFn_inv _ _ hs) (inv_ite hs (statIrq_inv (bump_fits_inv hs))))

theorem execBar0Write_inv {fn : Fin 16} {word : Fin 16384} {value : BitVec 32} (hs : Inv s) : NextInv (execBar0Write fn word value
    s) :=
  bar0Write_inv hs

theorem enableRing_inv {fn rg : Nat} (hs : Inv s) : Inv (enableRing s fn rg) :=
  inv_ite (flushEvents_inv _ (setRing_inv _ _ _ hs)) (setRing_inv _ _ _ hs)

theorem disableRing_inv {fn rg : Nat} (hs : Inv s) : Inv (disableRing s fn rg) := settleDrain_inv _ _ (setRing_inv _ _ _ hs)

theorem ringCfgWrite_inv {fn rg v : Nat} (hs : Inv s) : Inv (ringCfgWrite s fn rg v) := by
  unfold ringCfgWrite
  extract_lets r
  split
  · exact inv_ite (enableRing_inv (setRing_inv _ _ _ hs)) (setRing_inv _ _ _ hs)
  · exact inv_ite hs (disableRing_inv hs)
  · exact hs

theorem ringCoalWrite_inv {fn rg v : Nat} (hs : Inv s) : Inv (ringCoalWrite s fn rg v) :=
  inv_ite (signalVec_inv _ _ (setRing_inv _ _ _ hs)) (setRing_inv _ _ _ hs)

theorem ringAddrWrite_inv {fn rg o v : Nat} (hs : Inv s) : Inv (ringAddrWrite s fn rg o v) := inv_ite (setRing_inv _ _ _ hs) hs

theorem publish_inv {fn : Nat} (hs : Inv s) : Inv (publish s fn) := setFn_inv _ _ hs

theorem applyWindow_inv {fn o v : Nat} (hs : Inv s) : Inv (applyWindow s fn o v) :=
  inv_ite (flushEvents_inv _ (wr_fits_inv (wr_fits_inv (wr_fits_inv hs)))) (inv_ite (wr_fits_inv hs) (inv_ite (ringCfgWrite_inv
      hs) (inv_ite (ringAddrWrite_inv hs) (inv_ite (ringCoalWrite_inv hs) (inv_ite (inv_ite (setRing_inv _ _ _ hs) hs) hs)))))

theorem applyFront_inv {fn o v : Nat} (hs : Inv s) : Inv (applyFront s fn o v) :=
  tick_fits_inv (publish_inv (applyWindow_inv (setFn_inv _ _ hs)))

theorem execWindowWriteApply_inv {fn : Fin 16} (hs : Inv s) : NextInv (execWindowWriteApply fn s) := by
  unfold execWindowWriteApply
  split
  exacts [next_ite (applyFront_inv hs) hs, hs]

theorem execRingEnable_inv {fn : Fin 16} (hs : Inv s) : NextInv (execRingEnable fn s) := by
  unfold execRingEnable
  split
  exacts [next_ite (applyFront_inv hs) hs, hs]

theorem execRingDisable_inv {fn : Fin 16} (hs : Inv s) : NextInv (execRingDisable fn s) := by
  unfold execRingDisable
  split
  exacts [next_ite (applyFront_inv hs) hs, hs]

theorem execWindowPublish_inv {fn : Fin 16} (hs : Inv s) : NextInv (execWindowPublish fn s) :=
  next_ite (publish_inv (inv_ite (setReady_inv (setFn_inv _ _ (setStale_inv hs))) (setStale_inv hs))) hs

theorem execBarUnsupportedAccess_inv {fn : Fin 16} {read : Option (Fin 64)} (hs : Inv s) : NextInv (execBarUnsupportedAccess fn
    read s) := by
  unfold execBarUnsupportedAccess
  split
  exacts [emit_inv _ (emit_inv _ hs), emit_inv _ hs]

theorem execCoalTimeout_inv {fn : Fin 16} {rg : Fin 1024} (hs : Inv s) : NextInv (execCoalTimeout fn rg s) :=
  next_ite (signalVec_inv _ _ (setRing_inv _ _ _ hs)) hs

theorem execMsixUnmask_inv {fn : Fin 16} {vec : Fin 64} (hs : Inv s) : NextInv (execMsixUnmask fn vec s) := msixWrite_inv hs

theorem eraseSlot_inv {slot : Nat} (hs : Inv s) : Inv (eraseSlot s slot) := wr_fits_inv (inv_same rfl hs)

theorem eraseSlots_inv {p : Nat → Bool} (hs : Inv s) : Inv (eraseSlots s p) := foldl_inv (fun _ _ ht => eraseSlot_inv ht) _ hs

theorem endSessions_inv {p : Nat → Bool} (hs : Inv s) : Inv (endSessions s p) := inv_same rfl hs

theorem resetFunction_inv {fn : Nat} (hs : Inv s) : Inv (resetFunction s fn) :=
  wr_fits_inv (wr_fits_inv (setFn_inv _ _ (inv_same rfl (resetRegs_inv _ (dropCmds_inv _ hs)))))

theorem resetOwned_inv {p : Nat} (hs : Inv s) : Inv (resetOwned s p) := by
  unfold resetOwned
  split
  · exact inv_ite hs (inv_ite (startReset_inv hs) (setPart_inv (inv_ite (askFence_inv hs) hs)))
  · exact hs

theorem destroyOwned_inv {p : Nat} (hs : Inv s) : Inv (destroyOwned s p) := by
  unfold destroyOwned
  split
  · exact inv_ite (askFence_inv (setPart_inv hs)) (finishDestroy_inv (setPart_inv hs))
  · exact hs

theorem clearVfs_inv (hs : Inv s) : Inv (clearVfs s) := by
  unfold clearVfs
  extract_lets +onlyGivenNames vf s1 s2 s3
  have h1 : Inv s1 := foldl_inv (fun _ _ ht => destroyOwned_inv ht) _ hs
  have h3 : Inv s3 := foldl_inv (fun _ _ ht => setReady_inv (resetFunction_inv ht)) _ (eraseSlots_inv (endSessions_inv h1))
  exact inv_hif h3

theorem execFunctionLevelReset_inv {fn : Fin 16} (hs : Inv s) : NextInv (execFunctionLevelReset fn s) :=
  foldl_inv (fun _ _ ht => resetOwned_inv ht) _ (resetFunction_inv (endSessions_inv (inv_ite (clearVfs_inv hs) hs)))

theorem execVfEnableSet_inv {numVfs : Fin 16} (hs : Inv s) : NextInv (execVfEnableSet numVfs s) :=
  next_ite (foldl_inv (fun _ _ ht => setFn_inv _ _ ht) _ (inv_same rfl hs)) hs

theorem execVfEnableClear_inv (hs : Inv s) : NextInv (execVfEnableClear s) := clearVfs_inv hs

theorem execPcieRefclkLoss_inv (hs : Inv s) : NextInv (execPcieRefclkLoss s) := inv_same rfl hs

theorem execPcieRefclkReturn_inv (hs : Inv s) : NextInv (execPcieRefclkReturn s) := inv_same rfl hs

theorem execD3hotTransition_inv {fn : Fin 16} {enter : Bool} (hs : Inv s) : NextInv (execD3hotTransition fn enter s) :=
  next_ite (setFn_inv _ _ hs) (foldl_inv (fun _ _ ht => signalVec_inv _ _ ht) _ (setFn_inv _ _ (setFn_inv _ _ hs)))

theorem execCompletionTimeout_inv {fn : Fin 16} (hs : Inv s) : NextInv (execCompletionTimeout fn s) := report_inv _ _ _ _ _ _ hs

theorem execNop_inv {h : Pkt} (hs : Inv s) : NextInv (execNop h s) := withPkt_inv hs (fun _ _ ht => answer_inv ht)

end Sys2Proof.Machine
end

section
/-!
O5: each function of Sys2Proof/Machine/Faults.lean that changes the state keeps the invariant.
-/
namespace Sys2Proof.Machine
open Reg Laws

variable {s : State}

theorem execFaultRecordPublish_inv {domain : Fin 128} (hs : Inv s) : NextInv (execFaultRecordPublish domain s) := by
  unfold execFaultRecordPublish
  split
  · exact hs
  · exact next_ite (inv_same rfl (wr_fits_inv (bump_fits_inv (wr_fits_inv (inv_same rfl hs))))) (inv_ite (wr_fits_inv (wr_fits_inv
      (inv_same rfl (wr_fits_inv (inv_same rfl hs))))) (wr_fits_inv (inv_same rfl (wr_fits_inv (inv_same rfl hs)))))

theorem execFaultRecordConsume_inv {level : Fin 8} (hs : Inv s) : NextInv (execFaultRecordConsume level s) := by
  unfold execFaultRecordConsume
  refine next_ite hs ?_
  split
  · exact wr_fits_inv (wr_fits_inv hs)
  · extract_lets +onlyGivenNames _ code s1 detail s2
    have h1 : Inv s1 := inv_ite (logAlarm_inv _ _ _ _ (wr_fits_inv (wr_fits_inv hs))) (logEvent_inv _ _ _ _ _ (wr_fits_inv
        (wr_fits_inv hs)))
    have h2 : Inv s2 := inv_ite (clearFaults_inv h1) h1
    dsimp only
    split
    · exact event_inv _ _ _ _ (event_inv _ _ _ _ h2)
    · exact event_inv _ _ _ _ h2

theorem copyRec_inv {b : LogBuf} {r : LogRec} (hs : Inv s) : Inv (copyRec s b r).2 := hwrN_inv _ _ _ _ (hwrBytes_inv _ _ _ hs)

theorem copyLogs_inv {l : List LogRec} (hs : Inv s) : Inv (copyLogs l s).2 := by
  induction l generalizing s with
  | nil => exact hs
  | cons r t ih =>
    unfold copyLogs
    extract_lets tr b x s1 y
    split
    · exact ih (inv_ite (inv_flt (copyRec_inv hs)) (inv_flt (copyRec_inv hs)))
    · exact ih hs

theorem execLogCopy_inv (hs : Inv s) : NextInv (execLogCopy s) :=
  next_ite (inv_same rfl (copyLogs_inv (inv_same rfl (copyLogs_inv hs)))) (inv_same rfl (copyLogs_inv hs))

theorem newBuf_inv {addr len : Nat} (hs : Inv s) : Inv (newBuf s addr len).2 := inv_ite hs (hwrBytes_inv _ _ _ hs)

theorem logConfigAct_inv {level addr len : Nat} {c : Cmd} (hs : Inv s) : Inv (logConfigAct level addr len c s) :=
  inv_ite (complete_inv _ _ _ (inv_same rfl (newBuf_inv hs))) (complete_inv _ _ _ hs)

theorem execLogConfig_inv {h : Pkt} {level : Fin 256} {addr len : BitVec 64} (hs : Inv s) : NextInv (execLogConfig h level addr
    len s) :=
  withPkt_inv hs (fun _ _ ht => logConfigAct_inv ht)

theorem traceConfigAct_inv {mask addr len : Nat} {c : Cmd} (hs : Inv s) : Inv (traceConfigAct mask addr len c s) :=
  inv_ite (complete_inv _ _ _ (inv_same rfl (newBuf_inv hs))) (complete_inv _ _ _ hs)

theorem execTraceConfig_inv {h : Pkt} {mask addr len : BitVec 64} (hs : Inv s) : NextInv (execTraceConfig h mask addr len s) :=
  withPkt_inv hs (fun _ _ ht => traceConfigAct_inv ht)

theorem execFltRecLostRead_inv (hs : Inv s) : NextInv (execFltRecLostRead s) := wr_fits_inv (emit_inv _ hs)

theorem execFltSelftestRead_inv (hs : Inv s) : NextInv (execFltSelftestRead s) := wr_fits_inv (wr_fits_inv (emit_inv _ hs))

theorem execFltLogStatRead_inv (hs : Inv s) : NextInv (execFltLogStatRead s) := wr_fits_inv (wr_fits_inv (emit_inv _ hs))

theorem execFltLogTraceRead_inv (hs : Inv s) : NextInv (execFltLogTraceRead s) := wr_fits_inv (emit_inv _ hs)

theorem execFltProgRead_inv {p : Fin 16} (hs : Inv s) : NextInv (execFltProgRead p s) := wr_fits_inv (emit_inv _ hs)

theorem execFltDomCntRead_inv {d : Fin 128} (hs : Inv s) : NextInv (execFltDomCntRead d s) :=
  wr_fits_inv (wr_fits_inv (emit_inv _ hs))

theorem setPair_inv {b : Bool} {x : PairState} (hs : Inv s) : Inv (setPair s b x) := inv_ite (inv_same rfl hs) (inv_same rfl hs)

theorem refreshDegraded_inv (hs : Inv s) : Inv (refreshDegraded s) :=
  inv_ite (logAlarm_inv _ _ _ _ (fresh_inv (wr_fits_inv (wr_fits_inv hs)))) (wr_fits_inv hs)

theorem wakePair_inv {b : Bool} (hs : Inv s) : Inv (wakePair s b) := inv_ite (emit_inv _ hs) hs

theorem setPairState_inv {b : Bool} {v : Nat} (hs : Inv s) : Inv (setPairState s b v) := by
  unfold setPairState
  extract_lets +onlyGivenNames s1
  have h1 : Inv s1 := refreshDegraded_inv (inv_ite (wr_fits_inv hs) (wr_fits_inv hs))
  exact inv_ite h1 (wakePair_inv h1)

theorem moveRoutes_inv {l : List Nat} {to' : Bool} (hs : Inv s) : Inv (moveRoutes s l to') :=
  foldl_inv (fun _ _ ht => inv_ite (deliver_inv _ (wr_fits_inv ht)) (wr_fits_inv ht)) _ hs

theorem moveDuty_inv {d to' : Bool} (hs : Inv s) : Inv (moveDuty s d to') := by
  have h1 : Inv (if d then wr s FLT_LOCKSTEP_D1_PAIR (b2n to') else wr s FLT_LOCKSTEP_D0_PAIR (b2n to')) :=
    inv_ite (wr_fits_inv hs) (wr_fits_inv hs)
  unfold moveDuty
  refine inv_ite hs (inv_ite (inv_ite (inv_flt (moveRoutes_inv h1)) (inv_flt (moveRoutes_inv h1))) ?_)
  exact inv_ite (inv_flt (moveRoutes_inv h1)) (inv_flt (moveRoutes_inv h1))

theorem settleDuties_inv (hs : Inv s) : Inv (settleDuties s) := moveDuty_inv (moveDuty_inv hs)

theorem execCheckerSelfTest_inv {b flagged : Bool} (hs : Inv s) : NextInv (execCheckerSelfTest b flagged s) := by
  unfold execCheckerSelfTest
  refine next_ite hs (next_ite (next_ite (next_ite (setPairState_inv (setPair_inv (tick_fits_inv hs))) (setPair_inv (tick_fits_inv
      hs))) (tick_fits_inv hs)) ?_)
  extract_lets +onlyGivenNames s1
  have h1 : Inv s1 := setPair_inv (bump_fits_inv (tick_fits_inv hs) (ite_fits rfl rfl))
  exact next_ite h1 (setPairState_inv (wr_fits_inv (report_inv _ _ _ _ _ _ h1)))

theorem wdogKick_inv {b : Bool} (hs : Inv s) : Inv (wdogKick s b) := inv_ite (inv_same rfl (setPair_inv hs)) (setPair_inv hs)

theorem execPlinthWdogKick_inv {b : Bool} (hs : Inv s) : NextInv (execPlinthWdogKick b s) := wdogKick_inv hs

theorem dwdogKick_inv (hs : Inv s) : Inv (dwdogKick s) := inv_ite (inv_same rfl hs) hs

theorem dwdogClr_inv (hs : Inv s) : Inv (dwdogClr s) := inv_ite (wr_fits_inv hs) hs

theorem execDeviceWdogKick_inv (hs : Inv s) : NextInv (execDeviceWdogKick s) := dwdogKick_inv hs

theorem execDeviceWdogClr_inv (hs : Inv s) : NextInv (execDeviceWdogClr s) := dwdogClr_inv hs

theorem execDeviceWdogExpiry_inv (hs : Inv s) : NextInv (execDeviceWdogExpiry s) := wr_fits_inv hs

end Sys2Proof.Machine
end

section
/-!
O5: each function of Sys2Proof/Machine/Power.lean that changes the state keeps the invariant.
-/
namespace Sys2Proof.Machine
open Reg Laws

variable {s : State}

theorem setPwr_inv {f : Pwr → Pwr} (hs : Inv s) : Inv (setPwr s f) := inv_same rfl hs

theorem goOp_inv {k : Nat} (hs : Inv s) : Inv (goOp s k) :=
  inv_ite (setPwr_inv hs) (inv_ite (wr_fits_inv hs) (wr_fits_inv (wr_fits_inv hs)))

theorem requestFloor_inv (hs : Inv s) : Inv (requestFloor s) :=
  inv_ite (setPwr_inv hs) (raiseCause_inv (wr_fits_inv (setPwr_inv hs)))

theorem reportFloor_inv (hs : Inv s) : Inv (reportFloor s) := dropCause_inv (wr_fits_inv (setPwr_inv hs))

theorem execOpTransitionDone_inv (hs : Inv s) : NextInv (execOpTransitionDone s) := by
  unfold execOpTransitionDone
  refine next_ite ?_ hs
  dsimp only
  split
  · exact goOp_inv (setPwr_inv (wr_fits_inv (wr_fits_inv hs)))
  · exact inv_ite (reportFloor_inv (wr_fits_inv (wr_fits_inv hs))) (wr_fits_inv (wr_fits_inv hs))

theorem execPowerFloorReturn_inv (hs : Inv s) : NextInv (execPowerFloorReturn s) :=
  next_ite (next_ite (reportFloor_inv hs) (goOp_inv (setPwr_inv hs))) hs

theorem learnPhase_inv {p h st m : Nat} (hs : Inv s) : Inv (learnPhase s p h st m) := by
  unfold learnPhase
  split
  all_goals exact setPwr_inv hs

theorem learnAll_inv {q : Quantum} (hs : Inv s) : Inv (learnAll s q) :=
  inv_ite hs (foldl_inv (fun _ _ ht => learnPhase_inv ht) _ hs)

theorem compareForecast_inv {q : Quantum} (hs : Inv s) : Inv (compareForecast s q) :=
  inv_ite (setPwr_inv (setPwr_inv hs)) (setPwr_inv hs)

theorem execForecastCorrection_inv (hs : Inv s) : NextInv (execForecastCorrection s) := next_ite (setPwr_inv hs) hs

theorem setRates_inv {r : Nat → Nat} (hs : Inv s) : Inv (setRates s r) := foldl_inv (fun _ _ ht => wr_fits_inv ht) _ hs

theorem applyChoice_inv {q : Quantum} {k : Nat} {r : Nat → Nat} (hs : Inv s) : Inv (applyChoice s q k r) :=
  inv_ite (goOp_inv (setRates_inv (setPwr_inv hs))) (setRates_inv (setPwr_inv hs))

theorem chooseOp_inv {q : Quantum} (hs : Inv s) : Inv (chooseOp s q) := by
  unfold chooseOp
  extract_lets +onlyGivenNames floor
  split
  · exact applyChoice_inv hs
  · exact inv_ite (applyChoice_inv hs) (inv_ite (requestFloor_inv (setPwr_inv (applyChoice_inv hs))) (applyChoice_inv hs))

theorem breachBelow_inv {p : Nat} (hs : Inv s) : Inv (breachBelow s p) := by
  unfold breachBelow
  split
  · exact hs
  · exact inv_ite (breachBegin_inv (wr_fits_inv hs)) hs

theorem breachAbove_inv {p : Nat} (hs : Inv s) : Inv (breachAbove s p) := by
  unfold breachAbove
  split
  exacts [hs, inv_ite (breachEnd_inv hs) hs]

theorem ratesOut_inv (hs : Inv s) : Inv (ratesOut s) := foldl_inv (fun _ _ ht => wr_fits_inv ht) _ (inv_ite (wr_fits_inv hs) hs)

theorem countFloor_inv {q : Quantum} (hs : Inv s) : Inv (countFloor s q) := inv_ite (setPwr_inv hs) hs

theorem setTrim_inv {k : Nat} {t : Int} (hs : Inv s) : Inv (setTrim s k t) := wr_fits_inv hs (trimField_fits k)

theorem withdrawOp6_inv (hs : Inv s) : Inv (withdrawOp6 s) := inv_ite hs (wr_fits_inv (wr_fits_inv hs))

theorem patinaRaise_inv {slack : Nat} (hs : Inv s) : Inv (patinaRaise s slack) :=
  inv_ite (inv_ite (withdrawOp6_inv hs) (inv_ite (wr_fits_inv (setTrim_inv hs)) hs)) hs

theorem execPatinaLower_inv {op : Fin 7} (hs : Inv s) : NextInv (execPatinaLower op s) :=
  next_ite (setPwr_inv (setTrim_inv hs)) hs

theorem execPatinaRecord_inv (hs : Inv s) : NextInv (execPatinaRecord s) := writeDevRec_inv hs

theorem execDroop_inv {_south : Bool} (hs : Inv s) : NextInv (execDroop _south s) := wr_fits_inv (bump_fits_inv hs)

theorem smoothNow_inv (hs : Inv s) : Inv (smoothNow s) := setPwr_inv hs

theorem powerBoundary_inv {q : Quantum} {plinth : Bool} (hs : Inv s) : Inv (powerBoundary s q plinth) := by
  unfold powerBoundary
  extract_lets +onlyGivenNames _ s1
  have h1 : Inv s1 := wr_fits_inv (wr_fits_inv (wr_fits_inv (wr_fits_inv hs)))
  refine inv_ite h1 (foldl_inv (fun _ _ ht => breachAbove_inv (breachBelow_inv ht)) _ (ratesOut_inv (wr_fits_inv (inv_ite ?_
      h1))))
  extract_lets +onlyGivenNames _ s2
  have h2 : Inv s2 := compareForecast_inv (learnAll_inv (patinaRaise_inv (smoothNow_inv (setPwr_inv h1))))
  exact countFloor_inv (inv_ite (trace_inv _ _ (chooseOp_inv h2)) h2)

theorem policyAct_inv {limit maxOp : Nat} {c : Cmd} (hs : Inv s) : Inv (policyAct limit maxOp c s) :=
  inv_ite (complete_inv _ _ _ hs) (complete_inv _ _ _ (wr_fits_inv (wr_fits_inv hs)))

theorem execPowerPolicy_inv {h : Pkt} {limit : BitVec 16} {maxOp : Fin 256} (hs : Inv s) : NextInv (execPowerPolicy h limit maxOp
    s) :=
  withPkt_inv hs (fun _ _ ht => policyAct_inv ht)

theorem smoothAct_inv {fill gap rampDown rampUp : Nat} {c : Cmd} (hs : Inv s) : Inv (smoothAct fill gap rampDown rampUp c s) :=
  inv_ite (complete_inv _ _ _ hs) (complete_inv _ _ _ (wr_fits_inv (wr_fits_inv (wr_fits_inv (wr_fits_inv hs)))))

theorem execPowerPolicyPartition_inv {h : Pkt} {fill gap rampDown rampUp : Fin 256} (hs : Inv s) : NextInv
    (execPowerPolicyPartition h fill gap rampDown rampUp s) :=
  withPkt_inv hs (fun _ _ ht => smoothAct_inv ht)

theorem tjTenths_inv (hs : Inv s) : Inv (tjTenths s).2 := inv_ite_snd hs (fresh_inv hs)

theorem queryPower_inv {h : Pkt} {c : Cmd} (hs : Inv s) : Inv (queryPower h c s) := replyTo_inv (tjTenths_inv hs)

theorem execPowerQuery_inv {h : Pkt} (hs : Inv s) : NextInv (execPowerQuery h s) :=
  withPkt_inv hs (fun _ _ ht => queryPower_inv ht)

theorem execLimiterEngage_inv {limit ceiling arr sram : Bool} (hs : Inv s) : NextInv (execLimiterEngage limit ceiling arr sram s)
    := by
  unfold execLimiterEngage
  refine next_ite ?_ hs
  extract_lets +onlyGivenNames s1
  have h1 : Inv s1 := wr_fits_inv (wr_fits_inv (wr_fits_inv (wr_fits_inv hs)))
  exact next_ite (wr_fits_inv (bump_fits_inv (wr_fits_inv h1))) h1

theorem execLimiterHalve_inv (hs : Inv s) : NextInv (execLimiterHalve s) :=
  next_ite hs (foldl_inv (fun _ _ ht => breachBelow_inv (wr_fits_inv ht)) _ hs)

theorem execLimiterStep_inv (hs : Inv s) : NextInv (execLimiterStep s) :=
  next_ite (inv_ite (goOp_inv (wr_fits_inv hs)) (wr_fits_inv hs)) hs

theorem execLimiterFloor_inv (hs : Inv s) : NextInv (execLimiterFloor s) :=
  next_ite (requestFloor_inv (setPwr_inv (wr_fits_inv hs))) hs

theorem execLimiterRelease_inv (hs : Inv s) : NextInv (execLimiterRelease s) :=
  next_ite hs (setPwr_inv (wr_fits_inv (wr_fits_inv (wr_fits_inv (wr_fits_inv (wr_fits_inv hs))))))

theorem execRailOc_inv {rail : Fin 11} (hs : Inv s) : NextInv (execRailOc rail s) :=
  next_ite hs (report_inv _ _ _ _ _ _ (wr_fits_inv hs))

theorem refreshTherm_inv (hs : Inv s) : Inv (refreshTherm s) := wr_fits_inv hs

theorem enterTherm_inv {st : Nat} (hs : Inv s) : Inv (enterTherm s st) :=
  inv_ite (wr_fits_inv (setPwr_inv (setPwr_inv hs)) (ite_fits rfl (ite_fits rfl rfl))) (setPwr_inv hs)

theorem actTherm_inv (hs : Inv s) : Inv (actTherm s) :=
  inv_ite (inv_ite (inv_ite (goOp_inv hs) hs) (requestFloor_inv (setPwr_inv (inv_ite (goOp_inv hs) hs)))) (inv_ite (goOp_inv hs)
      hs)

theorem noteSensor_inv {i : Nat} {ok : Bool} (hs : Inv s) : Inv (noteSensor s i ok) :=
  inv_ite (setPwr_inv hs) (inv_ite hs (report_inv _ _ _ _ _ _ (setPwr_inv hs)))

theorem releaseHeld_inv (hs : Inv s) : Inv (releaseHeld s) :=
  inv_ite (inv_ite (inv_same rfl hs) (wr_fits_inv (inv_same rfl hs))) hs

theorem execThermalSample_inv {temps : List (Option Int)} (hs : Inv s) : NextInv (execThermalSample temps s) := by
  unfold execThermalSample
  refine next_ite trivial (next_ite hs ?_)
  extract_lets +onlyGivenNames s1 pass _ s2
  have h1 : Inv s1 := foldl_inv (fun _ _ ht => noteSensor_inv ht) _ hs
  have h2 : Inv s2 := by
    dsimp only [s2]
    split
    · exact wr_fits_inv (wr_fits_inv (wr_fits_inv h1))
    · exact wr_fits_inv h1
  exact releaseHeld_inv (actTherm_inv (refreshTherm_inv (inv_ite h2 (foldl_inv (fun _ _ ht => enterTherm_inv ht) _ h2))))

theorem execThermalStateExit_inv {st : Fin 5} (hs : Inv s) : NextInv (execThermalStateExit st s) :=
  next_ite (refreshTherm_inv (setPwr_inv hs)) hs

theorem tripPart_inv {p : Nat} (hs : Inv s) : Inv (tripPart s p) := by
  unfold tripPart
  extract_lets +onlyGivenNames s1
  have h1 : Inv s1 := by
    dsimp only [s1]
    split
    exacts [inv_ite (raiseFence_inv hs) hs, hs]
  exact setProg_inv (setPart_inv (unwindCast_inv (foldl_inv (fun _ _ ht => endTrain_inv ht) _ (foldl_inv (fun _ _ ht =>
      settleBatch_inv ht) _ (foldl_inv (fun _ _ ht => resetRequest_inv ht) _ (endCommands_inv (foldl_inv (fun _ _ ht =>
      stopUnit_inv ht) _ (inv_ite (raiseCause_inv h1) h1))))))))

theorem execThermalTrip_inv (hs : Inv s) : NextInv (execThermalTrip s) :=
  next_ite (foldl_inv (fun _ _ ht => inv_ite ht (gateCluster_inv ht)) _ (foldl_inv (fun _ _ ht => tripPart_inv ht) _
      (requestFloor_inv (refreshTherm_inv (setPwr_inv hs))))) hs

theorem execPwrHwlimStatRead_inv (hs : Inv s) : NextInv (execPwrHwlimStatRead s) := wr_fits_inv (emit_inv _ hs)

theorem execPwrCpmStatRead_inv (hs : Inv s) : NextInv (execPwrCpmStatRead s) := wr_fits_inv (emit_inv _ hs)

end Sys2Proof.Machine
end

section
/-!
O5: each function of Sys2Proof/Machine/Query.lean that changes the state keeps the invariant.
-/
namespace Sys2Proof.Machine
open Reg Laws

variable {s : State}

theorem queryDevice_inv (hs : Inv s) : Inv (queryDevice s).2 := fresh_inv (fresh_inv hs)

theorem queryEntries_inv {scope p : Nat} (hs : Inv s) : Inv (queryEntries s scope p).2 :=
  inv_ite_snd (queryDevice_inv hs) (inv_ite_snd hs (inv_ite_snd hs (inv_ite_snd hs (inv_ite_snd hs (inv_ite_snd hs hs)))))

theorem queryAct_inv {h : Pkt} {scope first : Nat} {c : Cmd} (hs : Inv s) : Inv (queryAct h scope first c s) :=
  inv_ite (complete_inv _ _ _ hs) (replyTo_inv (queryEntries_inv hs))

theorem execQuery_inv {h : Pkt} {scope : Fin 256} {first : BitVec 16} (hs : Inv s) : NextInv (execQuery h scope first s) :=
  withPkt_inv hs (fun _ _ ht => queryAct_inv ht)

end Sys2Proof.Machine
end

section
/-!
O5: each function of Sys2Proof/Machine/Quantum.lean that changes the state keeps the invariant.
-/
namespace Sys2Proof.Machine
open Reg Laws

variable {s : State}

theorem plinthBoundary_inv {q : Quantum} (hs : Inv s) : Inv (plinthBoundary s q) := by
  unfold plinthBoundary
  extract_lets +onlyGivenNames b s1 s2 s3 s4 s5
  have h1 : Inv s1 := settleDuties_inv (inv_boot hs)
  have h3 : Inv s3 := mapSpares_inv (foldl_inv (fun _ _ ht => trainEnds_inv ht) _ (trainCancels_inv h1))
  have h4 : Inv s4 := inv_ite h3 (settleResize_inv h3)
  exact foldl_inv (fun _ _ ht => liftHeld_inv ht) _ (foldl_inv (fun _ _ ht => settleIdle_inv ht) _ h4)

theorem execQuantumBoundary_inv {q : Quantum} (hs : Inv s) : NextInv (execQuantumBoundary q s) := by
  unfold execQuantumBoundary
  extract_lets +onlyGivenNames s1 plinth s2 _ s3
  have h1 : Inv s1 := completeFrames_inv (applyStep_inv (inv_same rfl hs))
  have h2 : Inv s2 := inv_ite (plinthBoundary_inv h1) h1
  have h3 : Inv s3 := powerBoundary_inv (inv_ite (raiseDue_inv (monitor_inv h2)) (monitor_inv h2))
  exact next_ite (trace_inv _ _ (startAll_inv h3)) h3

end Sys2Proof.Machine
end

section
/-!
O5: each function of Sys2Proof/Machine/Secure.lean that changes the state keeps the invariant.
-/
namespace Sys2Proof.Machine
open Reg Laws

variable {s : State}

theorem sign_inv (hs : Inv s) : Inv (sign s).2.2 := fresh_inv (fresh_inv hs)

theorem attestAct_inv {h : Pkt} {nonce : Nat} {c : Cmd} (hs : Inv s) : Inv (attestAct h nonce c s) := replyTo_inv (sign_inv hs)

theorem execAttestReport_inv {h : Pkt} {nonce : BitVec 256} (hs : Inv s) : NextInv (execAttestReport h nonce s) :=
  withPkt_inv hs (fun _ _ ht => attestAct_inv ht)

theorem withMailbox_inv {fn : Nat} {act : State → State} (hs : Inv s) (ha : ∀ t, Inv t → Inv (act t)) : NextInv (withMailbox s fn
    act) :=
  inv_ite (ha _ hs) hs

theorem spdm_inv {fn : Nat} {r : SpdmReply} (hs : Inv s) : Inv (spdm s fn r) := emit_inv _ hs

theorem spdmErr_inv {fn : Nat} {r : SpdmReply} (hs : Inv s) : Inv (spdmErr s fn r) := spdm_inv (wr_fits_inv hs)

theorem execDoeDiscovery_inv {fn : Fin 16} {index : Fin 256} (hs : Inv s) : NextInv (execDoeDiscovery fn index s) :=
  withMailbox_inv hs (fun _ ht => spdm_inv ht)

theorem execGetVersion_inv {fn : Fin 16} (hs : Inv s) : NextInv (execGetVersion fn s) :=
  withMailbox_inv hs (fun _ ht => spdm_inv ht)

theorem execGetCapabilities_inv {fn : Fin 16} (hs : Inv s) : NextInv (execGetCapabilities fn s) :=
  withMailbox_inv hs (fun _ ht => spdm_inv ht)

theorem execNegotiateAlgorithms_inv {fn : Fin 16} {common : Bool} (hs : Inv s) : NextInv (execNegotiateAlgorithms fn common s) :=
  withMailbox_inv hs (fun _ ht => inv_ite (spdm_inv ht) (spdmErr_inv ht))

theorem execGetDigests_inv {fn : Fin 16} (hs : Inv s) : NextInv (execGetDigests fn s) :=
  withMailbox_inv hs (fun _ ht => spdm_inv ht)

theorem execGetCertificate_inv {fn slot : Fin 16} {off len : BitVec 16} (hs : Inv s) : NextInv (execGetCertificate fn slot off len
    s) :=
  withMailbox_inv hs (fun _ ht => inv_ite (spdm_inv ht) (spdmErr_inv ht))

theorem execChallenge_inv {fn slot : Fin 16} (hs : Inv s) : NextInv (execChallenge fn slot s) :=
  withMailbox_inv hs (fun _ ht => inv_ite (spdm_inv (sign_inv ht)) (spdmErr_inv ht))

theorem execGetMeasurements_inv {fn : Fin 16} {index : Fin 256} (hs : Inv s) : NextInv (execGetMeasurements fn index s) := by
  unfold execGetMeasurements
  refine withMailbox_inv hs (fun _ ht => inv_ite (spdm_inv (sign_inv ht)) (inv_ite (spdm_inv (sign_inv ht)) ?_))
  split
  exacts [spdm_inv (sign_inv ht), spdmErr_inv ht]

theorem execKeyExchange_inv {fn : Fin 16} (hs : Inv s) : NextInv (execKeyExchange fn s) :=
  withMailbox_inv hs (fun _ ht => inv_ite (spdmErr_inv ht) (spdm_inv (inv_same rfl ht)))

theorem inSession_inv {fn id : Nat} {act : State → State} (hs : Inv s) (ha : ∀ t, Inv t → Inv (act t)) : NextInv (inSession s fn id
    act) := by
  unfold inSession
  refine withMailbox_inv hs (fun _ ht => ?_)
  split
  exacts [inv_ite (ha _ ht) (spdmErr_inv ht), spdmErr_inv ht]

theorem execFinish_inv {fn : Fin 16} {session : Nat} {ok : Bool} (hs : Inv s) : NextInv (execFinish fn session ok s) := by
  unfold execFinish
  refine withMailbox_inv hs (fun _ ht => ?_)
  split
  · exact inv_ite (spdm_inv (inv_same rfl ht)) (spdmErr_inv ht)
  · exact spdmErr_inv ht

theorem execEndSession_inv {fn : Fin 16} {session : Nat} (hs : Inv s) : NextInv (execEndSession fn session s) :=
  inSession_inv hs (fun _ ht => spdm_inv (inv_same rfl ht))

theorem execKeyUpdate_inv {fn : Fin 16} {session : Nat} (hs : Inv s) : NextInv (execKeyUpdate fn session s) :=
  inSession_inv hs (fun _ ht => spdm_inv ht)

theorem slotReply_inv {fn op slot status : Nat} (hs : Inv s) : Inv (slotReply s fn op slot status) :=
  spdm_inv (inv_ite_snd hs (fresh_inv hs))

theorem loadKey_inv {fn slot dataKey tweakKey : Nat} (hs : Inv s) : Inv (loadKey s fn slot dataKey tweakKey) :=
  wr_fits_inv (tick_fits_inv (inv_same rfl hs))

theorem execKeySet_inv {fn : Fin 16} {session : Nat} {slot : Fin 256} {dataKey tweakKey : BitVec 256} {rsvdOk : Bool} (hs : Inv s) :
    NextInv (execKeySet fn session slot dataKey tweakKey rsvdOk s) := by
  unfold execKeySet
  refine inSession_inv hs (fun _ ht => inv_ite (slotReply_inv ht) ?_)
  split
  · exact slotReply_inv ht
  · exact inv_ite (slotReply_inv ht) (slotReply_inv (loadKey_inv ht))

theorem breachSlot_inv {slot : Nat} (hs : Inv s) : Inv (breachSlot s slot) :=
  foldl_inv (fun _ _ ht => inv_ite (breachBegin_inv ht) ht) _ hs

theorem execKeyErase_inv {fn : Fin 16} {session : Nat} {slot : Fin 256} {rsvdOk : Bool} (hs : Inv s) : NextInv (execKeyErase fn
    session slot rsvdOk s) :=
  inSession_inv hs (fun _ ht => inv_ite (slotReply_inv ht) (inv_ite (slotReply_inv ht) (slotReply_inv (breachSlot_inv
      (eraseSlot_inv ht)))))

theorem execKeyStatus_inv {fn : Fin 16} {session : Nat} {slot : Fin 256} {rsvdOk : Bool} (hs : Inv s) : NextInv (execKeyStatus fn
    session slot rsvdOk s) :=
  inSession_inv hs (fun _ ht => slotReply_inv ht)

end Sys2Proof.Machine
end

section
/-!
O5: each function of Sys2Proof/Machine/Reset.lean that changes the state keeps the invariant.
-/
namespace Sys2Proof.Machine
open Reg Laws

variable {s : State}

theorem setBoot_inv {f : Boot → Boot} (hs : Inv s) : Inv (setBoot s f) := inv_same rfl hs

theorem setStage_inv {v : Nat} (hs : Inv s) : Inv (setStage s v) := wr_fits_inv hs

theorem completeDie_inv {c : Nat} (hs : Inv s) : Inv (completeDie s c) := by
  unfold completeDie
  refine refreshChan_inv (setChan_inv ?_)
  dsimp only
  split
  · refine recordDone_inv ?_
    split
    exacts [recordDone_inv hs, countErase_inv hs, recordErased_inv hs, hs]
  · refine countErase_inv ?_
    split
    exacts [recordDone_inv hs, countErase_inv hs, recordErased_inv hs, hs]
  · refine recordErased_inv ?_
    split
    exacts [recordDone_inv hs, countErase_inv hs, recordErased_inv hs, hs]
  · split
    exacts [recordDone_inv hs, countErase_inv hs, recordErased_inv hs, hs]

theorem flashReset_inv (hs : Inv s) : Inv (flashReset s) := by
  unfold flashReset
  extract_lets +onlyGivenNames s1
  have h1 : Inv s1 := foldl_inv (fun _ _ ht => completeDie_inv ht) _ hs
  exact resetRegs_inv _ (inv_flash h1)

theorem resetKeys_inv (hs : Inv s) : Inv (resetKeys s) := inv_same rfl (fresh_inv hs)

theorem resetFabric_inv (hs : Inv s) : Inv (resetFabric s) := by
  unfold resetFabric
  extract_lets gone s1 s2
  have h2 : Inv s2 := inv_congr (s := { s with mem := tdrop gone s.mem }) rfl rfl rfl rfl (dropMem_inv _ hs)
  exact resetRegs_inv _ h2

theorem resetWork_inv (hs : Inv s) : Inv (resetWork s) := inv_congr (s := { s with cam := [] }) rfl rfl rfl rfl (inv_noCam hs)

theorem resetHost_inv {pcie : Bool} (hs : Inv s) : Inv (resetHost s pcie) := inv_same rfl hs

theorem resetDisplayWork_inv (hs : Inv s) : Inv (resetDisplayWork s) := setDsp_inv hs

theorem resetPower_inv (hs : Inv s) : Inv (resetPower s) :=
  refreshTherm_inv (goOp_inv (setBoot_inv (foldl_inv (fun _ _ ht => wr_fits_inv (wr_fits_inv ht)) _ (setPwr_inv hs))))

theorem tearBootFlash_inv (hs : Inv s) : Inv (tearBootFlash s) := setBoot_inv hs

theorem resetPlinth_inv (hs : Inv s) : Inv (resetPlinth s) := setBoot_inv (tearBootFlash_inv hs)

theorem noteCause_inv {code : Nat} (hs : Inv s) : Inv (noteCause s code) := wr_fits_inv (inv_ite hs (bump_fits_inv hs))

theorem chipReset_inv {code : Nat} (hs : Inv s) : Inv (chipReset s code) := by
  unfold chipReset
  refine inv_ite hs ?_
  extract_lets +onlyGivenNames spanUp s1 s2 s3 s4 se s5 s6 s7
  have h2 : Inv s2 := resetDisplayWork_inv (resetWork_inv (resetFabric_inv (flashReset_inv (raiseCause_inv hs))))
  have h4 : Inv s4 := resetRegs_inv _ (resetPlinth_inv (resetKeys_inv (resetHost_inv h2)))
  clear_value s4
  have h5 : Inv s5 := inv_same (s := s4) rfl h4
  have h6 : Inv s6 := noteCause_inv (resetPower_inv h5)
  exact setStage_inv (wr_fits_inv (inv_ite (wr_fits_inv h6) h6))

theorem execPartResetTimeout_inv {p : Fin 16} (hs : Inv s) : NextInv (execPartResetTimeout p s) := by
  unfold execPartResetTimeout
  split
  · refine next_ite (chipReset_inv ?_) hs
    split
    exacts [inv_same rfl hs, hs]
  · exact hs

theorem execPerstNAssert_inv (hs : Inv s) : NextInv (execPerstNAssert s) := chipReset_inv (setBoot_inv hs)

theorem execPerstNRelease_inv (hs : Inv s) : NextInv (execPerstNRelease s) :=
  next_ite (setStage_inv (setBoot_inv hs)) (setBoot_inv hs)

theorem domainReset_inv (hs : Inv s) : Inv (domainReset s) := by
  have h : Inv (tearBootFlash s) := tearBootFlash_inv hs
  exact ⟨rfl, h.2.1, (resetRegs_inv (fun a => !alwaysOn a) h).2.2.1, rfl⟩

theorem alwaysOnReset_inv (hs : Inv s) : Inv (alwaysOnReset s) := inv_same rfl (resetRegs_inv _ hs)

theorem execPowerOn_inv (hs : Inv s) : NextInv (execPowerOn s) :=
  setStage_inv (noteCause_inv (wr_fits_inv (alwaysOnReset_inv (domainReset_inv hs))))

theorem execRailFail_inv {rails : BitVec 11} (hs : Inv s) : NextInv (execRailFail rails s) := by
  unfold execRailFail
  extract_lets +onlyGivenNames r
  refine next_ite hs ?_
  refine setStage_inv (wr_fits_inv ?_)
  have h1 {t : State} (ht : Inv t) : Inv (if bit r 3 then alwaysOnReset (domainReset t) else t) :=
    inv_ite (alwaysOnReset_inv (domainReset_inv ht)) ht
  exact h1 (inv_ite (domainReset_inv (setBoot_inv (wr_fits_inv hs))) hs)

theorem startBoot_inv (hs : Inv s) : Inv (startBoot s) := setStage_inv (wr_fits_inv (setBoot_inv (resetKeys_inv hs)))

theorem execResetRelease_inv (hs : Inv s) : NextInv (execResetRelease s) :=
  next_ite hs (startBoot_inv (inv_ite (noteCause_inv (setBoot_inv (wr_fits_inv hs))) (wr_fits_inv hs)))

theorem startDown_inv {by' : DownBy} (hs : Inv s) : Inv (startDown s by') := by
  unfold startDown
  refine inv_ite hs ?_
  extract_lets +onlyGivenNames s1
  have h1 : Inv s1 := setStage_inv (setBoot_inv hs)
  exact foldl_inv (fun _ _ ht => inv_ite ht (gateCluster_inv ht)) _ (foldl_inv (fun _ _ ht => stopUnit_inv ht) _ (inv_ite
      (wr_fits_inv h1) h1))

theorem execPwrFailNAssert_inv (hs : Inv s) : NextInv (execPwrFailNAssert s) := startDown_inv hs

theorem execBmcPwrDown_inv (hs : Inv s) : NextInv (execBmcPwrDown s) := startDown_inv hs

theorem execRefclkLoss_inv (hs : Inv s) : NextInv (execRefclkLoss s) := startDown_inv (setBoot_inv hs)

theorem execPoweredDownReached_inv {torn : Bool} (hs : Inv s) : NextInv (execPoweredDownReached torn s) :=
  next_ite (setStage_inv (closeFlash_inv (writeLogHead_inv hs))) hs

theorem endDown_inv {by' : DownBy} (hs : Inv s) : Inv (endDown s by') :=
  inv_ite (startBoot_inv (noteCause_inv (domainReset_inv hs))) hs

theorem execPwrFailNRelease_inv (hs : Inv s) : NextInv (execPwrFailNRelease s) := endDown_inv hs

theorem execBmcRestart_inv (hs : Inv s) : NextInv (execBmcRestart s) := endDown_inv hs

theorem execRefclkReturn_inv (hs : Inv s) : NextInv (execRefclkReturn s) := endDown_inv (setBoot_inv hs)

theorem execEntdaa_inv {addr : BitVec 7} (hs : Inv s) : NextInv (execEntdaa addr s) := next_ite (setBoot_inv hs) hs

end Sys2Proof.Machine
end

section
/-!
O5: each function of Sys2Proof/Machine/Boot.lean that changes the state keeps the invariant.
-/
namespace Sys2Proof.Machine
open Reg Laws

variable {s : State}

theorem refreshCtl_inv (hs : Inv s) : Inv (refreshCtl s) := wr_fits_inv (wr_fits_inv (wr_fits_inv hs))

theorem putCtl_inv {k : Nat} {c : Option BootCtl} (hs : Inv s) : Inv (putCtl s k c) := setBoot_inv hs

theorem writeCtl_inv {c : BootCtl} (hs : Inv s) : Inv (writeCtl s c) := refreshCtl_inv (wr_fits_inv (setBoot_inv (putCtl_inv hs)))

theorem putSlot_inv {k : Nat} {i : Option FwImage} (hs : Inv s) : Inv (putSlot s k i) := setBoot_inv hs

theorem dropSram_inv (hs : Inv s) : Inv (dropSram s) := dropMem_inv _ hs

theorem startImage_inv {k : Nat} {i : FwImage} (hs : Inv s) : Inv (startImage s k i) := wr_fits_inv (setBoot_inv (dropSram_inv hs))

theorem holdBoot_inv {reason : Nat} (hs : Inv s) : Inv (holdBoot s reason) := setBoot_inv (setStage_inv (wr_fits_inv hs))

theorem bootActive_inv {go : State → State} (hs : Inv s) (hg : ∀ t, Inv t → Inv (go t)) : Inv (bootActive s go) := by
  unfold bootActive
  dsimp only
  split
  · exact hg _ (startImage_inv hs)
  · split
    · exact hg _ (startImage_inv (writeCtl_inv hs))
    · exact holdBoot_inv hs

theorem plinthReset_inv {pln : Plinth} (hs : Inv s) : Inv (plinthReset s pln) := by
  unfold plinthReset
  extract_lets +onlyGivenNames s1 s2 s3 work s4
  have h2 : Inv s2 := foldl_inv (fun _ _ ht => setStale_inv ht) _ (dropSram_inv (wr_fits_inv (wr_fits_inv hs)))
  have h3 : Inv s3 := flashReset_inv (setPwr_inv h2)
  exact setStage_inv (setBoot_inv (wr_fits_inv (inv_flt h3)))

theorem flashRestart_inv (hs : Inv s) : Inv (flashRestart s) := by
  unfold flashRestart
  refine readyFlash_inv (refreshThr_inv ?_)
  split
  · exact wr_fits_inv (wr_fits_inv (wr_fits_inv (wr_fits_inv hs)))
  · exact hs

theorem showSlot_inv (hs : Inv s) : Inv (showSlot s) := foldl_inv (fun _ _ ht => wr_fits_inv ht) _ hs

theorem resetAtOnce_inv {p : Nat} (hs : Inv s) : Inv (resetAtOnce s p) := by
  unfold resetAtOnce
  split
  · exact hs
  · exact inv_ite (finishDestroy_inv hs) (startReset_inv (endCommands_inv (inv_ite (raiseFence_inv hs) hs)))

theorem endUpdate_inv (hs : Inv s) : Inv (endUpdate s) := setBoot_inv (finishOpt_inv _ _ _ (finishOpt_inv _ _ _ hs))

theorem inService_inv (hs : Inv s) : Inv (inService s) :=
  wakePair_inv (wakePair_inv (setStage_inv (setBoot_inv (showSlot_inv (flashRestart_inv hs)))))

theorem putHandoff_inv {h : Handoff} (hs : Inv s) : Inv (putHandoff s h) := by
  unfold putHandoff
  exact setBoot_inv (foldl_inv (fun _ _ ht => devWb_inv _ _ ht) _ (fresh_inv (fresh_inv (fresh_inv hs))))

theorem flagHandoff_inv {f : Handoff → Handoff} (hs : Inv s) : Inv (flagHandoff s f) := by
  unfold flagHandoff
  split
  exacts [hs, devWb_inv _ _ (setBoot_inv hs)]

theorem stageAct_inv {len slot : Nat} {i : FwImage} {c : Cmd} (hs : Inv s) : Inv (stageAct len slot i c s) := by
  unfold stageAct
  extract_lets k
  split
  · exact complete_inv _ _ _ hs
  · exact wr_fits_inv (wr_fits_inv (setBoot_inv (putSlot_inv hs)))

theorem execFwStage_inv {h : Pkt} {len : BitVec 32} {slot : Fin 256} {image : FwImage} (hs : Inv s) : NextInv (execFwStage h len
    slot image s) :=
  withPkt_inv hs (fun _ _ ht => stageAct_inv ht)

theorem execBootFlashOpDone_inv {ok same : Bool} (hs : Inv s) : NextInv (execBootFlashOpDone ok same s) := by
  unfold execBootFlashOpDone
  split
  · exact next_ite (wr_fits_inv (setBoot_inv hs)) (refreshCtl_inv (putCtl_inv (wr_fits_inv (wr_fits_inv (setBoot_inv hs)))))
  · split
    · exact hs
    · exact next_ite (finish_inv _ _ _ (wr_fits_inv (wr_fits_inv (setBoot_inv hs)))) (next_ite (finish_inv _ _ _ (wr_fits_inv
        (setBoot_inv hs))) (finish_inv _ _ _ (wr_fits_inv (wr_fits_inv (setBoot_inv (putSlot_inv (wr_fits_inv (setBoot_inv
        hs))))))))

theorem activateAct_inv {c : Cmd} (hs : Inv s) : Inv (activateAct c s) := inv_ite (complete_inv _ _ _ hs) (setBoot_inv hs)

theorem execFwActivate_inv {h : Pkt} (hs : Inv s) : NextInv (execFwActivate h s) :=
  withPkt_inv hs (fun _ _ ht => activateAct_inv ht)

theorem execActivationRestart_inv (hs : Inv s) : NextInv (execActivationRestart s) := by
  unfold execActivationRestart
  split
  · exact next_ite (plinthReset_inv (writeCtl_inv (putHandoff_inv hs))) hs
  · exact hs

theorem revert_inv (hs : Inv s) : Inv (revert s) := by
  unfold revert
  exact bootActive_inv (plinthReset_inv (flagHandoff_inv (wr_fits_inv (writeCtl_inv hs)))) fun _ ht => ht

theorem trialConfirm_inv (hs : Inv s) : Inv (trialConfirm s) := by
  unfold trialConfirm
  split
  · exact inv_ite hs (event_inv _ _ _ _ (finishOpt_inv _ _ _ (setBoot_inv (wr_fits_inv (inService_inv (flagHandoff_inv (inv_ite
      (wr_fits_inv (wr_fits_inv (writeCtl_inv hs))) (wr_fits_inv (writeCtl_inv hs)))))))))
  · exact hs

theorem execTrialConfirm_inv {accepted : Bool} (hs : Inv s) : NextInv (execTrialConfirm accepted s) :=
  next_ite (trialConfirm_inv hs) hs

theorem confirm_inv (hs : Inv s) : Inv (confirm s) := by
  have h1 : Inv (wr s FLT_WDOG_CTRL_CONFIRMED 1) := wr_fits_inv hs
  have h2 : Inv (endUpdate (inService (wr s FLT_WDOG_CTRL_CONFIRMED 1))) := endUpdate_inv (inService_inv h1)
  unfold confirm
  split
  · exact foldl_inv (fun _ _ ht => resetAtOnce_inv ht) _ (inv_flt h2)
  · exact event_inv _ _ _ _ h2
  · exact trialConfirm_inv hs
  · exact h1
  · exact h1
  · exact h1

theorem execWdogConfirm_inv (hs : Inv s) : NextInv (execWdogConfirm s) := confirm_inv hs

theorem execTrialTimeout_inv (hs : Inv s) : NextInv (execTrialTimeout s) := next_ite (revert_inv hs) hs

theorem execPlinthWdogExpiry_inv (hs : Inv s) : NextInv (execPlinthWdogExpiry s) := by
  unfold execPlinthWdogExpiry
  refine next_ite hs ?_
  split
  exacts [hs, plinthReset_inv hs, chipReset_inv hs, chipReset_inv hs, revert_inv hs, revert_inv hs]

theorem execConfirmTimeout_inv (hs : Inv s) : NextInv (execConfirmTimeout s) := by
  unfold execConfirmTimeout
  split
  exacts [chipReset_inv hs, chipReset_inv hs, hs]

theorem execLockstepMismatch_inv {b : Bool} (hs : Inv s) : NextInv (execLockstepMismatch b s) := by
  unfold execLockstepMismatch
  refine next_ite hs ?_
  have h1 {x : PairState} {n : Nat} : Inv (wr (setPair s b x) (if b then FLT_LOCKSTEP_MISM_B else FLT_LOCKSTEP_MISM_A) n) :=
    wr_fits_inv (setPair_inv hs) (ite_fits rfl rfl)
  have h2 {t : State} {n : Nat} (ht : Inv t) : Inv (setPairState (report (wr t FLT_EVT_STAT_MISMATCH 1) (if b then 45 else 44) clsDevice 0 0xFF 0xFF 0) b n) :=
    setPairState_inv (report_inv _ _ _ _ _ _ (wr_fits_inv ht))
  exact next_ite (chipReset_inv (h2 h1)) (h2 h1)

theorem execPairRestartDone_inv {b passed : Bool} (hs : Inv s) : NextInv (execPairRestartDone b passed s) :=
  next_ite (next_ite (setPairState_inv hs) (next_ite (setPairState_inv hs) (chipReset_inv (setPairState_inv hs)))) hs

theorem setupFlash_inv (hs : Inv s) : Inv (setupFlash s) := by
  unfold setupFlash
  extract_lets +onlyGivenNames s1
  have h1 : Inv s1 := inv_ite (wr_fits_inv hs) (wr_fits_inv (wr_fits_inv hs))
  exact refreshCtl_inv (wr_fits_inv (inv_ite (wr_fits_inv h1) h1))

theorem romChoice_inv (hs : Inv s) : Inv (romChoice s) :=
  bootActive_inv (inv_ite (setBoot_inv (wr_fits_inv (writeCtl_inv hs))) hs) (fun _ ht => setStage_inv ht)

theorem execBootRom_inv {board : Option BootFlash} {selftest : Bool} (hs : Inv s) : NextInv (execBootRom board selftest s) := by
  unfold execBootRom
  refine next_ite hs ?_
  split
  · extract_lets +onlyGivenNames s1
    have h1 : Inv s1 := by
      dsimp only [s1]
      split
      exacts [setBoot_inv hs, hs]
    exact next_ite (romChoice_inv (setupFlash_inv (wr_fits_inv (wr_fits_inv h1)))) (holdBoot_inv h1)
  · refine next_ite ?_ (holdBoot_inv hs)
    dsimp only
    split
    · exact setStage_inv (setBoot_inv (startImage_inv hs))
    · exact revert_inv hs
  · exact hs

theorem bootDram_inv {b : BoardRec} {trained : Nat} (hs : Inv s) : Inv (bootDram s b trained) :=
  inv_ite hs (trainDone_inv (memCfgWrite_inv hs))

theorem plinthGranules_inv (hs : Inv s) : Inv (plinthGranules s) := foldl_inv (fun _ _ ht => setGran_inv ht) _ hs

theorem loadTrims_inv (hs : Inv s) : Inv (loadTrims s) := by
  unfold loadTrims
  split
  · exact hs
  · extract_lets s1 s2
    have h2 : Inv s2 := wr_fits_inv (foldl_inv (fun _ k ht => wr_fits_inv ht (trimField_fits k)) _ hs)
    exact inv_ite h2 (setPwr_inv h2)

theorem bootClusters_inv {failed : List Nat} (hs : Inv s) : Inv (bootClusters s failed) :=
  foldl_inv (fun _ _ ht => retireCluster_inv ht) _ (foldl_inv (fun _ _ ht => inv_ite (wr_fits_inv (wr_fits_inv ht)) ht) _ hs)

theorem mapNext_inv {acc : List Nat × List Nat × State} {l : Nat} (h : Inv acc.2.2) : Inv (mapNext acc l).2.2 := by
  have hput (n : Nat) : Inv (wr (wr acc.2.2 (CLU_MAP_MAPPED n) 1) (CLU_MAP_LOGICAL n) l) := wr_fits_inv (wr_fits_inv h)
  unfold mapNext
  dsimp only
  split
  · split
    all_goals exact hput _
  · split
    all_goals exact hput _
  · exact h

theorem mapClusters_inv (hs : Inv s) : Inv (mapClusters s) :=
  foldl_snd_snd_inv (fun _ _ ht => mapNext_inv ht) _ hs

theorem readyCluster_inv {l : Nat} (hs : Inv s) : Inv (readyCluster s l) := by
  unfold readyCluster
  split
  · exact setClu_inv _ _ (wr_fits_inv (wr_fits_inv (wr_fits_inv hs)))
  · exact hs

theorem createP0_inv {b : BoardRec} (hs : Inv s) : Inv (createP0 s b) :=
  foldl_inv (fun _ _ ht => zeroGranule_inv _ (setGran_inv ht)) _ (foldl_inv (fun _ _ ht => readyCluster_inv ht) _ (inv_same rfl
      hs))

theorem takeLogHead_inv (hs : Inv s) : Inv (takeLogHead s) := inv_same rfl hs

theorem bootLimits_inv {b : BoardRec} (hs : Inv s) : Inv (bootLimits s b) :=
  inv_ite hs (setBoot_inv (setPwr_inv (wr_fits_inv (wr_fits_inv hs))))

theorem causeAlarm_inv (hs : Inv s) : Inv (causeAlarm s) := inv_ite hs (logAlarm_inv _ _ _ _ (fresh_inv hs))

theorem bootService_inv {b : BoardRec} (hs : Inv s) : Inv (bootService s b) := by
  unfold bootService
  extract_lets +onlyGivenNames s1 s2 f s3 s4
  have h2 : Inv s2 := wr_fits_inv (wr_fits_inv (wr_fits_inv (createP0_inv hs)))
  have h4 : Inv s4 := setReady_inv (setStage_inv (setBoot_inv (showSlot_inv (inv_flt h2))))
  exact inv_ite (setBoot_inv (event_inv _ _ _ _ h4)) h4

theorem execFirmwareInit_inv {trained : BitVec 16} {failed : List (Fin 34)} {replayOk : Bool} (hs : Inv s) : NextInv
    (execFirmwareInit trained failed replayOk s) := by
  unfold execFirmwareInit
  split
  · exact hs
  · exact next_ite hs (next_ite (holdBoot_inv hs) (next_ite (holdBoot_inv (bootDram_inv hs)) (next_ite (holdBoot_inv (bootDram_inv
      hs)) (bootService_inv (bootLimits_inv (mapClusters_inv (bootClusters_inv (loadTrims_inv (causeAlarm_inv (takeLogHead_inv
      (flashRestart_inv (plinthGranules_inv (bootDram_inv hs)))))))))))))

end Sys2Proof.Machine
end

section
/-!
O5: each function of Sys2Proof/Machine/Access.lean that changes the state keeps the invariant.
-/
namespace Sys2Proof.Machine
open Reg Laws

variable {s : State}

theorem haltPair_inv {b : Bool} (hs : Inv s) : Inv (haltPair s b) :=
  inv_ite hs (setPairState_inv (wr_fits_inv (setPair_inv (settleTimers_inv hs)) (ite_fits rfl rfl)))

theorem resumePair_inv {b : Bool} (hs : Inv s) : Inv (resumePair s b) :=
  inv_ite (settleSession_inv (setPairState_inv (wr_fits_inv (settleTimers_inv hs) (ite_fits rfl rfl)))) hs

theorem touchPart_inv {p : Nat} (hs : Inv s) : Inv (touchPart s p) := inv_ite (wr_fits_inv hs) hs

theorem haltThread_inv {k : Nat} (hs : Inv s) : Inv (haltThread s k) :=
  inv_ite (touchPart_inv (inv_same rfl (wr_fits_inv (setThr_inv _ _ hs) (thrField_fits _)))) hs

theorem resumeThread_inv {k : Nat} (hs : Inv s) : Inv (resumeThread s k) :=
  inv_ite (wr_fits_inv (setThr_inv _ _ hs) (thrField_fits _)) hs

theorem thrHalt_inv {cl c mask : Nat} {resume : Bool} (hs : Inv s) : Inv (thrHalt s cl c mask resume) := by
  unfold thrHalt
  extract_lets +onlyGivenNames s1
  have h1 : Inv s1 := wr_fits_inv (wr_fits_inv (wr_fits_inv (wr_fits_inv hs)))
  exact inv_ite h1 (inv_ite (settleSession_inv (foldl_inv (fun _ _ ht => resumeThread_inv ht) _ h1)) (foldl_inv (fun _ _
      ht => haltThread_inv ht) _ h1))

theorem semRead_inv {n who : Nat} (hs : Inv s) : Inv (semRead s n who).1 :=
  inv_ite_fst hs (wr_fits_inv (wr_fits_inv (inv_same rfl hs)))

theorem semFree_inv {n who : Nat} (hs : Inv s) : Inv (semFree s n who) := inv_ite (freeSem_inv hs) hs

theorem fieldWrite_inv {v : Nat} {f : RegField} (hf : f.fits = true) (hs : Inv s) : Inv (fieldWrite v s f) := by
  unfold fieldWrite
  split
  exacts [wr_fits_inv hs hf, wr_fits_inv hs hf, wr_fits_inv hs hf, hs, hs, hs]

theorem plainWrite_inv {addr v : Nat} (hs : Inv s) : Inv (plainWrite s addr v) :=
  List.foldlRecOn (fieldsAt addr) _ hs fun _ ht _ hf => fieldWrite_inv (fields_fits hf) ht

theorem cluCtrlWrite_inv {n v : Nat} (hs : Inv s) : Inv (cluCtrlWrite s n v) := by
  unfold cluCtrlWrite
  extract_lets +onlyGivenNames _ s1 s2
  have h1 : Inv s1 := inv_ite (cluInit_inv (inv_ite hs (cluPower_inv hs))) (inv_ite hs (cluPower_inv hs))
  have h2 : Inv s2 := inv_ite (cluQuiesce_inv h1) h1
  exact inv_ite (retireCluster_inv h2) h2

theorem cluWrite_inv {n o v : Nat} (hs : Inv s) : Inv (cluWrite s n o v) :=
  inv_ite (cluMapWrite_inv hs) (inv_ite (cluCtrlWrite_inv hs) (plainWrite_inv hs))

theorem dspCtrlWrite_inv {v : Nat} (hs : Inv s) : Inv (dspCtrlWrite s v) :=
  refreshSource_inv (checkArmature_inv (dspEnable_inv (applyMode_inv (wr_fits_inv (inv_ite (wr_fits_inv hs) hs)))))

theorem wflCtrlWrite_inv {v : Nat} (hs : Inv s) : Inv (wflCtrlWrite s v) := by
  unfold wflCtrlWrite
  extract_lets +onlyGivenNames _ s1
  have h1 : Inv s1 := inv_ite (enableFlash_inv (wr_fits_inv hs)) (wr_fits_inv (wr_fits_inv hs))
  exact inv_ite (stopFlash_inv h1) h1

theorem evcWrite_inv {addr v : Nat} (hs : Inv s) : Inv (evcWrite s addr v) :=
  inv_ite (inv_ite (resetRegs_inv _ hs) (wr_fits_inv hs (evCnt_fits _))) (inv_ite (inv_ite (wr_fits_inv hs) (senseAt_inv
      (senseAt_inv hs))) (inv_ite (routeWrite_inv hs) (deliverNew_inv _ _ (foldl_inv (fun _ _ ht => inv_ite (setPend_inv _ ht) ht)
      _ (plainWrite_inv hs)))))

theorem pwrWrite_inv {addr v : Nat} (hs : Inv s) : Inv (pwrWrite s addr v) :=
  inv_ite (inv_ite hs (inv_ite (wr_fits_inv (wr_fits_inv hs)) (wr_fits_inv hs))) (inv_ite (wr_fits_inv (plainWrite_inv hs))
      (plainWrite_inv hs))

theorem fltWrite_inv {addr v : Nat} (hs : Inv s) : Inv (fltWrite s addr v) := by
  unfold fltWrite
  refine inv_ite (inv_ite (wr_fits_inv hs) (wr_fits_inv (wr_fits_inv hs))) (inv_ite ?_ (inv_ite ?_ (plainWrite_inv hs)))
  · extract_lets +onlyGivenNames _ s1
    have h1 : Inv s1 := inv_ite (wdogKick_inv (inv_ite (wdogKick_inv hs) hs)) (inv_ite (wdogKick_inv hs) hs)
    exact inv_ite (confirm_inv h1) h1
  · extract_lets +onlyGivenNames _ s2
    have h2 : Inv s2 := inv_ite (dwdogKick_inv (wr_fits_inv hs)) (wr_fits_inv hs)
    exact inv_ite (dwdogClr_inv h2) h2

theorem dbgCtlWrite_inv {v : Nat} (hs : Inv s) : Inv (dbgCtlWrite s v) := by
  unfold dbgCtlWrite
  extract_lets +onlyGivenNames s1 s2 s3 s4
  have h1 : Inv s1 := wr_fits_inv (settleTimers_inv hs)
  have h2 : Inv s2 := inv_ite (haltPair_inv h1) h1
  have h3 : Inv s3 := inv_ite (haltPair_inv h2) h2
  have h4 : Inv s4 := inv_ite (resumePair_inv h3) h3
  exact inv_ite (resumePair_inv h4) h4

theorem plnWrite_inv {addr v who : Nat} (hs : Inv s) : Inv (plnWrite s addr v who) :=
  inv_ite (dbgCtlWrite_inv hs) (inv_ite (inv_ite (thrHalt_inv hs) (plainWrite_inv hs)) (inv_ite (inv_ite (semFree_inv hs) hs)
      (plainWrite_inv hs)))

theorem secWrite_inv {addr v : Nat} (hs : Inv s) : Inv (secWrite s addr v) :=
  inv_ite (inv_ite (settleSession_inv (wr_fits_inv hs)) hs) (plainWrite_inv hs)

theorem ioWrite_inv {addr v : Nat} (hs : Inv s) : Inv (ioWrite s addr v) :=
  inv_ite (dspCtrlWrite_inv hs) (inv_ite (memCfgWrite_inv hs) (inv_ite (gtabWrite_inv hs) (inv_ite (wflCtrlWrite_inv hs) (inv_ite
      (refreshThr_inv (plainWrite_inv hs)) (inv_ite (applySpan_inv hs) (plainWrite_inv hs))))))

theorem bmcWrite_inv {addr v : Nat} (hs : Inv s) : Inv (bmcWrite s addr v) := by
  unfold bmcWrite
  refine inv_ite (wr_fits_inv hs) (inv_ite ?_ hs)
  extract_lets +onlyGivenNames s1
  have h1 : Inv s1 := inv_ite (startDown_inv hs) hs
  exact inv_ite (endDown_inv h1) h1

theorem regWrite_inv {addr v who : Nat} (hs : Inv s) : Inv (regWrite s addr v who) :=
  inv_ite (cluWrite_inv hs) (inv_ite (inv_ite (bar0Write_inv hs) hs) (inv_ite (evcWrite_inv hs) (inv_ite (pwrWrite_inv hs)
      (inv_ite (fltWrite_inv hs) (inv_ite (plnWrite_inv hs) (inv_ite (secWrite_inv hs) (ioWrite_inv hs)))))))

theorem regRead_inv {addr who : Nat} (hs : Inv s) : Inv (regRead s addr who).1 := by
  refine inv_ite_fst (semRead_inv hs) (List.foldlRecOn (fieldsAt addr) _ hs fun _ ht f hf => ?_)
  exact inv_ite (wr_fits_inv ht (fields_fits hf)) ht

theorem debugWb_inv {r : Region} {a : Nat} {v : Byte} (hs : Inv s) : Inv (debugWb s r a v) := by
  unfold debugWb
  split
  exacts [wb_inv _ _ hs, t2Wb_inv _ _ _ hs, wb_inv _ _ hs, hs, hs, hs, hs, hs]

theorem openSession_inv (hs : Inv s) : Inv (openSession s) :=
  inv_ite hs (wr_fits_inv (bump_fits_inv (wr_fits_inv (wr_fits_inv hs))))

theorem debugMarks_inv {r : Region} {a n : Nat} {read : Bool} (hs : Inv s) : Inv (debugMarks s r a n read) := by
  unfold debugMarks
  split
  · exact wr_fits_inv (touchPart_inv hs)
  · exact inv_ite (wr_fits_inv (touchPart_inv hs)) (touchPart_inv hs)
  · exact inv_ite (wr_fits_inv (touchPart_inv hs)) (touchPart_inv hs)
  · exact touchPart_inv hs
  · exact touchPart_inv hs
  · exact touchPart_inv hs
  · exact touchPart_inv hs
  · exact touchPart_inv hs

theorem debugErr_inv {a : Nat} {ecc : Ecc} (hs : Inv s) : Inv (debugErr s a ecc) := by
  unfold debugErr
  split
  exacts [addEcc_inv hs, hs, hs, hs, hs, hs, hs, hs]

theorem debugRead_inv {a : Nat} {wide peek : Bool} (hs : Inv s) : Inv (debugRead s a wide peek).1 := by
  refine inv_ite_fst (foldl_fst_inv (fun p e ht => ?_) _ hs) (inv_ite_fst (fresh_inv (debugMarks_inv hs)) (debugMarks_inv hs))
  exact inv_ite_fst (a := (p.1, _)) ht (regRead_inv ht)

theorem debugWrite_inv {a : Nat} {wide : Bool} {v : Nat} (hs : Inv s) : Inv (debugWrite s a wide v) := by
  unfold debugWrite
  refine inv_ite (foldl_inv (fun _ _ ht => regWrite_inv ht) _ hs) ?_
  extract_lets +onlyGivenNames n s1
  have h1 : Inv s1 := foldl_inv (fun _ _ ht => debugWb_inv ht) _ (debugMarks_inv hs)
  split
  · exact wroteRange_inv h1
  · exact inv_ite (clearPoison_inv _ h1) h1
  · exact h1
  · exact h1
  · exact h1
  · exact h1
  · exact h1
  · exact h1

end Sys2Proof.Machine
end

section
/-!
O5: each function of Sys2Proof/Machine/Debug.lean that changes the state keeps the invariant.
-/
namespace Sys2Proof.Machine
open Reg Laws

variable {s : State}

theorem execRegisterWrite_inv {addr : BitVec 40} {value : BitVec 32} {debug : Bool} (hs : Inv s) : NextInv (execRegisterWrite addr
    value debug s) :=
  next_ite (next_ite hs (next_ite (debugWrite_inv (openSession_inv hs)) (emit_inv _ hs))) (next_ite (bmcWrite_inv hs) (next_ite
      (regWrite_inv hs) hs))

theorem apertureRead_inv {off : Nat} {wide peek : Bool} {ecc : Ecc} (hs : Inv s) : NextInv (apertureRead off wide peek ecc s) :=
  next_ite hs (next_ite (emit_inv _ (emit_inv _ hs)) (next_ite (emit_inv _ (openSession_inv hs)) (emit_inv _ (debugRead_inv
      (debugErr_inv (openSession_inv hs))))))

theorem execDebugNormalRead_inv {off : BitVec 23} {wide : Bool} {ecc : Ecc} (hs : Inv s) : NextInv (execDebugNormalRead off wide
    ecc s) :=
  apertureRead_inv hs

theorem execPeekRead_inv {off : BitVec 23} {wide : Bool} {ecc : Ecc} (hs : Inv s) : NextInv (execPeekRead off wide ecc s) :=
  apertureRead_inv hs

theorem execPeekWrite_inv {off : BitVec 23} {wide : Bool} {_value : BitVec 64} (hs : Inv s) : NextInv (execPeekWrite off wide
    _value s) :=
  next_ite hs (next_ite (wr_fits_inv (openSession_inv hs)) (emit_inv _ hs))

theorem execDebugSessionEnd_inv (hs : Inv s) : NextInv (execDebugSessionEnd s) := next_ite (secWrite_inv (openSession_inv hs)) hs

theorem execDebugSessionIdleTimeout_inv (hs : Inv s) : NextInv (execDebugSessionIdleTimeout s) :=
  next_ite (closeSession_inv hs) hs

theorem execPairHalt_inv {b : Bool} (hs : Inv s) : NextInv (execPairHalt b s) := next_ite (haltPair_inv hs) hs

theorem execPairResume_inv {b : Bool} (hs : Inv s) : NextInv (execPairResume b s) := next_ite (resumePair_inv hs) hs

theorem execThreadHalt_inv {cl c : Fin 64} {threads : BitVec 8} (hs : Inv s) : NextInv (execThreadHalt cl c threads s) :=
  next_ite (thrHalt_inv hs) hs

theorem execThreadResume_inv {cl c : Fin 64} {threads : BitVec 8} (hs : Inv s) : NextInv (execThreadResume cl c threads s) :=
  next_ite (thrHalt_inv hs) hs

theorem execSemAcquire_inv {n : Fin 32} {who : Fin 3} (hs : Inv s) : NextInv (execSemAcquire n who s) :=
  emit_inv _ (semRead_inv hs)

theorem execSemRelease_inv {n : Fin 32} {who : Fin 3} (hs : Inv s) : NextInv (execSemRelease n who s) := semFree_inv hs

theorem execSemHoldTimeout_inv {n : Fin 32} (hs : Inv s) : NextInv (execSemHoldTimeout n s) :=
  next_ite (wr_fits_inv (report_inv _ _ _ _ _ _ hs)) hs

theorem selectJtag_inv {i : Nat} (hs : Inv s) : Inv (selectJtag s i) := inv_same rfl hs

theorem jtagOut_inv {v : Nat} (hs : Inv s) : Inv (jtagOut s v) := emit_inv _ (fresh_inv hs)

theorem jtagAccess_inv {addr : BitVec 40} {wide : Bool} {write : Option (BitVec 64)} {peek : Bool} {ecc : Ecc} (hs : Inv s) :
    NextInv (jtagAccess addr wide write peek ecc s) := by
  unfold jtagAccess
  refine next_ite hs ?_
  extract_lets +onlyGivenNames s1
  have h1 : Inv s1 := openSession_inv (selectJtag_inv hs)
  refine next_ite ?_ ?_
  · split
    exacts [h1, jtagOut_inv h1]
  · split
    · exact next_ite (wr_fits_inv (inv_same rfl h1)) (debugWrite_inv (debugErr_inv (inv_same rfl h1)))
    · exact jtagOut_inv (inv_same rfl (debugRead_inv (debugErr_inv h1)))

theorem execDbgAccess_inv {addr : BitVec 40} {wide : Bool} {write : Option (BitVec 64)} {ecc : Ecc} (hs : Inv s) : NextInv
    (execDbgAccess addr wide write ecc s) :=
  jtagAccess_inv hs

theorem execDbgPeek_inv {addr : BitVec 40} {wide : Bool} {write : Option (BitVec 64)} {ecc : Ecc} (hs : Inv s) : NextInv
    (execDbgPeek addr wide write ecc s) :=
  jtagAccess_inv hs

theorem execBypass_inv (hs : Inv s) : NextInv (execBypass s) := selectJtag_inv hs

theorem execIdcode_inv (hs : Inv s) : NextInv (execIdcode s) := emit_inv _ (selectJtag_inv hs)

theorem execSamplePreload_inv {preload : Option (List Bool)} (hs : Inv s) : NextInv (execSamplePreload preload s) := by
  unfold execSamplePreload
  split
  · exact inv_same rfl (selectJtag_inv hs)
  · exact inv_same rfl (fresh_inv (selectJtag_inv hs))

theorem takePins_inv {i : Nat} (hs : Inv s) : Inv (takePins s i) := by
  refine wr_fits_inv ⟨canonTable_wf _ _, (selectJtag_inv (i := i) hs).2.1, ?_, ?_⟩
  · obtain ⟨hsorted, hfit⟩ := regTable_wf ((freeStates (selectJtag s i).free).headD (selectJtag s i)).regs
    simp only [regsWf, Bool.and_eq_true, List.all_eq_true, decide_eq_true_eq]
    exact ⟨hsorted, hfit⟩
  · simp only [contextsWf, List.all_eq_true, decide_eq_true_eq]
    intro e he
    have := (List.mem_filter.1 he).2
    simpa using this

theorem execExtest_inv (hs : Inv s) : NextInv (execExtest s) := takePins_inv hs

theorem execClamp_inv (hs : Inv s) : NextInv (execClamp s) := takePins_inv hs

theorem execHighz_inv (hs : Inv s) : NextInv (execHighz s) := takePins_inv hs

theorem execTrstN_inv (hs : Inv s) : NextInv (execTrstN s) := selectJtag_inv hs

end Sys2Proof.Machine
end

section
/-!
O5: each function of Sys2Proof/Machine/Step.lean that changes the state keeps the invariant.
-/
namespace Sys2Proof.Machine
open Reg Laws

variable {s : State}

theorem idle_inv (hs : Inv s) : Inv (idle s) := completeFrames_inv (inv_same rfl hs)

end Sys2Proof.Machine
end

section
/-!
O5: each command, and each step, keeps the invariant.
-/
namespace Sys2Proof.Machine
open Reg Laws

variable {s : State}

theorem exec_inv (i : Instr) (hs : Inv s) : NextInv (exec i s) := by
  unfold exec
  cases i with
  | matmul => exact execMatmul_inv hs
  | conv => exact execConv_inv hs
  | stream => exact execStream_inv hs
  | moveOp => exact execMoveOp_inv hs
  | vectorOp => exact execVectorOp_inv hs
  | scalarOp => exact execScalarOp_inv hs
  | threadLoad => exact execThreadLoad_inv hs
  | threadStore => exact execThreadStore_inv hs
  | wait => exact execWait_inv hs
  | coreBarrier => exact execCoreBarrier_inv hs
  | clusterBarrier => exact execClusterBarrier_inv hs
  | threadEnd => exact execThreadEnd_inv hs
  | setq => exact execSetq_inv hs
  | arrCredit => exact execArrCredit_inv hs
  | cntRd => exact execCntRd_inv hs
  | eng => exact execEng_inv hs
  | statAcq => exact execStatAcq_inv hs
  | statFeed => exact execStatFeed_inv hs
  | statCommit => exact execStatCommit_inv hs
  | statRead => exact execStatRead_inv hs
  | statFree => exact execStatFree_inv hs
  | arrayInstructionComplete => exact execArrayInstructionComplete_inv hs
  | streamEnd => exact execStreamEnd_inv hs
  | arrayStall => exact execArrayStall_inv hs
  | freezeEnd => exact execFreezeEnd_inv hs
  | gapLimitReached => exact execGapLimitReached_inv hs
  | vectorComplete => exact execVectorComplete_inv hs
  | engineOpStart => exact execEngineOpStart_inv hs
  | engineOpComplete => exact execEngineOpComplete_inv hs
  | dmaSegmentDone => exact execDmaSegmentDone_inv hs
  | moveComplete => exact execMoveComplete_inv hs
  | moveTimeout => exact execMoveTimeout_inv hs
  | scrubRead => exact execScrubRead_inv hs
  | forcedScrubSlot => exact execForcedScrubSlot_inv hs
  | scrubWriteBack => exact execScrubWriteBack_inv hs
  | clusterInitDone => exact execClusterInitDone_inv hs
  | quiesceTimeout => exact execQuiesceTimeout_inv hs
  | cluMapWrite => exact execCluMapWrite_inv hs
  | cluCtrlPower => exact execCluCtrlPower_inv hs
  | cluCtrlInit => exact execCluCtrlInit_inv hs
  | cluCtrlQuiesce => exact execCluCtrlQuiesce_inv hs
  | cluCtrlRetire => exact execCluCtrlRetire_inv hs
  | cluEccCntRead => exact execCluEccCntRead_inv hs
  | cluDmaStatRead => exact execCluDmaStatRead_inv hs
  | registerWrite => exact execRegisterWrite_inv hs
  | quantumBoundary => exact execQuantumBoundary_inv hs
  | stepBoundary => exact execStepBoundary_inv hs
  | castStart => exact execCastStart_inv hs
  | castLayerReady => exact execCastLayerReady_inv hs
  | layerSwap => exact execLayerSwap_inv hs
  | layerSwapBack => exact execLayerSwapBack_inv hs
  | evictRelease => exact execEvictRelease_inv hs
  | ttlExpiry => exact execTtlExpiry_inv hs
  | pauseSpillDone => exact execPauseSpillDone_inv hs
  | resumeCopyDone => exact execResumeCopyDone_inv hs
  | lineTick => exact execLineTick_inv hs
  | dispatch => exact execDispatch_inv hs
  | moveEntry => exact execMoveEntry_inv hs
  | creditEntry => exact execCreditEntry_inv hs
  | segment => exact execSegment_inv hs
  | frame => exact execFrame_inv hs
  | outputFrameBoundary => exact execOutputFrameBoundary_inv hs
  | lateRetry => exact execLateRetry_inv hs
  | inputFrameStart => exact execInputFrameStart_inv hs
  | inputRowReceived => exact execInputRowReceived_inv hs
  | inputLost => exact execInputLost_inv hs
  | inputUnlocked => exact execInputUnlocked_inv hs
  | motionFieldDone => exact execMotionFieldDone_inv hs
  | txLinkLost => exact execTxLinkLost_inv hs
  | rxLinkRetrain => exact execRxLinkRetrain_inv hs
  | dspEnable => exact execDspEnable_inv hs
  | retryNow => exact execRetryNow_inv hs
  | dspCntClr => exact execDspCntClr_inv hs
  | frameStartPacket => exact execFrameStartPacket_inv hs
  | frameEndPacket => exact execFrameEndPacket_inv hs
  | longPacket => exact execLongPacket_inv hs
  | deskew => exact execDeskew_inv hs
  | sourceLost => exact execSourceLost_inv hs
  | syntheticTick => exact execSyntheticTick_inv hs
  | hostPushedTick => exact execHostPushedTick_inv hs
  | pipeFrameRelease => exact execPipeFrameRelease_inv hs
  | pushedFrameCopied => exact execPushedFrameCopied_inv hs
  | tapFrameWritten => exact execTapFrameWritten_inv hs
  | camPortStatRead => exact execCamPortStatRead_inv hs
  | camPipeStatRead => exact execCamPipeStatRead_inv hs
  | memCfgStart => exact execMemCfgStart_inv hs
  | dramTrainingDone => exact execDramTrainingDone_inv hs
  | memGtabDataWrite => exact execMemGtabDataWrite_inv hs
  | zeroFillDone => exact execZeroFillDone_inv hs
  | memLeccCntRead => exact execMemLeccCntRead_inv hs
  | memChStatRead => exact execMemChStatRead_inv hs
  | flashOpStart => exact execFlashOpStart_inv hs
  | flashReadDone => exact execFlashReadDone_inv hs
  | flashProgramDone => exact execFlashProgramDone_inv hs
  | flashEraseDone => exact execFlashEraseDone_inv hs
  | flashSuspend => exact execFlashSuspend_inv hs
  | flashResume => exact execFlashResume_inv hs
  | holdupRetryTimeout => exact execHoldupRetryTimeout_inv hs
  | patrolRead => exact execPatrolRead_inv hs
  | storeCommit => exact execStoreCommit_inv hs
  | eraseDone => exact execEraseDone_inv hs
  | wflEnable => exact execWflEnable_inv hs
  | wflStop => exact execWflStop_inv hs
  | wflHoldupCfgWrite => exact execWflHoldupCfgWrite_inv hs
  | wflEccCntRead => exact execWflEccCntRead_inv hs
  | wflSuspCntRead => exact execWflSuspCntRead_inv hs
  | nop => exact execNop_inv hs
  | query => exact execQuery_inv hs
  | partCreate => exact execPartCreate_inv hs
  | partResize => exact execPartResize_inv hs
  | partDestroy => exact execPartDestroy_inv hs
  | partFence => exact execPartFence_inv hs
  | partReset => exact execPartReset_inv hs
  | drainEnd => exact execDrainEnd_inv hs
  | partResetTimeout => exact execPartResetTimeout_inv hs
  | maqStage => exact execMaqStage_inv hs
  | maqStageSlot => exact execMaqStageSlot_inv hs
  | maqVerify => exact execMaqVerify_inv hs
  | maqCast => exact execMaqCast_inv hs
  | maqEvict => exact execMaqEvict_inv hs
  | maqStore => exact execMaqStore_inv hs
  | maqErase => exact execMaqErase_inv hs
  | pubAdd => exact execPubAdd_inv hs
  | pubRevoke => exact execPubRevoke_inv hs
  | pubClear => exact execPubClear_inv hs
  | batchSubmit => exact execBatchSubmit_inv hs
  | batchSubmitContinue => exact execBatchSubmitContinue_inv hs
  | reqCancel => exact execReqCancel_inv hs
  | reqPause => exact execReqPause_inv hs
  | reqResume => exact execReqResume_inv hs
  | reqRelease => exact execReqRelease_inv hs
  | tensorMove => exact execTensorMove_inv hs
  | tensorFill => exact execTensorFill_inv hs
  | streamOpen => exact execStreamOpen_inv hs
  | streamClose => exact execStreamClose_inv hs
  | streamBind => exact execStreamBind_inv hs
  | displayConfig => exact execDisplayConfig_inv hs
  | displaySchedule => exact execDisplaySchedule_inv hs
  | displayMode => exact execDisplayMode_inv hs
  | powerPolicy => exact execPowerPolicy_inv hs
  | powerPolicyPartition => exact execPowerPolicyPartition_inv hs
  | powerQuery => exact execPowerQuery_inv hs
  | attestReport => exact execAttestReport_inv hs
  | logConfig => exact execLogConfig_inv hs
  | traceConfig => exact execTraceConfig_inv hs
  | fwStage => exact execFwStage_inv hs
  | fwActivate => exact execFwActivate_inv hs
  | activationRestart => exact execActivationRestart_inv hs
  | spanConfig => exact execSpanConfig_inv hs
  | paceSweep => exact execPaceSweep_inv hs
  | trainStep => exact execTrainStep_inv hs
  | sqDoorbell => exact execSqDoorbell_inv hs
  | cqDoorbell => exact execCqDoorbell_inv hs
  | bar0Write => exact execBar0Write_inv hs
  | windowWriteApply => exact execWindowWriteApply_inv hs
  | windowPublish => exact execWindowPublish_inv hs
  | barUnsupportedAccess => exact execBarUnsupportedAccess_inv hs
  | ringEnable => exact execRingEnable_inv hs
  | ringDisable => exact execRingDisable_inv hs
  | coalTimeout => exact execCoalTimeout_inv hs
  | msixUnmask => exact execMsixUnmask_inv hs
  | functionLevelReset => exact execFunctionLevelReset_inv hs
  | vfEnableClear => exact execVfEnableClear_inv hs
  | pcieRefclkLoss => exact execPcieRefclkLoss_inv hs
  | eventSense => exact execEventSense_inv hs
  | moderationHoldEnd => exact execModerationHoldEnd_inv hs
  | evcSwSet => exact execEvcSwSet_inv hs
  | evcCntClr => exact execEvcCntClr_inv hs
  | evcRouteWrite => exact execEvcRouteWrite_inv hs
  | opTransitionDone => exact execOpTransitionDone_inv hs
  | powerFloorReturn => exact execPowerFloorReturn_inv hs
  | forecastCorrection => exact execForecastCorrection_inv hs
  | limiterEngage => exact execLimiterEngage_inv hs
  | limiterHalve => exact execLimiterHalve_inv hs
  | limiterStep => exact execLimiterStep_inv hs
  | limiterFloor => exact execLimiterFloor_inv hs
  | limiterRelease => exact execLimiterRelease_inv hs
  | railOc => exact execRailOc_inv hs
  | thermalSample => exact execThermalSample_inv hs
  | thermalStateExit => exact execThermalStateExit_inv hs
  | thermalTrip => exact execThermalTrip_inv hs
  | droop => exact execDroop_inv hs
  | patinaLower => exact execPatinaLower_inv hs
  | patinaRecord => exact execPatinaRecord_inv hs
  | pwrHwlimStatRead => exact execPwrHwlimStatRead_inv hs
  | pwrCpmStatRead => exact execPwrCpmStatRead_inv hs
  | faultRecordPublish => exact execFaultRecordPublish_inv hs
  | faultRecordConsume => exact execFaultRecordConsume_inv hs
  | logCopy => exact execLogCopy_inv hs
  | lockstepMismatch => exact execLockstepMismatch_inv hs
  | checkerSelfTest => exact execCheckerSelfTest_inv hs
  | pairRestartDone => exact execPairRestartDone_inv hs
  | plinthWdogKick => exact execPlinthWdogKick_inv hs
  | wdogConfirm => exact execWdogConfirm_inv hs
  | plinthWdogExpiry => exact execPlinthWdogExpiry_inv hs
  | confirmTimeout => exact execConfirmTimeout_inv hs
  | deviceWdogKick => exact execDeviceWdogKick_inv hs
  | deviceWdogClr => exact execDeviceWdogClr_inv hs
  | deviceWdogExpiry => exact execDeviceWdogExpiry_inv hs
  | fltRecLostRead => exact execFltRecLostRead_inv hs
  | fltSelftestRead => exact execFltSelftestRead_inv hs
  | fltLogStatRead => exact execFltLogStatRead_inv hs
  | fltLogTraceRead => exact execFltLogTraceRead_inv hs
  | fltProgRead => exact execFltProgRead_inv hs
  | fltDomCntRead => exact execFltDomCntRead_inv hs
  | getVersion => exact execGetVersion_inv hs
  | getCapabilities => exact execGetCapabilities_inv hs
  | negotiateAlgorithms => exact execNegotiateAlgorithms_inv hs
  | getDigests => exact execGetDigests_inv hs
  | getCertificate => exact execGetCertificate_inv hs
  | challenge => exact execChallenge_inv hs
  | getMeasurements => exact execGetMeasurements_inv hs
  | keyExchange => exact execKeyExchange_inv hs
  | finish => exact execFinish_inv hs
  | endSession => exact execEndSession_inv hs
  | keyUpdate => exact execKeyUpdate_inv hs
  | keySet => exact execKeySet_inv hs
  | keyErase => exact execKeyErase_inv hs
  | keyStatus => exact execKeyStatus_inv hs
  | peekRead => exact execPeekRead_inv hs
  | peekWrite => exact execPeekWrite_inv hs
  | debugSessionEnd => exact execDebugSessionEnd_inv hs
  | debugSessionIdleTimeout => exact execDebugSessionIdleTimeout_inv hs
  | pairHalt => exact execPairHalt_inv hs
  | pairResume => exact execPairResume_inv hs
  | threadHalt => exact execThreadHalt_inv hs
  | threadResume => exact execThreadResume_inv hs
  | semAcquire => exact execSemAcquire_inv hs
  | semRelease => exact execSemRelease_inv hs
  | semHoldTimeout => exact execSemHoldTimeout_inv hs
  | dbgAccess => exact execDbgAccess_inv hs
  | dbgPeek => exact execDbgPeek_inv hs
  | bypass => exact execBypass_inv hs
  | idcode => exact execIdcode_inv hs
  | samplePreload => exact execSamplePreload_inv hs
  | extest => exact execExtest_inv hs
  | clamp => exact execClamp_inv hs
  | highz => exact execHighz_inv hs
  | trstN => exact execTrstN_inv hs
  | spanTrainingDone => exact execSpanTrainingDone_inv hs
  | spanTrainRetry => exact execSpanTrainRetry_inv hs
  | idleFlit => exact execIdleFlit_inv hs
  | nak => exact execNak_inv hs
  | hello => exact execHello_inv hs
  | halo => exact execHalo_inv hs
  | delayReq => exact execDelayReq_inv hs
  | delayResp => exact execDelayResp_inv hs
  | tickSync => exact execTickSync_inv hs
  | paceReq => exact execPaceReq_inv hs
  | paceReport => exact execPaceReport_inv hs
  | paceCommit => exact execPaceCommit_inv hs
  | paceAbort => exact execPaceAbort_inv hs
  | spanAckTimeout => exact execSpanAckTimeout_inv hs
  | blockLockLost => exact execBlockLockLost_inv hs
  | delayMeasurement => exact execDelayMeasurement_inv hs
  | haloDeadline => exact execHaloDeadline_inv hs
  | paceReportTimeout => exact execPaceReportTimeout_inv hs
  | paceApply => exact execPaceApply_inv hs
  | spnPortStatRead => exact execSpnPortStatRead_inv hs
  | spnPortErrRead => exact execSpnPortErrRead_inv hs
  | spnHaloRead => exact execSpnHaloRead_inv hs
  | powerOn => exact execPowerOn_inv hs
  | railFail => exact execRailFail_inv hs
  | resetRelease => exact execResetRelease_inv hs
  | perstNAssert => exact execPerstNAssert_inv hs
  | perstNRelease => exact execPerstNRelease_inv hs
  | pwrFailNAssert => exact execPwrFailNAssert_inv hs
  | poweredDownReached => exact execPoweredDownReached_inv hs
  | pwrFailNRelease => exact execPwrFailNRelease_inv hs
  | bmcPwrDown => exact execBmcPwrDown_inv hs
  | bmcRestart => exact execBmcRestart_inv hs
  | refclkLoss => exact execRefclkLoss_inv hs
  | refclkReturn => exact execRefclkReturn_inv hs
  | entdaa => exact execEntdaa_inv hs
  | bootRom => exact execBootRom_inv hs
  | firmwareInit => exact execFirmwareInit_inv hs
  | trialConfirm => exact execTrialConfirm_inv hs
  | trialTimeout => exact execTrialTimeout_inv hs
  | clusterPowerGood => exact execClusterPowerGood_inv hs
  | txLinkTrained => exact execTxLinkTrained_inv hs
  | mr4RefreshRateChange => exact execMr4RefreshRateChange_inv hs
  | bootFlashOpDone => exact execBootFlashOpDone_inv hs
  | pcieRefclkReturn => exact execPcieRefclkReturn_inv hs
  | vfEnableSet => exact execVfEnableSet_inv hs
  | d3hotTransition => exact execD3hotTransition_inv hs
  | doeDiscovery => exact execDoeDiscovery_inv hs
  | flitCrcError => exact execFlitCrcError_inv hs
  | completionTimeout => exact execCompletionTimeout_inv hs
  | debugNormalRead => exact execDebugNormalRead_inv hs

/-- Every step keeps the invariant: the command at the front acts on the rest of the queue, which the invariant does not
read, and on an empty queue the device idles. -/
theorem step_inv (hs : Inv s) : NextInv (step s) := by
  unfold step
  split
  · exact idle_inv hs
  · exact exec_inv _ (inv_congr (s := s) rfl rfl rfl rfl hs)

end Sys2Proof.Machine

open Sys2Proof.Machine in
/-- Settles O5: one lemma per function of the model says that it keeps the invariant, and a step is such a function. -/
theorem everyStepKeepsCanonicalForm : Obligations.EveryStepKeepsCanonicalForm := by
  intro s t hs h
  have hn : NextInv (step s) := step_inv hs
  rwa [h] at hn
end
end

section
/-!
Frames of the shared operations: what they leave of the state. A register write is followed by `sameRegsBut`; a completion record
touches the host's side alone (R391-R395), a trace point the log alone (R499).
-/
namespace Sys2Proof.Machine
open Reg Laws

/-- Only host memory, the host interface, the event controller and what has been sent differ. -/
def hostSide (s t : State) : Prop := t = { s with host := t.host, hif := t.hif, evc := t.evc, out := t.out }

variable {s t u : State} {l : List RegField}

/-- What a fold leaves of the state when each round does. -/
theorem foldl_keeps {σ α β : Type} {p : σ → β} {g : σ → α → σ} (hg : ∀ t x, p (g t x) = p t) (l : List α) (s : σ) :
    p (l.foldl g s) = p s :=
  List.foldlRecOn (motive := fun t => p t = p s) l g rfl fun t ht x _ => (hg t x).trans ht

/-! ### Registers -/

theorem sameRegsBut_of_regs (h : t.regs = s.regs) : sameRegsBut s t l := fun f _ => rd_congr h f

theorem sameRegsBut_congr (h : sameRegsBut s t l) (e : u.regs = t.regs) : sameRegsBut s u l :=
  fun f hf => (rd_congr e f).trans (h f hf)

theorem sameRegsBut_wr {f : RegField} {v : Nat} (h : sameRegsBut s t l) (hf : f ∈ l) : sameRegsBut s (wr t f v) l :=
  fun g hg => (rd_wr_other (fun e : g.key = f.key => hg (e ▸ List.mem_map_of_mem hf)) v).trans (h g hg)

theorem sameRegsBut_mono {m : List RegField} (h : sameRegsBut s t l) (hs : l ⊆ m) : sameRegsBut s t m :=
  fun g hg => h g fun hl => hg (List.map_subset _ hs hl)

theorem sameRegsBut_trans (h : sameRegsBut s t l) (h' : sameRegsBut t u l) : sameRegsBut s u l := fun g hg => (h' g hg).trans (h g hg)

theorem sameRegsBut_ite {c : Prop} [Decidable c] (ht : sameRegsBut s t l) (hu : sameRegsBut s u l) :
    sameRegsBut s (if c then t else u) l := by
  split
  exacts [ht, hu]

theorem sameRegsBut_foldl {α : Type} {g : State → α → State} {m : List α} (hg : ∀ t, ∀ x ∈ m, sameRegsBut s t l → sameRegsBut s (g t x) l)
    (h : sameRegsBut s t l) : sameRegsBut s (m.foldl g t) l :=
  List.foldlRecOn (motive := fun t => sameRegsBut s t l) m g h fun t ht x hx => hg t x hx ht

/-! ### Completion records -/

theorem hostSide_refl (s : State) : hostSide s s := rfl

theorem hostSide_trans (h : hostSide s t) (h' : hostSide t u) : hostSide s u := by
  unfold hostSide at *
  rw [h', h]

theorem hostSide_ite {c : Prop} [Decidable c] (ht : hostSide s t) (hu : hostSide s u) : hostSide s (if c then t else u) := by
  split
  exacts [ht, hu]

theorem hwrN_hostSide (n : Nat) (s : State) (fn a v : Nat) : hostSide s (hwrN s fn a n v) := by
  induction n generalizing s a v with
  | zero => exact hostSide_refl s
  | succ n ih => exact hostSide_trans (t := hwb s fn a _) rfl (ih ..)

theorem hwrBytes_hostSide (l : List Nat) (s : State) (fn a : Nat) : hostSide s (hwrBytes s fn a l) := by
  induction l generalizing s a with
  | nil => exact hostSide_refl s
  | cons b l ih => exact hostSide_trans (t := hwb s fn a _) rfl (ih ..)

theorem signalVec_hostSide (s : State) (fn vec : Nat) : hostSide s (signalVec s fn vec) := by
  unfold signalVec
  exact hostSide_ite (hostSide_ite rfl rfl) rfl

theorem writeRec_hostSide (s : State) (fn rg : Nat) (x : CqRec) : hostSide s (writeRec s fn rg x) := by
  unfold writeRec
  extract_lets r base s4 tail s5 r'
  have h4 : hostSide s s4 :=
    hostSide_trans (hostSide_trans (hostSide_trans (hwrN_hostSide ..) (hwrN_hostSide ..)) (hwrN_hostSide ..)) (hwrN_hostSide ..)
  have h5 : hostSide s s5 := hostSide_ite h4 (hostSide_trans h4 (hwrN_hostSide ..))
  have hset {x : Ring} : hostSide s (setRing s5 fn rg x) := hostSide_trans h5 rfl
  exact hostSide_ite (hostSide_trans hset (signalVec_hostSide ..)) hset

theorem postRec_hostSide (s : State) (fn rg : Nat) (x : CqRec) : hostSide s (postRec s fn rg x) := by
  unfold postRec
  exact hostSide_ite rfl (hostSide_ite (writeRec_hostSide ..) rfl)

theorem settleDrain_hostSide (s : State) (fn rg : Nat) : hostSide s (settleDrain s fn rg) := by
  unfold settleDrain
  exact hostSide_ite rfl rfl

theorem complete_hostSide (s : State) (c : Cmd) (status : Nat) (x : Result) : hostSide s (complete s c status x) :=
  hostSide_trans (t := { s with hif := { s.hif with cmds := s.hif.cmds.erase c } }) rfl
    (hostSide_trans (postRec_hostSide ..) (settleDrain_hostSide ..))

/-! ### Trace points -/

theorem noteDrop_frame (s : State) : noteDrop s = { s with regs := (noteDrop s).regs, flt := (noteDrop s).flt } := rfl

theorem trace_frame (s : State) (g p : Nat) :
    trace s g p = { s with regs := (trace s g p).regs, free := (trace s g p).free, flt := (trace s g p).flt } := by
  unfold trace
  split
  · dsimp only
    split
    all_goals
      split
      all_goals rfl
  · rfl

/-- A trace point changes no register but the count and the event of dropped traces. -/
theorem trace_regs (s : State) (g p : Nat) : sameRegsBut s (trace s g p) [FLT_LOG_TRACE_TR_DROP, FLT_EVT_STAT_TR_DROP] := by
  have hdrop : sameRegsBut s (noteDrop (fresh s).2) [FLT_LOG_TRACE_TR_DROP, FLT_EVT_STAT_TR_DROP] :=
    sameRegsBut_congr (t := wr (bump s FLT_LOG_TRACE_TR_DROP 1) FLT_EVT_STAT_TR_DROP 1)
      (sameRegsBut_wr (sameRegsBut_wr (sameRegsBut_of_regs rfl) (by simp)) (by simp)) rfl
  unfold trace
  split
  · dsimp only
    split
    all_goals
      split
      exacts [sameRegsBut_of_regs rfl, hdrop]
  · exact sameRegsBut_of_regs rfl

end Sys2Proof.Machine
end

section
/-!
O2, O4, O11: the step on an empty queue (R13), the state right after reset (R10, R37), the counts of a cluster that a read
clears (R49, R52).
-/
namespace Sys2Proof.Machine
open Reg Laws

variable {s : State}

theorem decideFrame_time (s : State) (c : Nat) (f : Frame) (fate flags : Nat) : (decideFrame s c f fate flags).time = s.time := by
  have hcount (s : State) : (countFate s c fate).time = s.time := by
    unfold countFate
    split_ifs
    all_goals rfl
  exact (congrArg State.time (postRec_hostSide ..)).trans (hcount _)

theorem completeFrames_time (s : State) : (completeFrames s).time = s.time :=
  foldl_keeps (fun _ _ => foldl_keeps (fun _ _ => (congrArg State.time (trace_frame ..)).trans (decideFrame_time ..)) _ _) _ _

/-- A frame completes only when its work has ended. -/
theorem completeFrames_of_none (h : ∀ e ∈ s.cam, ∀ f ∈ e.2.frames, f.stage ≠ .finished) : completeFrames s = s := by
  refine List.foldlRecOn (motive := fun t => t = s) s.cam _ rfl fun t ht e he => ?_
  have hnone : e.2.frames.filter (fun f => f.stage == .finished && decide (f.workEnd ≠ t.time)) = [] := by
    simpa [List.filter_eq_nil_iff] using fun f hf hstage => absurd hstage (h e he f hf)
  rw [hnone, List.foldl_nil, ht]

end Sys2Proof.Machine

open Sys2Proof.Machine Sys2Proof.Machine.Reg

/-- Settles O2: what completes at a tick leaves the time, and nothing completes when no frame's work has ended. -/
theorem idleStepCountsOneTick : Obligations.IdleStepCountsOneTick := by
  intro s hq
  have hstep : step s = .next (idle s) := by simp [step, hq]
  refine ⟨⟨idle s, hstep, completeFrames_time _⟩, fun hframes => ?_⟩
  exact hstep.trans (congrArg Host.Outcome.next (completeFrames_of_none hframes))

/-- Settles O4: every table of the reset state is empty. -/
theorem resetKeepsCanonicalForm : Obligations.ResetKeepsCanonicalForm := ⟨rfl, rfl, rfl, rfl⟩

/-- Settles O11: the read clears its counts by register writes, and each is a field of its own. -/
theorem clusterReadsClearTheirCounts : Obligations.ClusterReadsClearTheirCounts := by
  refine ⟨fun s n m => ⟨_, rfl, rfl, ?_, ?_, ?_⟩, fun s n => ⟨_, rfl, rfl, ?_, ?_⟩⟩
  · rw [rd_emit, rd_wr_other (by simp [RegField.key, CLU_ECC_CNT_UE, CLU_ECC_CNT_CE]), rd_wr_same]
    rfl
  · rw [rd_emit, rd_wr_same]
    rfl
  · exact sameRegsBut_congr (sameRegsBut_wr (sameRegsBut_wr (sameRegsBut_of_regs rfl) (by simp)) (by simp)) (emit_regs ..)
  · rw [rd_emit, rd_wr_same]
    rfl
  · exact sameRegsBut_congr (sameRegsBut_wr (sameRegsBut_of_regs rfl) (by simp)) (emit_regs ..)
end

section
/-!
Debug accesses: what opening a session, touching a partition and marking an access leave (R522, R524, R525), and what an access
of the words of a cluster memory reads and writes (R41, R42, R45, R522).
-/
namespace Sys2Proof.Machine
open Reg Laws

/-- Only registers differ. -/
def regsSide (s t : State) : Prop := t = { s with regs := t.regs }

/-- The registers of a debug session (R524, R525). -/
def sessionRegs : List RegField :=
  [SEC_DBG_STAT_ACTIVE, SEC_DBG_STAT_SINCE_RESET, SEC_DBG_SESS_COUNT, SEC_EVT_STAT_SESSION_OPEN, SEC_DBG_TOUCH_PART]

/-- The registers a debug access of a memory may change (R521, R522, R524, R525). -/
def accessRegs : List RegField := [SEC_APT_STAT_POISON, SEC_APT_STAT_DECODE_ERR] ++ sessionRegs

variable {s t u : State} {l : List RegField}

theorem regsSide_refl (s : State) : regsSide s s := rfl

theorem regsSide_wr (h : regsSide s t) (f : RegField) (v : Nat) : regsSide s (wr t f v) := by
  unfold regsSide at *
  rw [h]
  rfl

theorem regsSide_trans (h : regsSide s t) (h' : regsSide t u) : regsSide s u := by
  unfold regsSide at *
  rw [h', h]

theorem regsSide_ite {c : Prop} [Decidable c] (ht : regsSide s t) (hu : regsSide s u) : regsSide s (if c then t else u) := by
  split
  exacts [ht, hu]

/-! ### Bits of a register -/

theorem bit_mod {x i n : Nat} (h : i < n) : bit (x % 2 ^ n) i = bit x i := by
  have hn : 2 ^ n = 2 ^ i * (2 * 2 ^ (n - i - 1)) := by rw [← Nat.pow_succ', ← Nat.pow_add]; congr 1; omega
  rw [bit, bit, hn, Nat.mod_mul_right_div_self, Nat.mod_mul_right_mod]

theorem bit_setBit_same (x i : Nat) : bit (setBit x i) i = true := by
  unfold setBit
  split
  · assumption
  · rename_i h
    simp only [bit, beq_iff_eq] at h ⊢
    rw [Nat.add_div_right _ (Nat.two_pow_pos i)]
    omega

/-! ### Sessions, touches and marks -/

theorem openSession_side (s : State) : regsSide s (openSession s) :=
  regsSide_ite rfl rfl

theorem openSession_regs (s : State) : sameRegsBut s (openSession s) sessionRegs := by
  unfold openSession
  refine sameRegsBut_ite (sameRegsBut_of_regs rfl) (sameRegsBut_wr (sameRegsBut_wr (sameRegsBut_wr (sameRegsBut_wr
    (sameRegsBut_of_regs rfl) ?_) ?_) ?_) ?_)
  all_goals simp [sessionRegs]

theorem openSession_active (s : State) : isSet (openSession s) SEC_DBG_STAT_ACTIVE = true := by
  unfold openSession
  split
  · assumption
  · rw [isSet, rd_wr_other (by decide), bump, rd_wr_other (by decide), rd_wr_other (by decide), rd_wr_same]
    rfl

theorem touchPart_side (s : State) (p : Nat) : regsSide s (touchPart s p) := regsSide_ite rfl rfl

theorem touchPart_regs (s : State) (p : Nat) : sameRegsBut s (touchPart s p) [SEC_DBG_TOUCH_PART] :=
  sameRegsBut_ite (sameRegsBut_wr (sameRegsBut_of_regs rfl) (by simp)) (sameRegsBut_of_regs rfl)

theorem touchPart_bit {p : Nat} (h : p < 16) (s : State) : bit (rd (touchPart s p) SEC_DBG_TOUCH_PART) p = true := by
  rw [touchPart, if_pos h, rd_wr_same, show SEC_DBG_TOUCH_PART.width = 16 from rfl, bit_mod h, bit_setBit_same]

theorem debugMarks_side (s : State) (r : Region) (a n : Nat) (read : Bool) : regsSide s (debugMarks s r a n read) := by
  have h : regsSide s (touchPart s (touched s r a)) := touchPart_side ..
  unfold debugMarks
  dsimp only
  split
  · exact regsSide_wr h ..
  · exact regsSide_ite (regsSide_wr h ..) h
  · exact regsSide_ite (regsSide_wr h ..) h
  all_goals exact h

theorem debugMarks_regs (s : State) (r : Region) (a n : Nat) (read : Bool) :
    sameRegsBut s (debugMarks s r a n read) accessRegs := by
  have h : sameRegsBut s (touchPart s (touched s r a)) accessRegs :=
    sameRegsBut_mono (touchPart_regs _ _) (by simp [accessRegs, sessionRegs])
  unfold debugMarks
  dsimp only
  split
  · exact sameRegsBut_wr h (by simp [accessRegs])
  · exact sameRegsBut_ite (sameRegsBut_wr h (by simp [accessRegs])) h
  · exact sameRegsBut_ite (sameRegsBut_wr h (by simp [accessRegs])) h
  all_goals exact h

/-- The registers of a cluster and of the memory system lie above those of the debug logic. -/
theorem rd_of_accessRegs (h : sameRegsBut s t accessRegs) {f : RegField} (hf : 0x24000058 ≤ f.addr) : rd t f = rd s f := by
  refine h f fun hk => ?_
  simp only [accessRegs, sessionRegs, RegField.key, List.cons_append, List.nil_append, List.map_cons, List.map_nil, List.mem_cons,
    List.not_mem_nil, or_false, SEC_APT_STAT_POISON, SEC_APT_STAT_DECODE_ERR, SEC_DBG_STAT_ACTIVE, SEC_DBG_STAT_SINCE_RESET,
    SEC_DBG_SESS_COUNT, SEC_EVT_STAT_SESSION_OPEN, SEC_DBG_TOUCH_PART] at hk
  omega

theorem sessionRegs_subset : sessionRegs ⊆ accessRegs := List.subset_append_right ..

theorem cluPart_of_accessRegs (hp : t.parts = s.parts) (h : sameRegsBut s t accessRegs) (n : Nat) : cluPart t n = cluPart s n := by
  have hmap : rd t (CLU_MAP_PART n) = rd s (CLU_MAP_PART n) ∧ rd t (CLU_MAP_LOGICAL n) = rd s (CLU_MAP_LOGICAL n) ∧
      rd t (CLU_MAP_MAPPED n) = rd s (CLU_MAP_MAPPED n) := by
    refine ⟨rd_of_accessRegs h ?_, rd_of_accessRegs h ?_, rd_of_accessRegs h ?_⟩
    all_goals simp only [CLU_MAP_PART, CLU_MAP_LOGICAL, CLU_MAP_MAPPED]; omega
  obtain ⟨hpart, hlogical, hmapped⟩ := hmap
  rw [cluPart, cluPart, isSet, isSet, hpart, hlogical, hmapped, hp]

theorem regionOf_of_accessRegs (hf : t.flash = s.flash) (h : sameRegsBut s t accessRegs) (a : Nat) : regionOf t a = regionOf s a := by
  have hstate (n : Nat) : rd t (CLU_STAT_STATE n) = rd s (CLU_STAT_STATE n) :=
    rd_of_accessRegs h (by simp only [CLU_STAT_STATE]; omega)
  have hsize : rd t MEM_STAT_SIZE = rd s MEM_STAT_SIZE := rd_of_accessRegs h (by decide)
  simp only [regionOf, hstate, granCount, hsize, slotAt, hf] <;> rfl

/-! ### The bytes of a word -/

theorem rdN_congr (h : t.mem = s.mem) (n a : Nat) : rdN t a n = rdN s a n := by
  induction n generalizing a with
  | zero => rfl
  | succ n ih => simp only [rdN, rb, h, ih]

theorem sum_bytes (s : State) (n a : Nat) : ((List.range n).map fun i => (rb s (a + i)).toNat * 256 ^ i).foldl (· + ·) 0 = rdN s a n := by
  rw [← List.sum_eq_foldl]
  induction n generalizing a with
  | zero => rfl
  | succ n ih =>
    have hshift : ∀ i, (rb s (a + (i + 1))).toNat * 256 ^ (i + 1) = 256 * ((rb s (a + 1 + i)).toNat * 256 ^ i) := fun i => by
      rw [Nat.pow_succ, show a + (i + 1) = a + 1 + i by omega]
      ring
    rw [List.range_succ_eq_map, List.map_cons, List.map_map, List.sum_cons, rdN, ← ih (a + 1), ← List.sum_map_mul_left]
    simp [Function.comp_def, hshift]

theorem foldl_wb (n : Nat) (s : State) (a v : Nat) :
    (List.range n).foldl (fun t i => wb t (a + i) (BitVec.ofNat 8 (v / 256 ^ i))) s = wrN s a n v := by
  induction n generalizing s a v with
  | zero => rfl
  | succ n ih =>
    have hshift : ∀ (t : State) (i : Nat), wb t (a + (i + 1)) (BitVec.ofNat 8 (v / 256 ^ (i + 1))) = wb t (a + 1 + i) (BitVec.ofNat 8 (v / 256 / 256 ^ i)) :=
      fun t i => by rw [Nat.div_div_eq_div_mul, ← Nat.pow_succ', show a + (i + 1) = a + 1 + i by omega]
    rw [List.range_succ_eq_map, List.foldl_cons, List.foldl_map, wrN, ← ih]
    simp only [Nat.add_zero, Nat.pow_zero, Nat.div_one, Nat.succ_eq_add_one, hshift]

end Sys2Proof.Machine
end

section
/-!
What a debug read and a debug write do to a state: the frames of every access, and the words of a cluster memory.
-/
namespace Sys2Proof.Machine
open Reg Laws

/-- The session is open and the partition of cluster `c`, as `s` has it, is marked touched (R524, R525). -/
def opensAndTouches (s u : State) (c : Nat) : Prop :=
  isSet u SEC_DBG_STAT_ACTIVE = true ∧ (cluPart s c < 16 → bit (rd u SEC_DBG_TOUCH_PART) (cluPart s c) = true)

/-- A pending write-back of the word that holds `a` would be dropped by a write (R45). -/
def awaitsWriteBack (s : State) (a : Nat) : Prop := ∃ c m k w, cellOf a = some (c, m, k, w) ∧ ¬noWriteBack s c m k [w]

variable {s t u : State} {a c : Nat}

theorem upset_congr (h : t.upsets = s.upsets) (a : Nat) : upset t a = upset s a := by rw [upset, upset, h]

theorem regsSide_mem (h : regsSide s t) : t.mem = s.mem := by rw [h]

theorem regsSide_host (h : regsSide s t) : t.host = s.host := by rw [h]

theorem regsSide_upsets (h : regsSide s t) : t.upsets = s.upsets := by rw [h]

/-! ### Marks of an access of a cluster memory -/

theorem debugMarks_touches (hp : t.parts = s.parts) (hr : sameRegsBut s t accessRegs) (ha : isSet t SEC_DBG_STAT_ACTIVE = true)
    (c a n : Nat) (read : Bool) : opensAndTouches s (debugMarks t (.cluMem c) a n read) c := by
  have htouch : touched t (.cluMem c) a = cluPart s c := cluPart_of_accessRegs hp hr c
  have hpoison {v : Nat} {w : State} {f : RegField} (hf : f.key = SEC_DBG_STAT_ACTIVE.key ∨ f.key = SEC_DBG_TOUCH_PART.key) :
      rd (wr w SEC_APT_STAT_POISON v) f = rd w f := rd_wr_other (by rcases hf with hf | hf <;> rw [hf] <;> decide) v
  have hmarks : opensAndTouches s (touchPart t (cluPart s c)) c := by
    refine ⟨?_, fun h => touchPart_bit h t⟩
    rwa [isSet, touchPart_regs _ _ _ (by decide)]
  unfold debugMarks
  dsimp only
  rw [htouch]
  split
  · exact ⟨by rw [isSet, hpoison (.inl rfl)]; exact hmarks.1, fun h => by rw [hpoison (.inr rfl)]; exact hmarks.2 h⟩
  · exact hmarks

theorem debugMarks_mem (s : State) (r : Region) (a n : Nat) (read : Bool) : (debugMarks s r a n read).mem = s.mem :=
  regsSide_mem (debugMarks_side ..)

theorem debugMarks_host (s : State) (r : Region) (a n : Nat) (read : Bool) : (debugMarks s r a n read).host = s.host :=
  regsSide_host (debugMarks_side ..)

theorem debugMarks_upset (s : State) (r : Region) (a n : Nat) (read : Bool) (x : Nat) : upset (debugMarks s r a n read) x = upset s x :=
  upset_congr (regsSide_upsets (debugMarks_side ..)) x

/-- A read of a word that is poisoned or has an uncorrectable error sets POISON (R522, R525). -/
theorem debugMarks_poison {n : Nat} (h : anyBad s a n = true) (c : Nat) : rd (debugMarks s (.cluMem c) a n true) SEC_APT_STAT_POISON = 1 := by
  have hbad : anyBad (touchPart s (touched s (.cluMem c) a)) a n = true := by rw [touchPart_side, ← h]; rfl
  rw [debugMarks]
  simp only [Bool.true_and, hbad, if_true]
  rw [rd_wr_same]
  rfl

theorem anyBad_of_poisoned {n : Nat} (hn : 0 < n) (h : poisoned s a = true) : anyBad s a n = true := by
  simp only [poisoned, List.contains_iff_mem] at h
  simp only [anyBad, anyPoison, Bool.or_eq_true, List.any_eq_true, Bool.and_eq_true, decide_eq_true_eq]
  exact .inl ⟨a / 8, h, Nat.le_refl _, by omega⟩

theorem anyBad_of_upset {n : Nat} (hn : 0 < n) (h : upset s a = some true) : anyBad s a n = true := by
  have hmem : ∀ {l : List (Nat × Bool)} {k : Nat} {v : Bool}, tfind k l = some v → (k, v) ∈ l := by
    intro l k v hf
    induction l with
    | nil => cases hf
    | cons e l ih =>
      simp only [tfind] at hf
      split at hf
      · next he =>
        cases hf
        exact List.mem_cons.2 (.inl (by rw [← he]))
      · exact List.mem_cons_of_mem _ (ih hf)
  simp only [anyBad, Bool.or_eq_true, List.any_eq_true, Bool.and_eq_true, decide_eq_true_eq]
  exact .inr ⟨(a / 8, true), hmem h, ⟨rfl, Nat.le_refl _⟩, by simp only; omega⟩

theorem addEcc_uncorrectable_upset (s : State) (a : Nat) : upset (addEcc s a .uncorrectable) a = some true := by
  simp [addEcc, addUpset, upset, tfind_tset_same]

theorem addEcc_frame (s : State) (a : Nat) (e : Ecc) : addEcc s a e = { s with upsets := (addEcc s a e).upsets } := by
  cases e
  all_goals rfl

theorem debugErr_frame (s : State) (a : Nat) (e : Ecc) : debugErr s a e = { s with upsets := (debugErr s a e).upsets } := by
  unfold debugErr
  split
  · exact addEcc_frame ..
  all_goals rfl

theorem debugErr_cluMem (h : regionOf s a = .cluMem c) (e : Ecc) : debugErr s a e = addEcc s a e := by simp [debugErr, h]

/-! ### Reads -/

theorem debugRead_reg (h : regionOf s a = .reg) (wide peek : Bool) : debugRead s a wide peek =
    ((regWords a wide).zipIdx).foldl (fun (p : State × Nat) e =>
      let q := if peek then (p.1, regView p.1 e.1) else regRead p.1 e.1 2
      (q.1, p.2 + q.2 % 2 ^ 32 * 2 ^ (32 * e.2))) (s, 0) := by
  rw [debugRead]
  simp only [h, if_true]

/-- A read of a memory leaves the marks of the access, and takes a free value for bits it cannot trust. -/
theorem debugRead_memory (h : regionOf s a ≠ .reg) (wide peek : Bool) :
    let t := debugMarks s (regionOf s a) a (if wide then 8 else 4) true
    (debugRead s a wide peek).1 = if wrongBits s (regionOf s a) a then (fresh t).2 else t := by
  have hwrong (n : Nat) : wrongBits (debugMarks s (regionOf s a) a n true) (regionOf s a) a = wrongBits s (regionOf s a) a := by
    unfold wrongBits
    split
    · rw [debugMarks_upset]
    all_goals rfl
  rw [debugRead]
  simp only [h, if_false, hwrong]
  cases wrongBits s (regionOf s a) a
  all_goals rfl

/-- A read of a word of a cluster memory returns its bytes little-endian (R522). -/
theorem debugRead_cluMem (h : regionOf s a = .cluMem c) (hu : upset s a ≠ some true) (wide peek : Bool) :
    debugRead s a wide peek = (debugMarks s (.cluMem c) a (if wide then 8 else 4) true, rdN s a (if wide then 8 else 4)) := by
  have hwrong (n : Nat) : wrongBits (debugMarks s (.cluMem c) a n true) (.cluMem c) a = false := by
    rw [wrongBits, debugMarks_upset]
    simpa using hu
  rw [debugRead]
  simp only [h, reduceCtorEq, if_false, hwrong, Bool.false_eq_true, debugByte]
  rw [sum_bytes, rdN_congr (debugMarks_mem ..)]

/-- A peek read has no side effect but the marks of the access (R521). -/
theorem debugRead_peek (s : State) (a : Nat) (wide : Bool) : let t := (debugRead s a wide true).1
    t = { s with regs := t.regs, free := t.free } ∧ sameRegsBut s t accessRegs := by
  by_cases h : regionOf s a = .reg
  · have hsame : (debugRead s a wide true).1 = s := by
      rw [debugRead_reg h]
      refine foldl_keeps (p := Prod.fst) (fun _ _ => ?_) _ (s, 0)
      rfl
    rw [hsame]
    exact ⟨rfl, sameRegsBut_of_regs rfl⟩
  · have hside : regsSide s (debugMarks s (regionOf s a) a (if wide then 8 else 4) true) := debugMarks_side ..
    have hregs := debugMarks_regs s (regionOf s a) a (if wide then 8 else 4) true
    rw [debugRead_memory h]
    dsimp only
    generalize debugMarks s (regionOf s a) a (if wide then 8 else 4) true = t at hside hregs
    obtain ⟨r, rfl⟩ : ∃ r, t = { s with regs := r } := ⟨_, hside⟩
    split
    exacts [⟨rfl, sameRegsBut_congr hregs rfl⟩, ⟨rfl, hregs⟩]

theorem semRead_frame (s : State) (n who : Nat) : let t := (semRead s n who).1; t = { s with regs := t.regs, sec := t.sec } := by
  unfold semRead
  dsimp only
  split
  all_goals rfl

theorem regRead_frame (s : State) (addr who : Nat) : let t := (regRead s addr who).1; t = { s with regs := t.regs, sec := t.sec } := by
  unfold regRead
  split
  · exact semRead_frame ..
  · refine List.foldlRecOn (motive := fun t : State => t = { s with regs := t.regs, sec := t.sec }) _ _ rfl fun t ht f _ => ?_
    split
    · exact congrArg (fun t => wr t f 0) ht
    · exact ht

/-- No debug read changes a memory. -/
theorem debugRead_memories (s : State) (a : Nat) (wide peek : Bool) :
    (debugRead s a wide peek).1.mem = s.mem ∧ (debugRead s a wide peek).1.host = s.host := by
  by_cases h : regionOf s a = .reg
  · rw [debugRead_reg h]
    refine List.foldlRecOn (motive := fun p : State × Nat => p.1.mem = s.mem ∧ p.1.host = s.host) _ _ ⟨rfl, rfl⟩ fun p hp e _ => ?_
    cases peek
    · have hread : (regRead p.1 e.1 2).1 = _ := regRead_frame p.1 e.1 2
      exact ⟨(congrArg State.mem hread).trans hp.1, (congrArg State.host hread).trans hp.2⟩
    · exact hp
  · rw [debugRead_memory h]
    cases wrongBits s (regionOf s a) a
    all_goals exact ⟨debugMarks_mem .., debugMarks_host ..⟩

end Sys2Proof.Machine
end

section
/-!
What a debug write of a word of a cluster memory does (R41, R42, R45, R522): it stores the bytes, clears the word's poison when it
covers the word, and changes no register but those of the session.
-/
namespace Sys2Proof.Machine
open Reg Laws

variable {s t u : State} {a c : Nat}

/-! ### A write of a port -/

theorem dedupNext_replicate (n x : Nat) : dedupNext (List.replicate (n + 1) x) = [x] := by
  induction n with
  | zero => rfl
  | succ n ih => rwa [List.replicate_succ, List.replicate_succ, dedupNext, if_pos rfl, ← List.replicate_succ]

/-- Bytes inside one word are one write of that word. -/
theorem wroteRange_word {n : Nat} (h : a % 8 + (n + 1) ≤ 8) :
    wroteRange s a (n + 1) = wroteWord ((List.range (n + 1)).map fun i => a + i) s (a / 8) := by
  have hone : ((List.range (n + 1)).map fun i => a + i).map (· / 8) = List.replicate (n + 1) (a / 8) := by
    refine List.eq_replicate_iff.2 ⟨by simp, fun x hx => ?_⟩
    simp only [List.map_map, List.mem_map, List.mem_range, Function.comp_apply] at hx
    omega
  rw [wroteRange, wroteBytes, hone, dedupNext_replicate]
  rfl

/-- The words of a cluster memory are aligned (R602): every byte of a word has the word's cell. -/
theorem cellOf_word (a : Nat) : cellOf (8 * (a / 8)) = cellOf a := by
  have hlow : 8 * (a / 8) < 0x40000000 ↔ a < 0x40000000 := by omega
  have hsub (o k : Nat) : 8 * (o / 8) - 8 * k = 8 * ((o - 8 * k) / 8) := by omega
  have hquot (o k m : Nat) : (8 * (o / 8) - 8 * k) / (8 * m) = (o - 8 * k) / (8 * m) := by
    rw [hsub, Nat.mul_div_mul_left _ _ (by omega), Nat.div_div_eq_div_mul]
  have hrest (o k m : Nat) : (8 * (o / 8) - 8 * k) % (8 * m) = 8 * ((o - 8 * k) % (8 * m) / 8) := by
    rw [hsub, Nat.mul_mod_mul_left, Nat.mod_mul_right_div_self]
  have hn : (8 * (a / 8) - 0x40000000) / 0x1000000 = (a - 0x40000000) / 0x1000000 := hquot a 0x8000000 0x200000
  have ho : (8 * (a / 8) - 0x40000000) % 0x1000000 = 8 * ((a - 0x40000000) % 0x1000000 / 8) := hrest a 0x8000000 0x200000
  have hc (o : Nat) : (8 * (o / 8) - 0x400000) / 0x20000 = (o - 0x400000) / 0x20000 := hquot o 0x80000 0x4000
  have hb (o : Nat) : (8 * (o / 8) - 0x400000) % 0x20000 = 8 * ((o - 0x400000) % 0x20000 / 8) := hrest o 0x80000 0x4000
  have hge (o k : Nat) (hk : 8 * (k / 8) = k) : k ≤ 8 * (o / 8) ↔ k ≤ o := by omega
  have hlt (o k : Nat) (hk : 8 * (k / 8) = k) : 8 * (o / 8) < k ↔ o < k := by omega
  have hword (o k : Nat) (hk : 8 * (k / 8) = k) : (8 * (o / 8) - k) / 8 = (o - k) / 8 := by omega
  have hdiv (o : Nat) : 8 * (o / 8) / 8 = o / 8 := by omega
  simp only [cellOf, hlow, hn, ho, hc, hb, hdiv, hge _ 0x100000 rfl, hlt _ 0x200000 rfl, hge _ 0x400000 rfl,
    hlt _ (0x400000 + 64 * 0x20000) rfl, hlt _ 0x8000 rfl, hlt _ 0x10000 rfl, hlt _ 0x12000 rfl, hge _ 0x18000 rfl, hlt _ 0x1C000 rfl,
    hword _ 0x100000 rfl, hword _ 0x8000 rfl, hword _ 0x10000 rfl, hword _ 0x18000 rfl]

theorem portWrote_of_idle (h : ¬awaitsWriteBack s a) : portWrote s a = s := by
  unfold portWrote
  split
  · rfl
  · next n m c w hc =>
    rw [if_neg]
    intro hw
    exact h ⟨n, m, c, w, hc, fun hno => hno w (by simp) hw⟩

theorem fullWrite_frame (s : State) (a : Nat) :
    ∃ p e k, fullWrite s a = { s with poison := p, upsets := e, clusters := k } ∧ ∀ n, (tget {} k n).scrub = (clu s n).scrub := by
  have hnote (t : State) (m : Nat) : ∃ k, noteRewrite t m a = { t with clusters := k } ∧ ∀ n, (tget {} k n).scrub = (clu t n).scrub := by
    unfold noteRewrite
    dsimp only
    split
    · refine ⟨_, rfl, fun n => ?_⟩
      rcases eq_or_ne n m with rfl | hne
      · rw [tget_tput_same]
      · rw [tget_tput_other hne]
        rfl
    · exact ⟨_, rfl, fun _ => rfl⟩
  unfold fullWrite
  split
  · next n m c w _ =>
    obtain ⟨k, he, hk⟩ := hnote (clearPoison s a) n
    exact ⟨_, _, k, he, hk⟩
  · exact ⟨_, _, _, rfl, fun _ => rfl⟩

theorem fullWrite_poisoned (s : State) (a : Nat) : poisoned (fullWrite s a) a = false := by
  have hclear : poisoned (clearPoison s a) a = false := by simp [poisoned, clearPoison]
  unfold fullWrite noteRewrite
  dsimp only
  split
  · split
    all_goals exact hclear
  · exact hclear

theorem awaitsWriteBack_congr (h : ∀ n, (clu t n).scrub = (clu s n).scrub) : awaitsWriteBack t a ↔ awaitsWriteBack s a := by
  simp only [awaitsWriteBack, noWriteBack, h]

theorem mergeWord_of_no_upset (h : upset s a = none) : mergeWord s a = s := by
  unfold mergeWord
  rw [h, ite_self]
  split
  · contradiction
  · contradiction
  · rfl

theorem fullWrite_if_known (h : ¬awaitsWriteBack s a) {known : Bool} (hknown : known = false → poisoned s a = false) :
    let u := portWrote (if !known then s else fullWrite s a) a
    ∃ p e k, u = { s with poison := p, upsets := e, clusters := k } ∧ poisoned u a = false := by
  cases known with
  | false =>
    simp only [Bool.not_false, if_true, portWrote_of_idle h]
    exact ⟨_, _, _, rfl, hknown rfl⟩
  | true =>
    obtain ⟨p, e, k, he, hk⟩ := fullWrite_frame s a
    have hidle : ¬awaitsWriteBack (fullWrite s a) a := (awaitsWriteBack_congr fun n => by rw [he]; exact hk n).not.2 h
    simp only [Bool.not_true, Bool.false_eq_true, if_false, portWrote_of_idle hidle]
    exact ⟨p, e, k, he, fullWrite_poisoned s a⟩

/-- A write of a whole word rewrites it: its poison is gone, and only the error records of its cluster change beside it. -/
theorem wroteRange_full (ha : a % 8 = 0) (h : ¬awaitsWriteBack s a) : ∃ p e k,
    wroteRange s a 8 = { s with poison := p, upsets := e, clusters := k } ∧ poisoned (wroteRange s a 8) a = false := by
  have hword : 8 * (a / 8) = a := by omega
  have hall : (List.range 8).all (fun i => ((List.range 8).map fun i => a + i).contains (a + i)) = true := by
    simp only [List.all_eq_true, List.mem_range, List.contains_iff_mem]
    exact fun i hi => List.mem_map_of_mem (f := fun i => a + i) (List.mem_range.2 hi)
  rw [wroteRange_word (n := 7) (by omega), wroteWord]
  simp only [hword, hall, if_true]
  exact fullWrite_if_known h fun hk => (Bool.or_eq_false_iff.1 (Bool.or_eq_false_iff.1 hk).1).1

/-- A write of half a word without a stored error leaves the word's records alone. -/
theorem wroteRange_half (ha : a % 4 = 0) (hu : upset s a = none) (h : ¬awaitsWriteBack s a) : wroteRange s a 4 = s := by
  have hall : (List.range 8).all (fun i => ((List.range 4).map fun i => a + i).contains (8 * (a / 8) + i)) = false := by
    refine Bool.eq_false_iff.2 fun hall => ?_
    simp only [List.all_eq_true, List.mem_range, List.contains_iff_mem, List.mem_map] at hall
    obtain ⟨i, hi, hi'⟩ := hall 0 (by omega)
    obtain ⟨j, hj, hj'⟩ := hall 4 (by omega)
    omega
  have hu' : upset s (8 * (a / 8)) = none := by rw [upset, Nat.mul_div_cancel_left _ (by omega)]; exact hu
  have h' : ¬awaitsWriteBack s (8 * (a / 8)) := by rwa [awaitsWriteBack, cellOf_word]
  rw [wroteRange_word (n := 3) (by omega), wroteWord]
  simp only [hall, Bool.false_eq_true, if_false, mergeWord_of_no_upset hu', ite_self, portWrote_of_idle h']

/-! ### A debug write -/

theorem wrN_frame (n : Nat) (s : State) (a v : Nat) : wrN s a n v = { s with mem := (wrN s a n v).mem } := by
  induction n generalizing s a v with
  | zero => rfl
  | succ n ih => rw [wrN, ih]; rfl

theorem debugWrite_cluMem (h : regionOf s a = .cluMem c) (wide : Bool) (v : Nat) : debugWrite s a wide v =
    wroteRange (wrN (touchPart s (cluPart s c)) a (if wide then 8 else 4) v) a (if wide then 8 else 4) := by
  have hmarks (n : Nat) : debugMarks s (.cluMem c) a n false = touchPart s (cluPart s c) := by simp [debugMarks, touched]
  rw [debugWrite]
  simp only [h, reduceCtorEq, if_false, debugWb, foldl_wb, hmarks]

theorem awaitsWriteBack_of_wrN (n p v : Nat) : awaitsWriteBack (wrN (touchPart s p) a n v) a ↔ awaitsWriteBack s a :=
  awaitsWriteBack_congr fun m => by rw [clu, wrN_frame, touchPart_side]; rfl

/-- What a write of `n` bytes at `a` through the debug logic leaves: the bytes stored, every other byte and all of host memory as they
were, and of the registers only the touch new (R522, R525). -/
def storesOnly (s u : State) (c a n v : Nat) : Prop :=
  rdN u a n = v % 256 ^ n ∧ sameMemBut s u a n ∧ u.host = s.host ∧ u.regs = (touchPart s (cluPart s c)).regs

theorem storesOnly_of_frame {n p v : Nat} {l : List Nat} {e : List (Nat × Bool)} {k : List (Nat × Cluster)} (hp : p = cluPart s c)
    (hu : u = { wrN (touchPart s p) a n v with poison := l, upsets := e, clusters := k }) : storesOnly s u c a n v := by
  subst hp
  have hmem : u.mem = (wrN (touchPart s (cluPart s c)) a n v).mem := by rw [hu]
  have hhost : u.host = (wrN (touchPart s (cluPart s c)) a n v).host := by rw [hu]
  have hregs : u.regs = (wrN (touchPart s (cluPart s c)) a n v).regs := by rw [hu]
  refine ⟨?_, fun x hx => ?_, ?_, ?_⟩
  · rw [rdN_congr hmem, rdN_wrN_same]
  · have hother : rb (wrN (touchPart s (cluPart s c)) a n v) x = rb s x := by
      rw [rb_wrN_other n hx, rb, rb, regsSide_mem (touchPart_side ..)]
    rw [← hother, rb, rb, hmem]
  · rw [hhost, wrN_host, regsSide_host (touchPart_side ..)]
  · rw [hregs, wrN_regs]

/-- A debug write of a whole word stores it and clears its poison. -/
theorem debugWrite_word (h : regionOf s a = .cluMem c) (ha : a % 8 = 0) (hw : ¬awaitsWriteBack s a) (v : Nat) :
    storesOnly s (debugWrite s a true v) c a 8 v ∧ poisoned (debugWrite s a true v) a = false := by
  obtain ⟨p, e, k, he, hclear⟩ := wroteRange_full ha ((awaitsWriteBack_of_wrN 8 (cluPart s c) v).not.2 hw)
  rw [debugWrite_cluMem h]
  exact ⟨storesOnly_of_frame rfl he, hclear⟩

/-- A debug write of half a word without a stored error stores it. -/
theorem debugWrite_half (h : regionOf s a = .cluMem c) (ha : a % 4 = 0) (hu : upset s a = none) (hw : ¬awaitsWriteBack s a) (v : Nat) :
    storesOnly s (debugWrite s a false v) c a 4 v := by
  have hu' : upset (wrN (touchPart s (cluPart s c)) a 4 v) a = none := by
    have hsame : (wrN (touchPart s (cluPart s c)) a 4 v).upsets = s.upsets := by
      rw [wrN_frame]
      exact regsSide_upsets (t := touchPart s (cluPart s c)) (touchPart_side ..)
    rw [upset_congr hsame, hu]
  rw [debugWrite_cluMem h]
  exact storesOnly_of_frame rfl (wroteRange_half ha hu' ((awaitsWriteBack_of_wrN 4 (cluPart s c) v).not.2 hw))

end Sys2Proof.Machine
end

section
/-!
O46: the accesses of the debug aperture and of JTAG (R519-R525), and the register writes that reach the debug logic and the BMC
(R519, R555).
-/
namespace Sys2Proof.Machine
open Reg Laws

variable {s t u : State} {a c : Nat}

/-- A debug access has begun: a session is open, and only the session's registers, the JTAG port and the stored errors may have
changed (R523, R524). -/
def accessBegun (s t : State) : Prop :=
  t = { s with regs := t.regs, sec := t.sec, upsets := t.upsets } ∧ sameRegsBut s t sessionRegs ∧ isSet t SEC_DBG_STAT_ACTIVE = true

theorem accessBegun_openSession (i : Sec) : accessBegun s (openSession { s with sec := i }) := by
  have hregs : sameRegsBut s { s with sec := i } sessionRegs := sameRegsBut_of_regs rfl
  refine ⟨?_, sameRegsBut_trans hregs (openSession_regs _), openSession_active _⟩
  obtain ⟨r, hr⟩ : ∃ r, openSession { s with sec := i } = { s with sec := i, regs := r } := ⟨_, openSession_side _⟩
  rw [hr]

theorem accessBegun_debugErr (h : accessBegun s t) (a : Nat) (e : Ecc) : accessBegun s (debugErr t a e) := by
  obtain ⟨ht, hregs, hactive⟩ := h
  obtain ⟨x, hx⟩ : ∃ x, debugErr t a e = { t with upsets := x } := ⟨_, debugErr_frame ..⟩
  rw [hx]
  exact ⟨by rw [ht], hregs, hactive⟩

theorem accessBegun_sec (h : accessBegun s t) (i : Sec) : accessBegun s { t with sec := i } := by
  obtain ⟨ht, hregs, hactive⟩ := h
  exact ⟨by rw [ht], hregs, hactive⟩

section
variable (h : accessBegun s t)
include h

theorem accessBegun_accessRegs : sameRegsBut s t accessRegs := sameRegsBut_mono h.2.1 sessionRegs_subset

theorem accessBegun_region (a : Nat) : regionOf t a = regionOf s a :=
  regionOf_of_accessRegs (by rw [h.1]) (accessBegun_accessRegs h) a

theorem accessBegun_mem : t.mem = s.mem := by rw [h.1]

theorem accessBegun_host : t.host = s.host := by rw [h.1]

theorem accessBegun_out : t.out = s.out := by rw [h.1]

theorem accessBegun_poisoned (a : Nat) : poisoned t a = poisoned s a := by rw [poisoned, poisoned, h.1]

theorem accessBegun_cluPart (n : Nat) : cluPart t n = cluPart s n :=
  cluPart_of_accessRegs (by rw [h.1]) (accessBegun_accessRegs h) n

theorem accessBegun_awaitsWriteBack (a : Nat) : awaitsWriteBack t a ↔ awaitsWriteBack s a :=
  awaitsWriteBack_congr fun n => by rw [clu, clu, h.1]

theorem accessBegun_touches (c a n : Nat) (read : Bool) : opensAndTouches s (debugMarks t (.cluMem c) a n read) c :=
  debugMarks_touches (by rw [h.1]) (accessBegun_accessRegs h) h.2.2 c a n read

theorem accessBegun_marks (r : Region) (a n : Nat) (read : Bool) : sameRegsBut s (debugMarks t r a n read) accessRegs :=
  sameRegsBut_trans (accessBegun_accessRegs h) (debugMarks_regs _ _ _ _ _)

end

theorem debugMarks_cluMem_regs (s : State) (c a n : Nat) (read : Bool) :
    sameRegsBut s (debugMarks s (.cluMem c) a n read) (SEC_APT_STAT_POISON :: sessionRegs) := by
  have h : sameRegsBut s (touchPart s (touched s (.cluMem c) a)) (SEC_APT_STAT_POISON :: sessionRegs) :=
    sameRegsBut_mono (touchPart_regs _ _) (by simp [sessionRegs])
  exact sameRegsBut_ite (sameRegsBut_wr h (by simp)) h

/-! ### The aperture -/

/-- The number of bytes of an access. -/
def accessSize (wide : Bool) : Nat := if wide then 8 else 4

/-- The internal address of an offset in the window (R519). -/
def windowAddr (s : State) (off : Nat) : Nat := rd s SEC_APT_BASE_BASE * 0x400000 + off

/-- What a debug read through the aperture answers: the state after the read and the value sent (R521, R522). -/
def readAnswer (t : State) (a : Nat) (wide peek : Bool) : State := emit (debugRead t a wide peek).1 (.value (debugRead t a wide peek).2)

theorem apertureRead_window {off : Nat} {wide : Bool} (hon : apertureOn s = true) (hal : off % accessSize wide = 0) (hoff : off < 0x7FF000)
    (peek : Bool) (e : Ecc) : apertureRead off wide peek e s =
      .next (readAnswer (debugErr (openSession s) (windowAddr s off) e) (windowAddr s off) wide peek) := by
  have hbase : rd (openSession s) SEC_APT_BASE_BASE = rd s SEC_APT_BASE_BASE := openSession_regs s _ (by decide)
  have haligned : aligned off wide = true := by simpa [aligned, accessSize] using hal
  rw [apertureRead]
  simp only [hon, haligned, Bool.not_true, Bool.false_eq_true, if_false, Nat.not_le.2 hoff, aptAddr, hbase]
  rfl

theorem apertureRead_control {off : Nat} {wide : Bool} (hon : apertureOn s = true) (hal : off % accessSize wide = 0) (hoff : ¬off < 0x7FF000)
    (peek : Bool) (e : Ecc) : ∃ v, apertureRead off wide peek e s = .next (emit (openSession s) (.value v)) := by
  have haligned : aligned off wide = true := by simpa [aligned, accessSize] using hal
  rw [apertureRead]
  simp only [hon, haligned, Bool.not_true, Bool.false_eq_true, if_false, Nat.not_lt.1 hoff, if_true]
  exact ⟨_, rfl⟩

theorem apertureRead_unaligned {off : Nat} {wide : Bool} (hon : apertureOn s = true) (hal : off % accessSize wide ≠ 0) (peek : Bool) (e : Ecc) :
    apertureRead off wide peek e s =
      .next { s with out := s.out ++ [.unsupported 0] ++ [.value (2 ^ (8 * accessSize wide) - 1)] } := by
  have haligned : aligned off wide = false := by simpa [aligned, accessSize] using hal
  rw [apertureRead]
  simp only [hon, haligned, Bool.not_true, Bool.not_false, Bool.false_eq_true, if_false, if_true]
  cases wide
  all_goals rfl

/-- Both kinds of read, of which the aperture has a half each (R519). -/
theorem completes_reads {off : BitVec 23} {wide : Bool} {e : Ecc} {P : State → Prop}
    (h : ∀ peek, ∃ u, apertureRead off.toNat wide peek e s = .next u ∧ P u) :
    ∀ i ∈ [Instr.peekRead off wide e, .debugNormalRead off wide e], completes i s P := by
  simp only [List.mem_cons, List.not_mem_nil, or_false]
  rintro i (rfl | rfl)
  exacts [h true, h false]

/-- A clean read returns the bytes and leaves only the marks. -/
theorem readAnswer_cluMem {n : Nat} {wide : Bool} (hn : n = accessSize wide) (h : accessBegun s t) (hr : regionOf s a = .cluMem c)
    (hu : upset t a ≠ some true) (peek : Bool) : let u := readAnswer t a wide peek
      u = emit (debugMarks t (.cluMem c) a n true) (.value (rdN s a n)) := by
  subst hn
  have hread := debugRead_cluMem ((accessBegun_region h a).trans hr) hu wide peek
  rw [readAnswer, hread, rdN_congr (accessBegun_mem h)]
  rfl

/-- A read that meets an uncorrectable error leaves the marks, POISON among them. -/
theorem readAnswer_uncorrectable (h : accessBegun s t) (hr : regionOf s a = .cluMem c) (wide peek : Bool) :
    let u := readAnswer (debugErr t a .uncorrectable) a wide peek
    rd u SEC_APT_STAT_POISON = 1 ∧ opensAndTouches s u c ∧ u.mem = s.mem := by
  have hregion : regionOf t a = .cluMem c := (accessBegun_region h a).trans hr
  have he : accessBegun s (debugErr t a .uncorrectable) := accessBegun_debugErr h a .uncorrectable
  have hupset : upset (debugErr t a .uncorrectable) a = some true := by
    rw [debugErr_cluMem hregion]
    exact addEcc_uncorrectable_upset t a
  have hregion' : regionOf (debugErr t a .uncorrectable) a = .cluMem c := (accessBegun_region he a).trans hr
  generalize debugErr t a .uncorrectable = t' at he hupset hregion'
  have hwrong : wrongBits t' (regionOf t' a) a = true := by rw [hregion', wrongBits, hupset]; rfl
  have hread : (debugRead t' a wide peek).1 = (fresh (debugMarks t' (.cluMem c) a (if wide then 8 else 4) true)).2 := by
    rw [debugRead_memory (by simp [hregion']), hwrong, hregion']
    rfl
  have hpoison := debugMarks_poison (anyBad_of_upset (n := if wide then 8 else 4) (by split <;> decide) hupset) c
  have htouches := accessBegun_touches he c a (if wide then 8 else 4) true
  simp only [readAnswer, hread]
  exact ⟨hpoison, htouches, (debugMarks_mem ..).trans (accessBegun_mem he)⟩

end Sys2Proof.Machine
end

section
/-!
O46, clause by clause.
-/
namespace Sys2Proof.Machine
open Reg Laws

variable {s t u : State} {c : Nat} {off : Nat} {wide : Bool}

/-! ### Reads through the aperture -/

theorem fieldsAt_selftest : fieldsAt 0x22000014 = [FLT_SELFTEST_FAILS_B, FLT_SELFTEST_FAILS_A, FLT_SELFTEST_RUNS] := by decide

theorem debugRead_selftest (t : State) :
    (debugRead t 0x22000014 false false).1 = wr (wr t FLT_SELFTEST_FAILS_B 0) FLT_SELFTEST_FAILS_A 0 := by
  have hregion : regionOf t 0x22000014 = .reg := rfl
  have hwords : (regWords 0x22000014 false).zipIdx = [(0x22000014, 0)] := rfl
  have hb : FLT_SELFTEST_FAILS_B.acc = .rc := rfl
  have ha : FLT_SELFTEST_FAILS_A.acc = .rc := rfl
  have hruns : FLT_SELFTEST_RUNS.acc ≠ .rc := by decide
  rw [debugRead_reg hregion, hwords]
  simp only [List.foldl_cons, List.foldl_nil, Bool.false_eq_true, if_false]
  rw [regRead, if_neg (by decide), fieldsAt_selftest]
  simp only [List.foldl_cons, List.foldl_nil, hb, ha, hruns, if_true, if_false]

/-- Its counts are clear after a normal read (R10). -/
theorem readAnswer_selftest (t : State) : let u := readAnswer t 0x22000014 false false
    rd u FLT_SELFTEST_FAILS_A = 0 ∧ rd u FLT_SELFTEST_FAILS_B = 0 := by
  simp only [readAnswer, debugRead_selftest]
  refine ⟨?_, ?_⟩
  · rw [rd_emit, rd_wr_same]
    rfl
  · rw [rd_emit, rd_wr_other (by decide), rd_wr_same]
    rfl

/-- The register stands in the lower half of a word of 8 bytes. -/
theorem selftest_narrow (ha : windowAddr s off = 0x22000014) (hal : off % accessSize wide = 0) : wide = false := by
  cases wide with
  | false => rfl
  | true =>
    simp only [windowAddr, accessSize, if_true] at ha hal
    omega

theorem accessSize_pos (wide : Bool) : 0 < accessSize wide := by cases wide <;> decide

section
variable (hon : apertureOn s = true) (hal : off % accessSize wide = 0)
include hon hal

/-- An aligned read of the window in a cluster memory returns its bytes, through either half. -/
theorem window_read_cluMem (hoff : off < 0x7FF000) (hr : regionOf s (windowAddr s off) = .cluMem c)
    (hu : upset s (windowAddr s off) ≠ some true) (peek : Bool) : ∃ u, apertureRead off wide peek .clean s = .next u ∧
      u.out = s.out ++ [.value (rdN s (windowAddr s off) (accessSize wide))] ∧ u = { s with regs := u.regs, out := u.out } ∧
      opensAndTouches s u c ∧ (poisoned s (windowAddr s off) = true → rd u SEC_APT_STAT_POISON = 1) ∧
      sameRegsBut s u (SEC_APT_STAT_POISON :: sessionRegs) := by
  have hbegun : accessBegun s (openSession s) := accessBegun_openSession s.sec
  have hregion : regionOf (openSession s) (windowAddr s off) = .cluMem c := (accessBegun_region hbegun _).trans hr
  have hupset : upset (openSession s) (windowAddr s off) ≠ some true := by
    rwa [upset_congr (regsSide_upsets (openSession_side s))]
  have hside : regsSide s (debugMarks (openSession s) (.cluMem c) (windowAddr s off) (accessSize wide) true) :=
    regsSide_trans (openSession_side s) (debugMarks_side ..)
  refine ⟨_, apertureRead_window hon hal hoff peek .clean, ?_⟩
  rw [debugErr_cluMem hregion, addEcc, readAnswer_cluMem rfl hbegun hr hupset]
  refine ⟨?_, ?_, accessBegun_touches hbegun c _ _ true, fun hp => ?_, ?_⟩
  · rw [emit_out, hside]
  · obtain ⟨r, hr⟩ : ∃ r, debugMarks (openSession s) (.cluMem c) (windowAddr s off) (accessSize wide) true = { s with regs := r } :=
      ⟨_, hside⟩
    rw [hr]
    rfl
  · refine debugMarks_poison (anyBad_of_poisoned (accessSize_pos wide) ?_) c
    rw [accessBegun_poisoned hbegun, hp]
  · exact sameRegsBut_congr
      (sameRegsBut_trans (sameRegsBut_mono (openSession_regs s) (by simp)) (debugMarks_cluMem_regs _ _ _ _ _)) rfl

/-- One that meets an uncorrectable error shows POISON. -/
theorem window_read_uncorrectable (hoff : off < 0x7FF000) (hr : regionOf s (windowAddr s off) = .cluMem c) (peek : Bool) :
    ∃ u, apertureRead off wide peek .uncorrectable s = .next u ∧ rd u SEC_APT_STAT_POISON = 1 ∧ opensAndTouches s u c ∧ u.mem = s.mem := by
  have hstep := apertureRead_window hon hal hoff peek .uncorrectable
  generalize windowAddr s off = a at hstep hr
  exact ⟨_, hstep, readAnswer_uncorrectable (accessBegun_openSession s.sec) hr wide peek⟩

/-- A peek has no side effect but the marks of the access. -/
theorem peek_frame (e : Ecc) : ∃ u, apertureRead off wide true e s = .next u ∧
    u = { s with regs := u.regs, out := u.out, upsets := u.upsets, free := u.free } ∧ sameRegsBut s u accessRegs := by
  have hopen : sameRegsBut s (openSession s) accessRegs := sameRegsBut_mono (openSession_regs s) sessionRegs_subset
  obtain ⟨r, hr⟩ : ∃ r, openSession s = { s with regs := r } := ⟨_, openSession_side s⟩
  by_cases hoff : off < 0x7FF000
  · have hstep := apertureRead_window hon hal hoff true e
    generalize windowAddr s off = a at hstep
    obtain ⟨x, hx⟩ : ∃ x, debugErr (openSession s) a e = { s with regs := r, upsets := x } := by
      rw [debugErr_frame, hr]
      exact ⟨_, rfl⟩
    have hregs : sameRegsBut s { s with regs := r, upsets := x } accessRegs := sameRegsBut_congr hopen (by rw [hr])
    obtain ⟨hside, hpeek⟩ := debugRead_peek { s with regs := r, upsets := x } a wide
    rw [hx, readAnswer] at hstep
    refine ⟨_, hstep, ?_, sameRegsBut_congr (sameRegsBut_trans hregs hpeek) (emit_regs _ _)⟩
    generalize debugRead { s with regs := r, upsets := x } a wide true = p at hside
    obtain ⟨t, v⟩ := p
    simp only at hside
    rw [hside]
    rfl
  · obtain ⟨v, hv⟩ := apertureRead_control hon hal hoff true e
    refine ⟨_, hv, ?_, sameRegsBut_congr hopen (emit_regs _ _)⟩
    rw [hr]
    rfl

/-- A normal read changes no memory. -/
theorem normalRead_memories (e : Ecc) : ∃ u, apertureRead off wide false e s = .next u ∧ u.mem = s.mem ∧ u.host = s.host := by
  have hbegun : accessBegun s (openSession s) := accessBegun_openSession s.sec
  by_cases hoff : off < 0x7FF000
  · have hstep := apertureRead_window hon hal hoff false e
    generalize windowAddr s off = a at hstep
    have herr : accessBegun s (debugErr (openSession s) a e) := accessBegun_debugErr hbegun ..
    obtain ⟨hmem, hhost⟩ := debugRead_memories (debugErr (openSession s) a e) a wide false
    refine ⟨_, hstep, ?_, ?_⟩
    · rw [readAnswer, emit_mem, hmem, accessBegun_mem herr]
    · rw [readAnswer, emit_host, hhost, accessBegun_host herr]
  · obtain ⟨v, hv⟩ := apertureRead_control hon hal hoff false e
    refine ⟨_, hv, ?_, ?_⟩
    · rw [emit_mem, accessBegun_mem hbegun]
    · rw [emit_host, accessBegun_host hbegun]

/-- A normal read of FLT_SELFTEST clears its counts (R10). -/
theorem normalRead_selftest (hoff : off < 0x7FF000) (ha : windowAddr s off = 0x22000014) (e : Ecc) :
    ∃ u, apertureRead off wide false e s = .next u ∧ rd u FLT_SELFTEST_FAILS_A = 0 ∧ rd u FLT_SELFTEST_FAILS_B = 0 := by
  have hnarrow : wide = false := selftest_narrow ha hal
  have hstep := apertureRead_window hon hal hoff false e
  rw [ha] at hstep
  subst hnarrow
  exact ⟨_, hstep, readAnswer_selftest _⟩

/-- PEEK_WRITE stores nothing: it sets PEEK_WR (R521). -/
theorem peekWrite_aligned {o : BitVec 23} (ho : o.toNat = off) (v : BitVec 64) : completes (.peekWrite o wide v) s fun u =>
    rd u SEC_APT_STAT_PEEK_WR = 1 ∧ isSet u SEC_DBG_STAT_ACTIVE = true ∧ u = { s with regs := u.regs } ∧
    sameRegsBut s u (SEC_APT_STAT_PEEK_WR :: sessionRegs) := by
  have haligned : aligned o.toNat wide = true := by rw [ho]; simpa [aligned, accessSize] using hal
  refine ⟨wr (openSession s) SEC_APT_STAT_PEEK_WR 1, ?_, ?_, ?_, ?_, ?_⟩
  · show execPeekWrite o wide v s = _
    rw [execPeekWrite]
    simp only [hon, haligned, Bool.not_true, Bool.false_eq_true, if_false, if_true]
  · rw [rd_wr_same]
    rfl
  · rw [isSet, rd_wr_other (by decide)]
    exact openSession_active s
  · exact regsSide_wr (openSession_side s) ..
  · exact sameRegsBut_wr (sameRegsBut_mono (openSession_regs s) (by simp)) (by simp)

end

end Sys2Proof.Machine
end

section
/-!
O46: the accesses through JTAG, a debugger's register writes, and the register writes of the Plinth and the host.
-/
namespace Sys2Proof.Machine
open Reg Laws

variable {s t u : State} {a c : Nat}

/-! ### Bits of a mask -/

theorem bit_of_lt {x i : Nat} (h : x < 2 ^ i) : bit x i = false := by simp [bit, Nat.div_eq_of_lt h]

/-- The mask of the bits below `n` that satisfy `p` fits `n` bits and holds exactly those. -/
theorem bit_mask (p : Nat → Bool) (n : Nat) :
    ((List.range n).filter p).foldl (fun m i => m + 2 ^ i) 0 < 2 ^ n ∧
    ∀ i < n, bit (((List.range n).filter p).foldl (fun m i => m + 2 ^ i) 0) i = p i := by
  induction n with
  | zero => exact ⟨Nat.one_pos, fun i hi => absurd hi (Nat.not_lt_zero i)⟩
  | succ n ih =>
    obtain ⟨hlt, hbits⟩ := ih
    rw [List.range_succ, List.filter_append, List.foldl_append]
    generalize ((List.range n).filter p).foldl (fun m i => m + 2 ^ i) 0 = m at hlt hbits
    have htwo : 2 ^ (n + 1) = 2 ^ n + 2 ^ n := by rw [Nat.pow_succ]; omega
    cases hp : p n with
    | false =>
      simp only [List.filter_cons, hp, Bool.false_eq_true, if_false, List.filter_nil, List.foldl_nil]
      refine ⟨by omega, fun i hi => ?_⟩
      by_cases hin : i = n
      · rw [hin, hp, bit_of_lt hlt]
      · exact hbits i (by omega)
    | true =>
      simp only [List.filter_cons, hp, if_true, List.filter_nil, List.foldl_cons, List.foldl_nil]
      refine ⟨by omega, fun i hi => ?_⟩
      by_cases hin : i = n
      · have hone : (m + 2 ^ n) / 2 ^ n = 1 := by rw [Nat.add_div_right _ (Nat.two_pow_pos n), Nat.div_eq_of_lt hlt]
        rw [hin, hp, bit, hone]
        rfl
      · have hlow : i < n := by omega
        rw [← hbits i hlow, ← bit_mod hlow, Nat.add_mod_right, Nat.mod_eq_of_lt hlt]

theorem bit_andNot {n x y i : Nat} (h : i < n) : bit (andNot n x y) i = (bit x i && !bit y i) :=
  (bit_mask (fun i => bit x i && !bit y i) n).2 i h

theorem bit_bits {x lo n i : Nat} (h : i < n) : bit (bits x lo n) i = bit x (lo + i) := by
  rw [bits, bit_mod h, bit, bit, Nat.div_div_eq_div_mul, Nat.pow_add]

/-! ### Accesses that have begun -/

/-- What a write that begins with `t` leaves, seen from the state before. -/
theorem storesOnly_of_begun {n v : Nat} (h : accessBegun s t) (hu : storesOnly t u c a n v) (hv : v < 256 ^ n) :
    rdN u a n = v ∧ sameMemBut s u a n ∧ u.host = s.host ∧ opensAndTouches s u c ∧ sameRegsBut s u sessionRegs := by
  obtain ⟨hread, hmem, hhost, hregs⟩ := hu
  have htouches : opensAndTouches s (touchPart t (cluPart t c)) c := by
    have hmarks := accessBegun_touches h c a n false
    simpa [debugMarks, touched] using hmarks
  refine ⟨by rw [hread, Nat.mod_eq_of_lt hv], fun x hx => ?_, by rw [hhost, accessBegun_host h], ?_, ?_⟩
  · rw [hmem x hx, rb, rb, accessBegun_mem h]
  · simpa only [opensAndTouches, isSet, rd_congr hregs] using htouches
  · have htouch : sameRegsBut t (touchPart t (cluPart t c)) sessionRegs := sameRegsBut_mono (touchPart_regs _ _) (by simp [sessionRegs])
    exact sameRegsBut_congr (sameRegsBut_trans h.2.1 htouch) hregs

/-! ### JTAG -/

/-- The state in which an access through JTAG begins: the instruction is selected and a session open (R523, R524). -/
def jtagBegun (s : State) (peek : Bool) : State := openSession (selectJtag s (if peek then 7 else 6))

theorem jtagBegun_begun (s : State) (peek : Bool) : accessBegun s (jtagBegun s peek) := accessBegun_openSession _

/-- What a JTAG read answers (R523). -/
def jtagAnswer (t : State) (a : Nat) (wide peek : Bool) : State :=
  let q := debugRead t a wide peek
  jtagOut { q.1 with sec := { q.1.sec with jtagData := q.2 } } q.2

theorem jtagAnswer_of_read {wide peek : Bool} {v : Nat} (h : debugRead t a wide peek = (u, v)) :
    (∃ st, st < 64 ∧ (jtagAnswer t a wide peek).out = u.out ++ [.jtag (v + st * 2 ^ 64)]) ∧ (jtagAnswer t a wide peek).sec.jtagData = v ∧
    (jtagAnswer t a wide peek).mem = u.mem ∧ (jtagAnswer t a wide peek).regs = u.regs := by
  rw [jtagAnswer, h]
  exact ⟨⟨_, Nat.mod_lt _ (by decide), rfl⟩, rfl, rfl, rfl⟩

section
variable {addr : BitVec 40} {wide : Bool}

theorem jtagAccess_off (h : debugOn s = false) (w : Option (BitVec 64)) (peek : Bool) (e : Ecc) : jtagAccess addr wide w peek e s = .next s := by
  rw [jtagAccess, h]
  rfl

section
variable (hon : debugOn s = true)
include hon

theorem jtagAccess_read (hal : addr.toNat % accessSize wide = 0) (peek : Bool) (e : Ecc) :
    jtagAccess addr wide none peek e s = .next (jtagAnswer (debugErr (jtagBegun s peek) addr.toNat e) addr.toNat wide peek) := by
  have haligned : aligned addr.toNat wide = true := by simpa [aligned, accessSize] using hal
  rw [jtagAccess]
  simp only [hon, haligned, Bool.not_true, Bool.false_eq_true, if_false]
  rfl

theorem jtagAccess_write (hal : addr.toNat % 8 = 0) (v : BitVec 64) (peek : Bool) (e : Ecc) : ∃ i : Sec,
    jtagAccess addr true (some v) peek e s =
      .next (if peek then wr { jtagBegun s peek with sec := i } SEC_APT_STAT_PEEK_WR 1
        else debugWrite (debugErr { jtagBegun s peek with sec := i } addr.toNat e) addr.toNat true v.toNat) := by
  have haligned : aligned addr.toNat true = true := by simpa [aligned] using hal
  rw [jtagAccess]
  simp only [hon, haligned, Bool.not_true, Bool.false_eq_true, if_false]
  refine ⟨{ (jtagBegun s peek).sec with jtagData := v.toNat }, ?_⟩
  cases peek
  all_goals rfl

theorem jtagAccess_unaligned (hal : addr.toNat % 8 ≠ 0) (v : BitVec 64) (peek : Bool) (e : Ecc) :
    jtagAccess addr true (some v) peek e s = .next (jtagBegun s peek) := by
  have haligned : aligned addr.toNat true = false := by simpa [aligned] using hal
  rw [jtagAccess]
  simp only [hon, haligned, Bool.not_true, Bool.not_false, Bool.false_eq_true, if_false, if_true]
  rfl

/-- An aligned write of 8 bytes into a cluster memory stores them and clears the word's poison. -/
theorem dbgAccess_write_cluMem (hr : regionOf s addr.toNat = .cluMem c) (hal : addr.toNat % 8 = 0) (hw : ¬awaitsWriteBack s addr.toNat)
    (v : BitVec 64) (e : Ecc) : completes (.dbgAccess addr true (some v) e) s fun u =>
      rdN u addr.toNat 8 = v.toNat ∧ sameMemBut s u addr.toNat 8 ∧ poisoned u addr.toNat = false ∧ u.host = s.host ∧
      opensAndTouches s u c ∧ sameRegsBut s u sessionRegs := by
  obtain ⟨i, hstep⟩ := jtagAccess_write hon hal v false e
  have hbegun : accessBegun s (debugErr { jtagBegun s false with sec := i } addr.toNat e) :=
    accessBegun_debugErr (accessBegun_sec (jtagBegun_begun s false) i) ..
  generalize debugErr { jtagBegun s false with sec := i } addr.toNat e = t at hstep hbegun
  obtain ⟨hstores, hclear⟩ := debugWrite_word ((accessBegun_region hbegun _).trans hr) hal
    (fun h => hw ((accessBegun_awaitsWriteBack hbegun _).1 h)) v.toNat
  obtain ⟨hread, hmem, hhost, htouches, hregs⟩ := storesOnly_of_begun hbegun hstores v.isLt
  exact ⟨_, hstep, hread, hmem, hclear, hhost, htouches, hregs⟩

/-- A peek's write stores nothing: it sets PEEK_WR (R523). -/
theorem dbgPeek_write (hal : addr.toNat % 8 = 0) (v : BitVec 64) (e : Ecc) : completes (.dbgPeek addr true (some v) e) s fun u =>
    rd u SEC_APT_STAT_PEEK_WR = 1 ∧ u.mem = s.mem ∧ sameRegsBut s u (SEC_APT_STAT_PEEK_WR :: sessionRegs) := by
  obtain ⟨i, hstep⟩ := jtagAccess_write hon hal v true e
  have hbegun : accessBegun s { jtagBegun s true with sec := i } := accessBegun_sec (jtagBegun_begun s true) i
  generalize { jtagBegun s true with sec := i } = t at hstep hbegun
  obtain ⟨-, hregs, -⟩ := id hbegun
  refine ⟨_, hstep, ?_, ?_, ?_⟩
  · rw [if_pos rfl, rd_wr_same]
    rfl
  · rw [if_pos rfl, wr_mem, accessBegun_mem hbegun]
  · rw [if_pos rfl]
    exact sameRegsBut_wr (sameRegsBut_mono hregs (by simp)) (by simp)

theorem dbgAccess_write_unaligned (hal : addr.toNat % 8 ≠ 0) (v : BitVec 64) (e : Ecc) :
    completes (.dbgAccess addr true (some v) e) s fun u => u.mem = s.mem ∧ u.out = s.out :=
  ⟨_, jtagAccess_unaligned hon hal v false e, accessBegun_mem (jtagBegun_begun s false), accessBegun_out (jtagBegun_begun s false)⟩

/-- Both reads of a cluster memory shift out its bytes, with six free status bits, and keep them in the data register. -/
theorem jtagRead_cluMem (hr : regionOf s addr.toNat = .cluMem c) (hal : addr.toNat % accessSize wide = 0)
    (hu : upset s addr.toNat ≠ some true) (peek : Bool) : ∃ u, jtagAccess addr wide none peek .clean s = .next u ∧
      (∃ st, st < 64 ∧ u.out = s.out ++ [.jtag (rdN s addr.toNat (accessSize wide) + st * 2 ^ 64)]) ∧
      u.sec.jtagData = rdN s addr.toNat (accessSize wide) ∧ u.mem = s.mem ∧ opensAndTouches s u c := by
  have hbegun := jtagBegun_begun s peek
  have hupset : upset (jtagBegun s peek) addr.toNat ≠ some true := by
    have hsame : (jtagBegun s peek).upsets = s.upsets := (regsSide_upsets (openSession_side (selectJtag s (if peek then 7 else 6))) :)
    rwa [upset_congr hsame]
  have hregion : regionOf (jtagBegun s peek) addr.toNat = .cluMem c := (accessBegun_region hbegun _).trans hr
  have hstep := jtagAccess_read hon hal peek .clean
  rw [debugErr_cluMem hregion, addEcc] at hstep
  generalize jtagBegun s peek = t at hbegun hupset hregion hstep
  have hmarks := debugMarks_side t (.cluMem c) addr.toNat (accessSize wide) true
  have htouches := accessBegun_touches hbegun c addr.toNat (accessSize wide) true
  have hmem : (debugMarks t (.cluMem c) addr.toNat (accessSize wide) true).mem = s.mem := (debugMarks_mem ..).trans (accessBegun_mem hbegun)
  have hout : (debugMarks t (.cluMem c) addr.toNat (accessSize wide) true).out = s.out := by rw [hmarks, accessBegun_out hbegun]
  have hread : debugRead t addr.toNat wide peek =
      (debugMarks t (.cluMem c) addr.toNat (accessSize wide) true, rdN t addr.toNat (accessSize wide)) :=
    debugRead_cluMem hregion hupset wide peek
  rw [rdN_congr (accessBegun_mem hbegun)] at hread
  obtain ⟨⟨st, hst, hout'⟩, hdata, hmem', hregs⟩ := jtagAnswer_of_read hread
  refine ⟨_, hstep, ⟨st, hst, hout'.trans (congrArg (· ++ _) hout)⟩, hdata, hmem'.trans hmem, ?_⟩
  simpa only [opensAndTouches, isSet, rd_congr hregs] using htouches

end

/-! ### Register writes -/

/-- A debugger's aligned register write into a cluster memory stores its four bytes. -/
theorem registerWrite_cluMem (hon : debugOn s = true) (hr : regionOf s addr.toNat = .cluMem c) (hal : addr.toNat % 4 = 0)
    (hw : ¬awaitsWriteBack s addr.toNat) (hu : upset s addr.toNat = none) (v : BitVec 32) :
    completes (.registerWrite addr v true) s fun u => rdN u addr.toNat 4 = v.toNat ∧ sameMemBut s u addr.toNat 4 ∧ u.host = s.host ∧
      opensAndTouches s u c ∧ sameRegsBut s u sessionRegs := by
  have haligned : aligned addr.toNat false = true := by simpa [aligned] using hal
  have hbegun : accessBegun s (openSession s) := accessBegun_openSession s.sec
  have hupset : upset (openSession s) addr.toNat = none := by rwa [upset_congr (regsSide_upsets (openSession_side s))]
  have hstep : execRegisterWrite addr v true s = .next (debugWrite (openSession s) addr.toNat false v.toNat) := by
    rw [execRegisterWrite]
    simp only [hon, haligned, Bool.not_true, Bool.false_eq_true, if_false, if_true]
  generalize openSession s = t at hbegun hupset hstep
  have hstores := debugWrite_half ((accessBegun_region hbegun _).trans hr) hal hupset
    (fun h => hw ((accessBegun_awaitsWriteBack hbegun _).1 h)) v.toNat
  exact ⟨_, hstep, storesOnly_of_begun hbegun hstores v.isLt⟩

end

theorem fieldsAt_aptBase : fieldsAt 0x24000050 = [SEC_APT_BASE_BASE] := by decide

theorem registerWrite_aptBase (s : State) (v : BitVec 32) : completes (.registerWrite 0x24000050 v false) s fun u =>
    rd u SEC_APT_BASE_BASE = bits v.toNat 0 18 ∧ u = { s with regs := u.regs } ∧ sameRegsBut s u [SEC_APT_BASE_BASE] := by
  have hwrite (who : Nat) : regWrite s 0x24000050 v.toNat who = wr s SEC_APT_BASE_BASE (bits v.toNat 0 18) := by
    simp [regWrite, inBlock, secWrite, plainWrite, fieldsAt_aptBase, fieldWrite, SEC_APT_BASE_BASE]
  have hstep : execRegisterWrite 0x24000050 v false s = .next (wr s SEC_APT_BASE_BASE (bits v.toNat 0 18)) := by
    have hregion : regionOf s 0x24000050 = .reg := rfl
    have ha : (0x24000050 : BitVec 40).toNat = 0x24000050 := rfl
    simp only [execRegisterWrite, ha, hregion, hwrite]
    rfl
  refine ⟨_, hstep, ?_, rfl, sameRegsBut_wr (sameRegsBut_of_regs rfl) (by simp)⟩
  rw [rd_wr_same]
  exact Nat.mod_eq_of_lt (Nat.mod_lt _ (by decide))

/-- The host's write of BMC register 4 clears the LAST_FAIL bits it names (R555). -/
theorem registerWrite_lastFail (s : State) (v : BitVec 32) : completes (.registerWrite 4 v false) s fun u =>
    u = { s with regs := u.regs } ∧ sameRegsBut s u [BMC_RAILS_LAST_FAIL] ∧
    ∀ i < 11, bit (rd u BMC_RAILS_LAST_FAIL) i = (bit (rd s BMC_RAILS_LAST_FAIL) i && !bit v.toNat (16 + i)) := by
  refine ⟨wr s BMC_RAILS_LAST_FAIL (andNot 11 (rd s BMC_RAILS_LAST_FAIL) (bits v.toNat 16 11)), rfl, rfl,
    sameRegsBut_wr (sameRegsBut_of_regs rfl) (by simp), fun i hi => ?_⟩
  rw [rd_wr_same, show BMC_RAILS_LAST_FAIL.width = 11 from rfl, bit_mod hi, bit_andNot hi, bit_bits hi]

theorem registerWrite_elsewhere {addr : BitVec 40} (ha : 0x100 ≤ addr.toNat) (hr : regionOf s addr.toNat ≠ .reg) (v : BitVec 32) :
    completes (.registerWrite addr v false) s (· = s) := by
  refine ⟨s, ?_, rfl⟩
  show execRegisterWrite addr v false s = _
  simp only [execRegisterWrite, Bool.false_eq_true, if_false, if_neg (Nat.not_lt.2 ha), hr, and_false]

/-! ### With the debug logic or the aperture off -/

theorem debugOff_same (h : debugOn s = false) (addr : BitVec 40) (wide : Bool) (w : Option (BitVec 64)) (v : BitVec 32) (e : Ecc) :
    ∀ i ∈ [Instr.dbgAccess addr wide w e, .dbgPeek addr wide w e, .registerWrite addr v true], completes i s (· = s) := by
  simp only [List.mem_cons, List.not_mem_nil, or_false]
  rintro i (rfl | rfl | rfl)
  · exact ⟨s, jtagAccess_off h w false e, rfl⟩
  · exact ⟨s, jtagAccess_off h w true e, rfl⟩
  · refine ⟨s, ?_, rfl⟩
    show execRegisterWrite addr v true s = _
    simp [execRegisterWrite, h]

theorem apertureOff_same (h : apertureOn s = false) (off : BitVec 23) (wide : Bool) (v : BitVec 64) (e : Ecc) :
    ∀ i ∈ [Instr.peekRead off wide e, .debugNormalRead off wide e, .peekWrite off wide v], completes i s (· = s) := by
  have hread (peek : Bool) : apertureRead off.toNat wide peek e s = .next s := by simp [apertureRead, h]
  simp only [List.mem_cons, List.not_mem_nil, or_false]
  rintro i (rfl | rfl | rfl)
  · exact ⟨s, hread true, rfl⟩
  · exact ⟨s, hread false, rfl⟩
  · refine ⟨s, ?_, rfl⟩
    show execPeekWrite off wide v s = _
    simp [execPeekWrite, h]

/-- An unaligned access is reported unsupported, and a read returns all ones (R519). -/
theorem aperture_unaligned {off : BitVec 23} {wide : Bool} (hon : apertureOn s = true) (hal : off.toNat % accessSize wide ≠ 0) (v : BitVec 64) :
    (∀ e, ∀ i ∈ [Instr.peekRead off wide e, .debugNormalRead off wide e], completes i s fun u =>
      u = { s with out := s.out ++ [.unsupported 0] ++ [.value (2 ^ (8 * accessSize wide) - 1)] }) ∧
    completes (.peekWrite off wide v) s fun u => u = { s with out := s.out ++ [.unsupported 0] } := by
  refine ⟨fun e => completes_reads fun peek => ⟨_, apertureRead_unaligned hon hal peek e, rfl⟩, emit s (.unsupported 0), ?_, rfl⟩
  have haligned : aligned off.toNat wide = false := by simpa [aligned, accessSize] using hal
  show execPeekWrite off wide v s = _
  simp [execPeekWrite, hon, haligned]

end Sys2Proof.Machine
end

section
open Sys2Proof Sys2Proof.Machine Sys2Proof.Machine.Reg

/-- What the aperture does with an aligned access, in the order of the statement. -/
theorem aperture_aligned {s : State} {off : BitVec 23} {wide : Bool} (hon : apertureOn s = true) (hal : off.toNat % accessSize wide = 0)
    (v : BitVec 64) :
    (∀ c, off.toNat < 0x7FF000 → regionOf s (windowAddr s off.toNat) = .cluMem c →
      (upset s (windowAddr s off.toNat) ≠ some true → ∀ i ∈ [Instr.peekRead off wide .clean, .debugNormalRead off wide .clean],
        completes i s fun u => u.out = s.out ++ [.value (rdN s (windowAddr s off.toNat) (accessSize wide))] ∧
          u = { s with regs := u.regs, out := u.out } ∧ opensAndTouches s u c ∧
          (poisoned s (windowAddr s off.toNat) = true → rd u SEC_APT_STAT_POISON = 1) ∧
          sameRegsBut s u (SEC_APT_STAT_POISON :: sessionRegs)) ∧
      ∀ i ∈ [Instr.peekRead off wide .uncorrectable, .debugNormalRead off wide .uncorrectable], completes i s fun u =>
        rd u SEC_APT_STAT_POISON = 1 ∧ opensAndTouches s u c ∧ u.mem = s.mem) ∧
    (∀ e, completes (.peekRead off wide e) s fun u =>
      u = { s with regs := u.regs, out := u.out, upsets := u.upsets, free := u.free } ∧ sameRegsBut s u accessRegs) ∧
    (∀ e, completes (.debugNormalRead off wide e) s fun u => u.mem = s.mem ∧ u.host = s.host) ∧
    (∀ e, off.toNat < 0x7FF000 → windowAddr s off.toNat = 0x22000014 → completes (.debugNormalRead off wide e) s fun u =>
      rd u FLT_SELFTEST_FAILS_A = 0 ∧ rd u FLT_SELFTEST_FAILS_B = 0) ∧
    completes (.peekWrite off wide v) s fun u => rd u SEC_APT_STAT_PEEK_WR = 1 ∧ isSet u SEC_DBG_STAT_ACTIVE = true ∧
      u = { s with regs := u.regs } ∧ sameRegsBut s u (SEC_APT_STAT_PEEK_WR :: sessionRegs) :=
  ⟨fun _ hoff hr => ⟨fun hu => completes_reads fun peek => window_read_cluMem hon hal hoff hr hu peek,
      completes_reads fun peek => window_read_uncorrectable hon hal hoff hr peek⟩,
    fun e => peek_frame hon hal e, fun e => normalRead_memories hon hal e, fun e hoff ha => normalRead_selftest hon hal hoff ha e,
    peekWrite_aligned hon hal rfl v⟩

/-- Settles O46: a debug access begins by opening a session (`accessBegun`) and then reads (`debugRead`) or writes (`debugWrite`);
each clause is the reading of one of these in the aperture, through JTAG or by a register write. -/
theorem debugAccessesReadAndWrite : Obligations.DebugAccessesReadAndWrite := by
  unfold Obligations.DebugAccessesReadAndWrite
  intro s sess touches
  refine ⟨fun hon off wide v => ?_, fun hon addr => ⟨fun c hr => ⟨?_, ?_, ?_⟩, ?_, ?_⟩, fun hoff addr wide w v e => ?_,
    fun hoff off wide v e => ?_, fun v => ⟨registerWrite_aptBase s v, registerWrite_lastFail s v, fun addr ha hr => ?_⟩⟩
  · exact ⟨fun hal => aperture_aligned hon hal v, fun hal => aperture_unaligned hon hal v⟩
  · exact fun hal hw v e => dbgAccess_write_cluMem hon hr hal hw v e
  · intro wide n hal hu i hi
    simp only [List.mem_cons, List.not_mem_nil, or_false] at hi
    obtain rfl | rfl := hi
    exacts [jtagRead_cluMem hon hr hal hu false, jtagRead_cluMem hon hr hal hu true]
  · exact fun hal hw hu v => registerWrite_cluMem hon hr hal hw hu v
  · exact fun hal v e => dbgPeek_write hon hal v e
  · exact fun hal v e => dbgAccess_write_unaligned hon hal v e
  · exact debugOff_same hoff addr wide w v e
  · exact apertureOff_same hoff off wide v e
  · exact registerWrite_elsewhere ha hr v

end

section
/-!
Bytes in host memory, the completion record of an accepted command (R391, R395) and the reply buffer (R406).
-/
namespace Sys2Proof.Machine
open Reg Laws

variable {s t u : State} {fn rg a x n i : Nat}

/-! ### Host memory byte by byte -/

theorem hrb_congr (h : u.host = t.host) (g x : Nat) : hrb u g x = hrb t g x := by rw [hrb, hrb, h]

theorem hrb_hwb_apart {b : Byte} (ha : a < 2 ^ 64) (hx : x < 2 ^ 64) (h : x ≠ a) : hrb (hwb s fn a b) fn x = hrb s fn x :=
  hrb_hwb_other (by rw [Nat.mod_eq_of_lt ha, Nat.mod_eq_of_lt hx]; omega) b

theorem hrb_hwrN_apart (h : a + n ≤ 2 ^ 64) (hx : x < 2 ^ 64) (hout : x < a ∨ a + n ≤ x) (v : Nat) :
    hrb (hwrN s fn a n v) fn x = hrb s fn x := by
  induction n generalizing s a v with
  | zero => rfl
  | succ n ih => rw [hwrN, ih (by omega) (by omega), hrb_hwb_apart (by omega) hx (by omega)]

theorem hrb_hwrN (h : a + n ≤ 2 ^ 64) (hi : i < n) (v : Nat) : hrb (hwrN s fn a n v) fn (a + i) = BitVec.ofNat 8 (v / 256 ^ i) := by
  induction n generalizing s a v i with
  | zero => exact absurd hi (Nat.not_lt_zero i)
  | succ n ih =>
    rw [hwrN]
    cases i with
    | zero => rw [hrb_hwrN_apart (by omega) (by omega) (by omega), Nat.add_zero, hrb_hwb_same, Nat.pow_zero, Nat.div_one]
    | succ i =>
      rw [show a + (i + 1) = a + 1 + i by omega, ih (by omega) (by omega), Nat.div_div_eq_div_mul, Nat.pow_succ, Nat.mul_comm 256]

theorem hrb_hwrBytes_apart {l : List Nat} (h : a + l.length ≤ 2 ^ 64) (hx : x < 2 ^ 64) (hout : x < a ∨ a + l.length ≤ x) :
    hrb (hwrBytes s fn a l) fn x = hrb s fn x := by
  induction l generalizing s a with
  | nil => rfl
  | cons b l ih =>
    rw [List.length_cons] at h hout
    rw [hwrBytes, ih (by omega) (by omega), hrb_hwb_apart (by omega) hx (by omega)]

theorem hrb_hwrBytes {l : List Nat} {b : Nat} (h : a + l.length ≤ 2 ^ 64) (hi : l[i]? = some b) :
    hrb (hwrBytes s fn a l) fn (a + i) = BitVec.ofNat 8 b := by
  induction l generalizing s a i with
  | nil => cases hi
  | cons c l ih =>
    rw [List.length_cons] at h
    rw [hwrBytes]
    cases i with
    | zero =>
      obtain rfl : c = b := Option.some.inj hi
      rw [hrb_hwrBytes_apart (by omega) (by omega) (by omega), Nat.add_zero, hrb_hwb_same]
    | succ i =>
      rw [show a + (i + 1) = a + 1 + i by omega]
      exact ih (by omega) hi

/-- The `n` bytes from `a` hold the number `v`, little-endian (R9). -/
def hostHolds (u : State) (fn a n v : Nat) : Prop := ∀ i < n, hrb u fn (a + i) = BitVec.ofNat 8 (v / 256 ^ i)

theorem hrdN_of_hostHolds {v : Nat} (h : hostHolds u fn a n v) : hrdN u fn a n = v % 256 ^ n := by
  induction n generalizing a v with
  | zero => rw [hrdN, Nat.pow_zero, Nat.mod_one]
  | succ n ih =>
    have hfirst : (hrb u fn a).toNat = v % 256 := by
      have h0 := h 0 (Nat.succ_pos n)
      rw [Nat.add_zero, Nat.pow_zero, Nat.div_one] at h0
      rw [h0, BitVec.toNat_ofNat]
    have hrest : hostHolds u fn (a + 1) n (v / 256) := fun i hi => by
      have hi' := h (i + 1) (by omega)
      rw [show a + (i + 1) = a + 1 + i by omega, Nat.pow_succ, Nat.mul_comm, ← Nat.div_div_eq_div_mul] at hi'
      exact hi'
    rw [hrdN, hfirst, ih hrest, Nat.pow_succ, Nat.mul_comm (256 ^ n), Nat.mod_mul]

/-- Some of the bytes of a number. -/
theorem hrdN_within {v : Nat} (h : hostHolds u fn a n v) (k : Nat) {m : Nat} (hk : k + m ≤ n) :
    hrdN u fn (a + k) m = v / 256 ^ k % 256 ^ m := by
  refine hrdN_of_hostHolds fun i hi => ?_
  rw [Nat.add_assoc, h (k + i) (by omega), Nat.pow_add, Nat.div_div_eq_div_mul]

theorem hostHolds_hwrN (h : a + n ≤ 2 ^ 64) (v : Nat) : hostHolds (hwrN s fn a n v) fn a n v := fun _ hi => hrb_hwrN h hi v

theorem hostHolds_apart {b m v w : Nat} (hs : hostHolds s fn a n v) (ha : a + n ≤ 2 ^ 64) (hb : b + m ≤ 2 ^ 64)
    (hout : a + n ≤ b ∨ b + m ≤ a) : hostHolds (hwrN s fn b m w) fn a n v := fun i hi => by
  rw [hrb_hwrN_apart hb (by omega) (by omega), hs i hi]

theorem hostHolds_congr {v : Nat} (h : u.host = t.host) (ht : hostHolds t fn a n v) : hostHolds u fn a n v := fun i hi =>
  (hrb_congr h ..).trans (ht i hi)

/-! ### The record of a command -/

/-- The address of the next record of a ring (R394). -/
def nextSlot (t : State) (fn rg : Nat) : Nat := (ring t fn rg).cfg.cqBase + 32 * (ring t fn rg).cqTail

/-- A ring that takes a record at once, its next slot within the address space and no tail word in host memory. -/
def takesRecord (t : State) (fn rg : Nat) : Prop :=
  (ring t fn rg).state = .enabled ∧ (ring t fn rg).waiting = [] ∧ cqRoom (ring t fn rg) = true ∧ (ring t fn rg).cfg.tailAddr = 0 ∧
  nextSlot t fn rg + 32 ≤ 2 ^ 64

/-- The four words of a record in host memory. -/
def hostRecord (t : State) (fn b : Nat) (x : CqRec) : State :=
  hwrN (hwrN (hwrN (hwrN t fn b 8 x.w0) fn (b + 8) 8 x.w1) fn (b + 16) 8 x.w2) fn (b + 24) 8 x.w3

theorem hostRecord_holds {b : Nat} (h : b + 32 ≤ 2 ^ 64) (t : State) (fn : Nat) (r : CqRec) :
    hostHolds (hostRecord t fn b r) fn b 8 r.w0 ∧ hostHolds (hostRecord t fn b r) fn (b + 8) 8 r.w1 ∧
    hostHolds (hostRecord t fn b r) fn (b + 24) 8 r.w3 := by
  have h0 : hostHolds (hwrN t fn b 8 r.w0) fn b 8 r.w0 := hostHolds_hwrN (by omega) _
  have h1 : hostHolds (hwrN (hwrN t fn b 8 r.w0) fn (b + 8) 8 r.w1) fn (b + 8) 8 r.w1 := hostHolds_hwrN (by omega) _
  refine ⟨?_, ?_, hostHolds_hwrN (by omega) _⟩
  · refine hostHolds_apart (hostHolds_apart (hostHolds_apart h0 ?_ ?_ ?_) ?_ ?_ ?_) ?_ ?_ ?_
    all_goals omega
  · refine hostHolds_apart (hostHolds_apart h1 ?_ ?_ ?_) ?_ ?_ ?_
    all_goals omega

theorem hostRecord_apart {b : Nat} (h : b + 32 ≤ 2 ^ 64) (hx : x < 2 ^ 64) (hout : x < b ∨ b + 32 ≤ x) (t : State) (r : CqRec) :
    hrb (hostRecord t fn b r) fn x = hrb t fn x := by
  rw [hostRecord, hrb_hwrN_apart (by omega) hx (by omega), hrb_hwrN_apart (by omega) hx (by omega), hrb_hwrN_apart (by omega) hx (by omega),
    hrb_hwrN_apart (by omega) hx (by omega)]

theorem signalVec_host (s : State) (fn vec : Nat) : (signalVec s fn vec).host = s.host := by
  unfold signalVec
  dsimp only
  split_ifs
  all_goals rfl

theorem signalVec_ring (s : State) (fn vec g r : Nat) : ring (signalVec s fn vec) g r = ring s g r := by
  unfold signalVec
  dsimp only
  split_ifs
  all_goals rfl

theorem writeRec_takes (h : takesRecord t fn rg) (r : CqRec) :
    (writeRec t fn rg r).host = (hostRecord t fn (nextSlot t fn rg) r).host ∧ (ring (writeRec t fn rg r) fn rg).state = .enabled ∧
    (ring (writeRec t fn rg r) fn rg).cqTail = ((ring t fn rg).cqTail + 1) % 2 ^ (ring t fn rg).cfg.cqLog2 ∧
    (ring (writeRec t fn rg r) fn rg).sqHead = (ring t fn rg).sqHead := by
  obtain ⟨hstate, -, -, htail, -⟩ := h
  unfold writeRec
  extract_lets q base s4 tail s5 q5
  have hs5 : s5 = hostRecord t fn (nextSlot t fn rg) r := if_pos htail
  split
  · rw [signalVec_host, signalVec_ring, ring_setRing_same, hs5]
    exact ⟨rfl, hstate, rfl, rfl⟩
  · rw [ring_setRing_same, hs5]
    exact ⟨rfl, hstate, rfl, rfl⟩

theorem settleDrain_enabled (h : (ring t fn rg).state = .enabled) : settleDrain t fn rg = t := by
  rw [settleDrain]
  simp [h]

/-- A command of a ring that takes its record: the record stands at the tail, which advances; nothing else in host memory changes. -/
theorem complete_takes {c : Cmd} (hfn : c.fn = fn) (hrg : c.ring = rg) (h : takesRecord t fn rg) (status : Nat) (r : Result) :
    (complete t c status r).host = (hostRecord t fn (nextSlot t fn rg) (cmdRec c status r)).host ∧
    (ring (complete t c status r) fn rg).cqTail = ((ring t fn rg).cqTail + 1) % 2 ^ (ring t fn rg).cfg.cqLog2 ∧
    (ring (complete t c status r) fn rg).sqHead = (ring t fn rg).sqHead := by
  let t' : State := { t with hif := { t.hif with cmds := t.hif.cmds.erase c } }
  have ht' : takesRecord t' fn rg := h
  obtain ⟨hhost, hstate, htail, hhead⟩ := writeRec_takes ht' (cmdRec c status r)
  obtain ⟨henabled, hwaiting, hroom, -, -⟩ := ht'
  have hpost : postRec t' fn rg (cmdRec c status r) = writeRec t' fn rg (cmdRec c status r) := by
    rw [postRec]
    simp [henabled, hwaiting, hroom]
  have hcomplete : complete t c status r = writeRec t' fn rg (cmdRec c status r) := by
    show settleDrain (postRec t' c.fn c.ring (cmdRec c status r)) c.fn c.ring = _
    rw [hfn, hrg, hpost, settleDrain_enabled hstate]
  rw [hcomplete]
  refine ⟨hhost.trans ?_, htail, hhead⟩
  have hlocal {m b v : Nat} {w w' : State} (hw : w.host = w'.host) : (hwrN w fn b m v).host = (hwrN w' fn b m v).host := by
    induction m generalizing w w' b v with
    | zero => exact hw
    | succ m ih => exact ih (by rw [hwb, hwb, hw])
  exact hlocal (hlocal (hlocal (hlocal rfl)))

end Sys2Proof.Machine
end

section
/-!
The consumption of an accepted packet (R391-R394), its record and its reply.
-/
namespace Sys2Proof.Machine
open Reg Laws

variable {s t u : State} {h : Pkt} {op key n : Nat}

/-! ### The state in which an accepted command acts -/

/-- The consumption of a packet touches the log, the host interface and the free values alone. -/
def consumed (s t : State) : Prop :=
  t = { s with regs := t.regs, free := t.free, flt := t.flt, hif := t.hif } ∧
  sameRegsBut s t [FLT_LOG_TRACE_TR_DROP, FLT_EVT_STAT_TR_DROP]

theorem taken_consumed (s : State) (h : Pkt) (op key : Nat) : consumed s (taken s h op key).2 := by
  refine ⟨?_, sameRegsBut_congr (trace_regs s 7 h.part) rfl⟩
  rw [taken, trace_frame]
  rfl

theorem consumed_fresh (h : consumed s t) : consumed s (fresh t).2 := by
  obtain ⟨ht, hregs⟩ := h
  exact ⟨by rw [ht]; rfl, hregs⟩

section
variable (hc : consumed s t)
include hc

theorem rd_of_consumed {f : RegField} (hf : 0x23000000 ≤ f.addr) : rd t f = rd s f := by
  refine hc.2 f fun hk => ?_
  simp only [RegField.key, List.map_cons, List.map_nil, List.mem_cons, List.not_mem_nil, or_false, FLT_LOG_TRACE_TR_DROP,
    FLT_EVT_STAT_TR_DROP] at hk
  omega

theorem consumed_mem : t.mem = s.mem := by rw [hc.1]
theorem consumed_host : t.host = s.host := by rw [hc.1]
theorem consumed_parts : t.parts = s.parts := by rw [hc.1]
theorem consumed_srv : t.srv = s.srv := by rw [hc.1]
theorem consumed_handles : t.handles = s.handles := by rw [hc.1]
theorem consumed_cam : t.cam = s.cam := by rw [hc.1]
theorem consumed_flash : t.flash = s.flash := by rw [hc.1]
theorem consumed_time : t.time = s.time := by rw [hc.1]

end

theorem ring_taken (s : State) (h : Pkt) (op key : Nat) : ring (taken s h op key).2 h.fn h.ring =
    { ring s h.fn h.ring with sqHead := ((ring s h.fn h.ring).sqHead + 1) % 2 ^ (ring s h.fn h.ring).cfg.sqLog2 } := by
  have htrace : ring (trace s 7 h.part) h.fn h.ring = ring s h.fn h.ring := by rw [trace_frame]; rfl
  rw [← htrace]
  exact ring_setRing_same ..

/-- An accepted command acts on the state in which its packet is consumed. -/
theorem withPkt_accepted {sc : Scope} {pfOnly : Bool} {act : Cmd → State → State} (hacc : accepted s h op sc pfOnly = true) :
    withPkt s h op key sc pfOnly act = act (taken s h op key).1 (taken s h op key).2 := by
  obtain ⟨⟨hcan, hfence⟩, hfail⟩ : (canConsume s h = true ∧ ringFenced s h.fn h.ring = false) ∧ pktFailure s h op sc pfOnly = none := by
    simpa [accepted] using hacc
  rw [withPkt, if_pos hcan]
  simp only [hfence, hfail, Bool.false_eq_true, if_false]
  rfl

theorem taken_takesRecord {sc : Scope} {pfOnly : Bool} (hslot : slotPlain s h) (hacc : accepted s h op sc pfOnly = true) :
    takesRecord (taken s h op key).2 h.fn h.ring := by
  obtain ⟨htail, hbase⟩ := hslot
  simp only [accepted, canConsume, Bool.and_eq_true, beq_iff_eq, List.isEmpty_iff] at hacc
  rw [takesRecord, nextSlot, ring_taken]
  exact ⟨by tauto, by tauto, by rw [cqRoom] at *; tauto, htail, hbase⟩

/-! ### The record of an accepted command -/

/-- The record's fields, read from host memory (R395). -/
theorem hostRecord_fields {b fn status : Nat} {c : Cmd} {r : Result} (hb : b + 32 ≤ 2 ^ 64) (hstatus : status < 256) (hop : c.opcode < 256)
    (htag : c.tag < 2 ^ 32) (hu : u.host = (hostRecord t fn b (cmdRec c status r)).host) :
    hrdN u fn (b + 8) 4 = c.sqIdx % 65536 + status * 2 ^ 16 + c.opcode * 2 ^ 24 ∧ hrdN u fn (b + 24) 4 = c.tag ∧
    hrdN u fn b 8 = r.r0 % 2 ^ 64 ∧ hrdN u fn (b + 12) 1 = r.flags % 256 ∧ hrdN u fn (b + 14) 2 = r.detail % 65536 := by
  obtain ⟨h0, h1, h3⟩ := hostRecord_holds hb t fn (cmdRec c status r)
  replace h0 := hostHolds_congr hu h0
  replace h1 := hostHolds_congr hu h1
  replace h3 := hostHolds_congr hu h3
  have hw0 := hrdN_of_hostHolds h0
  have hlow := hrdN_within h1 0 (m := 4) (by omega)
  have hflags := hrdN_within h1 4 (m := 1) (by omega)
  have hdetail := hrdN_within h1 6 (m := 2) (by omega)
  have htag' := hrdN_within h3 0 (m := 4) (by omega)
  simp only [Nat.add_zero, Nat.add_assoc, Nat.reduceAdd, cmdRec, Nat.reducePow, Nat.div_one] at hw0 hlow hflags hdetail htag'
  rw [hlow, htag', hw0, hflags, hdetail]
  refine ⟨?_, ?_, ?_, ?_, ?_⟩
  all_goals omega

/-- What completing the command of packet `h` does, `t` being the state it acts on: the record and no other byte of host memory. -/
theorem complete_recorded {status : Nat} {r : Result} (htake : takesRecord t h.fn h.ring)
    (hring : ring t h.fn h.ring = ring (taken s h op key).2 h.fn h.ring) (hstatus : status < 256) (hop : op < 256) :
    let u := complete t (taken s h op key).1 status r
    let b := (ring s h.fn h.ring).cfg.cqBase + 32 * (ring s h.fn h.ring).cqTail
    recorded s u h op status ∧ (hrdN u h.fn b 8 = r.r0 % 2 ^ 64 ∧ hrdN u h.fn (b + 12) 1 = r.flags % 256 ∧
      hrdN u h.fn (b + 14) 2 = r.detail % 65536) ∧
    ∀ x < 2 ^ 64, x < b ∨ b + 32 ≤ x → hrb u h.fn x = hrb t h.fn x := by
  have hidx : (taken s h op key).1.sqIdx = (ring s h.fn h.ring).sqHead := by
    have htrace : ring (trace s 7 h.part) h.fn h.ring = ring s h.fn h.ring := by rw [trace_frame]; rfl
    rw [← htrace]
    rfl
  have hslot : nextSlot t h.fn h.ring = (ring s h.fn h.ring).cfg.cqBase + 32 * (ring s h.fn h.ring).cqTail := by
    rw [nextSlot, hring, ring_taken]
  obtain ⟨hhost, htail, hhead⟩ := complete_takes (c := (taken s h op key).1) (fn := h.fn) (rg := h.ring) rfl rfl htake status r
  obtain ⟨-, -, -, -, hbase⟩ := htake
  obtain ⟨hlow, htag, hw0, hflags, hdetail⟩ := hostRecord_fields hbase hstatus hop h.tag.isLt hhost
  rw [hring, ring_taken] at htail hhead
  rw [hidx] at hlow
  rw [hslot] at hlow htag hw0 hflags hdetail hbase hhost
  exact ⟨⟨hlow, htag, htail, hhead⟩, ⟨hw0, hflags, hdetail⟩, fun x hx hout => (hrb_congr hhost ..).trans (hostRecord_apart hbase hx hout ..)⟩

end Sys2Proof.Machine
end

section
/-!
O56: QUERY (R416).
-/
namespace Sys2Proof.Machine
open Reg Laws

variable {s t u : State} {h : Pkt} {n a : Nat}

/-! ### The entries do not depend on the packet's consumption -/

/-- A register without a derived part shows its fields. -/
theorem fieldView_channel {f : RegField} (hlow : 0x34000000 ≤ f.addr) (hhigh : f.addr < 0x35000000) (s : State) : fieldView s f = rd s f := by
  have hnone : derivedField s f.addr f.lo = none := by
    unfold derivedField
    repeat' rw [if_neg (by omega)]
  rw [fieldView, hnone]

theorem wordView_congr {w : Nat} (hlow : 0x34000000 ≤ w) (hhigh : w < 0x35000000) (hrd : ∀ f : RegField, f.addr = w → rd t f = rd s f) :
    wordView t w = wordView s w := by
  have hview : ∀ f ∈ fieldsAt w, (if f.acc = .wo then 0 else fieldView t f * 2 ^ f.lo) = if f.acc = .wo then 0 else fieldView s f * 2 ^ f.lo := by
    intro f hf
    obtain ⟨haddr, -, -⟩ := fieldsAt_fit hf
    rw [fieldView_channel (by omega) (by omega), fieldView_channel (by omega) (by omega), hrd f haddr]
  rw [wordView, wordView, if_neg (by omega), if_neg (by omega), List.map_congr_left hview]

section
variable (hc : consumed s t)
include hc

theorem effRate_consumed (p : Nat) : effRate t p = effRate s p := by
  have hlock : rd t DSP_STAT_LINE_LOCKED = rd s DSP_STAT_LINE_LOCKED := rd_of_consumed hc (by decide)
  have hstage : rd t PWR_HWLIM_STAT_STAGE = rd s PWR_HWLIM_STAT_STAGE := rd_of_consumed hc (by decide)
  have hrate : rd t (PWR_RATE_RATE p) = rd s (PWR_RATE_RATE p) := rd_of_consumed hc (by simp only [PWR_RATE_RATE]; omega)
  have hhw : rd t (PWR_RATE_HW_RATE p) = rd s (PWR_RATE_HW_RATE p) := rd_of_consumed hc (by simp only [PWR_RATE_HW_RATE]; omega)
  rw [effRate, effRate, isSet, isSet, hlock, hstage, hrate, hhw]

theorem queryPart_consumed (p : Nat) : queryPart t p = queryPart s p := by
  have hmask (resident : Bool) : handleMask t p resident = handleMask s p resident := by rw [handleMask, handleMask, consumed_handles hc]
  unfold queryPart
  simp only [consumed_parts hc, effRate_consumed hc, hmask]

theorem queryReqs_consumed (p : Nat) : queryReqs t p = queryReqs s p := by
  have hreq (e : Nat) : req t e = req s e := by rw [req, req, consumed_srv hc]
  have hentries : partEntries t p = partEntries s p := by rw [partEntries, partEntries, consumed_srv hc]
  simp only [queryReqs, hreq, hentries, consumed_time hc]

theorem queryStreams_consumed (p : Nat) : queryStreams t p = queryStreams s p := by
  have hctx (c : Nat) : ctx t c = ctx s c := by rw [ctx, ctx, consumed_cam hc]
  have hrd (f : RegField) (hf : 0x32000100 ≤ f.addr) : rd t f = rd s f := rd_of_consumed hc (by omega)
  have hstate (c : Nat) : rd t (CAM_CTX_CFG_STATE c) = rd s (CAM_CTX_CFG_STATE c) := hrd _ (by simp [CAM_CTX_CFG_STATE])
  have hticks (c : Nat) : rd t (CAM_CTX_TICKS_TICKS c) = rd s (CAM_CTX_TICKS_TICKS c) := hrd _ (by simp only [CAM_CTX_TICKS_TICKS]; omega)
  have hlate (c : Nat) : rd t (CAM_CTX_DROP_LATE c) = rd s (CAM_CTX_DROP_LATE c) := hrd _ (by simp only [CAM_CTX_DROP_LATE]; omega)
  have hdamaged (c : Nat) : rd t (CAM_CTX_DROP_DAMAGED c) = rd s (CAM_CTX_DROP_DAMAGED c) :=
    hrd _ (by simp only [CAM_CTX_DROP_DAMAGED]; omega)
  have hsuper (c : Nat) : rd t (CAM_CTX_MISC_SUPERSEDED c) = rd s (CAM_CTX_MISC_SUPERSEDED c) :=
    hrd _ (by simp only [CAM_CTX_MISC_SUPERSEDED]; omega)
  have hother (c : Nat) : rd t (CAM_CTX_MISC_OTHER c) = rd s (CAM_CTX_MISC_OTHER c) := hrd _ (by simp only [CAM_CTX_MISC_OTHER]; omega)
  simp only [queryStreams, hctx, hstate, hticks, hlate, hdamaged, hsuper, hother]

theorem queryChannels_consumed : queryChannels t = queryChannels s := by
  refine List.map_congr_left fun c hmem => ?_
  have hlt : c < 32 := List.mem_range.1 hmem
  have hview {w : Nat} (hlow : 0x34000000 ≤ w) (hhigh : w < 0x35000000) : wordView t w = wordView s w :=
    wordView_congr hlow hhigh fun f hf => rd_of_consumed hc (by omega)
  rw [hview (by omega) (by omega), hview (by omega) (by omega)]

/-- The entries of every scope but the device's are those of the state before. -/
theorem queryEntries_consumed {scope : Nat} (hpos : 0 < scope) (p : Nat) :
    queryEntries t scope p = ((queryEntries s scope p).1, t) := by
  have hslots : querySlots t = querySlots s := by rw [querySlots, querySlots, consumed_flash hc]
  have hmaq : queryMaquettes t p = queryMaquettes s p := by rw [queryMaquettes, queryMaquettes, consumed_handles hc]
  rw [queryEntries, queryEntries, if_neg (Nat.ne_of_gt hpos), if_neg (Nat.ne_of_gt hpos), queryPart_consumed hc, queryReqs_consumed hc,
    queryStreams_consumed hc, queryChannels_consumed hc, hslots, hmaq]
  split_ifs
  all_goals rfl

end

/-! ### The reply -/

theorem hwrBytes_hif (l : List Nat) (s : State) (fn a : Nat) : (hwrBytes s fn a l).hif = s.hif := by
  induction l generalizing s a with
  | nil => rfl
  | cons b l ih => exact ih ..

/-- What a command that only answers leaves as it was. -/
def answeredOnly (s u : State) : Prop :=
  u.mem = s.mem ∧ u.parts = s.parts ∧ u.srv = s.srv ∧ u.handles = s.handles ∧ u.cam = s.cam

theorem answeredOnly_of_consumed (h : consumed s t) : answeredOnly s t :=
  ⟨consumed_mem h, consumed_parts h, consumed_srv h, consumed_handles h, consumed_cam h⟩

theorem answeredOnly_of_hostSide (hc : consumed s t) (hu : hostSide t u) : answeredOnly s u := by
  have hside : answeredOnly t u := by
    rw [hu]
    exact ⟨rfl, rfl, rfl, rfl, rfl⟩
  obtain ⟨hmem, hparts, hsrv, hhandles, hcam⟩ := answeredOnly_of_consumed hc
  obtain ⟨hmem', hparts', hsrv', hhandles', hcam'⟩ := hside
  exact ⟨hmem'.trans hmem, hparts'.trans hparts, hsrv'.trans hsrv, hhandles'.trans hhandles, hcam'.trans hcam⟩

/-- The room of the reply buffer (R406). -/
def replyRoom (h : Pkt) : Nat := if h.replyAddr = 0 then 0 else h.replyLen

/-- The address of the record of a packet. -/
def recordSlot (s : State) (h : Pkt) : Nat := (ring s h.fn h.ring).cfg.cqBase + 32 * (ring s h.fn h.ring).cqTail

/-- The reply buffer stands in the address space beside the record. -/
def replyApart (s : State) (h : Pkt) : Prop :=
  h.replyAddr.toNat + replyRoom h ≤ 2 ^ 64 ∧ (h.replyAddr.toNat + replyRoom h ≤ recordSlot s h ∨ recordSlot s h + 32 ≤ h.replyAddr.toNat)

/-- The first bytes of `bytes`, as many as have room, stand in the reply buffer. -/
def repliedBytes (u : State) (h : Pkt) (bytes : List Nat) : Prop :=
  ∀ i v : Nat, i < replyRoom h → bytes[i]? = some v → hrb u h.fn (h.replyAddr.toNat + i) = BitVec.ofNat 8 v

/-- What an accepted command's reply leaves (R395, R406). -/
theorem replyTo_recorded {op key : Nat} {bytes : List Nat} {r : Result} (hc : consumed s t) (htake : takesRecord t h.fn h.ring)
    (hring : ring t h.fn h.ring = ring (taken s h op key).2 h.fn h.ring) (hop : op < 256) (hapart : replyApart s h) :
    let u := replyTo t h (taken s h op key).1 bytes r
    recorded s u h op 0 ∧ answeredOnly s u ∧ hrdN u h.fn (recordSlot s h) 8 = bytes.length % 2 ^ 64 ∧
    hrdN u h.fn (recordSlot s h + 12) 1 = (if replyRoom h < bytes.length then 1 else 0) ∧
    hrdN u h.fn (recordSlot s h + 14) 2 = r.detail % 65536 ∧ repliedBytes u h bytes := by
  obtain ⟨hfit, hbeside⟩ := hapart
  let t' := hwrBytes t h.fn h.replyAddr.toNat (bytes.take (replyRoom h))
  have hring' : ring t' h.fn h.ring = ring t h.fn h.ring := by rw [ring, ring, hwrBytes_hif]
  have htake' : takesRecord t' h.fn h.ring := by rwa [takesRecord, nextSlot, hring']
  obtain ⟨hrec, ⟨hlen, hflags, hdetail⟩, hrest⟩ := complete_recorded (status := 0)
    (r := { r with r0 := bytes.length, flags := if replyRoom h < bytes.length then 1 else 0 }) htake' (hring'.trans hring) (by omega) hop
  refine ⟨hrec, answeredOnly_of_hostSide hc (hostSide_trans (hwrBytes_hostSide ..) (complete_hostSide ..)), hlen, ?_, hdetail, ?_⟩
  · refine hflags.trans ?_
    split
    all_goals rfl
  · intro i v hi hv
    have hlength : (bytes.take (replyRoom h)).length ≤ replyRoom h := List.length_take_le ..
    refine (hrest _ (by omega) (by unfold recordSlot at hbeside; omega)).trans (hrb_hwrBytes (by omega) ?_)
    rw [List.getElem?_take, if_pos hi, hv]

/-! ### QUERY -/

theorem ring_fresh (t : State) (fn rg : Nat) : ring (fresh t).2 fn rg = ring t fn rg := rfl

theorem takesRecord_fresh {fn rg : Nat} (h : takesRecord t fn rg) : takesRecord (fresh t).2 fn rg := h

theorem queryDevice_single (t : State) : ∃ e, queryDevice t = ([e], (fresh (fresh t).2).2) := ⟨_, rfl⟩

section
variable {scope : Fin 256} {first : BitVec 16}
variable (hslot : slotPlain s h) (hacc : accepted s h 0x02 (if partScope scope.val then .control else .any) false = true)
include hslot hacc

theorem query_badScope (hscope : 6 < scope.val) : completes (.query h scope first) s fun u => recorded s u h 0x02 0x21 ∧ answeredOnly s u := by
  have hstep : execQuery h scope first s = .next (complete (taken s h 2 0).2 (taken s h 2 0).1 0x21 {}) := by
    rw [execQuery, withPkt_accepted hacc, queryAct, if_pos hscope]
  obtain ⟨hrec, -, -⟩ := complete_recorded (status := 0x21) (r := {}) (taken_takesRecord (key := 0) hslot hacc) rfl (by omega) (by omega)
  exact ⟨_, hstep, hrec, answeredOnly_of_hostSide (taken_consumed ..) (complete_hostSide ..)⟩

/-- An accepted QUERY of a scope from 1 on answers with the entries from FIRST on (R416). -/
theorem query_entries (hpos : 0 < scope.val) (hscope : scope.val ≤ 6) (hapart : replyApart s h) :
    let l := (queryEntries s scope h.part).1.drop first.toNat
    completes (.query h scope first) s fun u => recorded s u h 0x02 0 ∧ answeredOnly s u ∧
      hrdN u h.fn (recordSlot s h) 8 = l.flatten.length % 2 ^ 64 ∧
      hrdN u h.fn (recordSlot s h + 12) 1 = (if replyRoom h < l.flatten.length then 1 else 0) ∧
      hrdN u h.fn (recordSlot s h + 14) 2 = min l.length (replyRoom h / entrySize scope) % 65536 ∧ repliedBytes u h l.flatten := by
  intro l
  have hconsumed := taken_consumed s h 2 0
  have hstep : execQuery h scope first s =
      .next (replyTo (taken s h 2 0).2 h (taken s h 2 0).1 l.flatten { detail := min l.length (replyRoom h / entrySize scope) }) := by
    rw [execQuery, withPkt_accepted hacc, queryAct, if_neg (by omega)]
    simp only [queryEntries_consumed hconsumed hpos]
    rfl
  exact ⟨_, hstep, replyTo_recorded hconsumed (taken_takesRecord hslot hacc) rfl (by omega) hapart⟩

/-- That of scope 0 answers with the device's one entry, two of whose fields are free (R416). -/
theorem query_device (hscope : scope.val = 0) (hfirst : first = 0) (hapart : replyApart s h) : ∃ t e, consumed s t ∧
    (queryDevice t).1 = [e] ∧ completes (.query h scope first) s fun u => recorded s u h 0x02 0 ∧ answeredOnly s u ∧
      hrdN u h.fn (recordSlot s h) 8 = e.length % 2 ^ 64 ∧
      hrdN u h.fn (recordSlot s h + 12) 1 = (if replyRoom h < e.length then 1 else 0) ∧
      hrdN u h.fn (recordSlot s h + 14) 2 = min 1 (replyRoom h / 64) % 65536 ∧ repliedBytes u h e := by
  have hconsumed := taken_consumed s h 2 0
  obtain ⟨e, he⟩ := queryDevice_single (taken s h 2 0).2
  have hentries : queryEntries (taken s h 2 0).2 0 h.part = ([e], (fresh (fresh (taken s h 2 0).2).2).2) := he
  refine ⟨(taken s h 2 0).2, e, hconsumed, by rw [he], ?_⟩
  have hstep : execQuery h scope first s = .next (replyTo (fresh (fresh (taken s h 2 0).2).2).2 h (taken s h 2 0).1 e
      { detail := min 1 (replyRoom h / 64) }) := by
    have hzero : first.toNat = 0 := by rw [hfirst]; rfl
    rw [execQuery, withPkt_accepted hacc, queryAct, if_neg (by omega), hscope, hzero]
    simp only [hentries, List.drop_zero, List.flatten_cons, List.flatten_nil, List.append_nil]
    rfl
  exact ⟨_, hstep, replyTo_recorded (consumed_fresh (consumed_fresh hconsumed))
    (takesRecord_fresh (takesRecord_fresh (taken_takesRecord hslot hacc))) ((ring_fresh ..).trans (ring_fresh ..)) (by omega) hapart⟩

end

end Sys2Proof.Machine
end

section
/-!
O56: the fields of an entry of QUERY, read from the reply buffer (R416).
-/
namespace Sys2Proof.Machine
open Reg Laws

variable {s t u : State} {h : Pkt} {e : List Nat} {fn a : Nat}

/-! ### Lists of bytes in host memory -/

/-- The bytes of `l` stand in host memory from `a` on. -/
def standsAt (u : State) (fn a : Nat) (l : List Nat) : Prop := ∀ i v : Nat, l[i]? = some v → hrb u fn (a + i) = BitVec.ofNat 8 v

theorem standsAt_of_replied (hu : repliedBytes u h e) (he : e.length ≤ replyRoom h) : standsAt u h.fn h.replyAddr.toNat e :=
  fun i v hv => by
    obtain ⟨hi, -⟩ := List.getElem?_eq_some_iff.1 hv
    exact hu i v (by omega) hv

theorem standsAt_append {l m : List Nat} : standsAt u fn a (l ++ m) ↔ standsAt u fn a l ∧ standsAt u fn (a + l.length) m := by
  refine ⟨fun h => ⟨fun i v hv => h i v ?_, fun i v hv => ?_⟩, fun ⟨hl, hm⟩ i v hv => ?_⟩
  · obtain ⟨hi, -⟩ := List.getElem?_eq_some_iff.1 hv
    rwa [List.getElem?_append_left hi]
  · rw [Nat.add_assoc]
    refine h _ v ?_
    rwa [List.getElem?_append_right (by omega), Nat.add_sub_cancel_left]
  · by_cases hi : i < l.length
    · exact hl i v (by rwa [List.getElem?_append_left hi] at hv)
    · have hv' := hm (i - l.length) v (by rwa [List.getElem?_append_right (by omega)] at hv)
      rwa [Nat.add_assoc, Nat.add_sub_cancel' (by omega)] at hv'

theorem standsAt_nil : standsAt u fn a [] ↔ True := iff_true_intro fun _ _ hv => nomatch hv

theorem standsAt_cons {v : Nat} {l : List Nat} : standsAt u fn a (v :: l) ↔ hrb u fn a = BitVec.ofNat 8 v ∧ standsAt u fn (a + 1) l := by
  have hone : standsAt u fn a [v] ↔ hrb u fn a = BitVec.ofNat 8 v := by
    refine ⟨fun h => h 0 v rfl, fun h i w hw => ?_⟩
    cases i with
    | zero => rwa [← Option.some.inj hw]
    | succ i => cases hw
  rw [← hone]
  exact standsAt_append (l := [v])

theorem length_leBytes (m v : Nat) : (leBytes m v).length = m := by
  induction m generalizing v with
  | zero => rfl
  | succ m ih => rw [leBytes, List.length_cons, ih]

theorem leBytes_getElem? {m i : Nat} (hi : i < m) (v : Nat) : (leBytes m v)[i]? = some (v / 256 ^ i % 256) := by
  induction m generalizing v i with
  | zero => exact absurd hi (Nat.not_lt_zero i)
  | succ m ih =>
    cases i with
    | zero => rw [leBytes, List.getElem?_cons_zero, Nat.pow_zero, Nat.div_one]
    | succ i => rw [leBytes, List.getElem?_cons_succ, ih (by omega), Nat.div_div_eq_div_mul, Nat.pow_succ, Nat.mul_comm 256]

theorem ofNat_mod_byte (v : Nat) : BitVec.ofNat 8 (v % 256) = BitVec.ofNat 8 v :=
  BitVec.eq_of_toNat_eq (by simp only [BitVec.toNat_ofNat, Nat.reducePow, Nat.mod_mod])

/-- A number that stands in host memory is read there. -/
theorem hrdN_standsAt {m v : Nat} (h : standsAt u fn a (leBytes m v)) : hrdN u fn a m = v % 256 ^ m :=
  hrdN_of_hostHolds fun i hi => by rw [h i _ (leBytes_getElem? hi v), ofNat_mod_byte]

theorem hrdN_byte {v : Nat} (h : hrb u fn a = BitVec.ofNat 8 v) : hrdN u fn a 1 = v % 256 := by
  rw [hrdN, hrdN, h, BitVec.toNat_ofNat]
  rfl

/-! ### A partition -/

/-- What the reply buffer shows of a partition (R416). -/
def partFields (s u : State) (h : Pkt) (x : Part) : Prop :=
  let a := h.replyAddr.toNat
  hrdN u h.fn a 1 = x.owner % 256 ∧ hrdN u h.fn (a + 1) 1 = (x.logical.length + x.leaving.length) % 256 ∧
  hrdN u h.fn (a + 2) 1 = x.clSet % 256 ∧ hrdN u h.fn (a + 3) 1 = x.minRate % 256 ∧ hrdN u h.fn (a + 4) 1 = effRate s h.part % 256 ∧
  hrdN u h.fn (a + 5) 1 = (if x.fence = .none then 0 else 1) + (if x.logical.length < x.clSet then 2 else 0) ∧ hrdN u h.fn (a + 6) 2 = 0 ∧
  hrdN u h.fn (a + 8) 8 = x.c2 % 2 ^ 64 ∧ hrdN u h.fn (a + 16) 8 = x.quota.q2 % 2 ^ 64 ∧ hrdN u h.fn (a + 24) 8 = x.c3 % 2 ^ 64 ∧
  hrdN u h.fn (a + 32) 8 = x.quota.q3 % 2 ^ 64 ∧ hrdN u h.fn (a + 40) 8 = x.c4 % 2 ^ 64 ∧ hrdN u h.fn (a + 48) 8 = x.quota.q4 % 2 ^ 64 ∧
  hrdN u h.fn (a + 56) 4 = x.satAcc % 2 ^ 32 ∧ hrdN u h.fn (a + 60) 4 = x.satOut % 2 ^ 32 ∧ hrdN u h.fn (a + 64) 4 = x.nonfinite % 2 ^ 32 ∧
  ∀ r : Fin 4, hrdN u h.fn (a + 68 + 2 * r.val) 2 = tget 0 x.breaches (r.val + 1) % 2 ^ 16

/-- The byte of a partition's entry that tells its fence and whether clusters are missing. -/
def partFlags (x : Part) : Nat := b2n (x.fence != .none) + 2 * b2n (decide (x.logical.length < x.clSet))

theorem partFlags_mod (x : Part) : partFlags x % 256 = (if x.fence = .none then 0 else 1) + (if x.logical.length < x.clSet then 2 else 0) := by
  by_cases hf : x.fence = .none
  all_goals
    by_cases hl : x.logical.length < x.clSet
    all_goals simp [partFlags, b2n, hf, hl]

theorem hrdN_zeros (h : hrb u fn a = 0) (h' : hrb u fn (a + 1) = 0) : hrdN u fn a 2 = 0 := by
  rw [hrdN, hrdN, hrdN, h, h']
  rfl

/-- The entry of a partition and the places of its fields. -/
theorem queryPart_fields {x : Part} (hx : tfind h.part s.parts = some x) (hroom : 128 ≤ replyRoom h) : ∃ e, queryPart s h.part = [e] ∧
    ∀ u, repliedBytes u h e → partFields s u h x := by
  rw [queryPart, hx]
  refine ⟨_, rfl, fun u hu => ?_⟩
  have hrange : List.range 4 = [0, 1, 2, 3] := rfl
  have hstands := standsAt_of_replied hu (by
    simp only [hrange, List.map_cons, List.map_nil, List.flatten_cons, List.flatten_nil, List.length_append, List.length_cons,
      List.length_nil, length_leBytes, List.length_replicate]
    omega)
  simp only [hrange, List.map_cons, List.map_nil, List.flatten_cons, List.flatten_nil, standsAt_append, standsAt_cons, standsAt_nil,
    List.length_append, List.length_cons, List.length_nil, length_leBytes, Nat.add_assoc, Nat.reduceAdd, and_assoc, true_and] at hstands
  obtain ⟨howner, hclusters, hset, hmin, hrate, hflags, hzero, hzero', hc2, hq2, hc3, hq3, hc4, hq4, hacc, hout, hnon, hb1, hb2, hb3, hb4, -⟩ :=
    hstands
  refine ⟨hrdN_byte howner, hrdN_byte hclusters, hrdN_byte hset, hrdN_byte hmin, hrdN_byte hrate,
    (hrdN_byte (v := partFlags x) hflags).trans (partFlags_mod x), hrdN_zeros hzero hzero', hrdN_standsAt hc2, hrdN_standsAt hq2,
    hrdN_standsAt hc3, hrdN_standsAt hq3, hrdN_standsAt hc4, hrdN_standsAt hq4, hrdN_standsAt hacc, hrdN_standsAt hout, hrdN_standsAt hnon,
    fun r => ?_⟩
  fin_cases r
  exacts [hrdN_standsAt hb1, hrdN_standsAt hb2, hrdN_standsAt hb3, hrdN_standsAt hb4]

/-! ### The device -/

/-- What the reply buffer shows of the device (R416). -/
def deviceFields (s u : State) (h : Pkt) : Prop :=
  let a := h.replyAddr.toNat
  hrdN u h.fn a 2 = 0x8640 ∧ hrdN u h.fn (a + 2) 1 = 0xB0 ∧ hrdN u h.fn (a + 6) 2 = rd s MEM_STAT_SIZE % 2 ^ 16 ∧
  hrdN u h.fn (a + 12) 1 = s.parts.length % 256 ∧ hrdN u h.fn (a + 28) 8 = s.time % 2 ^ 64

theorem queryDevice_fields (hc : consumed s t) (he : (queryDevice t).1 = [e]) (hroom : 64 ≤ replyRoom h) : e.length = 64 ∧
    ∀ u, repliedBytes u h e → deviceFields s u h := by
  have hsize : rd (fresh (fresh t).2).2 MEM_STAT_SIZE = rd s MEM_STAT_SIZE :=
    rd_of_consumed (consumed_fresh (consumed_fresh hc)) (by decide)
  have hparts : (fresh (fresh t).2).2.parts = s.parts := consumed_parts (consumed_fresh (consumed_fresh hc))
  have htime : (fresh (fresh t).2).2.time = s.time := consumed_time (consumed_fresh (consumed_fresh hc))
  simp only [queryDevice, List.cons.injEq, and_true] at he
  generalize (fresh (fresh t).2).2 = w at he hsize hparts htime
  have hlength : e.length = 64 := by
    rw [← he]
    simp only [List.length_append, List.length_cons, List.length_nil, length_leBytes, List.length_replicate]
  refine ⟨hlength, fun u hu => ?_⟩
  have hstands := standsAt_of_replied hu (by omega)
  rw [← he] at hstands
  simp only [standsAt_append, standsAt_cons, standsAt_nil, List.length_append, List.length_cons, List.length_nil, length_leBytes, Nat.add_assoc,
    Nat.reduceAdd, and_assoc, true_and] at hstands
  obtain ⟨hdevice, hkind, -, -, hmem, -, -, -, -, hcount, -, -, -, -, -, -, -, -, -, hstamp, -⟩ := hstands
  rw [hsize] at hmem
  rw [hparts] at hcount
  rw [htime] at hstamp
  exact ⟨hrdN_standsAt hdevice, hrdN_byte hkind, hrdN_standsAt hmem, hrdN_byte hcount, hrdN_standsAt hstamp⟩

end Sys2Proof.Machine
end

section
/-!
O56: QUANTUM_BOUNDARY of a device whose Plinth does not run, under a thermal trip (R13, R357, R461).
-/
namespace Sys2Proof.Machine
open Reg Laws

variable {s t u : State} {w : WorkUnit} {i k : Nat}

/-! ### Power and slack -/

/-- The publication of power and slack (R461). -/
def powerPublished (s : State) (q : Quantum) : State :=
  wr (wr (wr (wr s PWR_PKG_AVG (min 65535 q.avg)) PWR_PKG_PEAK (min 65535 q.peak)) PWR_CPM_STAT_SLACK (min 255 q.slack))
    PWR_CPM_STAT_WORST q.monitor

/-- The registers that publish power and slack, and what they show. -/
def powerRegs : List RegField := [PWR_PKG_AVG, PWR_PKG_PEAK, PWR_CPM_STAT_SLACK, PWR_CPM_STAT_WORST]

def powerShown (u : State) (q : Quantum) : Prop :=
  rd u PWR_PKG_AVG = min 65535 q.avg ∧ rd u PWR_PKG_PEAK = min 65535 q.peak ∧ rd u PWR_CPM_STAT_SLACK = min 255 q.slack ∧
  rd u PWR_CPM_STAT_WORST = q.monitor % 64

theorem powerPublished_shown (s : State) (q : Quantum) : powerShown (powerPublished s q) q := by
  have h16 (v : Nat) : min 65535 v % 2 ^ 16 = min 65535 v := Nat.mod_eq_of_lt (by omega)
  have h8 (v : Nat) : min 255 v % 2 ^ 8 = min 255 v := Nat.mod_eq_of_lt (by omega)
  unfold powerPublished
  refine ⟨?_, ?_, ?_, rd_wr_same ..⟩
  · rw [rd_wr_other (by decide), rd_wr_other (by decide), rd_wr_other (by decide), rd_wr_same]
    exact h16 _
  · rw [rd_wr_other (by decide), rd_wr_other (by decide), rd_wr_same]
    exact h16 _
  · rw [rd_wr_other (by decide), rd_wr_same]
    exact h8 _

theorem powerPublished_regs (s : State) (q : Quantum) : sameRegsBut s (powerPublished s q) powerRegs := by
  refine sameRegsBut_wr (sameRegsBut_wr (sameRegsBut_wr (sameRegsBut_wr (sameRegsBut_of_regs rfl) ?_) ?_) ?_) ?_
  all_goals simp [powerRegs]

theorem powerBoundary_tripped (h : s.pwr.trip = true) (q : Quantum) (plinth : Bool) : powerBoundary s q plinth = powerPublished s q := by
  unfold powerBoundary
  exact if_pos h

/-! ### The boundary -/

/-- The state of the new quantum, before its work units are aged (R13, R544). -/
def nextQuantum (s : State) : State := applyStep { s with time := nextBoundary s.time, quantum := s.quantum + 1 }

theorem applyStep_frame (s : State) : applyStep s = { s with time := (applyStep s).time, span := (applyStep s).span } := by
  unfold applyStep
  split
  all_goals rfl

theorem nextQuantum_frame (s : State) : nextQuantum s =
    { s with time := (nextQuantum s).time, span := (nextQuantum s).span, quantum := s.quantum + 1 } :=
  applyStep_frame { s with time := nextBoundary s.time, quantum := s.quantum + 1 }

theorem nextQuantum_of_no_step (h : s.span.step = none) : nextQuantum s = { s with time := nextBoundary s.time, quantum := s.quantum + 1 } := by
  unfold nextQuantum applyStep
  split
  · rfl
  · next hs => exact absurd (hs.symm.trans h) (by simp)

theorem nextQuantum_of_step {off : Int} (h : s.span.step = some off) : nextQuantum s =
    { s with time := (((nextBoundary s.time : Int) + off / 10) % 2 ^ 64).toNat, quantum := s.quantum + 1, span := { s.span with step := none } } := by
  unfold nextQuantum applyStep
  split
  · next hs => exact absurd (hs.symm.trans h) (by simp)
  · next off' hs =>
    obtain rfl : off' = off := Option.some.inj (hs.symm.trans h)
    rfl

/-- Without the Plinth and under a trip the boundary ages the work units and publishes power and slack. -/
theorem quantumBoundary_stopped (hrun : plinthRuns s = false) (htrip : (monitor (nextQuantum s)).pwr.trip = true)
    (hframes : ∀ e ∈ s.cam, ∀ f ∈ e.2.frames, f.stage ≠ .finished) (q : Quantum) :
    execQuantumBoundary q s = .next (powerPublished (monitor (nextQuantum s)) q) := by
  have hsame : completeFrames (nextQuantum s) = nextQuantum s := completeFrames_of_none (by rw [nextQuantum_frame]; exact hframes)
  have hrun' : plinthRuns (nextQuantum s) = false := by rw [← hrun, nextQuantum_frame]; rfl
  have hfold : completeFrames (applyStep { s with time := nextBoundary s.time, quantum := s.quantum + 1 }) = nextQuantum s := hsame
  rw [execQuantumBoundary]
  simp only [hfold, hrun', Bool.false_and, Bool.false_eq_true, if_false, powerBoundary_tripped htrip]

theorem monitor_no_units (h : s.units = []) : monitor s = s := by
  have hsame : { s with units := [] } = s := by rw [← h]
  rw [monitor]
  simp only [h, List.map_nil, List.foldl_nil]
  exact hsame

/-! ### A hung work unit -/

/-- The count and the place of a hang (R357). -/
def hangCounted (s : State) (p l : Nat) : State := wr (wr (bump s (FLT_PROG_HANGS p) 1) FLT_EVT_STAT_HANG 1) (FLT_PROG_LAST_CL p) l

/-- A hang, also marked on the partition. -/
def hangNoted (s : State) (p l : Nat) : State := setPart (hangCounted s p l) p fun y => { y with hung := true }

theorem setPart_frame (s : State) (p : Nat) (f : Part → Part) : setPart s p f = { s with parts := (setPart s p f).parts } := by
  unfold setPart
  split
  all_goals rfl

theorem setPart_boot (s : State) (p : Nat) (f : Part → Part) : (setPart s p f).boot = s.boot := by rw [setPart_frame]

theorem setPart_of_none {p : Nat} (h : tfind p s.parts = none) (f : Part → Part) : setPart s p f = s := by
  rw [setPart, h]

theorem tfind_setPart {p : Nat} {x : Part} (h : tfind p s.parts = some x) (f : Part → Part) : tfind p (setPart s p f).parts = some (f x) := by
  simp only [setPart, h]
  exact tfind_tset_same ..

theorem hangNoted_regs (s : State) (p l : Nat) :
    sameRegsBut s (hangNoted s p l) [FLT_PROG_HANGS p, FLT_EVT_STAT_HANG, FLT_PROG_LAST_CL p] := by
  have h : sameRegsBut s (hangCounted s p l) [FLT_PROG_HANGS p, FLT_EVT_STAT_HANG, FLT_PROG_LAST_CL p] :=
    sameRegsBut_wr (sameRegsBut_wr (sameRegsBut_wr (sameRegsBut_of_regs rfl) (by simp)) (by simp)) (by simp)
  refine sameRegsBut_congr h ?_
  rw [hangNoted, setPart_frame]

theorem hangNoted_frame (s : State) (p l : Nat) :
    hangNoted s p l = { s with regs := (hangNoted s p l).regs, parts := (hangNoted s p l).parts } := by
  rw [hangNoted, setPart_frame]
  rfl

theorem hangNoted_shown (s : State) (p l : Nat) : rd (hangNoted s p l) (FLT_PROG_HANGS p) = satAdd 255 (rd s (FLT_PROG_HANGS p)) 1 ∧
    rd (hangNoted s p l) FLT_EVT_STAT_HANG = 1 ∧ rd (hangNoted s p l) (FLT_PROG_LAST_CL p) = l % 256 := by
  have hrd (f : RegField) : rd (hangNoted s p l) f = rd (hangCounted s p l) f := rd_congr (by rw [hangNoted, setPart_frame]) f
  have hsat (x : Nat) : satAdd 255 x 1 % 2 ^ 8 = satAdd 255 x 1 := by
    unfold satAdd
    split
    all_goals omega
  simp only [hrd, hangCounted]
  refine ⟨?_, ?_, rd_wr_same ..⟩
  · rw [rd_wr_other, rd_wr_other, bump, rd_wr_same]
    · exact hsat _
    all_goals
      simp only [RegField.key, FLT_PROG_HANGS, FLT_EVT_STAT_HANG, FLT_PROG_LAST_CL]
      omega
  · rw [rd_wr_other, rd_wr_same]
    · rfl
    · simp only [RegField.key, FLT_EVT_STAT_HANG, FLT_PROG_LAST_CL]
      omega

/-- A program of the device that runs on one thread and waits for nothing. -/
structure runsAlone (s : State) (w : WorkUnit) (k : Nat) : Prop where
  thread : w.threads = [k]
  state : thrState s k ∈ [1, 2, 3]
  wait : (thr s k).wait = .none
  exempt : w.exempt = false
  hung : w.hung = false
  priv : w.priv = false
  kind : w.kind = .other

theorem ageUnit_runsAlone (h : runsAlone s w k) : ageUnit s w = { w with age := w.age + 1, exempt := false, snap := none } := by
  obtain ⟨hthread, hstate, hwait, hexempt, -, -, -⟩ := h
  simp only [List.mem_cons, List.not_mem_nil, or_false] at hstate
  have hks : unfinished s w = [k] := by
    rw [unfinished, hthread, List.filter_cons_of_pos (by simp; omega), List.filter_nil]
  have hmove : waitsOnMove s k = false := by rw [waitsOnMove, hwait]
  have hhalted : (thrState s k == 7) = false := by simp; omega
  simp only [ageUnit, hks, List.isEmpty_cons, Bool.not_false, Bool.true_and, List.all_cons, List.all_nil, hmove, Bool.false_and, hexempt,
    Bool.or_false, Bool.false_eq_true, if_false, List.any_cons, List.any_nil, hhalted]

theorem unitRunning_runsAlone (h : runsAlone s w k) : unitRunning s w = true := by
  obtain ⟨hthread, hstate, -, -, -, -, -⟩ := h
  simp only [List.mem_cons, List.not_mem_nil, or_false] at hstate
  rw [unitRunning, hthread, List.any_cons]
  simp
  omega

/-- At the end of its second quantum it is counted as hung (R357). -/
theorem monitor_hangs (hu : s.units = [(i, w)]) (h : runsAlone s w k) (hage : w.age = 1) (hpln : s.boot.pln ≠ .up)
    (hpart : w.part < 16) :
    monitor s = hangNoted { s with units := [(i, { w with age := 2, hung := true, exempt := false, snap := none })] } w.part
      (rd s (CLU_MAP_LOGICAL (k / 512))) := by
  let w' : WorkUnit := { w with age := 2, exempt := false, snap := none }
  have hage' : ageUnit s w = w' := by rw [ageUnit_runsAlone h, hage]
  have haged : runsAlone { s with units := [(i, w')] } w' k := ⟨h.thread, h.state, h.wait, rfl, h.hung, h.priv, h.kind⟩
  have hhung : isHung { s with units := [(i, w')] } w' = true := by
    have hpriv : w'.priv = false := h.priv
    have hkind : w'.kind = .other := h.kind
    rw [isHung, unitRunning_runsAlone haged, hkind, hpriv]
    rfl
  have hnot : w'.hung = false := h.hung
  have htset : tset i { w' with hung := true } [(i, w')] = [(i, { w' with hung := true })] := by simp [tset]
  have hhead : w'.threads.headD 0 = k := by rw [show w'.threads = [k] from h.thread]; rfl
  have hlogical (v : State) (hv : v.regs = s.regs) :
      logicalOf (wr (bump v (FLT_PROG_HANGS w'.part) 1) FLT_EVT_STAT_HANG 1) (k / 512) = rd s (CLU_MAP_LOGICAL (k / 512)) := by
    have hevent : (CLU_MAP_LOGICAL (k / 512)).key ≠ FLT_EVT_STAT_HANG.key := by
      simp only [RegField.key, CLU_MAP_LOGICAL, FLT_EVT_STAT_HANG]
      omega
    have hcount : (CLU_MAP_LOGICAL (k / 512)).key ≠ (FLT_PROG_HANGS w'.part).key := by
      have hpart' : w'.part < 16 := hpart
      simp only [RegField.key, CLU_MAP_LOGICAL, FLT_PROG_HANGS]
      omega
    rw [logicalOf, rd_wr_other hevent, bump, rd_wr_other hcount, rd_congr hv]
  rw [monitor]
  simp only [hu, List.map_cons, List.map_nil, List.foldl_cons, List.foldl_nil, hage', hhung, hnot, Bool.not_false, Bool.and_self, if_true,
    htset, hhead]
  rw [hlogical, ← hangCounted, hangNoted]
  · generalize hv : hangCounted _ w'.part _ = v
    have hboot : v.boot = s.boot := by rw [← hv]; rfl
    split
    · next hnone => exact (setPart_of_none hnone _).symm
    · rw [if_neg (by rw [setPart_boot, hboot]; exact fun hfence => hpln hfence.2)]
  · rfl

/-! ### The clauses -/

section
variable (hrun : plinthRuns s = false) (htrip : s.pwr.trip = true) (hframes : ∀ e ∈ s.cam, ∀ f ∈ e.2.frames, f.stage ≠ .finished)
  (q : Quantum)
include hrun htrip hframes

/-- Without work units nothing but the time, the quantum and the published registers changes. -/
theorem quantumBoundary_idle (hunits : s.units = []) : execQuantumBoundary q s = .next (powerPublished (nextQuantum s) q) := by
  have hmonitor : monitor (nextQuantum s) = nextQuantum s := monitor_no_units (by rw [nextQuantum_frame]; exact hunits)
  have hstep := quantumBoundary_stopped hrun (by rw [hmonitor, nextQuantum_frame]; exact htrip) hframes q
  rwa [hmonitor] at hstep

theorem quantumBoundary_time (hunits : s.units = []) (hstep : s.span.step = none) : completes (.quantumBoundary q) s fun u =>
    powerShown u q ∧ sameRegsBut s u powerRegs ∧ u = { s with regs := u.regs, time := nextBoundary s.time, quantum := s.quantum + 1 } := by
  have hexec := quantumBoundary_idle hrun htrip hframes q hunits
  have hregs := powerPublished_regs (nextQuantum s) q
  have hshown := powerPublished_shown (nextQuantum s) q
  rw [nextQuantum_of_no_step hstep] at hexec hregs hshown
  exact ⟨_, hexec, hshown, hregs, rfl⟩

/-- The step of a chained device is added to the boundary's time (R544). -/
theorem quantumBoundary_step {off : Int} (hunits : s.units = []) (hstep : s.span.step = some off)
    (hlow : 0 ≤ (nextBoundary s.time : Int) + off / 10) (hhigh : (nextBoundary s.time : Int) + off / 10 < 2 ^ 64) :
    completes (.quantumBoundary q) s fun u => powerShown u q ∧ (u.time : Int) = nextBoundary s.time + off / 10 ∧
      u.span = { s.span with step := none } ∧ u.quantum = s.quantum + 1 ∧ sameRegsBut s u powerRegs := by
  have hexec := quantumBoundary_idle hrun htrip hframes q hunits
  have hregs := powerPublished_regs (nextQuantum s) q
  have hshown := powerPublished_shown (nextQuantum s) q
  have htime : (((((nextBoundary s.time : Int) + off / 10) % 2 ^ 64).toNat : Nat) : Int) = nextBoundary s.time + off / 10 := by
    rw [Int.emod_eq_of_lt hlow hhigh, Int.toNat_of_nonneg hlow]
  rw [nextQuantum_of_step hstep] at hexec hregs hshown
  exact ⟨_, hexec, hshown, htime, rfl, rfl, hregs⟩

/-- A program that runs alone is counted as hung at the end of its second quantum (R357). -/
theorem quantumBoundary_hang (hunits : s.units = [(i, w)]) (hstep : s.span.step = none) (h : runsAlone s w k) (hage : w.age = 1)
    (hpart : w.part < 16) (hpln : s.boot.pln ≠ .up) : completes (.quantumBoundary q) s fun u =>
      powerShown u q ∧ u.time = nextBoundary s.time ∧ u.units = [(i, { w with age := 2, hung := true, exempt := false, snap := none })] ∧
      rd u (FLT_PROG_HANGS w.part) = satAdd 255 (rd s (FLT_PROG_HANGS w.part)) 1 ∧ rd u FLT_EVT_STAT_HANG = 1 ∧
      rd u (FLT_PROG_LAST_CL w.part) = rd s (CLU_MAP_LOGICAL (k / 512)) % 256 ∧
      (∀ x, tfind w.part s.parts = some x → tfind w.part u.parts = some { x with hung := true }) ∧
      sameRegsBut s u ([FLT_PROG_HANGS w.part, FLT_EVT_STAT_HANG, FLT_PROG_LAST_CL w.part] ++ powerRegs) := by
  let v : State := { s with time := nextBoundary s.time, quantum := s.quantum + 1,
                            units := [(i, { w with age := 2, hung := true, exempt := false, snap := none })] }
  let m := hangNoted v w.part (rd s (CLU_MAP_LOGICAL (k / 512)))
  have hmonitor : monitor (nextQuantum s) = m := by
    have hnext := nextQuantum_of_no_step hstep
    have halone : runsAlone (nextQuantum s) w k := by
      rw [hnext]
      exact ⟨h.thread, h.state, h.wait, h.exempt, h.hung, h.priv, h.kind⟩
    rw [monitor_hangs (by rw [hnext]; exact hunits) halone hage (by rw [hnext]; exact hpln) hpart, hnext]
    rfl
  have hframe : m = { v with regs := m.regs, parts := m.parts } := hangNoted_frame ..
  have hexec := quantumBoundary_stopped hrun (by rw [hmonitor, hframe]; exact htrip) hframes q
  have hpower := powerPublished_regs m q
  have hother {f : RegField} (hf : f.key < 0x23000000 * 32) : rd (powerPublished m q) f = rd m f := by
    refine hpower f fun hk => ?_
    simp only [RegField.key] at hf
    simp only [powerRegs, RegField.key, List.map_cons, List.map_nil, List.mem_cons, List.not_mem_nil, or_false, PWR_PKG_AVG, PWR_PKG_PEAK,
      PWR_CPM_STAT_SLACK, PWR_CPM_STAT_WORST] at hk
    omega
  obtain ⟨hhangs, hevent, hlast⟩ := hangNoted_shown v w.part (rd s (CLU_MAP_LOGICAL (k / 512)))
  have hregs : sameRegsBut s m [FLT_PROG_HANGS w.part, FLT_EVT_STAT_HANG, FLT_PROG_LAST_CL w.part] :=
    hangNoted_regs v w.part (rd s (CLU_MAP_LOGICAL (k / 512)))
  rw [hmonitor] at hexec
  refine ⟨_, hexec, powerPublished_shown m q, ?_, ?_, ?_, ?_, ?_, fun x hx => ?_, ?_⟩
  · exact congrArg State.time hframe
  · exact congrArg State.units hframe
  · rw [hother (by simp only [RegField.key, FLT_PROG_HANGS]; omega)]
    exact hhangs
  · rw [hother (by decide)]
    exact hevent
  · rw [hother (by simp only [RegField.key, FLT_PROG_LAST_CL]; omega)]
    exact hlast
  · exact tfind_setPart (s := hangCounted v w.part (rd s (CLU_MAP_LOGICAL (k / 512)))) hx _
  · exact sameRegsBut_trans (sameRegsBut_mono hregs (List.subset_append_left ..)) (sameRegsBut_mono hpower (List.subset_append_right ..))

end

end Sys2Proof.Machine
end

section
/-!
O56: the start of a work unit on one thread (R27, R30).
-/
namespace Sys2Proof.Machine
open Reg Laws

variable {s t u : State} {n k im seed : Nat} {x : WorkUnit}

theorem trace_off {g : Nat} (h : bit s.flt.traceMask g = false) (p : Nat) : trace s g p = s := by
  rw [trace]
  exact if_neg (by simp [h])

theorem filter_range_eq {m : Nat} (h : n < m) : (List.range m).filter (fun i => n == i) = [n] := by
  induction m with
  | zero => exact absurd h (Nat.not_lt_zero n)
  | succ m ih =>
    rw [List.range_succ, List.filter_append]
    by_cases hn : n = m
    · have hnone : (List.range m).filter (fun i => n == i) = [] := by
        simp only [List.filter_eq_nil_iff, List.mem_range, beq_iff_eq]
        omega
      rw [hnone, List.filter_cons_of_pos (by simp [hn]), hn]
      rfl
    · rw [ih (by omega), List.filter_cons_of_neg (by simp [hn])]
      rfl

theorem unitClusters_single (hthread : x.threads = [k]) (hk : k / 512 < 34) : unitClusters x = [k / 512] := by
  rw [unitClusters, hthread]
  simp only [List.any_cons, List.any_nil, Bool.or_false]
  exact filter_range_eq hk

/-! ### The steps of a start -/

/-- The unit is listed, and the seeds of its core and of its cluster are set. -/
def unitSeeded (s : State) (x : WorkUnit) (seed k : Nat) : State :=
  seedCluster (seedCore { s with units := tset s.nextUnit x s.units, nextUnit := s.nextUnit + 1 } seed (k / 8)) seed (k / 512)

theorem unitSeeded_frame (s : State) (x : WorkUnit) (seed k : Nat) : ∃ cs cl, unitSeeded s x seed k =
    { s with units := tset s.nextUnit x s.units, nextUnit := s.nextUnit + 1, cores := cs, clusters := cl } := ⟨_, _, rfl⟩

/-- A READY cluster becomes ACTIVE. -/
def clusterActive (s : State) (n : Nat) : State := if rd s (CLU_STAT_STATE n) = 2 then wr s (CLU_STAT_STATE n) 3 else s

theorem clusterActive_side (s : State) (n : Nat) : regsSide s (clusterActive s n) := regsSide_ite rfl rfl

theorem clusterActive_regs (s : State) (n : Nat) : sameRegsBut s (clusterActive s n) [CLU_STAT_STATE n] :=
  sameRegsBut_ite (sameRegsBut_wr (sameRegsBut_of_regs rfl) (by simp)) (sameRegsBut_of_regs rfl)

theorem clusterActive_state (h : rd s (CLU_STAT_STATE n) = 2 ∨ rd s (CLU_STAT_STATE n) = 3) : rd (clusterActive s n) (CLU_STAT_STATE n) = 3 := by
  unfold clusterActive
  split
  · rw [rd_wr_same]
    rfl
  · next h2 => exact h.resolve_left h2

/-- The registers that name the faulted cores of a cluster. -/
def faultRegs (n : Nat) : List RegField := [CLU_CORE_FAULT_FAULT n 0, CLU_CORE_FAULT_FAULT n 1]

theorem clearFaults_side (s : State) (n : Nat) : regsSide s (clearFaults s n) := by
  unfold clearFaults
  split
  · exact regsSide_refl s
  · exact regsSide_wr (regsSide_wr (regsSide_refl s) ..) ..

theorem clearFaults_regs (s : State) (n : Nat) : sameRegsBut s (clearFaults s n) (faultRegs n) := by
  unfold clearFaults
  split
  · exact sameRegsBut_of_regs rfl
  · refine sameRegsBut_wr (sameRegsBut_wr (sameRegsBut_of_regs rfl) ?_) ?_
    all_goals simp [faultRegs]

theorem startUnit_single {ims : List Nat} (hmask : bit s.flt.traceMask 2 = false) (hthread : x.threads = [k]) (hkind : x.kind = .other)
    (hk : k / 512 < 34) (hims : ims = [im]) : startUnit s x seed ims none =
      clearFaults (clusterActive (startThread (unitSeeded s x seed k) s.nextUnit k im none) (k / 512)) (k / 512) := by
  have hclusters := unitClusters_single hthread hk
  have hcores : [k / 8].eraseDups = [k / 8] := rfl
  rw [startUnit]
  simp only [trace_off hmask, hclusters, hthread, hims, hkind, List.map_cons, List.map_nil, hcores, List.foldl_cons,
    List.foldl_nil, List.zip_cons_cons, List.zip_nil_left, reduceCtorEq, if_false]
  rfl

/-! ### The thread -/

theorem startThread_thr (s : State) (unit k im : Nat) (g : Option (BitVec 32)) :
    (thr (startThread s unit k im g) k).unit = some unit ∧ (thr (startThread s unit k im g) k).pc = im % 16384 := by
  have hthr {y : Thread} {v : Nat} : thr (wr (setThr s k y) (thrField k) v) k = y := thr_setThr_same ..
  unfold startThread
  dsimp only
  rw [hthr]
  exact ⟨rfl, rfl⟩

theorem startThread_state (s : State) (unit k im : Nat) (g : Option (BitVec 32)) : thrState (startThread s unit k im g) k = 1 := by
  unfold thrState startThread
  rw [rd_wr_same]
  rfl

theorem startThread_regs (s : State) (unit k im : Nat) (g : Option (BitVec 32)) :
    sameRegsBut s (startThread s unit k im g) [thrField k] := sameRegsBut_wr (sameRegsBut_of_regs rfl) (by simp)

theorem thrField_ne_state (k n : Nat) : (CLU_STAT_STATE n).key ≠ (thrField k).key := by
  simp only [RegField.key, CLU_STAT_STATE, thrField]
  omega

theorem thrField_ne_fault (k n m : Nat) (hm : m < 2) : (thrField k).key ≠ (CLU_CORE_FAULT_FAULT n m).key := by
  simp only [RegField.key, CLU_CORE_FAULT_FAULT, thrField]
  omega

theorem state_ne_fault (k n m : Nat) (hm : m < 2) : (CLU_STAT_STATE k).key ≠ (CLU_CORE_FAULT_FAULT n m).key := by
  simp only [RegField.key, CLU_CORE_FAULT_FAULT, CLU_STAT_STATE]
  omega

/-- What the start of a unit on thread `k` leaves. -/
theorem startUnit_started {ims : List Nat} (hmask : bit s.flt.traceMask 2 = false) (hthread : x.threads = [k]) (hkind : x.kind = .other)
    (hk : k / 512 < 34) (hims : ims = [im]) (hstate : rd s (CLU_STAT_STATE (k / 512)) = 2 ∨ rd s (CLU_STAT_STATE (k / 512)) = 3) :
    let u := startUnit s x seed ims none
    thrState u k = 1 ∧ (thr u k).unit = some s.nextUnit ∧ (thr u k).pc = im % 16384 ∧ rd u (CLU_STAT_STATE (k / 512)) = 3 ∧
      u.nextUnit = s.nextUnit + 1 ∧ u.mem = s.mem ∧
      sameRegsBut s u [thrField k, CLU_STAT_STATE (k / 512), CLU_CORE_FAULT_FAULT (k / 512) 0, CLU_CORE_FAULT_FAULT (k / 512) 1] ∧
      tfind s.nextUnit u.units = some x := by
  obtain ⟨cs, cl, hseeded⟩ := unitSeeded_frame s x seed k
  rw [startUnit_single hmask hthread hkind hk hims, hseeded]
  generalize hv : ({ s with units := _, nextUnit := _, cores := cs, clusters := cl } : State) = v
  have hregs : v.regs = s.regs := by rw [← hv]
  let y := startThread v s.nextUnit k im none
  have hy : sameRegsBut v y [thrField k] := startThread_regs v s.nextUnit k im none
  have hactive := clusterActive_regs y (k / 512)
  have hclear := clearFaults_regs (clusterActive y (k / 512)) (k / 512)
  have hside : regsSide y (clearFaults (clusterActive y (k / 512)) (k / 512)) := regsSide_trans (clusterActive_side ..) (clearFaults_side ..)
  have hstate' : rd y (CLU_STAT_STATE (k / 512)) = rd s (CLU_STAT_STATE (k / 512)) :=
    (hy _ (by simpa using thrField_ne_state k (k / 512))).trans (rd_congr hregs _)
  have hthr : thr (clearFaults (clusterActive y (k / 512)) (k / 512)) k = thr y k := by rw [hside]; rfl
  obtain ⟨hunit, hpc⟩ := startThread_thr v s.nextUnit k im none
  refine ⟨?_, ?_, ?_, ?_, ?_, ?_, ?_, ?_⟩
  · rw [thrState, hclear _ (by simpa [faultRegs] using ⟨thrField_ne_fault k _ 0 (by omega), thrField_ne_fault k _ 1 (by omega)⟩),
      hactive _ (by simpa using (thrField_ne_state k (k / 512)).symm)]
    exact startThread_state ..
  · exact (congrArg Thread.unit hthr).trans hunit
  · exact (congrArg Thread.pc hthr).trans hpc
  · rw [hclear _ (by simpa [faultRegs] using ⟨state_ne_fault _ _ 0 (by omega), state_ne_fault _ _ 1 (by omega)⟩)]
    exact clusterActive_state (by rwa [hstate'])
  · refine (congrArg State.nextUnit hside).trans ?_
    show v.nextUnit = _
    rw [← hv]
  · refine (congrArg State.mem hside).trans ?_
    show v.mem = _
    rw [← hv]
  · refine sameRegsBut_trans (sameRegsBut_trans (sameRegsBut_trans (sameRegsBut_of_regs hregs) (sameRegsBut_mono hy ?_)) (sameRegsBut_mono hactive ?_))
      (sameRegsBut_mono hclear ?_)
    all_goals simp [faultRegs]
  · refine (congrArg (fun r => tfind s.nextUnit r.units) hside).trans ?_
    show tfind s.nextUnit v.units = _
    rw [← hv]
    exact tfind_tset_same ..

/-! ### The start -/

/-- A thread that may start stands in a READY or ACTIVE cluster of the array. -/
theorem startThreadNo_cluster {p : Nat} {old : Bool} {e : Nat × Nat × Nat × Nat} (h : startThreadNo s p old e = some k) :
    k / 512 < 34 ∧ (rd s (CLU_STAT_STATE (k / 512)) = 2 ∨ rd s (CLU_STAT_STATE (k / 512)) = 3) := by
  rw [startThreadNo] at h
  cases hn : physOf s e.1 with
  | none =>
    rw [hn] at h
    cases h
  | some n =>
    simp only [hn] at h
    rw [ite_eq_iff] at h
    obtain ⟨⟨-, hstate, -⟩, hk⟩ := h.resolve_right fun hno => nomatch hno.2
    have hlt : n < 34 := List.mem_range.1 (List.mem_of_find?_eq_some hn)
    have hkn : k / 512 = n := by
      rw [← Option.some.inj hk, coreNo]
      omega
    rw [hkn]
    exact ⟨hlt, hstate⟩

theorem startWork_single {w : WorkStart} {e : Nat × Nat × Nat × Nat} (hmay : mayStart s w = true) (hkind : w.kind = .other)
    (hthreads : w.threads = [e]) (hk : startThreadNo s w.part false e = some k) : startWork s w =
      startUnit s { part := w.part, kind := .other, threads := [k], priv := privPart s w.part, last := w.last } (startSeed s w) [e.2.2.2] none := by
  have hruns : workRuns s w = false := by rw [workRuns, hkind]
  have hmark : markStart s w = (.other, s) := by rw [markStart, hkind]
  rw [startWork]
  simp only [hthreads, hruns, hk, hmay, hmark, List.map_cons, List.map_nil, List.isEmpty_cons, Bool.not_false, List.all_cons, List.all_nil,
    Option.isSome_some, Bool.and_self, if_true, Option.getD_some]

/-- The start of a program's work unit whose thread is free. -/
theorem startWork_started {w : WorkStart} {e : Nat × Nat × Nat × Nat} (hmay : mayStart s w = true) (hkind : w.kind = .other)
    (hthreads : w.threads = [e]) (hk : startThreadNo s w.part false e = some k) (hmask : bit s.flt.traceMask 2 = false) :
    let u := startWork s w
    thrState u k = 1 ∧ (thr u k).unit = some s.nextUnit ∧ (thr u k).pc = e.2.2.2 % 16384 ∧ rd u (CLU_STAT_STATE (k / 512)) = 3 ∧
      u.nextUnit = s.nextUnit + 1 ∧ u.mem = s.mem ∧
      sameRegsBut s u [thrField k, CLU_STAT_STATE (k / 512), CLU_CORE_FAULT_FAULT (k / 512) 0, CLU_CORE_FAULT_FAULT (k / 512) 1] ∧
      (tfind s.nextUnit u.units).map (fun x => (x.part, x.threads, x.priv)) = some (w.part, [k], privPart s w.part) := by
  obtain ⟨hcluster, hstate⟩ := startThreadNo_cluster hk
  rw [startWork_single hmay hkind hthreads hk]
  obtain ⟨hthr, hunit, hpc, hactive, hnext, hmem, hregs, hfind⟩ :=
    startUnit_started (x := { part := w.part, kind := .other, threads := [k], priv := privPart s w.part, last := w.last })
      (seed := startSeed s w) hmask rfl rfl hcluster rfl hstate
  exact ⟨hthr, hunit, hpc, hactive, hnext, hmem, hregs, by rw [hfind]; rfl⟩

end Sys2Proof.Machine
end

section
open Sys2Proof Sys2Proof.Machine Sys2Proof.Machine.Reg

/-- The reply of scope 1 shows the partition's fields. -/
theorem query_partition {s : State} {h : Pkt} {scope : Fin 256} {first : BitVec 16} {x : Part} (hslot : slotPlain s h)
    (hacc : accepted s h 0x02 (if partScope scope.val then .control else .any) false = true) (hscope : scope.val = 1)
    (hapart : replyApart s h) (hfirst : first = 0) (hroom : 128 ≤ replyRoom h) (hx : tfind h.part s.parts = some x) :
    completes (.query h scope first) s fun u => partFields s u h x := by
  obtain ⟨e, he, hfields⟩ := queryPart_fields hx hroom
  obtain ⟨u, hstep, -, -, -, -, -, hreplied⟩ := query_entries (first := first) hslot hacc (by omega) (by omega) hapart
  have hentries : (queryEntries s scope h.part).1 = [e] := by rw [hscope, ← he]; rfl
  have hzero : first.toNat = 0 := by rw [hfirst]; rfl
  refine ⟨u, hstep, hfields u ?_⟩
  rw [hentries, hzero] at hreplied
  simpa using hreplied

/-- That of scope 0 shows the device's, in one entry of 64 bytes. -/
theorem query_deviceFields {s : State} {h : Pkt} {scope : Fin 256} {first : BitVec 16} (hslot : slotPlain s h)
    (hacc : accepted s h 0x02 (if partScope scope.val then .control else .any) false = true) (hscope : scope.val = 0)
    (hapart : replyApart s h) (hfirst : first = 0) (hroom : 64 ≤ replyRoom h) :
    completes (.query h scope first) s fun u => recorded s u h 0x02 0 ∧ answeredOnly s u ∧ hrdN u h.fn (recordSlot s h) 8 = 64 ∧
      hrdN u h.fn (recordSlot s h + 12) 1 = 0 ∧ hrdN u h.fn (recordSlot s h + 14) 2 = 1 ∧ deviceFields s u h := by
  obtain ⟨t, e, hconsumed, he, u, hstep, hrec, hstill, hlen, hflags, hdetail, hreplied⟩ := query_device hslot hacc hscope hfirst hapart
  obtain ⟨hlength, hfields⟩ := queryDevice_fields hconsumed he hroom
  rw [hlength] at hlen hflags
  refine ⟨u, hstep, hrec, hstill, hlen, hflags.trans (if_neg (by omega)), hdetail.trans ?_, hfields u hreplied⟩
  rw [Nat.min_eq_left (by omega)]

/-- Settles O56: a QUERY's reply and record read back from host memory, the boundary without a Plinth by the cases of the step and of
the one work unit, and the start of a unit on one thread. -/
theorem queriesAndQuantumBoundariesAnswer : Obligations.QueriesAndQuantumBoundariesAnswer := by
  unfold Obligations.QueriesAndQuantumBoundariesAnswer
  refine ⟨fun s h scope first hslot hacc => ⟨?_, ?_, ?_, ?_⟩, fun s q hrun htrip hframes => ⟨?_, ?_, ?_⟩, ?_⟩
  · exact query_badScope hslot hacc
  · exact query_entries hslot hacc
  · exact fun x hscope hapart hfirst hroom hx => query_partition hslot hacc hscope hapart hfirst hroom hx
  · exact query_deviceFields hslot hacc
  · exact quantumBoundary_time hrun htrip hframes q
  · exact fun off => quantumBoundary_step hrun htrip hframes q
  · exact fun i w k hunits hstep hthread hstate _ hwait hage hexempt hhung hpriv hkind hpart hpln =>
      quantumBoundary_hang hrun htrip hframes q hunits hstep ⟨hthread, hstate, hwait, hexempt, hhung, hpriv, hkind⟩ hage hpart hpln
  · exact fun s w t k hmay hkind hthreads hk hmask => startWork_started hmay hkind hthreads hk hmask

end

section
/-!
Threads and their core (R30, R31): the number and the state field of a thread, what putting a thread in a state leaves, what an
issue leaves.
-/
namespace Sys2Proof.Machine
open Reg Laws

variable {s t : State} {j k : Nat}

/-! ### Numbers -/

theorem tno_div_core (t : ThreadId) : tno t / 8 = coreNo t.cluster t.core := by unfold tno; omega

theorem tno_div_cluster (t : ThreadId) : tno t / 512 = t.cluster := by unfold tno coreNo; omega

theorem coreNo_div (n : Nat) (c : Fin 64) : coreNo n c / 64 = n := by unfold coreNo; omega

theorem coreNo_mod (n : Nat) (c : Fin 64) : coreNo n c % 64 = c := by unfold coreNo; omega

theorem thrField_injective (h : (thrField j).key = (thrField k).key) : j = k := by
  simp only [RegField.key, thrField] at h
  have hsplit (i : Nat) : i = 512 * (i / 512) + 8 * (i / 8 % 64) + i % 8 := by omega
  have hcore (i : Nat) : i / 8 % 64 < 64 := Nat.mod_lt _ (by decide)
  have hlow (i : Nat) : i % 8 < 8 := Nat.mod_lt _ (by decide)
  have hj := hcore j
  have hk := hcore k
  have hj' := hlow j
  have hk' := hlow k
  rw [hsplit j, hsplit k]
  generalize j / 512 = a, j / 8 % 64 = b, j % 8 = c, k / 512 = d, k / 8 % 64 = e, k % 8 = f at *
  omega

/-! ### The state of a thread -/

theorem thrState_congr (h : t.regs = s.regs) (k : Nat) : thrState t k = thrState s k := rd_congr h _

theorem thrState_wr_same (s : State) (k v : Nat) : thrState (wr s (thrField k) v) k = v % 8 := rd_wr_same ..

theorem setThrState_frame (s : State) (k st : Nat) (w : Wait) : setThrState s k st w =
    { s with threads := (setThrState s k st w).threads, regs := (setThrState s k st w).regs } := by
  unfold setThrState
  dsimp only
  split
  all_goals rfl

theorem setThrState_regs (s : State) (k st : Nat) (w : Wait) : sameRegsBut s (setThrState s k st w) [thrField k] :=
  sameRegsBut_ite (sameRegsBut_of_regs rfl) (sameRegsBut_wr (sameRegsBut_of_regs rfl) (by simp))

/-- A thread that is not HALTED takes the state. -/
theorem thrState_setThrState (h : thrState s k ≠ 7) (st : Nat) (w : Wait) : thrState (setThrState s k st w) k = st % 8 := by
  rw [setThrState, if_neg h]
  exact thrState_wr_same ..

theorem thrState_setThrState_other (h : j ≠ k) (st : Nat) (w : Wait) : thrState (setThrState s k st w) j = thrState s j :=
  setThrState_regs s k st w _ fun hk => h (thrField_injective (List.mem_singleton.1 hk))

theorem thr_setThrState (s : State) (k st : Nat) (w : Wait) :
    thr (setThrState s k st w) k = { thr s k with wait := w, resume := (thr (setThrState s k st w) k).resume } := by
  unfold setThrState
  dsimp only
  split
  · rw [thr_setThr_same]
  · rw [thr_wr, thr_setThr_same]

theorem thr_setThrState_other (h : j ≠ k) (st : Nat) (w : Wait) : thr (setThrState s k st w) j = thr s j := by
  unfold setThrState
  dsimp only
  split
  · rw [thr_setThr_other h]
  · rw [thr_wr, thr_setThr_other h]

theorem setThrState_wait (s : State) (k st : Nat) (w : Wait) : (thr (setThrState s k st w) k).wait = w := by rw [thr_setThrState]

/-! ### An issue -/

theorem canIssue_ready (h : canIssue s k = true) : thrState s k = 1 := by
  simp only [canIssue, Bool.and_eq_true, beq_iff_eq] at h
  exact h.1

theorem noteIssue_issued (s : State) (k : Nat) : issuedBy s (noteIssue s k) k := by
  intro c
  split
  · next h => rw [h]; exact core_setCore_same ..
  · next h => exact core_setCore_other h _

theorem issuedBy_congr {u : State} (h : issuedBy s t k) (e : u.cores = t.cores) : issuedBy s u k := fun c => by
  rw [← h c, core, core, e]

theorem issuedBy_of_cores {u : State} (h : issuedBy t u k) (e : t.cores = s.cores) : issuedBy s u k := fun c => by
  rw [h c, core, core, e]

theorem advancePc_frame (s : State) (k : Nat) (arr : Bool) : advancePc s k arr =
    { s with cores := (noteIssue s k).cores, threads := (advancePc s k arr).threads, free := (advancePc s k arr).free } := by
  cases arr
  all_goals rfl

theorem advancePc_issued (s : State) (k : Nat) (arr : Bool) : issuedBy s (advancePc s k arr) k :=
  issuedBy_congr (noteIssue_issued s k) (by rw [advancePc_frame])

theorem advancePc_thr (s : State) (k : Nat) (arr : Bool) : thr (advancePc s k arr) k =
    { thr s k with pc := if arr then ((thr s k).pc + 16) % 16384 else Config.freeNat s.free % 16384 } := by
  cases arr
  all_goals exact thr_setThr_same ..

theorem advancePc_thr_other (h : j ≠ k) (arr : Bool) : thr (advancePc s k arr) j = thr s j := by
  cases arr
  all_goals exact thr_setThr_other h _

theorem advancePc_regs (s : State) (k : Nat) (arr : Bool) : (advancePc s k arr).regs = s.regs := by rw [advancePc_frame]

theorem thrState_advancePc (s : State) (k : Nat) (arr : Bool) (j : Nat) : thrState (advancePc s k arr) j = thrState s j :=
  thrState_congr (advancePc_regs ..) j

end Sys2Proof.Machine
end

section
/-!
O9: a write of CLU_MAP (R50).
-/
namespace Sys2Proof.Machine
open Reg Laws

variable {s : State} {n v : Nat}

/-- The write maps a logical number that another mapped cluster carries. -/
def mapClash (s : State) (n v : Nat) : Bool :=
  bit v 8 && (List.range 34).any (fun m => m != n && isSet s (CLU_MAP_MAPPED m) && rd s (CLU_MAP_LOGICAL m) == bits v 0 5)

theorem mapClash_eq_false : mapClash s n v = false ↔
    (bit v 8 = true → ∀ m : Fin 34, m.val ≠ n → isSet s (CLU_MAP_MAPPED m) = true → rd s (CLU_MAP_LOGICAL m) ≠ bits v 0 5) := by
  simp only [mapClash, Bool.and_eq_false_imp, List.any_eq_false, List.mem_range, Bool.and_eq_true, bne_iff_ne, beq_iff_eq,
    not_and, and_imp]
  exact imp_congr_right fun _ => ⟨fun h m => h m m.isLt, fun h m hm => h ⟨m, hm⟩⟩

theorem cluMapWrite_taken (hst : rd s (CLU_STAT_STATE n) = 2) (h : mapClash s n v = false) : cluMapWrite s n v =
    wr (wr (wr s (CLU_MAP_LOGICAL n) (bits v 0 5)) (CLU_MAP_MAPPED n) (bits v 8 1)) (CLU_MAP_PART n) (bits v 16 4) :=
  if_pos ⟨hst, h⟩

theorem cluMapWrite_refused (h : ¬(rd s (CLU_STAT_STATE n) = 2 ∧ mapClash s n v = false)) :
    cluMapWrite s n v = wr s (CLU_STAT_MAP_REJ n) 1 := if_neg h

end Sys2Proof.Machine

open Sys2Proof Sys2Proof.Machine Sys2Proof.Machine.Reg

/-- Settles O9: the write's fields are three register fields of their own, and its refusal is one. -/
theorem clusterMapWrite : Obligations.ClusterMapWrite := by
  intro s n v ok
  have hok : ok ↔ rd s (CLU_STAT_STATE n) = 2 ∧ mapClash s n v.toNat = false := by
    rw [mapClash_eq_false]
    simp only [ok, ne_eq, Fin.ext_iff]
  rw [hok]
  refine ⟨fun ⟨hst, hclash⟩ => ⟨_, congrArg Host.Outcome.next (cluMapWrite_taken hst hclash), rfl, ?_, ?_, ?_, ?_⟩,
    fun h => ⟨_, congrArg Host.Outcome.next (cluMapWrite_refused h), rfl, rd_wr_same .., sameRegsBut_wr (sameRegsBut_of_regs rfl) (by simp)⟩⟩
  · rw [rd_wr_other (by simp [RegField.key, CLU_MAP_LOGICAL, CLU_MAP_PART]),
      rd_wr_other (by simp [RegField.key, CLU_MAP_LOGICAL, CLU_MAP_MAPPED]), rd_wr_same]
    exact Nat.mod_mod ..
  · rw [rd_wr_other (by simp [RegField.key, CLU_MAP_MAPPED, CLU_MAP_PART]), rd_wr_same]
    exact Nat.mod_mod ..
  · rw [rd_wr_same]
    exact Nat.mod_mod ..
  · exact sameRegsBut_wr (sameRegsBut_wr (sameRegsBut_wr (sameRegsBut_of_regs rfl) (by simp)) (by simp)) (by simp)
end

section
/-!
Reads and writes of words without an error (R41-R45): where the words of a cluster memory lie, a store of part of a word.
-/
namespace Sys2Proof.Machine
open Reg Laws

variable {s t : State} {a n m c w : Nat} {l : List Nat}

/-! ### Words -/

theorem cleanWord_congr (hp : t.poison = s.poison) (hu : t.upsets = s.upsets) : cleanWord t a ↔ cleanWord s a := by
  simp only [cleanWord, poisoned, upset, hp, hu]

theorem cleanWord_of_word {b : Nat} (h : a / 8 = b / 8) : cleanWord s a ↔ cleanWord s b := by
  simp only [cleanWord, poisoned, upset, h]

theorem memBase_aligned (n m c : Nat) : memBase n m c % 8 = 0 := by
  unfold memBase
  split_ifs
  all_goals omega

theorem cleanWord_byte (x : Nat) : cleanWord s (memBase n m c + x) ↔ cleanWord s (memBase n m c + 8 * (x / 8)) := by
  have h := memBase_aligned n m c
  exact cleanWord_of_word (by omega)

/-- The memory and the byte in it that a byte of a core's 128 KiB names (R602). -/
def coreCell (b : Nat) : Option (Nat × Nat) :=
  if b < 0x8000 then some (0, b) else if b < 0x10000 then some (1, b - 0x8000) else if b < 0x12000 then some (2, b - 0x10000)
  else if 0x18000 ≤ b ∧ b < 0x1C000 then some (3, b - 0x18000) else none

theorem cellOf_core {b : Nat} (hn : n < 34) (hc : c < 64) (hb : b < 0x20000) :
    cellOf (0x40000000 + n * 0x1000000 + (c * 0x20000 + 0x400000 + b)) = (coreCell b).map fun x => (n, x.1, c, x.2 / 8) := by
  have hcluster : (0x40000000 + n * 0x1000000 + (c * 0x20000 + 0x400000 + b) - 0x40000000) / 0x1000000 = n := by omega
  have hoff : (0x40000000 + n * 0x1000000 + (c * 0x20000 + 0x400000 + b) - 0x40000000) % 0x1000000 = c * 0x20000 + 0x400000 + b := by
    omega
  have hsub : c * 0x20000 + 0x400000 + b - 0x400000 = b + 0x20000 * c := by
    rw [Nat.add_right_comm, Nat.add_sub_cancel, Nat.add_comm, Nat.mul_comm]
  have hcore : (b + 0x20000 * c) / 0x20000 = c := by rw [Nat.add_mul_div_left _ _ (by decide), Nat.div_eq_of_lt hb, Nat.zero_add]
  have hbyte : (b + 0x20000 * c) % 0x20000 = b := by rw [Nat.add_mul_mod_self_left, Nat.mod_eq_of_lt hb]
  simp only [cellOf, hcluster, hoff, hsub, hcore, hbyte, coreCell]
  rw [if_neg (by omega), if_neg (by omega), if_neg (by omega), if_pos (by omega)]
  split_ifs
  all_goals rfl

/-- An address inside a memory of a core names that memory and the word (R602). -/
theorem cellOf_memBase (hn : n < 34) (hc : c < 64) (hm : m < 4) (ha : a < memSize m) :
    cellOf (memBase n m c + a) = some (n, m, c, a / 8) := by
  have hcell {off : Nat} (hbase : memBase n m c = 0x40000000 + n * 0x1000000 + (c * 0x20000 + (0x400000 + off)))
      (hoff : off + a < 0x20000) (hb : coreCell (off + a) = some (m, a)) : cellOf (memBase n m c + a) = some (n, m, c, a / 8) := by
    rw [show memBase n m c + a = 0x40000000 + n * 0x1000000 + (c * 0x20000 + 0x400000 + (off + a)) by omega,
      cellOf_core hn hc hoff, hb, Option.map_some]
  unfold coreCell at hcell
  obtain rfl | rfl | rfl | rfl : m = 0 ∨ m = 1 ∨ m = 2 ∨ m = 3 := by omega
  · change a < 0x8000 at ha
    exact hcell (off := 0) rfl (by omega) (by rw [if_pos (by omega), Nat.zero_add])
  · change a < 0x8000 at ha
    exact hcell (off := 0x8000) rfl (by omega) (by rw [if_neg (by omega), if_pos (by omega), Nat.add_sub_cancel_left])
  · change a < 0x2000 at ha
    exact hcell (off := 0x10000) rfl (by omega)
      (by rw [if_neg (by omega), if_neg (by omega), if_pos (by omega), Nat.add_sub_cancel_left])
  · change a < 0x4000 at ha
    exact hcell (off := 0x18000) rfl (by omega)
      (by rw [if_neg (by omega), if_neg (by omega), if_neg (by omega), if_pos (by omega), Nat.add_sub_cancel_left])

/-! ### Stores -/

theorem dedupNext_subset (l : List Nat) : dedupNext l ⊆ l := by
  fun_induction dedupNext l with
  | case1 => exact List.Subset.refl _
  | case2 => exact List.Subset.refl _
  | case3 x t ih => exact fun v hv => List.mem_cons_of_mem _ (ih hv)
  | case4 x y t hxy ih => exact List.cons_subset_cons _ ih

/-- A store of part of a word without an error, which no scrubber is about to write back, meets nothing. -/
theorem wroteWord_of_part (hclean : cleanWord s (8 * w)) (hwait : ¬awaitsWriteBack s (8 * w)) (hpart : ∃ i < 8, 8 * w + i ∉ l) :
    wroteWord l s w = s := by
  have hall : (List.range 8).all (fun i => l.contains (8 * w + i)) = false := by
    obtain ⟨i, hi, hl⟩ := hpart
    exact List.all_eq_false.2 ⟨i, by simpa using hi, by simpa using hl⟩
  unfold wroteWord
  simp only [hall, mergeWord_of_clean hclean, Bool.false_eq_true, if_false, ite_self, portWrote_of_idle hwait]

/-- So does a store of fewer than 8 bytes into such words. -/
theorem wroteRange_of_part (hn : n < 8) (hclean : ∀ i < n, cleanWord s (a + i)) (hwait : ∀ i < n, ¬awaitsWriteBack s (8 * ((a + i) / 8))) :
    wroteRange s a n = s := by
  refine List.foldlRecOn (motive := fun t => t = s) _ _ rfl fun t ht w hw => ?_
  obtain ⟨x, hx, rfl⟩ := List.mem_map.1 (dedupNext_subset _ hw)
  obtain ⟨i, hi, rfl⟩ := List.mem_map.1 hx
  rw [List.mem_range] at hi
  rw [ht]
  refine wroteWord_of_part ((cleanWord_of_word (by omega)).2 (hclean i hi)) (hwait i hi) ?_
  by_cases h0 : 8 * ((a + i) / 8) ∈ (List.range n).map fun i => a + i
  · refine ⟨7, by omega, fun h7 => ?_⟩
    simp only [List.mem_map, List.mem_range] at h0 h7
    omega
  · exact ⟨0, by omega, h0⟩

end Sys2Proof.Machine
end

section
/-!
O6: scalar instructions, loads and stores of a thread (R29-R31, R36, R41-R43).
-/
namespace Sys2Proof.Machine
open Reg Laws

variable {s : State} {t : ThreadId}

/-- A write of register `r` with `v` is read back, and the others are as they were. -/
def regWritten (s u : State) (k r : Nat) (v : BitVec 32) : Prop :=
  (∀ j, j ≠ k → thr u j = thr s j) ∧ tget 0 (thr u k).g r = v ∧ ∀ q : Nat, q ≠ r → tget 0 (thr u k).g q = tget 0 (thr s k).g q

theorem regWritten_advance (s : State) (k r : Nat) (v : BitVec 32) : regWritten s (advancePc (setG s k r v) k false) k r v := by
  have hthr : thr (setG s k r v) k = { thr s k with g := tput 0 (thr s k).g r v } := thr_setThr_same ..
  refine ⟨fun j hj => (advancePc_thr_other hj _).trans (thr_setThr_other hj _), ?_, fun q hq => ?_⟩
  · rw [advancePc_thr, hthr]
    exact tget_tput_same ..
  · rw [advancePc_thr, hthr]
    exact tget_tput_other hq _

section
variable (h : canIssue s (tno t) = true)
include h

theorem scalarOp_set (r : Fin 32) (v : BitVec 32) : completes (.scalarOp t (.set r v)) s fun u =>
    u = { s with threads := u.threads, cores := u.cores, free := u.free } ∧ issuedBy s u (tno t) ∧ regWritten s u (tno t) r v :=
  ⟨_, if_pos h, rfl, advancePc_issued (setG s _ r v) _ _, regWritten_advance ..⟩

theorem scalarOp_branch (a : BitVec 14) : completes (.scalarOp t (.branch a)) s fun u =>
    u = { s with threads := u.threads, cores := u.cores } ∧ issuedBy s u (tno t) ∧ (∀ j, j ≠ tno t → thr u j = thr s j) ∧
      (thr u (tno t)).pc = a.toNat ∧ (thr u (tno t)).g = (thr s (tno t)).g := by
  refine ⟨_, if_pos h, rfl, noteIssue_issued s _, fun j hj => thr_setThr_other hj _, ?_, ?_⟩
  all_goals rw [thr_setThr_same]

theorem threadLoad_word {m : CoreMem} {addr : Nat} (r : Fin 32) (hok : accessOk m addr 4 false = true)
    (hcalm : (clu s t.cluster).doomed = false) (hclean : ∀ w ∈ wordsOf addr 4, cleanWord s (memBase t.cluster (memNo m) t.core + 8 * w)) :
    completes (.threadLoad t m addr 4 r .clean) s fun u =>
      u = { s with threads := u.threads, cores := u.cores, free := u.free } ∧ issuedBy s u (tno t) ∧
      regWritten s u (tno t) r (BitVec.ofNat 32 (rdN s (memBase t.cluster (memNo m) t.core + addr) 4)) := by
  have hread : readWords t.cluster ((wordsOf addr 4).map fun w => (memNo m, t.core.val, w)) s = (s, false) := by
    refine readWords_of_clean fun x hx => ?_
    obtain ⟨w, hw, rfl⟩ := List.mem_map.1 hx
    exact hclean w hw
  refine ⟨advancePc (setG s _ r (BitVec.ofNat 32 (rdN s (memBase t.cluster (memNo m) t.core + addr) 4))) (tno t) false, ?_, rfl,
    advancePc_issued (setG s _ r _) _ _, regWritten_advance ..⟩
  change execThreadLoad t m addr 4 r .clean s = _
  simp only [execThreadLoad, h, hok, addEcc, hread, loadValue, Bool.not_true, Bool.false_eq_true, if_false, if_true]
  rw [settleDoomed_of_calm (by rw [clu, advancePc_frame]; exact hcalm)]

theorem threadStore_bytes {m : CoreMem} {addr len : Nat} (r : Fin 32) (hok : accessOk m addr len true = true) (hlen : len ≤ 4)
    (hcalm : (clu s t.cluster).doomed = false) (hclean : ∀ w ∈ wordsOf addr len, cleanWord s (memBase t.cluster (memNo m) t.core + 8 * w))
    (hwait : noWriteBack s t.cluster (memNo m) t.core (wordsOf addr len)) :
    completes (.threadStore t m addr len r .clean) s fun u =>
      u = { s with mem := u.mem, threads := u.threads, cores := u.cores, free := u.free } ∧ issuedBy s u (tno t) ∧
      rdN u (memBase t.cluster (memNo m) t.core + addr) len = (tget 0 (thr s (tno t)).g r).toNat % 256 ^ len ∧
      sameMemBut s u (memBase t.cluster (memNo m) t.core + addr) len ∧
      (∀ q : Nat, tget 0 (thr u (tno t)).g q = tget 0 (thr s (tno t)).g q) ∧ ∀ j, j ≠ tno t → thr u j = thr s j := by
  have hin : addr + len ≤ memSize (memNo m) := by
    simp only [accessOk, Bool.and_eq_true, decide_eq_true_eq] at hok
    exact hok.1.1
  have hword {i : Nat} (hi : i < len) : (addr + i) / 8 ∈ wordsOf addr len := by
    simp only [wordsOf, List.mem_map, List.mem_range]
    exact ⟨(addr + i) / 8 - addr / 8, by omega, by omega⟩
  generalize hbase : memBase t.cluster (memNo m) t.core + addr = a
  generalize hv : (tget 0 (thr s (tno t)).g r).toNat % 2 ^ (8 * len) = v
  have hquiet : wroteRange (wrN s a len v) a len = wrN s a len v := by
    refine wroteRange_of_part (by omega) (fun i hi => ?_) fun i hi => ?_
    · rw [cleanWord_congr (s := s) (by rw [wrN_frame]) (by rw [wrN_frame]), ← hbase, Nat.add_assoc]
      exact (cleanWord_byte _).2 (hclean _ (hword hi))
    · rw [awaitsWriteBack_congr (s := s) (fun n => by rw [clu, wrN_frame]; rfl)]
      rintro ⟨c, m', k, w, hcell, hback⟩
      have hcell' := cellOf_memBase (c := t.core) (m := memNo m) t.cluster.isLt t.core.isLt (by cases m <;> decide)
        (show addr + i < memSize (memNo m) by omega)
      rw [cellOf_word, ← hbase, Nat.add_assoc, hcell'] at hcell
      cases hcell
      exact hback fun w hw => by rw [List.mem_singleton.1 hw]; exact hwait _ (hword hi)
  refine ⟨advancePc (wrN s a len v) (tno t) false, ?_, ?_, ?_, ?_, ?_, ?_, ?_⟩
  · change execThreadStore t m addr len r .clean s = _
    simp only [execThreadStore, h, hok, addEcc, storeValue, hlen, hbase, hv, Bool.not_true, Bool.false_eq_true, if_false, if_true, hquiet]
    rw [settleDoomed_of_calm (by rw [clu, advancePc_frame, wrN_frame]; exact hcalm)]
  · obtain ⟨x, hx⟩ : ∃ x, wrN s a len v = { s with mem := x } := ⟨_, wrN_frame ..⟩
    rw [hx]
    rfl
  · exact issuedBy_of_cores (advancePc_issued _ _ _) (by rw [wrN_frame])
  · rw [rdN_congr (s := wrN s a len v) (by rw [advancePc_frame]), rdN_wrN_same, ← hv, Nat.pow_mul, Nat.mod_mod]
  · intro x hx
    rw [rb, advancePc_frame]
    exact rb_wrN_other len hx
  · intro q
    rw [advancePc_thr, thr, wrN_frame]
    rfl
  · intro j hj
    rw [advancePc_thr_other hj, thr, wrN_frame]
    rfl

theorem threadLoad_outside {m : CoreMem} {addr len : Nat} (r : Fin 32) (e : Ecc) (hok : accessOk m addr len false = false) :
    exec (.threadLoad t m addr len r e) s = .next (settleDoomed (issueFault s (tno t) 0x7F) t.cluster) := by
  change execThreadLoad t m addr len r e s = _
  simp [execThreadLoad, h, hok]

theorem threadStore_outside {m : CoreMem} {addr len : Nat} (r : Fin 32) (e : Ecc) (hok : accessOk m addr len true = false) :
    exec (.threadStore t m addr len r e) s = .next (settleDoomed (issueFault s (tno t) 0x7F) t.cluster) := by
  change execThreadStore t m addr len r e s = _
  simp [execThreadStore, h, hok]

end
end Sys2Proof.Machine

open Sys2Proof Sys2Proof.Machine Sys2Proof.Machine.Reg

/-- Settles O6: words without an error are read as they are, and a short store into them, with no write-back waiting, changes only the
bytes it names. -/
theorem threadsComputeLoadAndStore : Obligations.ThreadsComputeLoadAndStore := by
  intro s t h
  refine ⟨scalarOp_set h, scalarOp_branch h, if_pos h, fun m addr r => threadLoad_word h r, fun m addr len r => threadStore_bytes h r,
    fun m addr len r e => threadLoad_outside h r e, fun m addr len r e => threadStore_outside h r e⟩
end

section
/-!
O7 and O10 fail: the invariant does not hold the thread numbers that a work unit lists to the 34 clusters. A core of a cluster whose
number is far past them counts a corrected word under a root domain of that number (R473), and FLT_DOM_CNT of such a domain is a
register of cluster 0: of domain 0x7800040 CLU_CORE_FAULT_0, of domain 0x77FFFC3 CLU_STAT_0.
-/
namespace Sys2Proof.Machine
open Reg

/-- A CONV of thread 8 waits to start in core 0 of cluster `n`, and a bit error that a read corrects stands in its window descriptor
(R126). -/
def convWaits (s : State) (n : Nat) : State :=
  { s with
    cores := [(n * 64, { arr := [{ word := 0x21 * 2 ^ 120, thread := 8, qset := 0 }] })]
    upsets := [(memBase n 1 0 / 8, false)] }

/-- Thread 0 of cluster 0 runs a unit that also lists a thread of cluster 0x7800040. -/
def strayFault : State :=
  convWaits { State.reset with
    units := [(1, { part := 0, kind := .other, threads := [0, 0x7800040 * 512] })]
    threads := [(0, { unit := some 1 })] } 0x7800040

theorem strayFault_inv : Inv strayFault := ⟨rfl, rfl, rfl, rfl⟩

/-- The fault sets bit 0 of CLU_CORE_FAULT_0, and the restart of the far core counts on from 1 to 2 there. -/
theorem strayFault_coreFault : rd (threadFault strayFault 0 0x7F false) (CLU_CORE_FAULT_FAULT 0 0) = 2 := by decide

/-- A training step of partition 1 whose unit lists a thread of cluster 0x77FFFC3. -/
def strayTrain : Train where
  cmd := ⟨0, 0, 0, 0, 0, false, 1, 0⟩
  part := 1
  entry := 0
  digest := 0
  params := ⟨0, 0, 0, 0, false, false, 0, 0, 0, 0, 0, 0, 0, 0, 0, 0, 0, 0, 0, 0⟩
  running := false
  prio := 0
  order := 0

/-- The reset of partition 1 waits for cluster 0, and its training step has not ended. -/
def strayRetire : State :=
  convWaits { State.reset with
    units := [(1, { part := 1, kind := .train 0 0 0, threads := [0x77FFFC3 * 512] })]
    parts := [(1, { owner := 0, logical := [], clSet := 1, keySlot := 1, quota := ⟨0, 0, 0, 0, []⟩, ringFirst := 0, ringCount := 1,
                    minRate := 0, fence := .resetting, initLeft := [0] })]
    srv := { trains := [strayTrain] } } 0x77FFFC3

theorem strayRetire_inv : Inv strayRetire := ⟨rfl, rfl, rfl, rfl⟩

/-- The retirement of cluster 0 lets the reset go on, which ends the step; the restart of the far core counts CLU_STAT_0.STATE on from
RETIRED (5) to 6. -/
theorem strayRetire_state : rd (retireCluster strayRetire 0 0) (CLU_STAT_STATE 0) = 6 := by decide

end Sys2Proof.Machine

open Sys2Proof Sys2Proof.Machine Sys2Proof.Machine.Reg

/-- Refutes O7: in `strayFault` the bit of the core is lost again in the course of the fault. -/
theorem not_threadFaultStopsItsThread : ¬ Obligations.ThreadFaultStopsItsThread := by
  intro h
  obtain ⟨-, hbit, -⟩ := h strayFault ⟨0, 0, 0⟩ 0x7F false strayFault_inv
  change bit (rd (threadFault strayFault 0 0x7F false) (CLU_CORE_FAULT_FAULT 0 0)) 0 = true at hbit
  rw [strayFault_coreFault] at hbit
  exact absurd hbit (by decide)

/-- Refutes O10: in `strayRetire` the retired cluster 0 does not end in RETIRED. -/
theorem not_clusterStatesAndControl : ¬ Obligations.ClusterStatesAndControl := by
  intro h
  obtain ⟨-, -, -, -, -, -, -, -, -, -, -, hretire, -⟩ := h strayRetire 0
  obtain ⟨u, hexec, hstate, -⟩ := hretire strayRetire_inv (by decide)
  have hu : retireCluster strayRetire 0 0 = u := Host.Outcome.next.inj hexec
  rw [← hu] at hstate
  exact absurd (strayRetire_state.symm.trans hstate) (by decide)
end

section
/-!
Scrubbers (R44, R45, R54): what the advance of a scrubber leaves, and what the detection of an error leaves (R52, R53, R473).
-/
namespace Sys2Proof.Machine
open Reg Laws

variable {s t u : State} {a n m c b w : Nat}

/-! ### The scrub side of a cluster -/

/-- Only the scrubbers, the record of rewritten words and the counts of sweeps differ. -/
def scrubSide (s t : State) : Prop :=
  t = { s with clusters := t.clusters, regs := t.regs } ∧
  (∀ n, clu t n = { clu s n with scrub := (clu t n).scrub, lastSweep := (clu t n).lastSweep, ueWords := (clu t n).ueWords }) ∧
  ∀ f : RegField, (∀ n, f.key ≠ (CLU_SCRUB_STAT_SWEEPS n).key ∧ f.key ≠ (CLU_SCRUB_STAT_MAX_SWEEP n).key) → rd t f = rd s f

theorem scrubSide_refl (s : State) : scrubSide s s := ⟨rfl, fun _ => rfl, fun _ _ => rfl⟩

theorem scrubSide_trans (h : scrubSide s t) (h' : scrubSide t u) : scrubSide s u := by
  obtain ⟨hs, hc, hr⟩ := h
  obtain ⟨hs', hc', hr'⟩ := h'
  refine ⟨by rw [hs', hs], fun n => ?_, fun f hf => (hr' f hf).trans (hr f hf)⟩
  rw [hc' n, hc n]

theorem scrubSide_ite {p : Prop} [Decidable p] (ht : scrubSide s t) (hu : scrubSide s u) : scrubSide s (if p then t else u) := by
  split
  exacts [ht, hu]

/-- A cluster's scrub side replaced. -/
theorem scrubSide_setClu (s : State) (n : Nat) (x : List (Nat × Scrubber)) (l : Nat) (y : List (Nat × Nat)) :
    scrubSide s (setClu s n { clu s n with scrub := x, lastSweep := l, ueWords := y }) := by
  refine ⟨rfl, fun j => ?_, fun _ _ => rfl⟩
  by_cases h : j = n
  · rw [h, clu_setClu_same]
  · rw [clu_setClu_other h]

theorem settleSweep_side (s : State) (n : Nat) : scrubSide s (settleSweep s n) := by
  have hwr (v v' : Nat) : scrubSide s (wr (wr s (CLU_SCRUB_STAT_SWEEPS n) v) (CLU_SCRUB_STAT_MAX_SWEEP n) v') :=
    ⟨rfl, fun _ => rfl, fun f hf => (rd_wr_other (hf n).2 _).trans (rd_wr_other (hf n).1 _)⟩
  unfold settleSweep
  exact scrubSide_ite (scrubSide_trans (hwr _ _) (scrubSide_setClu _ n _ _ _)) (scrubSide_refl s)

theorem scrubAdvance_side (s : State) (n m c b : Nat) : scrubSide s (scrubAdvance s n m c b) :=
  scrubSide_trans (scrubSide_setClu s n _ _ _) (settleSweep_side _ _)

theorem portWrote_side (s : State) (a : Nat) : scrubSide s (portWrote s a) := by
  unfold portWrote
  split
  · exact scrubSide_refl s
  · exact scrubSide_ite (scrubAdvance_side ..) (scrubSide_refl s)

theorem noteRewrite_side (s : State) (n a : Nat) : scrubSide s (noteRewrite s n a) :=
  scrubSide_ite (scrubSide_setClu s n _ _ _) (scrubSide_refl s)

/-! ### An advance -/

/-- A sweep's end clears only whether the banks have passed. -/
theorem unpassed_fold (l : List Nat) (x : List (Nat × Scrubber)) (k : Nat) :
    let y := l.foldl (fun t b => tput {} t b { tget {} t b with passed := false }) x
    (tget {} y k).next = (tget {} x k).next ∧ (tget {} y k).writeBack = (tget {} x k).writeBack := by
  refine List.foldlRecOn (motive := fun y : List (Nat × Scrubber) =>
    (tget {} y k).next = (tget {} x k).next ∧ (tget {} y k).writeBack = (tget {} x k).writeBack) l _ ⟨rfl, rfl⟩ fun y hy j _ => ?_
  by_cases h : k = j
  · rw [← h, tget_tput_same]
    exact hy
  · rw [tget_tput_other h]
    exact hy

theorem settleSweep_scrubber (s : State) (n k : Nat) :
    (tget {} (clu (settleSweep s n) n).scrub k).next = (tget {} (clu s n).scrub k).next ∧
      (tget {} (clu (settleSweep s n) n).scrub k).writeBack = (tget {} (clu s n).scrub k).writeBack := by
  unfold settleSweep
  generalize allBanks = l
  dsimp only
  split
  · rw [clu_setClu_same]
    exact unpassed_fold l _ _
  · exact ⟨rfl, rfl⟩

/-- The scrubber goes to the next word of its bank, and no write-back waits (R44, R45). -/
theorem scrubAdvance_scrubber (s : State) (n m c b : Nat) :
    (tget {} (clu (scrubAdvance s n m c b) n).scrub (bankKey m c b)).next =
        ((tget {} (clu s n).scrub (bankKey m c b)).next + 1) % bankWords m ∧
      (tget {} (clu (scrubAdvance s n m c b) n).scrub (bankKey m c b)).writeBack = none := by
  unfold scrubAdvance
  dsimp only
  rw [(settleSweep_scrubber _ n _).1, (settleSweep_scrubber _ n _).2, clu_setClu_same, tget_tput_same]
  exact ⟨rfl, rfl⟩

/-! ### The detection of an error -/

theorem report_frame (s : State) (dom cls status part sub detail : Nat) : report s dom cls status part sub detail =
    { s with regs := (report s dom cls status part sub detail).regs, free := (report s dom cls status part sub detail).free,
             flt := (report s dom cls status part sub detail).flt } := by
  obtain ⟨r, f, x, h⟩ : ∃ r f x, trace s 6 part = { s with regs := r, free := f, flt := x } := ⟨_, _, _, trace_frame ..⟩
  unfold report
  rw [h]
  dsimp only
  split
  · rfl
  · split
    all_goals rfl

theorem eccCapture_side (s : State) (n m c w : Nat) (ue : Bool) : regsSide s (eccCapture s n m c w ue) := by
  unfold eccCapture
  refine regsSide_ite ?_ (regsSide_refl s)
  exact regsSide_wr (regsSide_wr (regsSide_wr (regsSide_wr (regsSide_wr (regsSide_wr (regsSide_wr (regsSide_refl s) _ _) _ _) _ _) _ _)
    _ _) _ _) _ _

theorem eccHistory_frame (s : State) (n m c w : Nat) (ue : Bool) :
    ∃ k, eccHistory s n m c w ue = { s with clusters := k } ∧ ∀ j, (tget {} k j).scrub = (clu s j).scrub := by
  have hset (x : Cluster) (hx : x.scrub = (clu s n).scrub) :
      ∃ k, setClu s n x = { s with clusters := k } ∧ ∀ j, (tget {} k j).scrub = (clu s j).scrub := by
    refine ⟨_, rfl, fun j => ?_⟩
    by_cases h : j = n
    · rw [h, tget_tput_same, hx]
    · rw [tget_tput_other h, clu]
  unfold eccHistory
  dsimp only
  split
  · exact hset _ rfl
  · exact hset _ rfl

/-- A detection changes registers, logs and the retirement history of its cluster alone. -/
theorem eccDetect_frame (s : State) (n m c w : Nat) (ue : Bool) : ∃ k r f x,
    eccDetect s n m c w ue = { s with clusters := k, regs := r, free := f, flt := x } ∧ ∀ j, (tget {} k j).scrub = (clu s j).scrub := by
  have hregs : regsSide s (let t := eccCapture (bump s (if ue then CLU_ECC_CNT_UE n m else CLU_ECC_CNT_CE n m) 1) n m c w ue
      if ue then wr t (CLU_STAT_UE_PEND n) 1 else t) :=
    have h := regsSide_trans (regsSide_wr (regsSide_refl s) _ _) (eccCapture_side ..)
    regsSide_ite (regsSide_wr h _ _) h
  unfold eccDetect
  dsimp only at hregs ⊢
  generalize (if ue = true then wr (eccCapture _ _ _ _ _ _) _ _ else _) = t at hregs
  obtain ⟨r, rfl⟩ : ∃ r, t = { s with regs := r } := ⟨_, hregs⟩
  rw [report_frame]
  split
  · exact ⟨_, _, _, _, rfl, fun _ => rfl⟩
  · obtain ⟨k, hk, hscrub⟩ := eccHistory_frame { s with regs := r } n m c w ue
    rw [hk]
    exact ⟨_, _, _, _, rfl, hscrub⟩

end Sys2Proof.Machine
end

section
/-!
O12: scrub reads, write-backs and forced slots (R42, R44-R46, R52, R53).
-/
namespace Sys2Proof.Machine
open Reg Laws

variable {s t : State} {b : BankId}

/-- The word a bank's scrubber comes to next, and its address. -/
def scrubWord (s : State) (b : BankId) : Nat := (scrubber s b).next * memBanks b.mem + b.bank
def scrubAddr (s : State) (b : BankId) : Nat := memBase b.cluster b.mem b.core + 8 * scrubWord s b

/-- The scrubber goes to the next word, and memories are as before. -/
def scrubbedOn (s : State) (b : BankId) (u : State) : Prop :=
  (scrubber u b).next = ((scrubber s b).next + 1) % bankWords b.mem ∧ (scrubber u b).writeBack = none ∧ u.mem = s.mem ∧ u.host = s.host

/-- An advance from a state with the same scrubbers and memories. -/
theorem scrubAdvance_scrubbedOn (hscrub : (clu t b.cluster).scrub = (clu s b.cluster).scrub) (hmem : t.mem = s.mem) (hhost : t.host = s.host) :
    scrubbedOn s b (scrubAdvance t b.cluster b.mem b.core b.bank) := by
  obtain ⟨hnext, hback⟩ := scrubAdvance_scrubber t b.cluster b.mem b.core b.bank
  obtain ⟨hframe, -, -⟩ := scrubAdvance_side t b.cluster b.mem b.core b.bank
  refine ⟨?_, hback, by rw [hframe, hmem], by rw [hframe, hhost]⟩
  rw [scrubber, hnext, hscrub, scrubber]

theorem doomed_of_scrubSide {n : Nat} (h : scrubSide s t) : (clu t n).doomed = (clu s n).doomed := by rw [h.2.1 n]

/-! ### One read -/

theorem scrubRead_clean (h : cleanWord s (scrubAddr s b)) :
    scrubRead s b.cluster b.mem b.core b.bank .clean = scrubAdvance s b.cluster b.mem b.core b.bank := by
  have hnone : upset s (scrubAddr s b) = none := h.2
  have hread : readWord s b.cluster b.mem b.core (scrubWord s b) = (s, false) := readWord_of_clean h
  unfold scrubAddr scrubWord scrubber at *
  simp only [scrubRead, addEcc, hread, hnone, Option.isSome_none, Bool.false_eq_true, if_false]

theorem upset_addUpset (s : State) (a : Nat) (ue : Bool) : upset (addUpset s a ue) a = some (ue || upset s a == some true) := by
  unfold addUpset upset
  exact tfind_tset_same ..

/-- The state after the detection of an error that the read of the scrubber's word has found. -/
def scrubFound (s : State) (b : BankId) (ue : Bool) : State :=
  eccDetect (addUpset s (scrubAddr s b) ue) b.cluster b.mem b.core (scrubWord s b) ue

theorem scrubFound_keeps (s : State) (b : BankId) (ue : Bool) : let t := scrubFound s b ue
    (∀ j, (clu t j).scrub = (clu s j).scrub) ∧ t.mem = s.mem ∧ t.host = s.host := by
  obtain ⟨k, r, f, x, h, hscrub⟩ := eccDetect_frame (addUpset s (scrubAddr s b) ue) b.cluster b.mem b.core (scrubWord s b) ue
  rw [scrubFound, h]
  exact ⟨hscrub, rfl, rfl⟩

theorem scrubRead_corrected (h : cleanWord s (scrubAddr s b)) (hcalm : (clu (scrubFound s b false) b.cluster).doomed = false) :
    let u := scrubRead s b.cluster b.mem b.core b.bank .corrected
    (scrubber u b).writeBack = some (scrubWord s b) ∧ (scrubber u b).next = (scrubber s b).next ∧ u.mem = s.mem := by
  obtain ⟨hpoison, hclean⟩ := h
  have hup : upset (addUpset s (scrubAddr s b) false) (scrubAddr s b) = some false := by rw [upset_addUpset, hclean]; rfl
  have hbad : badWord (addUpset s (scrubAddr s b) false) (scrubAddr s b) = false := by
    rw [badWord, hup]
    exact Bool.or_eq_false_iff.2 ⟨hpoison, rfl⟩
  obtain ⟨hscrub, hmem, -⟩ := scrubFound_keeps s b false
  have hread : readWord (addUpset s (scrubAddr s b) false) b.cluster b.mem b.core (scrubWord s b) = (scrubFound s b false, false) := by
    unfold scrubFound scrubAddr at *
    simp only [readWord, hbad, hup, Bool.false_eq_true, if_false, if_true]
  have hstep : scrubRead s b.cluster b.mem b.core b.bank .corrected = settleDoomed (setClu (scrubFound s b false) b.cluster
      { clu (scrubFound s b false) b.cluster with
        scrub := tput {} (clu (scrubFound s b false) b.cluster).scrub (bankKey b.mem b.core b.bank)
          { tget {} (clu (scrubFound s b false) b.cluster).scrub (bankKey b.mem b.core b.bank) with writeBack := some (scrubWord s b) } })
      b.cluster := by
    unfold scrubAddr scrubWord scrubber at *
    simp only [scrubRead, addEcc, hread, hup, Option.isSome_some, Bool.false_eq_true, if_false, if_true]
  dsimp only
  rw [hstep, settleDoomed_of_calm (by rw [clu_setClu_same]; exact hcalm)]
  refine ⟨?_, ?_, hmem⟩
  · rw [scrubber, clu_setClu_same, tget_tput_same]
  · rw [scrubber, clu_setClu_same, tget_tput_same, hscrub]
    rfl

theorem setPoison_frame (s : State) (a : Nat) : setPoison s a = { s with poison := (setPoison s a).poison } := by
  unfold setPoison
  split
  all_goals rfl

theorem poisoned_setPoison (s : State) (a : Nat) : poisoned (setPoison s a) a = true := by
  unfold setPoison
  split
  · assumption
  · simp [poisoned]

theorem scrubRead_uncorrectable (hcalm : (clu (scrubFound s b true) b.cluster).doomed = false) :
    let u := scrubRead s b.cluster b.mem b.core b.bank .uncorrectable
    poisoned u (scrubAddr s b) = true ∧ scrubbedOn s b u := by
  have hbad : badWord (addUpset s (scrubAddr s b) true) (scrubAddr s b) = true := by
    rw [badWord, upset_addUpset]
    simp
  obtain ⟨hscrub, hmem, hhost⟩ := scrubFound_keeps s b true
  have hread : readWord (addUpset s (scrubAddr s b) true) b.cluster b.mem b.core (scrubWord s b) = (scrubFound s b true, true) := by
    unfold scrubFound scrubAddr at *
    simp only [readWord, hbad, if_true]
  have hstep : scrubRead s b.cluster b.mem b.core b.bank .uncorrectable =
      settleDoomed (scrubAdvance (setPoison (scrubFound s b true) (scrubAddr s b)) b.cluster b.mem b.core b.bank) b.cluster := by
    unfold scrubAddr scrubWord scrubber at *
    simp only [scrubRead, addEcc, hread, if_true]
  have hside := scrubAdvance_side (setPoison (scrubFound s b true) (scrubAddr s b)) b.cluster b.mem b.core b.bank
  have hcalm' : (clu (setPoison (scrubFound s b true) (scrubAddr s b)) b.cluster).doomed = false := by
    rw [clu, setPoison_frame]
    exact hcalm
  dsimp only
  rw [hstep, settleDoomed_of_calm (by rw [doomed_of_scrubSide hside, hcalm'])]
  refine ⟨?_, scrubAdvance_scrubbedOn ?_ ?_ ?_⟩
  · rw [poisoned, hside.1]
    exact poisoned_setPoison ..
  · rw [clu, setPoison_frame]
    exact hscrub _
  · rw [setPoison_frame]
    exact hmem
  · rw [setPoison_frame]
    exact hhost

/-! ### One write-back -/

theorem scrubWrites_done (v : Nat) : let u := scrubWrites s b.cluster b.mem b.core b.bank v
    scrubbedOn s b u ∧ upset u (memBase b.cluster b.mem b.core + 8 * v) = none := by
  refine ⟨scrubAdvance_scrubbedOn rfl rfl rfl, ?_⟩
  obtain ⟨hframe, -, -⟩ := scrubAdvance_side (dropUpset s (memBase b.cluster b.mem b.core + 8 * v)) b.cluster b.mem b.core b.bank
  rw [scrubWrites, upset, hframe]
  exact tfind_tdel_same ..

/-! ### The commands -/

section
variable (h : scrubbed s b = true)
include h

theorem exec_scrubRead (hb : (scrubber s b).writeBack = none) (e : Ecc) :
    exec (.scrubRead b e) s = .next (scrubRead s b.cluster b.mem b.core b.bank e) := if_pos (by simp [h, hb])

theorem exec_forcedSlot (hd : forcedDue s b = true) (e : Ecc) : exec (.forcedScrubSlot b e) s =
    match (scrubber s b).writeBack with
    | some w => .next (scrubWrites s b.cluster b.mem b.core b.bank w)
    | none => .next (scrubRead s b.cluster b.mem b.core b.bank e) := if_pos (by simp [h, hd])

theorem exec_scrubWriteBack {v : Nat} (hb : (scrubber s b).writeBack = some v) :
    exec (.scrubWriteBack b) s = .next (scrubWrites s b.cluster b.mem b.core b.bank v) := by
  change execScrubWriteBack b s = _
  rw [execScrubWriteBack, if_pos h, hb]

end
end Sys2Proof.Machine

open Sys2Proof Sys2Proof.Machine Sys2Proof.Machine.Reg

/-- Settles O12: each command is a scrub read or a write-back, and each of these is an advance but the read that finds a corrected
word. -/
theorem scrubbersAdvance : Obligations.ScrubbersAdvance := by
  intro s b h
  have hslot {e : Ecc} (hb : (scrubber s b).writeBack = none) (hd : forcedDue s b = true) :
      exec (.forcedScrubSlot b e) s = .next (scrubRead s b.cluster b.mem b.core b.bank e) := by rw [exec_forcedSlot h hd, hb]
  have hadvance : scrubbedOn s b (scrubAdvance s b.cluster b.mem b.core b.bank) := scrubAdvance_scrubbedOn rfl rfl rfl
  refine ⟨fun hb hclean => ⟨⟨_, exec_scrubRead h hb _, ?_⟩, fun hd => ⟨_, hslot hb hd, ?_⟩⟩, fun hd e => if_neg (by simp [hd]),
    fun hb hclean hcalm => ⟨_, exec_scrubRead h hb _, scrubRead_corrected hclean hcalm⟩,
    fun hb _ hcalm => ⟨_, exec_scrubRead h hb _, scrubRead_uncorrectable hcalm⟩,
    fun v hv => ⟨⟨_, exec_scrubWriteBack h hv, scrubWrites_done v⟩,
      fun hd e => ⟨_, by rw [exec_forcedSlot h hd, hv], scrubWrites_done v⟩⟩⟩
  all_goals
    rw [scrubRead_clean hclean]
    exact hadvance
end

section
/-!
Waiting threads (R30, R33-R35): which threads a wake makes READY, and when a core barrier is complete.
-/
namespace Sys2Proof.Machine
open Reg Laws

variable {s t u : State} {j k cn : Nat} {w : Wait} {p q : Nat → Prop}

/-- The threads of `p` that wait as `w` says no longer wait, and are READY unless they are HALTED; no other thread differs. -/
structure Woken (w : Wait) (p : Nat → Prop) (s u : State) : Prop where
  frame : u = { s with threads := u.threads, regs := u.regs }
  awake : ∀ j, p j → (thr s j).wait = w → (thr u j).wait = .none ∧ (thrState s j ≠ 7 → thrState u j = 1)
  others : ∀ j, ¬(p j ∧ (thr s j).wait = w) → thr u j = thr s j ∧ thrState u j = thrState s j
  keeps : ∀ j, thr u j = { thr s j with wait := (thr u j).wait, resume := (thr u j).resume }
  state : ∀ j, thrState u j = thrState s j ∨ thrState u j = 1
  regs : ∀ f : RegField, (∀ j, f.key ≠ (thrField j).key) → rd u f = rd s f

theorem Woken.refl (h : ∀ j, ¬(p j ∧ (thr s j).wait = w)) : Woken w p s s where
  frame := rfl
  awake j hp hw := absurd ⟨hp, hw⟩ (h j)
  others _ _ := ⟨rfl, rfl⟩
  keeps _ := rfl
  state _ := .inl rfl
  regs _ _ := rfl

/-- Woken threads stay awake when further ones are woken. -/
theorem Woken.trans (hw : w ≠ .none) (h : Woken w p s t) (h' : Woken w q t u) : Woken w (fun j => p j ∨ q j) s u where
  frame := by rw [h'.frame, h.frame]
  awake j hp hwait := by
    by_cases hpj : p j
    · obtain ⟨hnone, hready⟩ := h.awake j hpj hwait
      obtain ⟨hthr, hstate⟩ := h'.others j fun hq => hw (hq.2 ▸ hnone)
      rw [hthr, hstate]
      exact ⟨hnone, hready⟩
    · obtain ⟨hthr, hstate⟩ := h.others j fun hj => hpj hj.1
      rw [← hthr] at hwait
      rw [← hstate]
      exact h'.awake j (hp.resolve_left hpj) hwait
  others j hj := by
    obtain ⟨hthr, hstate⟩ := h.others j fun hp => hj ⟨.inl hp.1, hp.2⟩
    obtain ⟨hthr', hstate'⟩ := h'.others j fun hq => hj ⟨.inr hq.1, hthr ▸ hq.2⟩
    exact ⟨hthr'.trans hthr, hstate'.trans hstate⟩
  keeps j := by
    have h1 := h.keeps j
    have h2 := h'.keeps j
    rw [h1] at h2
    exact h2
  state j := (h'.state j).elim (fun e => (h.state j).imp e.trans e.trans) .inr
  regs f hf := (h'.regs f hf).trans (h.regs f hf)

theorem Woken.congr (h : Woken w p s u) (e : ∀ j, p j ↔ q j) : Woken w q s u := funext (fun j => propext (e j)) ▸ h

/-- One thread woken if it waits so. -/
theorem woken_one (w : Wait) (s : State) (k : Nat) :
    Woken w (· = k) s (if (thr s k).wait = w then setThrState s k 1 .none else s) := by
  split
  · next hwait =>
    have hother {j : Nat} (hj : ¬(j = k ∧ (thr s j).wait = w)) : j ≠ k := fun e => hj ⟨e, e ▸ hwait⟩
    refine ⟨setThrState_frame .., ?_, fun j hj => ?_, fun j => ?_, fun j => ?_, fun f hf => ?_⟩
    · rintro j rfl -
      exact ⟨setThrState_wait .., fun h7 => thrState_setThrState h7 ..⟩
    · exact ⟨thr_setThrState_other (hother hj) .., thrState_setThrState_other (hother hj) ..⟩
    · by_cases h : j = k
      · rw [h, thr_setThrState]
      · rw [thr_setThrState_other h]
    · by_cases h : j = k
      · rw [h]
        by_cases h7 : thrState s k = 7
        · exact .inl (thrState_congr (by rw [setThrState, if_pos h7, setThr_regs]) k)
        · exact .inr (thrState_setThrState h7 ..)
      · exact .inl (thrState_setThrState_other h ..)
    · exact setThrState_regs s k 1 .none f fun h => hf k (List.mem_singleton.1 h)
  · next hwait => exact Woken.refl fun j hj => hwait (hj.1 ▸ hj.2)

theorem woken_fold {α : Type} (hw : w ≠ .none) {g : State → α → State} {p : α → Nat → Prop} (hg : ∀ s x, Woken w (p x) s (g s x))
    (l : List α) (s : State) : Woken w (fun j => ∃ x ∈ l, p x j) s (l.foldl g s) := by
  induction l generalizing s with
  | nil => exact Woken.refl (by simp)
  | cons x l ih => exact ((hg s x).trans hw (ih (g s x))).congr fun j => by simp

/-- Threads of a core that wait as `w` says are woken. -/
theorem wakeCore_woken (hw : w ≠ .none) (s : State) (cn : Nat) : Woken w (fun j => j / 8 = cn) s (wakeCore s cn w) := by
  refine (woken_fold hw (fun s i => woken_one w s (cn * 8 + i)) (List.range 8) s).congr fun j => ?_
  simp only [List.mem_range]
  exact ⟨fun ⟨i, hi, h⟩ => by omega, fun h => ⟨j % 8, by omega, by omega⟩⟩

/-- So are those of a cluster, core by core. -/
theorem wakeCluster_woken (hw : w ≠ .none) (s : State) (n : Nat) :
    Woken w (fun j => j / 512 = n) s ((List.range 64).foldl (fun s c => wakeCore s (coreNo n c) w) s) := by
  refine (woken_fold hw (fun s c => wakeCore_woken hw s (coreNo n c)) (List.range 64) s).congr fun j => ?_
  simp only [List.mem_range, coreNo]
  exact ⟨fun ⟨i, hi, h⟩ => by omega, fun h => ⟨j / 8 % 64, by omega, by omega⟩⟩

/-! ### A core barrier (R35) -/

theorem mem_started (s : State) (cn j : Nat) :
    j ∈ ((List.range 8).map (fun i => cn * 8 + i)).filter (fun k => thrState s k != 0 && thrState s k != 6) ↔
      j / 8 = cn ∧ thrState s j ≠ 0 ∧ thrState s j ≠ 6 := by
  simp only [List.mem_filter, List.mem_map, List.mem_range, Bool.and_eq_true, bne_iff_ne]
  exact and_congr_left' ⟨fun ⟨i, hi, h⟩ => by omega, fun h => ⟨j % 8, by omega, by omega⟩⟩

/-- A started thread that has not come holds the barrier. -/
theorem settleCoreBarrier_held (hj : j / 8 = cn) (h0 : thrState s j ≠ 0) (h6 : thrState s j ≠ 6) (hwait : (thr s j).wait ≠ .coreBarrier) :
    settleCoreBarrier s cn = s := by
  refine if_neg fun h => hwait ?_
  exact beq_iff_eq.1 (List.all_eq_true.1 h j ((mem_started s cn j).2 ⟨hj, h0, h6⟩))

/-- With every started thread there, they are woken. -/
theorem settleCoreBarrier_complete (h : ∀ j, j / 8 = cn → thrState s j ≠ 0 → thrState s j ≠ 6 → (thr s j).wait = .coreBarrier) :
    settleCoreBarrier s cn = wakeCore s cn .coreBarrier := by
  refine if_pos (List.all_eq_true.2 fun j hj => ?_)
  obtain ⟨hcore, h0, h6⟩ := (mem_started s cn j).1 hj
  exact beq_iff_eq.2 (h j hcore h0 h6)

theorem settleCoreBarrier_cases (s : State) (cn : Nat) : ∃ p, Woken .coreBarrier p s (settleCoreBarrier s cn) := by
  unfold settleCoreBarrier
  dsimp only
  split
  · exact ⟨_, wakeCore_woken (by decide) s cn⟩
  · exact ⟨fun _ => False, Woken.refl (by simp)⟩

end Sys2Proof.Machine
end

section
/-!
The end of a work unit and of its cluster's INIT (R27): neither starts a stopped thread.
-/
namespace Sys2Proof.Machine
open Reg Laws

variable {s t u : State} {id j k n : Nat} {w : WorkUnit} {l : List RegField}

/-- The work units are as they were and no stopped thread runs. -/
def staysEnded (s u : State) : Prop := u.units = s.units ∧ ∀ j, thrState s j = 0 → thrState u j = 0

theorem staysEnded_refl (s : State) : staysEnded s s := ⟨rfl, fun _ h => h⟩

theorem staysEnded_trans (h : staysEnded s t) (h' : staysEnded t u) : staysEnded s u :=
  ⟨h'.1.trans h.1, fun j hj => h'.2 j (h.2 j hj)⟩

theorem staysEnded_ite {c : Prop} [Decidable c] (ht : staysEnded s t) (hu : staysEnded s u) : staysEnded s (if c then t else u) := by
  split
  exacts [ht, hu]

theorem staysEnded_foldl {α : Type} {g : State → α → State} (hg : ∀ s x, staysEnded s (g s x)) (m : List α) (s : State) :
    staysEnded s (m.foldl g s) :=
  List.foldlRecOn (motive := staysEnded s) m g (staysEnded_refl s) fun t ht x _ => staysEnded_trans ht (hg t x)

theorem staysEnded_of_regs (hu : u.units = s.units) (hr : u.regs = s.regs) : staysEnded s u := ⟨hu, fun j => (thrState_congr hr j).trans⟩

theorem staysEnded_setClu (s : State) (n : Nat) (x : Cluster) : staysEnded s (setClu s n x) := staysEnded_of_regs rfl rfl

/-- A field that is no thread's state. -/
def noThread (f : RegField) : Prop := ∀ j, (thrField j).key ≠ f.key

theorem thrState_of_but (h : sameRegsBut s u l) (hl : ∀ f ∈ l, noThread f) (j : Nat) : thrState u j = thrState s j :=
  h _ fun hj => by
    obtain ⟨f, hf, e⟩ := List.mem_map.1 hj
    exact hl f hf j e.symm

theorem staysEnded_of_but (hu : u.units = s.units) (h : sameRegsBut s u l) (hl : ∀ f ∈ l, noThread f) : staysEnded s u :=
  ⟨hu, fun j => (thrState_of_but h hl j).trans⟩

theorem staysEnded_wr {f : RegField} (h : staysEnded s t) (hf : noThread f) (v : Nat) : staysEnded s (wr t f v) :=
  staysEnded_trans h ⟨rfl, fun j hj => (rd_wr_other (hf j) v).trans hj⟩

/-- A field below the clusters, or not among the thread states of its cluster. -/
theorem noThread_of_addr {f : RegField} (h : f.addr < 0x40000100 ∨ (f.addr % 0x1000000 < 0x100 ∨ 0x200 ≤ f.addr % 0x1000000))
    (hlo : f.lo < 32) : noThread f := by
  intro j e
  simp only [RegField.key, thrField] at e
  generalize j / 512 = a, hb : j / 8 % 64 = b, hc : j % 8 = c at e
  have hb' : b < 64 := hb ▸ Nat.mod_lt _ (by decide)
  have hc' : c < 8 := hc ▸ Nat.mod_lt _ (by decide)
  clear hb hc
  have haddr : f.addr = 0x40000100 + 0x1000000 * a + 4 * b := by omega
  omega

theorem noThread_state (n : Nat) : noThread (CLU_STAT_STATE n) := fun k => (thrField_ne_state k n).symm

theorem noThread_quiesce (n : Nat) : noThread (CLU_CTRL_QUIESCE n) :=
  noThread_of_addr (by simp only [CLU_CTRL_QUIESCE]; omega) (by simp only [CLU_CTRL_QUIESCE]; omega)

theorem noThread_init (n : Nat) : noThread (CLU_CTRL_INIT n) :=
  noThread_of_addr (by simp only [CLU_CTRL_INIT]; omega) (by simp only [CLU_CTRL_INIT]; omega)

theorem noThread_dmaStat (n : Nat) : noThread (CLU_DMA_STAT_ACTIVE_Q n) ∧ noThread (CLU_DMA_STAT_BUSY n) :=
  ⟨noThread_of_addr (by simp only [CLU_DMA_STAT_ACTIVE_Q]; omega) (by simp only [CLU_DMA_STAT_ACTIVE_Q]; omega),
    noThread_of_addr (by simp only [CLU_DMA_STAT_BUSY]; omega) (by simp only [CLU_DMA_STAT_BUSY]; omega)⟩

theorem noThread_sem {i : Nat} (hi : i < 32) : noThread (PLN_SEM_HELD i) :=
  noThread_of_addr (.inl (by simp only [PLN_SEM_HELD]; omega)) (by simp only [PLN_SEM_HELD]; omega)

/-! ### The end of a unit -/

theorem addTotals_frame (s : State) (w : WorkUnit) :
    addTotals s w = { s with parts := (addTotals s w).parts, srv := (addTotals s w).srv } := by
  unfold addTotals
  dsimp only
  rw [setPart_frame]
  split
  all_goals rfl

theorem trace_ended (s : State) (g p : Nat) : staysEnded s (trace s g p) :=
  staysEnded_of_but (by rw [trace_frame]) (trace_regs s g p) fun f hf => by
    simp only [List.mem_cons, List.not_mem_nil, or_false] at hf
    obtain rfl | rfl := hf
    all_goals exact noThread_of_addr (.inl (by decide)) (by decide)

theorem settleCluster_ended (s : State) (n : Nat) : staysEnded s (settleCluster s n) :=
  staysEnded_ite (staysEnded_wr (staysEnded_refl s) (noThread_state n) _)
    (staysEnded_ite (staysEnded_wr (staysEnded_wr (staysEnded_refl s) (noThread_state n) _) (noThread_quiesce n) _) (staysEnded_refl s))

theorem clearFaults_ended (s : State) (n : Nat) : staysEnded s (clearFaults s n) :=
  staysEnded_of_but (by rw [clearFaults_side]) (clearFaults_regs s n) fun f hf j => by
    simp only [faultRegs, List.mem_cons, List.not_mem_nil, or_false] at hf
    obtain rfl | rfl := hf
    · exact thrField_ne_fault j n 0 (by decide)
    · exact thrField_ne_fault j n 1 (by decide)

/-- The thread no longer belongs to the unit. -/
def leaveUnit (id : Nat) (s : State) (k : Nat) : State :=
  if (thr s k).unit = some id then setThr s k { thr s k with unit := none } else s

theorem leaveUnit_fold (id : Nat) (m : List Nat) (s : State) : ∃ x, m.foldl (leaveUnit id) s = ({ s with threads := x } : State) := by
  refine List.foldlRecOn (motive := fun t => ∃ x, t = ({ s with threads := x } : State)) m _ ⟨s.threads, rfl⟩ ?_
  rintro _ ⟨x, rfl⟩ k -
  unfold leaveUnit
  split
  exacts [⟨_, rfl⟩, ⟨x, rfl⟩]

theorem forgetUnit_frame (s : State) (id : Nat) (w : WorkUnit) :
    forgetUnit s id w = { s with threads := (forgetUnit s id w).threads, units := tdel id s.units } := by
  obtain ⟨x, hx⟩ := leaveUnit_fold id w.threads s
  change { w.threads.foldl (leaveUnit id) s with units := tdel id (w.threads.foldl (leaveUnit id) s).units } = _
  have hthreads : (forgetUnit s id w).threads = x := congrArg State.threads hx
  rw [hthreads, hx]

theorem endUnit_running (hw : tfind id s.units = some w) (hj : j ∈ w.threads) (h0 : thrState s j ≠ 0) (h6 : thrState s j ≠ 6) :
    endUnit s id = s := by
  have hrun : unitRunning s w = true := List.any_eq_true.2 ⟨j, hj, by simp [h0, h6]⟩
  rw [endUnit, hw]
  exact if_pos hrun

theorem modFrame_ended (s : State) (c no : Nat) (g : Frame → Frame) : staysEnded s (modFrame s c no g) := staysEnded_of_regs rfl rfl

/-- The unit of stopped threads is no longer listed. -/
theorem endUnit_ended (hw : tfind id s.units = some w) (h0 : ∀ j ∈ w.threads, thrState s j = 0) :
    tfind id (endUnit s id).units = none ∧ ∀ j, thrState s j = 0 → thrState (endUnit s id) j = 0 := by
  have hrun : ¬unitRunning s w = true := by
    simp only [unitRunning, List.any_eq_true, not_exists, not_and]
    intro j hj
    simp [h0 j hj]
  have hbody : staysEnded (forgetUnit (trace (addTotals s w) 2 w.part) id w) (endUnit s id) := by
    rw [endUnit, hw]
    dsimp only
    rw [if_neg hrun]
    have hfold := staysEnded_foldl (fun s n => staysEnded_trans (settleCluster_ended s n) (clearFaults_ended _ n)) (unitClusters w)
      (forgetUnit (trace (addTotals s w) 2 w.part) id w)
    refine staysEnded_trans hfold ?_
    generalize (unitClusters w).foldl _ _ = y
    split
    · have hlast (c no : Nat) (g : Frame → Frame) : staysEnded y (if w.last = true ∧ w.failed = false then modFrame y c no g else y) :=
        staysEnded_ite (modFrame_ended ..) (staysEnded_refl y)
      exact staysEnded_ite (hlast ..) (staysEnded_trans (hlast ..) (modFrame_ended ..))
    · exact staysEnded_ite (staysEnded_refl y) (staysEnded_of_regs rfl rfl)
    · exact staysEnded_refl y
  obtain ⟨hunits, hstate⟩ := hbody
  refine ⟨?_, fun j hj => hstate j ?_⟩
  · rw [hunits, forgetUnit_frame]
    exact tfind_tdel_same ..
  · have htrace := (trace_ended (addTotals s w) 2 w.part).2 j ((thrState_congr (by rw [addTotals_frame]) j).trans hj)
    exact (thrState_congr (by rw [forgetUnit_frame]) j).trans htrace

/-! ### INIT -/

theorem tfind_tdrop {α : Type} (p : Nat → Bool) (k : Nat) (m : List (Nat × α)) :
    tfind k (tdrop p m) = if p k then none else tfind k m := by
  induction m with
  | nil => simp [tdrop, tfind]
  | cons e m ih =>
    obtain ⟨i, v⟩ := e
    unfold tdrop at *
    by_cases hp : p i = true
    · rw [List.filter_cons_of_neg (by simp [hp]), ih]
      by_cases hk : i = k
      · rw [← hk, if_pos hp, if_pos hp]
      · rw [tfind, if_neg hk]
    · rw [List.filter_cons_of_pos (by simp [hp]), tfind, tfind, ih]
      by_cases hk : i = k
      · rw [if_pos hk, if_pos hk, if_neg (hk ▸ hp)]
      · rw [if_neg hk, if_neg hk]

/-- A field reads as before or as after reset. -/
theorem rd_resetRegs (s : State) (p : Nat → Bool) (f : RegField) : rd (resetRegs s p) f = if p (f.key / 32) then f.reset else rd s f := by
  rw [rd, resetRegs_regs, tget, tfind_tdrop]
  split
  all_goals rfl

theorem resetRegs_ended (s : State) (p : Nat → Bool) : staysEnded s (resetRegs s p) := ⟨rfl, fun j hj => by
  rw [thrState, rd_resetRegs]
  split
  · rfl
  · exact hj⟩

theorem settleSession_ended (s : State) : staysEnded s (settleSession s) := by
  refine staysEnded_ite (staysEnded_wr (staysEnded_wr ?_ (noThread_of_addr (.inl (by decide)) (by decide)) _)
    (noThread_of_addr (.inl (by decide)) (by decide)) _) (staysEnded_refl s)
  refine List.foldlRecOn (motive := staysEnded s) _ freeSem (staysEnded_refl s) fun t ht i hi => ?_
  exact staysEnded_wr (staysEnded_trans ht (staysEnded_of_regs rfl rfl)) (noThread_sem (List.mem_range.1 (List.mem_of_mem_filter hi))) _

theorem clearCluster_ended (s : State) (n : Nat) : staysEnded s (clearCluster s n) := by
  refine staysEnded_trans ?_ (settleSession_ended _)
  refine staysEnded_wr (staysEnded_wr ?_ (noThread_dmaStat n).1 _) (noThread_dmaStat n).2 _
  refine staysEnded_trans ?_ (clearFaults_ended _ n)
  exact staysEnded_trans (t := { setClu s n _ with mem := _, poison := _, upsets := _, cores := _, threads := _, moves := _, moveWait := _ })
    (staysEnded_of_regs rfl rfl) (resetRegs_ended ..)

theorem settleInit_ended (s : State) (n : Nat) : staysEnded s (settleInit s n) := by
  refine staysEnded_ite ?_ (staysEnded_refl s)
  refine staysEnded_wr (staysEnded_wr (staysEnded_wr ?_ (noThread_state n) _) (noThread_init n) _) (noThread_quiesce n) _
  exact staysEnded_trans (staysEnded_trans (resetRegs_ended ..) (clearCluster_ended ..)) (staysEnded_setClu ..)

end Sys2Proof.Machine
end

section
/-!
O8: WAIT, the barriers and END (R27, R30, R34, R35).
-/
namespace Sys2Proof.Machine
open Reg Laws

variable {s u : State} {j k n cn : Nat} {t : ThreadId}

/-! ### A thread that waits at its instruction -/

/-- The thread has issued an instruction and waits. -/
def waits (s : State) (k st : Nat) (w : Wait) : State := setThrState (advancePc s k false) k st w

theorem waits_frame (s : State) (k st : Nat) (w : Wait) : waits s k st w =
    { s with threads := (waits s k st w).threads, cores := (waits s k st w).cores, free := (waits s k st w).free,
             regs := (waits s k st w).regs } := by
  obtain ⟨x, y, hx⟩ : ∃ x y, waits s k st w = { advancePc s k false with threads := x, regs := y } := ⟨_, _, setThrState_frame ..⟩
  rw [hx]
  rfl

theorem waits_regs (s : State) (k st : Nat) (w : Wait) : sameRegsBut s (waits s k st w) [thrField k] :=
  sameRegsBut_trans (sameRegsBut_of_regs (advancePc_regs s k false)) (setThrState_regs _ k st w)

theorem waits_wait (s : State) (k st : Nat) (w : Wait) : (thr (waits s k st w) k).wait = w := setThrState_wait ..

theorem waits_state (h : thrState s k = 1) (st : Nat) (w : Wait) : thrState (waits s k st w) k = st % 8 :=
  thrState_setThrState (by rw [thrState_advancePc, h]; decide) ..

theorem waits_thr_other (h : j ≠ k) (st : Nat) (w : Wait) : thr (waits s k st w) j = thr s j :=
  (thr_setThrState_other h ..).trans (advancePc_thr_other h _)

theorem waits_state_other (h : j ≠ k) (st : Nat) (w : Wait) : thrState (waits s k st w) j = thrState s j :=
  (thrState_setThrState_other h ..).trans (thrState_advancePc ..)

section
variable (h : canIssue s (tno t) = true)
include h

/-! ### A fault that is due -/

theorem dueFault_exec (hdue : (thr s (tno t)).faultDue = true) : (∀ n, exec (.wait t n) s = dueFault s (tno t)) ∧
    exec (.coreBarrier t) s = dueFault s (tno t) ∧ ∀ n cores, exec (.clusterBarrier t n cores) s = dueFault s (tno t) := by
  refine ⟨fun n => ?_, ?_, fun n cores => ?_⟩
  · change execWait t n s = _
    simp only [execWait, h, hdue, Bool.not_true, Bool.false_eq_true, if_false, if_true]
  · change execCoreBarrier t s = _
    simp only [execCoreBarrier, h, hdue, Bool.not_true, Bool.false_eq_true, if_false, if_true]
  · change execClusterBarrier t n cores s = _
    simp only [execClusterBarrier, h, hdue, Bool.not_true, Bool.false_eq_true, if_false, if_true]

/-! ### END -/

/-- The state after END before its unit is looked at. -/
def ended (s : State) (k : Nat) : State := settleCoreBarrier (setThrState (noteIssue s k) k 0 .none) (k / 8)

omit h in
theorem ended_frame (s : State) (k : Nat) : ∃ x y z, ended s k = { s with threads := x, regs := y, cores := z } := by
  obtain ⟨p, hwoken⟩ := settleCoreBarrier_cases (setThrState (noteIssue s k) k 0 .none) (k / 8)
  obtain ⟨x, y, hx⟩ : ∃ x y, ended s k = { setThrState (noteIssue s k) k 0 .none with threads := x, regs := y } := ⟨_, _, hwoken.frame⟩
  obtain ⟨x', y', hx'⟩ : ∃ x y, setThrState (noteIssue s k) k 0 .none = { noteIssue s k with threads := x, regs := y } :=
    ⟨_, _, setThrState_frame ..⟩
  exact ⟨x, y, (noteIssue s k).cores, by rw [hx, hx']; rfl⟩

omit h in
theorem ended_state (h1 : thrState s k = 1) : thrState (ended s k) k = 0 ∧ (thr (ended s k) k).unit = (thr s k).unit ∧
    ∀ j, j ≠ k → thrState s j ≠ 0 → thrState s j ≠ 6 → thrState (ended s k) j ≠ 0 ∧ thrState (ended s k) j ≠ 6 := by
  obtain ⟨p, hwoken⟩ := settleCoreBarrier_cases (setThrState (noteIssue s k) k 0 .none) (k / 8)
  have hwait : ¬(p k ∧ (thr (setThrState (noteIssue s k) k 0 .none) k).wait = .coreBarrier) := by
    rw [setThrState_wait]
    exact fun hp => nomatch hp.2
  obtain ⟨hthr, hstate⟩ := hwoken.others k hwait
  have h0 : thrState (setThrState (noteIssue s k) k 0 .none) k = 0 :=
    thrState_setThrState (s := noteIssue s k) (by rw [show thrState (noteIssue s k) k = 1 from h1]; decide) 0 .none
  refine ⟨hstate.trans h0, ?_, fun j hj hj0 hj6 => ?_⟩
  · unfold ended
    rw [hthr, thr_setThrState]
    rfl
  · have hother : thrState (setThrState (noteIssue s k) k 0 .none) j = thrState s j := thrState_setThrState_other (s := noteIssue s k) hj ..
    unfold ended
    obtain h | h := hwoken.state j
    · rw [h, hother]
      exact ⟨hj0, hj6⟩
    · rw [h]
      decide

theorem threadEnd_exec : exec (.threadEnd t) s = match (thr s (tno t)).unit with
    | some u => .next (settleInit (endUnit (ended s (tno t)) u) t.cluster)
    | none => .next (ended s (tno t)) := by
  change execThreadEnd t s = _
  obtain ⟨-, hunit, -⟩ := ended_state (canIssue_ready h)
  rw [← hunit]
  simp only [execThreadEnd, h, Bool.not_true, Bool.false_eq_true, if_false]
  rfl

theorem threadEnd_noUnit (hunit : (thr s (tno t)).unit = none) :
    completes (.threadEnd t) s fun u => thrState u (tno t) = 0 ∧ u.mem = s.mem ∧ u.host = s.host := by
  obtain ⟨x, y, z, hframe⟩ := ended_frame s (tno t)
  refine ⟨ended s (tno t), by rw [threadEnd_exec h, hunit], (ended_state (canIssue_ready h)).1, ?_, ?_⟩
  all_goals rw [hframe]

theorem threadEnd_unitRuns {id : Nat} {w : WorkUnit} (hunit : (thr s (tno t)).unit = some id) (hw : tfind id s.units = some w)
    (hj : j ∈ w.threads) (hne : j ≠ tno t) (h0 : thrState s j ≠ 0) (h6 : thrState s j ≠ 6) (hinit : (clu s t.cluster).initPend = false) :
    completes (.threadEnd t) s fun u => thrState u (tno t) = 0 ∧ u.units = s.units ∧ u.mem = s.mem ∧ u.host = s.host := by
  obtain ⟨x, y, z, hframe⟩ := ended_frame s (tno t)
  obtain ⟨hstate, -, hothers⟩ := ended_state (canIssue_ready h)
  obtain ⟨hj0, hj6⟩ := hothers j hne h0 h6
  have hrun : endUnit (ended s (tno t)) id = ended s (tno t) := endUnit_running (by rw [hframe]; exact hw) hj hj0 hj6
  have hinit' : (clu (ended s (tno t)) t.cluster).initPend = false := by
    rw [clu, hframe]
    exact hinit
  refine ⟨ended s (tno t), ?_, hstate, ?_, ?_, ?_⟩
  · rw [threadEnd_exec h, hunit]
    dsimp only
    rw [hrun, settleInit, if_neg (by simp [hinit'])]
  all_goals rw [hframe]

theorem threadEnd_lastOfUnit {id : Nat} {w : WorkUnit} (hunit : (thr s (tno t)).unit = some id) (hw : tfind id s.units = some w)
    (honly : w.threads = [tno t]) : completes (.threadEnd t) s fun u => thrState u (tno t) = 0 ∧ tfind id u.units = none := by
  obtain ⟨x, y, z, hframe⟩ := ended_frame s (tno t)
  obtain ⟨hstate, -, -⟩ := ended_state (canIssue_ready h)
  obtain ⟨hnone, hkeep⟩ := endUnit_ended (s := ended s (tno t)) (id := id) (w := w) (by rw [hframe]; exact hw)
    (by simpa [honly] using hstate)
  obtain ⟨hunits, hinit⟩ := settleInit_ended (endUnit (ended s (tno t)) id) t.cluster
  exact ⟨_, by rw [threadEnd_exec h, hunit], hinit _ (hkeep _ hstate), by rw [hunits, hnone]⟩

/-! ### WAIT and the barriers, no fault due -/

variable (hdue : (thr s (tno t)).faultDue = false)
include hdue

theorem wait_exec (n : Fin 8) : exec (.wait t n) s = match tagOf s (tno t) n with
    | .done => .next (advancePc s (tno t) false)
    | .error st => .next (settleDoomed (threadFault (noteIssue s (tno t)) (tno t) st (st == 0x61)) t.cluster)
    | .pendVector => .next (waits s (tno t) 4 (.tag n))
    | _ => .next (waits s (tno t) 2 (.tag n)) := by
  change execWait t n s = _
  simp only [execWait, h, hdue, Bool.not_true, Bool.false_eq_true, if_false]
  rfl

theorem coreBarrier_exec : exec (.coreBarrier t) s = .next (settleCoreBarrier (waits s (tno t) 5 .coreBarrier) (tno t / 8)) := by
  change execCoreBarrier t s = _
  simp only [execCoreBarrier, h, hdue, Bool.not_true, Bool.false_eq_true, if_false]
  rfl

theorem clusterBarrier_exec (n : Fin 16) (cores : Nat) : exec (.clusterBarrier t n cores) s =
    let u := waits s (tno t) 5 (.clusterBarrier n)
    if cores ≤ arrivedCores u t.cluster n then
      .next ((List.range 64).foldl (fun s c => wakeCore s (coreNo t.cluster c) (.clusterBarrier n)) u)
    else .next u := by
  change execClusterBarrier t n cores s = _
  simp only [execClusterBarrier, h, hdue, Bool.not_true, Bool.false_eq_true, if_false]
  rfl

/-- The barrier is held up by a thread that has not come. -/
theorem coreBarrier_waits (hcore : j / 8 = tno t / 8) (hne : j ≠ tno t) (h0 : thrState s j ≠ 0) (h6 : thrState s j ≠ 6)
    (hwait : (thr s j).wait ≠ .coreBarrier) : exec (.coreBarrier t) s = .next (waits s (tno t) 5 .coreBarrier) := by
  rw [coreBarrier_exec h hdue, settleCoreBarrier_held hcore]
  · rwa [waits_state_other hne]
  · rwa [waits_state_other hne]
  · rwa [waits_thr_other hne]

theorem coreBarrier_passes (hall : ∀ j, j / 8 = tno t / 8 → j ≠ tno t → thrState s j ≠ 0 → thrState s j ≠ 6 →
      (thr s j).wait = .coreBarrier ∧ thrState s j ≠ 7) :
    completes (.coreBarrier t) s fun u => thrState u (tno t) = 1 ∧
      (∀ j, j / 8 = tno t / 8 → thrState s j ≠ 0 → thrState s j ≠ 6 → thrState u j = 1) ∧ u.mem = s.mem ∧ u.host = s.host := by
  have h5 : thrState (waits s (tno t) 5 .coreBarrier) (tno t) = 5 := waits_state (canIssue_ready h) ..
  have hwoken := wakeCore_woken (w := .coreBarrier) (by decide) (waits s (tno t) 5 .coreBarrier) (tno t / 8)
  have hme := (hwoken.awake _ rfl (waits_wait ..)).2 (by rw [h5]; decide)
  have hcome : settleCoreBarrier (waits s (tno t) 5 .coreBarrier) (tno t / 8) = wakeCore (waits s (tno t) 5 .coreBarrier) (tno t / 8) .coreBarrier :=
    settleCoreBarrier_complete fun j hj h0 h6 => by
      by_cases hne : j = tno t
      · rw [hne, waits_wait]
      · rw [waits_state_other hne] at h0 h6
        rw [waits_thr_other hne]
        exact (hall j hj hne h0 h6).1
  refine ⟨_, by rw [coreBarrier_exec h hdue, hcome], hme, fun j hj h0 h6 => ?_, ?_, ?_⟩
  · by_cases hne : j = tno t
    · rw [hne, hme]
    · obtain ⟨hwait, h7⟩ := hall j hj hne h0 h6
      exact (hwoken.awake j hj (by rw [waits_thr_other hne, hwait])).2 (by rwa [waits_state_other hne])
  · rw [hwoken.frame, waits_frame]
  · rw [hwoken.frame, waits_frame]

end

/-! ### Arrivals at a cluster barrier -/

/-- A thread of the core waits at the counter. -/
def arrived (s : State) (n counter c : Nat) : Bool := (List.range 8).any (fun i => (thr s (coreNo n c * 8 + i)).wait == .clusterBarrier counter)

/-- One more element is counted. -/
theorem countP_or_eq {l : List Nat} (hl : l.Nodup) (hn : n ∈ l) {p q : Nat → Bool} (hp : p n = false) (hq : ∀ c, q c = (c == n || p c)) :
    l.countP q = l.countP p + 1 := by
  have hsum : l.countP q = l.countP p + l.count n := by
    clear hl hn
    induction l with
    | nil => rfl
    | cons c l ih =>
      rw [List.countP_cons, List.countP_cons, List.count_cons, ih, hq c]
      by_cases hc : c = n
      · simp [hc, hp]
        omega
      · simp [hc]
        omega
  rw [hsum, List.count_eq_one_of_mem hl hn]

theorem arrivedCores_waits (st : Nat) (b : Nat) (hnone : ∀ i < 8, (thr s (tno t / 8 * 8 + i)).wait ≠ .clusterBarrier b) :
    arrivedCores (waits s (tno t) st (.clusterBarrier b)) t.cluster b = arrivedCores s t.cluster b + 1 := by
  have hnot : arrived s t.cluster b t.core = false := by
    simp only [arrived, List.any_eq_false, List.mem_range, beq_iff_eq]
    rwa [tno_div_core] at hnone
  have hnew (c : Nat) : arrived (waits s (tno t) st (.clusterBarrier b)) t.cluster b c = (c == t.core.val || arrived s t.cluster b c) := by
    by_cases hc : c = t.core
    · rw [hc, beq_self_eq_true, Bool.true_or]
      refine List.any_eq_true.2 ⟨t.thread, List.mem_range.2 t.thread.isLt, ?_⟩
      exact beq_iff_eq.2 (waits_wait s (tno t) st _)
    · rw [beq_eq_false_iff_ne.2 hc, Bool.false_or]
      have hne {i : Nat} (hi : i < 8) : coreNo t.cluster c * 8 + i ≠ tno t := by
        unfold tno coreNo
        omega
      rw [Bool.eq_iff_iff, arrived, arrived, List.any_eq_true, List.any_eq_true]
      refine exists_congr fun i => and_congr_right fun hi => ?_
      rw [waits_thr_other (hne (List.mem_range.1 hi))]
  unfold arrivedCores
  rw [← List.countP_eq_length_filter, ← List.countP_eq_length_filter]
  exact countP_or_eq List.nodup_range (List.mem_range.2 t.core.isLt) hnot hnew

theorem clusterBarrier_waits (h : canIssue s (tno t) = true) (hdue : (thr s (tno t)).faultDue = false) {n : Fin 16} {cores : Nat}
    (hnone : ∀ i < 8, (thr s (tno t / 8 * 8 + i)).wait ≠ .clusterBarrier n) (hmore : arrivedCores s t.cluster n + 1 < cores) :
    exec (.clusterBarrier t n cores) s = .next (waits s (tno t) 5 (.clusterBarrier n)) := by
  rw [clusterBarrier_exec h hdue]
  exact if_neg (by rw [arrivedCores_waits _ _ hnone]; omega)

theorem clusterBarrier_passes (h : canIssue s (tno t) = true) (hdue : (thr s (tno t)).faultDue = false) {n : Fin 16}
    (hnone : ∀ i < 8, (thr s (tno t / 8 * 8 + i)).wait ≠ .clusterBarrier n) :
    completes (.clusterBarrier t n (arrivedCores s t.cluster n + 1)) s fun u => thrState u (tno t) = 1 ∧
      (∀ j, j / 512 = t.cluster.val → (thr s j).wait = .clusterBarrier n → thrState s j ≠ 7 → thrState u j = 1) ∧
      (∀ j, j / 512 = t.cluster.val → (thr u j).wait ≠ .clusterBarrier n) ∧ u.mem = s.mem ∧ u.host = s.host := by
  have h5 : thrState (waits s (tno t) 5 (.clusterBarrier n)) (tno t) = 5 := waits_state (canIssue_ready h) ..
  have hwoken := wakeCluster_woken (w := .clusterBarrier n) (fun e => nomatch e) (waits s (tno t) 5 (.clusterBarrier n)) t.cluster
  have hme := (hwoken.awake _ (tno_div_cluster t) (waits_wait ..)).2 (by rw [h5]; decide)
  refine ⟨_, ?_, hme, fun j hj hwait h7 => ?_, fun j hj hwait => ?_, ?_, ?_⟩
  · rw [clusterBarrier_exec h hdue]
    exact if_pos (arrivedCores_waits 5 _ hnone).ge
  · by_cases hne : j = tno t
    · rw [hne, hme]
    · exact (hwoken.awake j hj (by rw [waits_thr_other hne, hwait])).2 (by rwa [waits_state_other hne])
  · by_cases hw : (thr (waits s (tno t) 5 (.clusterBarrier n)) j).wait = .clusterBarrier n
    · rw [(hwoken.awake j hj hw).1] at hwait
      exact nomatch hwait
    · rw [(hwoken.others j fun hp => hw hp.2).1] at hwait
      exact hw hwait
  · rw [hwoken.frame, waits_frame]
  · rw [hwoken.frame, waits_frame]

end Sys2Proof.Machine

open Sys2Proof Sys2Proof.Machine Sys2Proof.Machine.Reg

/-- Settles O8: a thread that waits differs in its own state only, and a barrier that is complete wakes all that wait there. -/
theorem threadsWaitAndEnd : Obligations.ThreadsWaitAndEnd := by
  intro s t h
  have hready := canIssue_ready h
  refine ⟨fun hdue => ?_, fun hdue => ⟨fun n htag => ?_, fun n htag => ?_, fun n htag => ?_, fun n e htag => ?_,
      fun j hcore hne h0 h6 hwait => ?_, coreBarrier_passes h hdue, fun n cores hnone => ⟨fun hmore => ?_, ?_⟩⟩,
    threadEnd_noUnit h, fun id w hunit hw => ⟨fun j hj hne _ => threadEnd_unitRuns h hunit hw hj hne, threadEnd_lastOfUnit h hunit hw⟩⟩
  · rw [← tno_div_cluster t]
    exact dueFault_exec h hdue
  · exact ⟨_, by rw [wait_exec h hdue, htag], rfl, advancePc_issued _ _ _, (thrState_advancePc ..).trans hready⟩
  · exact ⟨_, by rw [wait_exec h hdue, htag], waits_frame _ _ _ _, waits_regs _ _ _ _, waits_state hready _ _, waits_wait _ _ _ _⟩
  · exact ⟨_, by rw [wait_exec h hdue, htag], waits_frame _ _ _ _, waits_regs _ _ _ _, waits_state hready _ _, waits_wait _ _ _ _⟩
  · rw [wait_exec h hdue, htag]
  · exact ⟨_, coreBarrier_waits h hdue hcore hne h0 h6 hwait, waits_frame _ _ _ _, waits_regs _ _ _ _, waits_state hready _ _,
      waits_wait _ _ _ _⟩
  · exact ⟨_, clusterBarrier_waits h hdue hnone hmore, waits_frame _ _ _ _, waits_regs _ _ _ _, waits_state hready _ _,
      waits_wait _ _ _ _, arrivedCores_waits _ _ hnone⟩
  · rintro rfl
    exact clusterBarrier_passes h hdue hnone
end

section
/-!
Tags, and the vector queue of a core (R33, R34): what setting a tag and replacing a queue leave.
-/
namespace Sys2Proof.Machine
open Reg Laws

variable {s : State} {j k cn tag : Nat}

theorem tagOf_congr {u : State} (h : u.threads = s.threads) (k tag : Nat) : tagOf u k tag = tagOf s k tag := by
  rw [tagOf, thr, h]
  rfl

theorem tagOf_setTag_same (s : State) (k tag : Nat) (v : Tag) : tagOf (setTag s k tag v) k tag = v := by
  rw [tagOf, setTag, thr_setThr_same, tget_tput_same]

theorem tagOf_setTag_other (h : j ≠ k ∨ cn ≠ tag) (v : Tag) : tagOf (setTag s k tag v) j cn = tagOf s j cn := by
  by_cases hj : j = k
  · rw [tagOf, setTag, hj, thr_setThr_same, tget_tput_other (h.resolve_left fun e => e hj)]
    rfl
  · rw [tagOf, setTag, thr_setThr_other hj]
    rfl

theorem tagOf_advancePc (s : State) (k : Nat) (arr : Bool) (j tag : Nat) : tagOf (advancePc s k arr) j tag = tagOf s j tag := by
  by_cases h : j = k
  · rw [tagOf, h, advancePc_thr]
    rfl
  · rw [tagOf, advancePc_thr_other h]
    rfl

theorem tagOf_setThrState (s : State) (k st : Nat) (w : Wait) (j tag : Nat) : tagOf (setThrState s k st w) j tag = tagOf s j tag := by
  by_cases h : j = k
  · rw [tagOf, h, thr_setThrState]
    rfl
  · rw [tagOf, thr_setThrState_other h]
    rfl

theorem vecQueue_congr {u : State} (h : u.clusters = s.clusters) (cn : Nat) : vecQueue u cn = vecQueue s cn := by
  rw [vecQueue, clu, h]
  rfl

theorem vecQueue_setVecQueue_same (s : State) (cn : Nat) (l : List VecEntry) : vecQueue (setVecQueue s cn l) cn = l := by
  rw [vecQueue, setVecQueue, clu_setClu_same, tget_tput_same]

theorem thrState_canIssue (h : canIssue s k = true) (st : Nat) (w : Wait) : thrState (setThrState s k st w) k = st % 8 :=
  thrState_setThrState (by rw [canIssue_ready h]; decide) ..

/-- The registers of thread `k` after an issue. -/
theorem advancePc_g (s : State) (k : Nat) (arr : Bool) : (thr (advancePc s k arr) k).g = (thr s k).g := by rw [advancePc_thr]

end Sys2Proof.Machine
end

section
/-!
O16: VECTOR_OP and ENG enter the vector queue; SETQ and CNT_RD (R33, R36, R107, R113, R137).
-/
namespace Sys2Proof.Machine
open Reg Laws

variable {s : State} {t : ThreadId} {k tag : Nat} {e : VecEntry}

/-- The entry stands at the end of the core's queue and its tag awaits it. -/
def vecQueued (s u : State) (k tag : Nat) (e : VecEntry) : Prop :=
  vecQueue u (k / 8) = vecQueue s (k / 8) ++ [e] ∧ tagOf u k tag = .pendVector ∧
    u = { s with clusters := u.clusters, threads := u.threads, cores := u.cores, free := u.free } ∧ issuedBy s u k

theorem issueVec_queued (h : (vecQueue s (k / 8)).length < 2) : vecQueued s (issueVec s k tag e) k tag e := by
  have hissue : issueVec s k tag e =
      advancePc (setVecQueue (setTag s k tag .pendVector) (k / 8) (vecQueue s (k / 8) ++ [e])) k false := if_neg (by omega)
  rw [hissue]
  refine ⟨?_, ?_, by rw [advancePc_frame]; rfl, issuedBy_of_cores (advancePc_issued _ _ _) rfl⟩
  · rw [vecQueue_congr (s := setVecQueue _ _ _) (by rw [advancePc_frame])]
    exact vecQueue_setVecQueue_same ..
  · rw [tagOf_advancePc]
    exact tagOf_setTag_same ..

theorem issueVec_full (h : 2 ≤ (vecQueue s (k / 8)).length) : issueVec s k tag e = setThrState s k 4 .vectorQueue := if_pos h

/-- A thread that finds its queue full waits in WAIT_VECTOR. -/
theorem vectorQueue_waits (h : canIssue s k = true) : let u := setThrState s k 4 .vectorQueue
    thrState u k = 4 ∧ (thr u k).wait = .vectorQueue ∧ sameRegsBut s u [thrField k] ∧ u = { s with threads := u.threads, regs := u.regs } :=
  ⟨thrState_canIssue h .., setThrState_wait .., setThrState_regs _ _ _ _, setThrState_frame ..⟩

section
variable (h : canIssue s (tno t) = true)
include h

theorem vectorOp_exec (op : VecCmd) : exec (.vectorOp t op) s =
    if vecUndefined s (tno t) op then .next (issueFault s (tno t) 0x7F)
    else .next (issueVec s (tno t) op.tag (.vec (tno t) op (vecEntry s (tno t) op))) := if_pos h

theorem eng_exec (addr : Nat) (tag : Fin 8) : exec (.eng t addr tag) s =
    if addr % 4 = 0 ∧ addr + 4 ≤ 4096 then .next (issueVec s (tno t) tag (.eng (tno t) addr tag))
    else .next (issueFault s (tno t) 0x7F) := if_pos h

theorem setq_loads (e : Fin 64) (addr : Fin 4096) (hclean : cleanWord s (memBase t.cluster 1 t.core + 8 * addr))
    (hcalm : (clu s t.cluster).doomed = false) : completes (.setq t e addr .clean) s fun u =>
      tget 0 (core u (tno t / 8)).qset e = rdWord s t.cluster 1 t.core addr ∧
      (∀ q : Nat, q ≠ e → tget 0 (core u (tno t / 8)).qset q = tget 0 (core s (tno t / 8)).qset q) ∧
      u = { s with cores := u.cores, threads := u.threads, free := u.free } := by
  let y := setCore s (tno t / 8)
    { core s (tno t / 8) with qset := tput 0 (core s (tno t / 8)).qset e (rdWord s t.cluster 1 t.core addr) }
  have hread : readWord s t.cluster 1 t.core addr = (s, false) := readWord_of_clean hclean
  have hloads : setq t e addr .clean s = advancePc y (tno t) false := by
    simp only [setq, h, addEcc, hread, if_true, Bool.false_eq_true, if_false]
    rfl
  have hq : (core (advancePc y (tno t) false) (tno t / 8)).qset =
      tput 0 (core s (tno t / 8)).qset e (rdWord s t.cluster 1 t.core addr) := by
    rw [advancePc_issued y (tno t) false, if_pos rfl, core_setCore_same]
  refine ⟨advancePc y (tno t) false, ?_, ?_, fun q hne => ?_, rfl⟩
  · refine congrArg Host.Outcome.next ?_
    change settleDoomed (setq t e addr .clean s) t.cluster = _
    rw [hloads, settleDoomed_of_calm (by rw [clu, advancePc_frame]; exact hcalm)]
  · rw [hq, tget_tput_same]
  · rw [hq, tget_tput_other hne]

theorem cntRd_reads (which : Fin 3) (vector : Bool) (r : Fin 32) : completes (.cntRd t which vector r) s fun u =>
      tget 0 (thr u (tno t)).g r = BitVec.ofNat 32
        (if vector then [(clu s t.cluster).satAcc, (clu s t.cluster).satOut, (clu s t.cluster).nonfinite].getD which 0
         else [(core s (tno t / 8)).satAcc, (core s (tno t / 8)).satOut, (core s (tno t / 8)).nonfinite].getD which 0) ∧
      (∀ q : Nat, q ≠ r → tget 0 (thr u (tno t)).g q = tget 0 (thr s (tno t)).g q) ∧ issuedBy s u (tno t) ∧
      u = { s with threads := u.threads, cores := u.cores, free := u.free } := by
  have hpick (a b c : Nat) : (if which = 0 then a else if which = 1 then b else c) = [a, b, c].getD which 0 := by
    fin_cases which
    all_goals rfl
  have hg (v : BitVec 32) : (thr (advancePc (setReg s (tno t) r v) (tno t) false) (tno t)).g = tput 0 (thr s (tno t)).g r v := by
    rw [advancePc_g, setReg, thr_setThr_same]
  refine ⟨_, if_pos h, ?_, fun q hne => ?_, issuedBy_of_cores (advancePc_issued _ _ _) rfl, rfl⟩
  · rw [hg, tget_tput_same, tno_div_cluster, hpick, hpick]
  · rw [hg, tget_tput_other hne]

end
end Sys2Proof.Machine

open Sys2Proof Sys2Proof.Machine Sys2Proof.Machine.Reg

/-- Settles O16: VECTOR_OP and ENG are one issue into the vector queue, which queues or waits. -/
theorem vectorInstructionsAreIssued : Obligations.VectorInstructionsAreIssued := by
  intro s t h
  refine ⟨fun op hdef hroom => ⟨_, ?_, issueVec_queued hroom⟩, fun op hdef hfull => ⟨_, ?_, vectorQueue_waits h⟩,
    fun op hundef => by rw [vectorOp_exec h, if_pos hundef],
    fun addr tag ha hb => ⟨fun hroom => ⟨_, ?_, issueVec_queued hroom⟩, fun hfull => ⟨_, ?_, vectorQueue_waits h⟩⟩,
    fun addr tag hbad => by rw [eng_exec h, if_neg hbad], setq_loads h, cntRd_reads h⟩
  · rw [vectorOp_exec h, if_neg (by simp [hdef])]
  · rw [vectorOp_exec h, if_neg (by simp [hdef]), issueVec_full hfull]
  · rw [eng_exec h, if_pos ⟨ha, hb⟩]
  · rw [eng_exec h, if_pos ⟨ha, hb⟩, issueVec_full hfull]
end

section
/-!
What is left when an operation ends (R33, R42, R45): a write into words without an error touches only scrubbers, and a tag is set.
-/
namespace Sys2Proof.Machine
open Reg Laws

variable {s t u : State} {a k n cn tag w : Nat} {l : List Nat}

/-! ### Writes into words without an error -/

theorem clearPoison_of_clean (h : cleanWord s a) : clearPoison s a = s := by
  obtain ⟨hp, hu⟩ := h
  have hpoison : s.poison.filter (fun w => decide (w ≠ a / 8)) = s.poison :=
    List.filter_eq_self.2 fun w hw => decide_eq_true fun e => by simp [poisoned, ← e, hw] at hp
  have hupsets : tdel (a / 8) s.upsets = s.upsets := by
    unfold upset at hu
    unfold tdel
    refine List.filter_eq_self.2 fun e he => decide_eq_true fun h => ?_
    have hfind : ∀ t : List (Nat × Bool), e ∈ t → tfind (a / 8) t ≠ none := by
      intro t
      induction t with
      | nil => simp
      | cons x t ih =>
        intro hx
        rw [tfind]
        split
        · exact Option.some_ne_none _
        · next hne => exact ih ((List.mem_cons.1 hx).resolve_left fun e' => hne (e' ▸ h))
    exact hfind _ he hu
  rw [clearPoison, hpoison, hupsets]

theorem fullWrite_side (h : cleanWord s a) : scrubSide s (fullWrite s a) := by
  unfold fullWrite
  rw [clearPoison_of_clean h]
  split
  · exact noteRewrite_side ..
  · exact scrubSide_refl s

theorem wroteWord_side (h : cleanWord s (8 * w)) : scrubSide s (wroteWord l s w) := by
  unfold wroteWord
  refine scrubSide_trans ?_ (portWrote_side ..)
  refine scrubSide_ite (scrubSide_refl s) (scrubSide_ite (fullWrite_side h) ?_)
  rw [mergeWord_of_clean h]
  exact scrubSide_refl s

theorem cleanWord_of_scrubSide (h : scrubSide s t) : cleanWord t a ↔ cleanWord s a := cleanWord_congr (by rw [h.1]) (by rw [h.1])

/-- Bytes written into words without an error touch only scrubbers and the record of rewritten words. -/
theorem wroteBytes_side (h : ∀ a ∈ l, cleanWord s a) : scrubSide s (wroteBytes s l) := by
  refine List.foldlRecOn (motive := scrubSide s) _ _ (scrubSide_refl s) fun t ht w hw => ?_
  obtain ⟨a, ha, rfl⟩ := List.mem_map.1 (dedupNext_subset _ hw)
  refine scrubSide_trans ht (wroteWord_side ?_)
  exact (cleanWord_of_scrubSide ht).2 ((cleanWord_of_word (by omega)).2 (h a ha))

/-! ### The tags of woken threads -/

theorem Woken.tags {w : Wait} {p : Nat → Prop} (h : Woken w p s u) (j : Nat) : (thr u j).tags = (thr s j).tags := by rw [h.keeps j]

theorem Woken.tagOf {w : Wait} {p : Nat → Prop} (h : Woken w p s u) (k tag : Nat) : tagOf u k tag = tagOf s k tag := by
  rw [Machine.tagOf, h.tags]
  rfl

/-! ### A tag is set -/

/-- Setting a tag and waking its thread. -/
theorem completeTag_done (s : State) (k tag : Nat) : let u := completeTag s k tag true 0
    u = { s with threads := u.threads, regs := u.regs } ∧ tagOf u k tag = .done ∧
      ∀ j i, j ≠ k ∨ i ≠ tag → tagOf u j i = tagOf s j i := by
  unfold completeTag
  dsimp only
  rw [if_pos rfl]
  split
  · refine ⟨?_, ?_, fun j i h => ?_⟩
    · rw [if_pos rfl, setThrState_frame]
      rfl
    · rw [if_pos rfl, tagOf_setThrState, tagOf_setTag_same]
    · rw [if_pos rfl, tagOf_setThrState, tagOf_setTag_other h]
  · exact ⟨rfl, tagOf_setTag_same .., fun j i h => tagOf_setTag_other h _⟩

end Sys2Proof.Machine
end

section
/-!
O17 fails for an engine that executes a RESAMPLE of no boxes. No run of the model takes one up (ENGINE_OP_START sets its tag at once),
but the statement speaks of every state. The box list is empty, so no byte of it is asked to be without an error; it begins inside a
word, and `readsWord` counts that word among those the operation reads.
-/
namespace Sys2Proof.Machine
open Reg

/-- The words of a RESAMPLE of no boxes whose box list begins at CM byte 4. -/
def noBoxes : List Nat := [2 * 2 ^ 56, 0, 0, 4 * 2 ^ 44]

/-- The engine of cluster 0 executes it for thread 0, and CM word 0 is poisoned. -/
def noBoxesState : State :=
  { State.reset with clusters := [(0, { engine := some ⟨0, 0, 0, noBoxes⟩ })], poison := [memBase 0 4 0 / 8] }

theorem noBoxes_fields : engUndefined noBoxes = false ∧ (engFields noBoxes).h = 0 ∧ bits (engFields noBoxes).w0 9 11 = 0 ∧
    engOutBytes (engFields noBoxes) = 0 := by decide

/-- The operation ends with the error of the poisoned word. -/
theorem noBoxes_tag : (match exec (.engineOpComplete 0 []) noBoxesState with
    | .next u => some (tagOf u 0 0)
    | _ => none) = some (.error 0x61) := by decide

theorem cleanBytes_none (s : State) (a : Nat) : cleanBytes s a 0 := fun _ h h' => absurd h' (Nat.not_lt.2 h)

end Sys2Proof.Machine

open Sys2Proof Sys2Proof.Machine Sys2Proof.Machine.Reg

/-- Refutes O17: in `noBoxesState` ENGINE_OP_COMPLETE sets the tag with an error. -/
theorem not_vectorUnitCompletes : ¬ Obligations.VectorUnitCompletes := by
  intro h
  obtain ⟨hdefined, hrows, hboxes, hout⟩ := noBoxes_fields
  obtain ⟨-, -, -, hcomplete⟩ := h noBoxesState 0 0 rfl rfl
  obtain ⟨u, hexec, -, -, htag, -⟩ := hcomplete ⟨0, 0, 0, noBoxes⟩ rfl rfl hdefined
    (by rw [hrows, Nat.zero_mul, Nat.zero_mul, Nat.zero_mul]; exact cleanBytes_none _ _)
    (fun _ => by rw [hboxes]; exact cleanBytes_none _ _) (by rw [hout]; exact cleanBytes_none _ _)
  have herror := noBoxes_tag
  rw [hexec] at herror
  exact absurd (htag.symm.trans (Option.some.inj herror)) (by decide)
end

section
/-!
The array queue (R31, R32, R63, R71): what entering it leaves, and when the front starts or streams nothing.
-/
namespace Sys2Proof.Machine
open Reg Laws

variable {s t u : State} {k cn word : Nat} {x : ArrInstr} {l : List ArrInstr} {fault : State → Nat → Nat → Bool → State}

/-! ### The front of the queue -/

/-- A front that is no STREAM, or a STREAM without credit, streams nothing. -/
theorem pumpWith_held (harr : (core s cn).arr = x :: l) (h : (arrFields x.word).opc ≠ 0x22 ∨ (core s cn).inCredit = 0) :
    pumpWith fault s cn = s := by
  unfold pumpWith
  rw [harr]
  dsimp only
  cases streamRows x.word with
  | zero => rfl
  | succ n =>
    rw [pumpStream, harr]
    dsimp only
    split
    · rfl
    · next hstops =>
      refine if_pos (.inl (h.resolve_left fun hopc => hstops (.inl hopc)))

theorem startWith_started (harr : (core s cn).arr = x :: l) (h : x.started = true) : startWith fault s cn = s := by
  unfold startWith
  dsimp only
  rw [harr]
  exact if_pos (by simp [h])

section
variable (harr : (core s cn).arr = x :: l) (hnew : x.started = false) (hfreeze : (core s cn).freezers = [])
include harr hnew hfreeze

theorem startWith_matmul (h : (arrFields x.word).opc = 0x20) : startWith fault s cn = beginInstr s cn x := by
  unfold startWith
  dsimp only
  rw [harr]
  simp only [hnew, frozen, hfreeze, h, List.isEmpty_nil, Bool.not_true, Bool.or_self, Bool.false_eq_true, if_false]
  rfl

omit harr hnew hfreeze in
theorem foldl_rdWord (n m c : Nat) (ws e : List Nat) (s : State) :
    ws.foldl (fun (e : List Nat × State) w => (e.1 ++ [rdWord e.2 n m c w], e.2)) (e, s) = (e ++ ws.map (rdWord s n m c), s) := by
  induction ws generalizing e with
  | nil => simp
  | cons w ws ih => rw [List.foldl_cons, ih, List.map_cons, List.append_assoc, List.singleton_append]

/-- A CONV takes the four words of its window descriptor. -/
theorem startWith_conv (h : (arrFields x.word).opc = 0x21) (hbefore : x.before = [])
    (hclean : ∀ i < 4, cleanWord s (memBase (cn / 64) 1 (cn % 64) + 8 * (bits x.word 12 12 + i)))
    (hwin : winUndefined x.word (winOf ((List.range 4).map fun i => rdWord s (cn / 64) 1 (cn % 64) (bits x.word 12 12 + i))) = false) :
    startWith fault s cn =
      beginInstr s cn { x with window := (List.range 4).map fun i => rdWord s (cn / 64) 1 (cn % 64) (bits x.word 12 12 + i) } := by
  have hread : readWords (cn / 64) (((List.range 4).map fun i => bits x.word 12 12 + i).map fun w => (1, cn % 64, w)) s = (s, false) := by
    refine readWords_of_clean fun y hy => ?_
    simp only [List.mem_map, List.mem_range] at hy
    obtain ⟨w, ⟨i, hi, rfl⟩, rfl⟩ := hy
    exact hclean i hi
  unfold startWith
  dsimp only
  rw [harr]
  simp only [hnew, frozen, hfreeze, h, hbefore, hread, List.contains_nil, List.isEmpty_nil, Bool.not_true, Bool.or_self,
    Bool.false_eq_true, if_false, if_true, foldl_rdWord, List.nil_append]
  rw [List.map_map]
  exact if_neg (ne_true_of_eq_false hwin)

/-- A STREAM takes its ring sizes. -/
theorem startWith_stream (h : (arrFields x.word).opc = 0x22)
    (hweights : ∀ p ∈ passes x, ∀ w ∈ passWords (arrFields x.word) p.at', cleanWord s (memBase (cn / 64) 0 (cn % 64) + 8 * w))
    (hscales : ∀ w ∈ scaleWords x, cleanWord s (memBase (cn / 64) 1 (cn % 64) + 8 * w)) :
    startWith fault s cn = setCore (beginInstr s cn x) cn { core (beginInstr s cn x) cn with
      outSpace := oRing x.word, inCredit := min (core (beginInstr s cn x) cn).inCredit (aRing x.word) } := by
  have hread : readWords (cn / 64) (((passes x).flatMap fun p => passWords (arrFields x.word) p.at').map (fun w => (0, cn % 64, w)) ++
      (scaleWords x).map fun w => (1, cn % 64, w)) s = (s, false) := by
    refine readWords_of_clean fun y hy => ?_
    rcases List.mem_append.1 hy with hy | hy
    · obtain ⟨w, hw, rfl⟩ := List.mem_map.1 hy
      obtain ⟨p, hp, hw⟩ := List.mem_flatMap.1 hw
      exact hweights p hp w hw
    · obtain ⟨w, hw, rfl⟩ := List.mem_map.1 hy
      exact hscales w hw
  unfold startWith
  dsimp only
  rw [harr]
  simp only [hnew, frozen, hfreeze, h, hread, List.isEmpty_nil, Bool.not_true, Bool.or_self, Bool.false_eq_true, if_false, if_true]
  rfl

end

/-! ### Entering the queue -/

/-- The entry an issue puts into the queue. -/
def arrEntry (s : State) (k word : Nat) : ArrInstr :=
  { word, thread := k, qset := tget 0 (core s (k / 8)).qset (arrFields word).qset,
    before := if (arrFields word).fence then [] else (core s (k / 8)).arr.flatMap writtenWords }

/-- The thread has issued the instruction and its tag awaits it. -/
def arrTagged (s : State) (k word : Nat) : State :=
  if (arrFields word).tagEn then setTag (advancePc s k true) k (arrFields word).tag .pendMove else advancePc s k true

/-- The instruction stands last in the queue and has not started. -/
def entered (s : State) (k word : Nat) : State :=
  setCore (arrTagged s k word) (k / 8) { core (arrTagged s k word) (k / 8) with
    arr := (core (arrTagged s k word) (k / 8)).arr ++ [arrEntry s k word] }

theorem arrTagged_frame (s : State) (k word : Nat) : arrTagged s k word =
    { s with threads := (arrTagged s k word).threads, cores := (noteIssue s k).cores } := by
  unfold arrTagged
  split
  all_goals rfl

theorem arrTagged_core (s : State) (k word : Nat) : core (arrTagged s k word) (k / 8) = { core s (k / 8) with lastIssued := k % 8 } := by
  rw [core, arrTagged_frame]
  exact (noteIssue_issued s k (k / 8)).trans (if_pos rfl)

/-- What every issue of an array instruction leaves (R31, R34, R62). -/
def arrIssued (s : State) (k word : Nat) (u : State) : Prop :=
  (thr u k).pc = ((thr s k).pc + 16) % 16384 ∧ ((arrFields word).tagEn = true → tagOf u k (arrFields word).tag = .pendMove) ∧
    thrState u k = 1 ∧ u = { s with threads := u.threads, cores := u.cores }

theorem arrIssued_of_cores (h : thrState s k = 1) (e : ∃ x, u = { arrTagged s k word with cores := x }) : arrIssued s k word u := by
  obtain ⟨x, e⟩ := e
  have hthreads : u.threads = (arrTagged s k word).threads := by rw [e]
  have hthr : thr u k = thr (arrTagged s k word) k := by rw [thr, hthreads, thr]
  refine ⟨?_, fun htag => ?_, ?_, by rw [e, arrTagged_frame]⟩
  · rw [hthr]
    unfold arrTagged
    split
    · rw [setTag, thr_setThr_same, advancePc_thr]
      rfl
    · rw [advancePc_thr]
      rfl
  · rw [tagOf_congr hthreads, arrTagged, if_pos htag]
    exact tagOf_setTag_same ..
  · rw [thrState_congr (s := s) (by rw [e, arrTagged_frame]), h]

theorem entered_core (s : State) (k word : Nat) : core (entered s k word) (k / 8) =
    { core s (k / 8) with lastIssued := k % 8, arr := (core s (k / 8)).arr ++ [arrEntry s k word] } := by
  rw [entered, core_setCore_same, arrTagged_core]

section
variable (h : canIssue s k = true)
include h

theorem issueArray_undefined (hu : ∀ p, arrUndefined word p (tget 0 (core s (k / 8)).qset (arrFields word).qset) = true) :
    issueArray s k word = issueFault s k 0x7F := by
  unfold issueArray
  dsimp only
  rw [if_pos h, if_pos (hu _)]

variable (hd : arrUndefined word (privileged s k) (tget 0 (core s (k / 8)).qset (arrFields word).qset) = false)
include hd

theorem issueArray_full (hfull : 2 ≤ (core s (k / 8)).arr.length) : issueArray s k word = setThrState s k 3 .arrayQueue := by
  unfold issueArray
  dsimp only
  rw [if_pos h, if_neg (by simp [hd]), if_pos hfull]

theorem issueArray_enters (hroom : (core s (k / 8)).arr.length < 2) : issueArray s k word = restart (entered s k word) (k / 8) := by
  unfold issueArray
  dsimp only
  rw [if_pos h, if_neg (by simp [hd]), if_neg (by omega)]
  have hbefore : arrEntry s k word =
      { word, thread := k, qset := tget 0 (core s (k / 8)).qset (arrFields word).qset,
        before := if (arrFields word).fence then [] else (core (arrTagged s k word) (k / 8)).arr.flatMap writtenWords } := by
    rw [arrTagged_core]
    rfl
  rw [entered, hbefore]
  rfl

end
end Sys2Proof.Machine
end

section
/-!
O13: MATMUL, CONV and STREAM enter the array queue (R31, R32, R63, R69, R71, R126, R132).
-/
namespace Sys2Proof.Machine
open Reg Laws

variable {s u : State} {k word n : Nat}

theorem opc_word (i : Nat) (hi : i < 256) (w : BitVec 120) : (arrFields (i * 2 ^ 120 + w.toNat)).opc = i := by
  have hw := w.isLt
  change (i * 2 ^ 120 + w.toNat) / 2 ^ 120 % 2 ^ 8 = i
  rw [Nat.mul_comm, Nat.mul_add_div (by decide), Nat.div_eq_of_lt hw, Nat.add_zero]
  exact Nat.mod_eq_of_lt hi

/-- The entry in the queue, not yet streaming. -/
def arrQueued (s : State) (k word : Nat) (y : ArrInstr) : Prop :=
  y.word = word ∧ y.thread = k ∧ y.qset = tget 0 (core s (k / 8)).qset (arrFields word).qset ∧ y.rows = 0

theorem arrEntry_of_empty (h : (core s (k / 8)).arr = []) :
    arrEntry s k word = { word, thread := k, qset := tget 0 (core s (k / 8)).qset (arrFields word).qset } := by
  rw [arrEntry, h]
  simp

section
variable (hempty : (core s (k / 8)).arr = []) (hrun : (core s (k / 8)).freezers = [])
include hempty hrun

/-- The core as the front of its queue starts. -/
theorem entered_front : (core (entered s k word) (k / 8)).arr = [arrEntry s k word] ∧ (core (entered s k word) (k / 8)).freezers = [] := by
  rw [entered_core, hempty]
  exact ⟨rfl, hrun⟩

end

theorem beginInstr_core (s : State) (cn : Nat) (x : ArrInstr) : ∃ y, (core (beginInstr s cn x) cn).arr = y :: (core s cn).arr.tail ∧
    y = { x with started := true, hazard := y.hazard, seen := y.seen } ∧ (x.before = [] → y.hazard = false) ∧
    (core (beginInstr s cn x) cn).inCredit = (core s cn).inCredit := by
  unfold beginInstr
  dsimp only
  rw [core_setCore_same]
  exact ⟨_, rfl, rfl, fun h => by simp [h], rfl⟩

theorem full_waits (h : canIssue s k = true) : let u := setThrState s k 3 .arrayQueue
    thrState u k = 3 ∧ (thr u k).wait = .arrayQueue ∧ u.cores = s.cores ∧ sameRegsBut s u [thrField k] ∧ u.mem = s.mem :=
  ⟨thrState_canIssue h .., setThrState_wait .., by rw [setThrState_frame], setThrState_regs _ _ _ _, by rw [setThrState_frame]⟩

theorem restart_of (hstart : startWith threadFault s n = u) (hheld : pumpWith threadFault u n = u) : restart s n = u := by
  rw [restart, hstart, hheld]

/-- An issue into an empty queue whose entry begins as `x`. -/
theorem issueArray_begins {v : State} {x : ArrInstr} (h : canIssue s k = true)
    (hd : arrUndefined word (privileged s k) (tget 0 (core s (k / 8)).qset (arrFields word).qset) = false)
    (hempty : (core s (k / 8)).arr = []) (hstart : startWith threadFault (entered s k word) (k / 8) = v)
    (hv : ∃ x, v = { arrTagged s k word with cores := x }) (hfront : (core v (k / 8)).arr = [x])
    (hheld : (arrFields x.word).opc ≠ 0x22 ∨ (core v (k / 8)).inCredit = 0) : issueArray s k word = v ∧ arrIssued s k word v :=
  ⟨(issueArray_enters h hd (by rw [hempty]; decide)).trans (restart_of hstart (pumpWith_held hfront hheld)),
    arrIssued_of_cores (canIssue_ready h) hv⟩

section
variable (h : canIssue s k = true)
  (hd : arrUndefined word (privileged s k) (tget 0 (core s (k / 8)).qset (arrFields word).qset) = false)
include h hd

/-- An instruction behind a started one that is no STREAM. -/
theorem issueArray_second {x : ArrInstr} (hfront : (core s (k / 8)).arr = [x]) (hstarted : x.started = true)
    (hopc : (arrFields x.word).opc ≠ 0x22) : arrIssued s k word (issueArray s k word) ∧
      ∃ y, (core (issueArray s k word) (k / 8)).arr = [x, y] ∧ arrQueued s k word y ∧ y.started = false := by
  have harr : (core (entered s k word) (k / 8)).arr = [x, arrEntry s k word] := by
    rw [entered_core, hfront]
    rfl
  have hissue : issueArray s k word = entered s k word :=
    (issueArray_enters h hd (by rw [hfront]; exact Nat.lt_succ_self 1)).trans
      (restart_of (startWith_started harr hstarted) (pumpWith_held harr (.inl hopc)))
  rw [hissue]
  exact ⟨arrIssued_of_cores (canIssue_ready h) ⟨_, rfl⟩, _, harr, ⟨rfl, rfl, rfl, rfl⟩, rfl⟩

variable (hempty : (core s (k / 8)).arr = []) (hrun : (core s (k / 8)).freezers = [])
include hempty hrun

theorem issueArray_matmul (hopc : (arrFields word).opc = 0x20) : arrIssued s k word (issueArray s k word) ∧
    ∃ y, (core (issueArray s k word) (k / 8)).arr = [y] ∧ arrQueued s k word y ∧ y.started = true ∧ y.hazard = false := by
  obtain ⟨harr, hfreeze⟩ := entered_front (word := word) hempty hrun
  obtain ⟨y, hy, hyx, hhazard, -⟩ := beginInstr_core (entered s k word) (k / 8) (arrEntry s k word)
  rw [harr] at hy
  obtain ⟨hissue, hafter⟩ := issueArray_begins h hd hempty (startWith_matmul harr rfl hfreeze hopc) ⟨_, rfl⟩ hy
    (.inl (by rw [hyx]; change (arrFields word).opc ≠ 0x22; rw [hopc]; decide))
  rw [hissue]
  refine ⟨hafter, y, hy, ?_, by rw [hyx], hhazard (by rw [arrEntry_of_empty hempty])⟩
  rw [hyx]
  exact ⟨rfl, rfl, rfl, rfl⟩

theorem issueArray_conv (hopc : (arrFields word).opc = 0x21)
    (hclean : ∀ i < 4, cleanWord s (memBase (k / 512) 1 (k / 8 % 64) + 8 * (bits word 12 12 + i)))
    (hwin : winUndefined word (winOf ((List.range 4).map fun i => rdWord s (k / 512) 1 (k / 8 % 64) (bits word 12 12 + i))) = false) :
    arrIssued s k word (issueArray s k word) ∧ ∃ y, (core (issueArray s k word) (k / 8)).arr = [y] ∧ arrQueued s k word y ∧
      y.started = true ∧ y.hazard = false ∧
      y.window = (List.range 4).map fun i => rdWord s (k / 512) 1 (k / 8 % 64) (bits word 12 12 + i) := by
  obtain ⟨harr, hfreeze⟩ := entered_front (word := word) hempty hrun
  obtain ⟨w, hw⟩ : ∃ w, (List.range 4).map (fun i => rdWord s (k / 512) 1 (k / 8 % 64) (bits word 12 12 + i)) = w := ⟨_, rfl⟩
  have hcluster : k / 512 = k / 8 / 64 := (Nat.div_div_eq_div_mul k 8 64).symm
  have hword (i : Nat) : rdWord (entered s k word) (k / 8 / 64) 1 (k / 8 % 64) (bits word 12 12 + i) =
      rdWord s (k / 8 / 64) 1 (k / 8 % 64) (bits word 12 12 + i) := rdN_congr (by rw [entered, arrTagged_frame]; rfl) ..
  rw [hcluster] at hclean hwin hw
  have hstart : startWith threadFault (entered s k word) (k / 8) =
      beginInstr (entered s k word) (k / 8) { arrEntry s k word with window := w } := by
    have hconv := startWith_conv (fault := threadFault) harr rfl hfreeze hopc (by rw [arrEntry_of_empty hempty])
      (fun i hi => (cleanWord_congr (by rw [entered, arrTagged_frame]; rfl) (by rw [entered, arrTagged_frame]; rfl)).2 (hclean i hi))
    simp only [show (arrEntry s k word).word = word from rfl, hword, hw] at hconv hwin
    exact hconv hwin
  obtain ⟨y, hy, hyx, hhazard, -⟩ := beginInstr_core (entered s k word) (k / 8) { arrEntry s k word with window := w }
  rw [harr] at hy
  obtain ⟨hissue, hafter⟩ := issueArray_begins h hd hempty hstart ⟨_, rfl⟩ hy
    (.inl (by rw [hyx]; change (arrFields word).opc ≠ 0x22; rw [hopc]; decide))
  rw [hissue, hcluster, hw]
  refine ⟨hafter, y, hy, ?_, by rw [hyx], hhazard (by rw [arrEntry_of_empty hempty]), by rw [hyx]⟩
  rw [hyx]
  exact ⟨rfl, rfl, rfl, rfl⟩

theorem issueArray_stream (hopc : (arrFields word).opc = 0x22) (hcredit : (core s (k / 8)).inCredit = 0)
    (hweights : ∀ p ∈ passes (arrEntry s k word), ∀ v ∈ passWords (arrFields word) p.at',
      cleanWord s (memBase (k / 512) 0 (k / 8 % 64) + 8 * v))
    (hscales : ∀ v ∈ scaleWords (arrEntry s k word), cleanWord s (memBase (k / 512) 1 (k / 8 % 64) + 8 * v)) :
    arrIssued s k word (issueArray s k word) ∧ (core (issueArray s k word) (k / 8)).outSpace = oRing word ∧
      ∃ y, (core (issueArray s k word) (k / 8)).arr = [y] ∧ arrQueued s k word y ∧ y.started = true := by
  obtain ⟨harr, hfreeze⟩ := entered_front (word := word) hempty hrun
  obtain ⟨y, hy, hyx, -, hcredit'⟩ := beginInstr_core (entered s k word) (k / 8) (arrEntry s k word)
  rw [harr] at hy
  rw [entered_core] at hcredit'
  have hcluster : k / 512 = k / 8 / 64 := (Nat.div_div_eq_div_mul k 8 64).symm
  rw [hcluster] at hweights hscales
  have hclean {a : Nat} (ha : cleanWord s a) : cleanWord (entered s k word) a :=
    (cleanWord_congr (by rw [entered, arrTagged_frame]; rfl) (by rw [entered, arrTagged_frame]; rfl)).2 ha
  have hstart := startWith_stream (fault := threadFault) harr rfl hfreeze hopc (fun p hp v hv => hclean (hweights p hp v hv))
    (fun v hv => hclean (hscales v hv))
  obtain ⟨v, hv⟩ : ∃ v, startWith threadFault (entered s k word) (k / 8) = v := ⟨_, rfl⟩
  have hcore : (core v (k / 8)).arr = [y] ∧ (core v (k / 8)).inCredit = 0 ∧ (core v (k / 8)).outSpace = oRing word := by
    rw [← hv, hstart, core_setCore_same]
    exact ⟨hy, by rw [hcredit', hcredit, Nat.zero_min], rfl⟩
  obtain ⟨harr', hcredit0, hspace⟩ := hcore
  obtain ⟨hissue, hafter⟩ := issueArray_begins h hd hempty hv ⟨_, by rw [← hv, hstart]; rfl⟩ harr' (.inr hcredit0)
  rw [hissue]
  refine ⟨hafter, hspace, y, harr', ?_, by rw [hyx]⟩
  rw [hyx]
  exact ⟨rfl, rfl, rfl, rfl⟩

end

end Sys2Proof.Machine

open Sys2Proof Sys2Proof.Machine Sys2Proof.Machine.Reg

/-- Settles O13: each command is one issue into the array queue, whose front then starts. -/
theorem arrayInstructionsAreIssued : Obligations.ArrayInstructionsAreIssued := by
  intro s t h hcalm k c q defined ent after full faulted
  have hmatmul (w : BitVec 120) : exec (.matmul t w) s = .next (settleDoomed (issueArray s k (0x20 * 2 ^ 120 + w.toNat)) t.cluster) :=
    congrArg (fun x => Host.Outcome.next (settleDoomed (issueArray s k x) t.cluster)) (Nat.add_comm ..)
  have hconv (w : BitVec 120) : exec (.conv t w []) s = .next (settleDoomed (issueArray s k (0x21 * 2 ^ 120 + w.toNat)) t.cluster) :=
    congrArg (fun x => Host.Outcome.next (settleDoomed (issueArray s k x) t.cluster)) (Nat.add_comm ..)
  have hstream (w : BitVec 120) : exec (.stream t w []) s = .next (settleDoomed (issueArray s k (0x22 * 2 ^ 120 + w.toNat)) t.cluster) :=
    congrArg (fun x => Host.Outcome.next (settleDoomed (issueArray s k x) t.cluster)) (Nat.add_comm ..)
  have hquiet {u : State} (hu : u.clusters = s.clusters) : settleDoomed u t.cluster = u :=
    settleDoomed_of_calm (by rw [clu, hu]; exact hcalm)
  have hissued {i : Instr} {word : Nat} {P : State → Prop} (hexec : exec i s = .next (settleDoomed (issueArray s k word) t.cluster))
      (hd : arrIssued s k word (issueArray s k word) ∧ P (issueArray s k word)) : completes i s fun u => after word u ∧ P u :=
    ⟨_, by rw [hexec, hquiet (by rw [hd.1.2.2.2])], hd⟩
  have hfull {i : Instr} {word : Nat} (hexec : exec i s = .next (settleDoomed (issueArray s k word) t.cluster))
      (hd : arrUndefined word (privileged s k) (q word) = false) (hlen : 2 ≤ c.arr.length) : completes i s full :=
    ⟨_, by rw [hexec, issueArray_full h hd hlen, hquiet (by rw [setThrState_frame])], full_waits h⟩
  have hundef {i : Instr} {word : Nat} (hexec : exec i s = .next (settleDoomed (issueArray s k word) t.cluster))
      (hu : ∀ p, arrUndefined word p (q word) = true) : exec i s = faulted := by rw [hexec, issueArray_undefined h hu]
  refine ⟨fun w => ⟨fun hd he hf => ?_, fun hd x hx hst hopc => ?_, fun hd => hfull (hmatmul w) (hd _), hundef (hmatmul w)⟩,
    fun w => ⟨fun hd he hf hclean hwin => ?_, fun hd => hfull (hconv w) (hd _), hundef (hconv w)⟩,
    fun w => ⟨fun id unit hunit hfind hpriv hd => ?_, hundef (hstream w)⟩⟩
  · exact hissued (hmatmul w) (issueArray_matmul h (hd _) he hf (opc_word 0x20 (by decide) w))
  · exact hissued (hmatmul w) (issueArray_second h (hd _) hx hst hopc)
  · exact hissued (hconv w) (issueArray_conv h (hd _) he hf (opc_word 0x21 (by decide) w) hclean hwin)
  · have hp : privileged s k = true := by
      rw [privileged, hunit, Option.bind_some, hfind]
      exact hpriv
    refine ⟨fun he hf hcredit hweights hscales => ?_, hfull (hstream w) (by rw [hp]; exact hd)⟩
    rw [← arrEntry_of_empty he] at hweights hscales
    exact hissued (hstream w) (issueArray_stream h (by rw [hp]; exact hd) he hf (opc_word 0x22 (by decide) w) hcredit hweights hscales)
end

section
/-!
The end of an array instruction (R32, R42, R65, R66): what its accesses, its passes and its leaving the queue leave.
-/
namespace Sys2Proof.Machine
open Reg Laws

variable {s t u : State} {a n cn k : Nat} {x : ArrInstr}

/-! ### Checked accesses -/

/-- Only what is recorded of errors differs. -/
def errorSide (s u : State) : Prop :=
  u = { s with poison := u.poison, upsets := u.upsets, clusters := u.clusters, regs := u.regs, free := u.free, flt := u.flt }

theorem errorSide_refl (s : State) : errorSide s s := rfl

theorem errorSide_trans (h : errorSide s t) (h' : errorSide t u) : errorSide s u := by
  unfold errorSide at *
  rw [h', h]

theorem errorSide_of_scrubSide (h : scrubSide s u) : errorSide s u := by
  unfold errorSide
  rw [h.1]

theorem eccDetect_errorSide (s : State) (n m c w : Nat) (ue : Bool) : errorSide s (eccDetect s n m c w ue) := by
  obtain ⟨k, r, f, y, hframe, -⟩ := eccDetect_frame s n m c w ue
  unfold errorSide
  rw [hframe]

theorem readWord_side (s : State) (n m c w : Nat) : errorSide s (readWord s n m c w).1 := by
  obtain ⟨-, -, h⟩ | ⟨-, -, h⟩ | ⟨-, h⟩ := readWord_cases s n m c w
  · rw [h]
    exact errorSide_refl s
  · rw [h]
    exact eccDetect_errorSide s n m c w false
  · rw [h]
    exact eccDetect_errorSide s n m c w true

theorem setPoison_side (s : State) (a : Nat) : errorSide s (setPoison s a) := by
  unfold errorSide
  rw [setPoison_frame]

theorem mergeWord_side (s : State) (a : Nat) : errorSide s (mergeWord s a) := by
  unfold mergeWord
  split
  · exact errorSide_trans (eccDetect_errorSide ..) (setPoison_side ..)
  · exact errorSide_trans (t := eccDetect s _ _ _ _ false) (eccDetect_errorSide ..) rfl
  · exact errorSide_refl s

theorem runAccesses_side (cn : Nat) (l : List Access) (s : State) : errorSide s (runAccesses cn l s).1 := by
  induction l generalizing s with
  | nil => exact errorSide_refl s
  | cons a l ih =>
    cases a with
    | read m w =>
      have hread := readWord_side s (cn / 64) m (cn % 64) w
      unfold runAccesses
      dsimp only
      split
      · exact hread
      · exact errorSide_trans hread (ih _)
    | merge m w =>
      unfold runAccesses
      exact errorSide_trans (errorSide_trans (mergeWord_side ..) (errorSide_of_scrubSide (portWrote_side ..))) (ih _)
    | outside =>
      unfold runAccesses
      exact errorSide_refl s

/-! ### Passes -/

/-- Memories and free values differ, and of a core everything but its array queue may. -/
def passSide (s u : State) : Prop :=
  u = { s with mem := u.mem, cores := u.cores, free := u.free } ∧ ∀ cn, (core u cn).arr = (core s cn).arr

theorem passSide_refl (s : State) : passSide s s := ⟨rfl, fun _ => rfl⟩

theorem passSide_trans (h : passSide s t) (h' : passSide t u) : passSide s u :=
  ⟨by rw [h'.1, h.1], fun cn => (h'.2 cn).trans (h.2 cn)⟩

theorem passSide_ite {p : Prop} [Decidable p] (ht : passSide s t) (hu : passSide s u) : passSide s (if p then t else u) := by
  split
  exacts [ht, hu]

theorem passSide_foldl {α : Type} {g : State → α → State} (hg : ∀ s x, passSide s (g s x)) (l : List α) (s : State) :
    passSide s (l.foldl g s) :=
  List.foldlRecOn (motive := passSide s) l g (passSide_refl s) fun t ht x _ => passSide_trans ht (hg t x)

theorem passSide_setCore {c : Core} (h : c.arr = (core s cn).arr) : passSide s (setCore s cn c) := by
  refine ⟨rfl, fun j => ?_⟩
  by_cases hj : j = cn
  · rw [hj, core_setCore_same, h]
  · rw [core_setCore_other hj]

theorem passSide_fresh (s : State) : passSide s (fresh s).2 := ⟨rfl, fun _ => rfl⟩

theorem passSide_mem (s : State) (m : List (Nat × BitVec 8)) : passSide s { s with mem := m } := ⟨rfl, fun _ => rfl⟩

theorem storeBits_side (s : State) (n m c : Nat) (pl : Nat × Nat × Nat) (v : Nat) : passSide s (storeBits s n m c pl v) := by
  unfold storeBits
  dsimp only
  rw [wrN_frame]
  exact passSide_mem s _

theorem addCounts_side (s : State) (cn a o f : Nat) : passSide s (addCounts s cn a o f) := by
  refine passSide_setCore ?_
  rfl

theorem chanScale_passSide (s : State) (cn q i : Nat) : passSide s (chanScale s cn q i).2 := by
  unfold chanScale
  split
  · split
    · exact passSide_refl s
    · exact passSide_fresh s
  · exact passSide_refl s

theorem emitConvert_side (s : State) (cn : Nat) (x : ArrInstr) (n c t : Nat) : passSide s (emitConvert s cn x n c t).2 := by
  have hscale := chanScale_passSide s cn x.qset n
  unfold emitConvert
  dsimp only
  generalize chanScale s cn x.qset n = ch at *
  have hlfsr (l : List (Nat × Nat)) : passSide ch.2 (setCore ch.2 cn { core ch.2 cn with lfsr := l }) := passSide_setCore rfl
  exact passSide_trans hscale (passSide_trans (passSide_ite (hlfsr _) (passSide_refl ch.2)) (addCounts_side ..))

theorem passCell_side (x : ArrInstr) (cn : Nat) (p : PassAt) (ws : List Nat) (src : RowSrc) (m c : Nat) (first last : Bool) (s : State) :
    passSide s (passCell x cn p ws src m c first last s) := by
  have hcount (b d : Nat) : passSide s (addCounts s cn b 0 d) := addCounts_side ..
  unfold passCell
  dsimp only
  refine passSide_ite (passSide_ite ?_ (hcount ..)) (passSide_trans (hcount ..) (storeBits_side ..))
  exact passSide_trans (passSide_trans (hcount ..) (emitConvert_side ..)) (storeBits_side ..)

theorem runPasses_side (x : ArrInstr) (cn : Nat) (s : State) : passSide s (runPasses x cn s) := by
  refine passSide_foldl (fun s p => ?_) _ s
  have hactive (l : List Nat) : passSide s (setCore s cn { core s cn with active := l }) := passSide_setCore rfl
  refine passSide_trans (hactive _) (passSide_foldl (fun s m => passSide_foldl (fun s c => ?_) _ s) _ _)
  exact passCell_side ..

theorem scramblePlaces_side (s : State) (cn m : Nat) (l : List (Nat × Nat × Nat)) : passSide s (scramblePlaces s cn m l) :=
  passSide_foldl (fun s _ => passSide_trans (passSide_fresh s) (storeBits_side ..)) l s

theorem afterEmit_side (s : State) (cn : Nat) (x : ArrInstr) : passSide s (afterEmit s cn x) :=
  passSide_ite (scramblePlaces_side ..) (passSide_refl s)

/-! ### Leaving the queue -/

theorem restart_of_empty (h : (core s cn).arr = []) : restart s cn = s := by
  have hstart : startWith threadFault s cn = s := by
    unfold startWith
    dsimp only
    rw [h]
  have hpump : pumpWith threadFault s cn = s := by
    unfold pumpWith
    rw [h]
  exact restart_of hstart hpump

/-- A tag an instruction names is set; without one nothing happens. -/
theorem arrayTag_done (s : State) (k : Nat) (f : ArrF) : ∃ y z,
    (if f.tagEn then completeTag s k f.tag true 0 else s) = { s with threads := y, regs := z } ∧
      (f.tagEn = true → tagOf { s with threads := y, regs := z } k f.tag = .done) := by
  obtain ⟨hframe, hdone, -⟩ := completeTag_done s k f.tag
  split
  · exact ⟨_, _, hframe, fun _ => hframe ▸ hdone⟩
  · next h => exact ⟨s.threads, s.regs, rfl, fun h' => absurd h' h⟩

/-- The only instruction of a queue leaves it, and a tag it names is set. -/
theorem popArray_done (harr : (core s cn).arr = [x]) : let u := popArray s cn x
    u = { s with cores := u.cores, threads := u.threads, regs := u.regs } ∧ (core u cn).arr = [] ∧
      ((arrFields x.word).tagEn = true → tagOf u x.thread (arrFields x.word).tag = .done) := by
  obtain ⟨v, hv⟩ : ∃ v, setCore s cn { core s cn with arr := (core s cn).arr.tail, slips := [], freezers := [] } = v := ⟨_, rfl⟩
  have hempty : (core v cn).arr = [] := by
    rw [← hv, core_setCore_same, harr]
    rfl
  have hframe : v = { s with cores := v.cores } := by rw [← hv]; rfl
  obtain ⟨y, z, htag, hdone⟩ := arrayTag_done v x.thread (arrFields x.word)
  obtain ⟨w, hw⟩ : ∃ w, ({ v with threads := y, regs := z } : State) = w := ⟨_, rfl⟩
  rw [hw] at htag hdone
  have hwoken := wakeCore_woken (w := .arrayQueue) (by decide) w cn
  have hempty' : (core (wakeCore w cn .arrayQueue) cn).arr = [] := by
    rw [core, hwoken.frame, ← hw]
    exact hempty
  have hpop : popArray s cn x = wakeCore w cn .arrayQueue := by
    unfold popArray
    dsimp only
    rw [hv, htag]
    exact restart_of_empty hempty'
  dsimp only
  rw [hpop]
  refine ⟨by rw [hwoken.frame, ← hw, hframe], hempty', fun h => ?_⟩
  rw [hwoken.tagOf]
  exact hdone h

end Sys2Proof.Machine
end

section
/-!
O14: the end of a MATMUL, a CONV or a STREAM, and the product of one weight and one activation (R32, R61, R65, R66, R72, R89, R130).
-/
namespace Sys2Proof.Machine
open Reg Laws

variable {s t u : State} {a n m c w cn : Nat} {x : ArrInstr}

/-! ### Bits of a word -/

theorem rdN_of_bytes (n : Nat) {a : Nat} (h : ∀ i < n, rb t (a + i) = rb s (a + i)) : rdN t a n = rdN s a n := by
  induction n generalizing a with
  | zero => rfl
  | succ n ih =>
    have hnext : rdN t (a + 1) n = rdN s (a + 1) n := ih fun i hi => by
      rw [Nat.add_right_comm, Nat.add_assoc]
      exact h (i + 1) (Nat.succ_lt_succ hi)
    rw [rdN, rdN, hnext, show rb t a = rb s a from h 0 (Nat.succ_pos n)]

/-- A word's low half is what was stored there. -/
theorem storeBits_low (s : State) (n m c w v : Nat) :
    bits (rdWord (storeBits s n m c (w, 0, 32) v) n m c w) 0 32 = v % 2 ^ 32 := by
  unfold rdWord storeBits bits
  dsimp only
  rw [rdN_wrN_same]
  generalize rdWord s n m c w = old
  omega

theorem storeBits_bytes {y : Nat} (pl : Nat × Nat × Nat) (v : Nat) (h : y < memBase n m c + 8 * pl.1 ∨ memBase n m c + 8 * pl.1 + 8 ≤ y) :
    rb (storeBits s n m c pl v) y = rb s y := by
  rw [storeBits]
  exact rb_wrN_other 8 (by omega)

/-! ### One row, one column, one element -/

/-- A MATMUL of one INT8 row, column and element whose sum stays in PM. -/
def oneProduct (f : ArrF) : Prop :=
  f.opc = 0x20 ∧ f.wfmt = 0 ∧ f.afmt = 0 ∧ f.m = 1 ∧ f.n = 1 ∧ f.k = 1 ∧ f.omode = 0 ∧ f.acc = false

/-- Its one pass. -/
def onePass (f : ArrF) : Pass := ⟨⟨f.w, 1, 0, 0, 0, f.w + 8, false⟩, 0, true, true⟩

/-- The product of the weight byte and the activation byte. -/
def byteProduct (s : State) (cn : Nat) (f : ArrF) : Int :=
  signExt 8 (bits (rdWord s (cn / 64) 0 (cn % 64) f.w) 0 8) * signExt 8 (bits (rdWord s (cn / 64) 1 (cn % 64) f.a) 0 8)

theorem signExt_byte (v : Nat) : -128 ≤ signExt 8 v ∧ signExt 8 v ≤ 127 := by
  unfold signExt
  dsimp only
  have : v % 2 ^ 8 < 256 := Nat.mod_lt _ (by decide)
  split
  all_goals omega

theorem satInt32_byteProduct (v w : Nat) : satInt32 (signExt 8 v * signExt 8 w) = (signExt 8 v * signExt 8 w, false) := by
  obtain ⟨hv, hv'⟩ := signExt_byte v
  obtain ⟨hw, hw'⟩ := signExt_byte w
  have hhi : signExt 8 v * signExt 8 w ≤ 16384 := by nlinarith
  have hlo : -16384 ≤ signExt 8 v * signExt 8 w := by nlinarith
  unfold satInt32
  rw [if_neg (by omega), if_neg (by omega)]

theorem ofInt32_lt (v : Int) : ofInt32 v < 2 ^ 32 := by
  unfold ofInt32
  omega

section
variable {f : ArrF} (h : oneProduct f)
include h

theorem passes_oneProduct (hx : arrFields x.word = f) : passes x = [onePass f] := by
  obtain ⟨hopc, hw, ha, hm, hn, hk, -, -⟩ := h
  unfold passes tapsOf depthwise
  simp only [hx, hopc, hw, hn, hk, onePass]
  rfl

theorem passWords_oneProduct : passWords f (onePass f).at' = (List.range 8).map (fun i => f.w + i) := by
  obtain ⟨-, hw, -⟩ := h
  unfold passWords onePass
  simp only [hw]
  rfl

/-- Column 0 sums the product, and the columns past N nothing (R66). -/
theorem intColumn_oneProduct (ws : List Nat) (s : State) (cn c : Nat) :
    intColumn s cn f (onePass f).at' ws ⟨.row 0, 1⟩ c =
      if c = 0 then signExt 8 (bits (ws.getD 0 0) 0 8) * signExt 8 (bits (rdWord s (cn / 64) 1 (cn % 64) f.a) 0 8) else 0 := by
  obtain ⟨-, hw, ha, -, hn, hk, -, -⟩ := h
  have htile (r : Nat) : inTile f (onePass f).at' r 0 c = (decide (r = 0) && decide (c = 0)) := by
    simp only [inTile, onePass, hw, hn, hk, kwOf, krOf, weight4]
    congr 1
    all_goals
      simp only [decide_eq_decide]
      simp
  have hweight : weightCode ws f 0 0 0 = bits (ws.getD 0 0) 0 8 := by
    simp only [weightCode, hw]
    rfl
  have hact : actCode s cn f ⟨.row 0, 1⟩ 0 0 0 = bits (rdWord s (cn / 64) 1 (cn % 64) f.a) 0 8 := by
    simp only [actCode, ha, hw]
    rfl
  have hkr : krOf f.wfmt = 1 := by rw [hw]; rfl
  unfold intColumn
  rw [hkr, show List.range 8 = [0, 1, 2, 3, 4, 5, 6, 7] from rfl, show List.range 1 = [0] from rfl]
  by_cases hc : c = 0
  · subst hc
    simp [htile, hweight, hw, ha, show (onePass f).at'.kb = 0 from rfl, hact]
  · simp [htile, hc]

/-- A cell's value goes to its accumulator (R61, R66). -/
theorem passCell_oneProduct (hx : arrFields x.word = f) (ws : List Nat) (s : State) (cn c : Nat) : ∃ b d,
    passCell x cn (onePass f).at' ws ⟨.row 0, 1⟩ 0 c true true s =
      storeBits (addCounts s cn b 0 d) (cn / 64) 2 (cn % 64) (f.p + c, 0, 32)
        (ofInt32 (satInt32 (intColumn s cn f (onePass f).at' ws ⟨.row 0, 1⟩ c)).1) := by
  obtain ⟨hopc, hw, ha, hm, hn, hk, hom, hacc⟩ := h
  have hplace : accPlace f (onePass f).at'.nb 0 c = (f.p + c, 0, 32) := by
    simp only [accPlace, hom, hm, onePass]
    rfl
  have hdrain : drainAdd s cn f (onePass f).at' ws ⟨.row 0, 1⟩ c none =
      ⟨ofInt32 (satInt32 (intColumn s cn f (onePass f).at' ws ⟨.row 0, 1⟩ c)).1,
        (satInt32 (intColumn s cn f (onePass f).at' ws ⟨.row 0, 1⟩ c)).2, 0⟩ := by
    simp only [drainAdd, hw]
    rfl
  refine ⟨b2n (satInt32 (intColumn s cn f (onePass f).at' ws ⟨.row 0, 1⟩ c)).2, 0, ?_⟩
  unfold passCell
  simp only [hx, hplace, hacc, hom, hdrain, Bool.not_false, Bool.and_self, if_true]
  rfl

end

/-- The cells of a row, in order. -/
def oneRowCells (x : ArrInstr) (cn : Nat) (ws : List Nat) (l : List Nat) (s : State) : State :=
  l.foldl (fun s c => passCell x cn (onePass (arrFields x.word)).at' ws ⟨.row 0, 1⟩ 0 c true true s) s

/-- Cells from `lo` on leave every byte but those of their accumulators. -/
theorem oneRowCells_bytes (h : oneProduct (arrFields x.word)) {ws l : List Nat} {lo y : Nat} (hl : ∀ c ∈ l, lo ≤ c ∧ c < 8)
    (hy : y < memBase (cn / 64) 2 (cn % 64) + 8 * ((arrFields x.word).p + lo) ∨
      memBase (cn / 64) 2 (cn % 64) + 8 * ((arrFields x.word).p + 8) ≤ y) : rb (oneRowCells x cn ws l s) y = rb s y := by
  refine List.foldlRecOn (motive := fun t => rb t y = rb s y) l _ rfl fun t ht c hc => ?_
  obtain ⟨b, d, hcell⟩ := passCell_oneProduct h rfl ws t cn c
  obtain ⟨hlo, hhi⟩ := hl c hc
  rw [hcell, storeBits_bytes _ _ (by dsimp only; omega)]
  exact ht

theorem runPasses_oneProduct (h : oneProduct (arrFields x.word)) (s : State) (cn : Nat) : ∃ k, runPasses x cn s =
    oneRowCells x cn (loadWords s cn ((List.range 8).map fun i => (arrFields x.word).w + i)) (List.range 8) { s with cores := k } := by
  obtain ⟨hopc, -, -, hm, -⟩ := id h
  have hrow : rowSource x 0 0 = ⟨.row 0, 1⟩ := by
    simp only [rowSource, hopc, hm]
    rfl
  refine ⟨(setCore s cn { core s cn with active := loadWords s cn ((List.range 8).map fun i => (arrFields x.word).w + i) }).cores, ?_⟩
  unfold runPasses runPass
  rw [passes_oneProduct h rfl, List.foldl_cons, List.foldl_nil]
  dsimp only
  rw [passWords_oneProduct h, hm, show List.range 1 = [0] from rfl, List.foldl_cons, List.foldl_nil,
    show (onePass (arrFields x.word)).tap = 0 from rfl, hrow]
  rfl

/-- The product stands in the low half of the accumulator's word, and only the row's accumulators are written. -/
theorem runPasses_product (h : oneProduct (arrFields x.word)) (s : State) (cn : Nat) :
    let f := arrFields x.word
    bits (rdWord (runPasses x cn s) (cn / 64) 2 (cn % 64) f.p) 0 32 = ofInt32 (byteProduct s cn f) ∧
      sameMemBut s (runPasses x cn s) (memBase (cn / 64) 2 (cn % 64) + 8 * f.p) 64 := by
  obtain ⟨k, hrun⟩ := runPasses_oneProduct h s cn
  obtain ⟨ws, hws⟩ : ∃ ws, loadWords s cn ((List.range 8).map fun i => (arrFields x.word).w + i) = ws := ⟨_, rfl⟩
  have hw0 : ws.getD 0 0 = rdWord s (cn / 64) 0 (cn % 64) (arrFields x.word).w := by
    rw [← hws]
    rfl
  rw [hws] at hrun
  dsimp only
  rw [hrun]
  refine ⟨?_, fun y hy => ?_⟩
  · obtain ⟨b, d, hcell⟩ := passCell_oneProduct h rfl ws { s with cores := k } cn 0
    have hfirst : oneRowCells x cn ws (List.range 8) { s with cores := k } = oneRowCells x cn ws [1, 2, 3, 4, 5, 6, 7]
        (passCell x cn (onePass (arrFields x.word)).at' ws ⟨.row 0, 1⟩ 0 0 true true { s with cores := k }) := by
      rw [oneRowCells, show List.range 8 = 0 :: [1, 2, 3, 4, 5, 6, 7] from rfl, List.foldl_cons, ← oneRowCells]
    have hrest (t : State) : rdWord (oneRowCells x cn ws [1, 2, 3, 4, 5, 6, 7] t) (cn / 64) 2 (cn % 64) (arrFields x.word).p =
        rdWord t (cn / 64) 2 (cn % 64) (arrFields x.word).p :=
      rdN_of_bytes 8 fun i hi => oneRowCells_bytes (lo := 1) h (by decide) (.inl (by omega))
    rw [hfirst, hrest, hcell, Nat.add_zero, storeBits_low, intColumn_oneProduct h, if_pos rfl, hw0, satInt32_byteProduct]
    exact Nat.mod_eq_of_lt (ofInt32_lt _)
  · exact oneRowCells_bytes (s := { s with cores := k }) (lo := 0) h (by simp) (by omega)

/-! ### The commands -/

section
variable (harr : (core s cn).arr = [x]) (hstarted : x.started = true)
include harr hstarted

theorem arrayComplete_pops {cl : Fin 34} {c : Fin 64} (hcn : cn = coreNo cl c) (hopc : (arrFields x.word).opc ≠ 0x22)
    (hrun : (core s cn).freezers = []) (hhazard : x.hazard = false) (hseen : operandValues s cn x = x.seen)
    (hstop : (runAccesses cn ((passes x).flatMap (passAccesses x)) s).2 = .none) :
    let v := afterEmit (runPasses x cn (runAccesses cn ((passes x).flatMap (passAccesses x)) s).1) cn x
    arrayComplete cl c [] s = popArray (setCore v cn { core v cn with shadow := [] }) cn x := by
  unfold arrayComplete
  dsimp only [addErrs, List.foldl_nil]
  rw [← hcn, harr]
  dsimp only
  rw [if_neg (by simp [hopc, hstarted, frozen, hrun]), hstop, hhazard, hseen]
  simp

theorem streamEnd_pops {cl : Fin 34} {c : Fin 64} (hcn : cn = coreNo cl c) (hopc : (arrFields x.word).opc = 0x22) {stopped : Bool}
    (hend : stopped = true ∨ (x.rows = streamRows x.word ∧ (core s cn).freezers = [])) :
    streamEnd cl c stopped s = popArray (afterEmit s cn x) cn x := by
  unfold streamEnd
  dsimp only
  rw [← hcn, harr]
  dsimp only
  rw [if_neg (by simp [hopc, hstarted]), if_pos]
  exact hend.imp_right fun h => ⟨h.1, by simp [frozen, h.2]⟩

end

/-- A STREAM without accumulators leaves the memories alone. -/
theorem afterEmit_stream (hopc : (arrFields x.word).opc = 0x22) (hacc : (arrFields x.word).acc = false) (s : State) (cn : Nat) :
    afterEmit s cn x = s := by
  have hplaces : pmPlaces x = [] := by simp [pmPlaces, pmUsed, hopc, hacc]
  rw [afterEmit, hplaces]
  exact ite_self _

/-- What the end of a core's only instruction leaves. -/
def arrayGone (s u : State) (cn : Nat) (x : ArrInstr) : Prop :=
  (core u cn).arr = [] ∧ ((arrFields x.word).tagEn = true → tagOf u x.thread (arrFields x.word).tag = .done) ∧ u.host = s.host

theorem arrayGone_of_pop (harr : (core t cn).arr = [x]) (hhost : t.host = s.host) : arrayGone s (popArray t cn x) cn x ∧
    (popArray t cn x).mem = t.mem ∧ (popArray t cn x).clusters = t.clusters := by
  obtain ⟨hframe, hempty, htag⟩ := popArray_done harr
  exact ⟨⟨hempty, htag, by rw [hframe, ← hhost]⟩, by rw [hframe], by rw [hframe]⟩

end Sys2Proof.Machine

open Sys2Proof Sys2Proof.Machine Sys2Proof.Machine.Reg

/-- Settles O14: the accesses touch only what is recorded of errors, the passes only memories and cores. -/
theorem arrayInstructionsComplete : Obligations.ArrayInstructionsComplete := by
  intro s n c x cn f gone z harr hstarted
  refine ⟨fun hopc hrun hhazard hseen hstop hcalm => ?_, fun hopc hcalm stopped hend => ?_⟩
  · have haccess : errorSide s z.1 := runAccesses_side ..
    have hpass := passSide_trans (runPasses_side x cn z.1) (afterEmit_side _ cn x)
    have hpops := arrayComplete_pops (cl := n) (c := c) harr hstarted rfl hopc hrun hhazard hseen hstop
    obtain ⟨v, hv⟩ : ∃ v, afterEmit (runPasses x cn z.1) cn x = v := ⟨_, rfl⟩
    rw [hv] at hpass
    have harr' : (core (setCore v cn { core v cn with shadow := [] }) cn).arr = [x] := by
      rw [core_setCore_same]
      refine (hpass.2 cn).trans ?_
      rw [Machine.core, haccess]
      exact harr
    obtain ⟨hgone, hmem, hclusters⟩ := arrayGone_of_pop (s := s) harr' (by
      change v.host = s.host
      rw [hpass.1, haccess])
    have hexec : exec (.arrayInstructionComplete n c []) s = .next (popArray (setCore v cn { core v cn with shadow := [] }) cn x) := by
      refine congrArg Host.Outcome.next ?_
      change settleDoomed (arrayComplete n c [] s) n = _
      rw [hpops]
      dsimp only
      rw [show afterEmit (runPasses x cn z.1) cn x = v from hv]
      refine settleDoomed_of_calm ?_
      rw [clu, hclusters]
      change (clu v n).doomed = false
      rw [clu, hpass.1]
      exact hcalm
    refine ⟨⟨_, hexec, hgone⟩, fun hop hw ha hm hn hk hom hacc hp _ _ => ⟨_, hexec, ?_⟩⟩
    have hone : oneProduct f := ⟨hop, hw, ha, hm, hn, hk, hom, hacc⟩
    obtain ⟨hproduct, hbytes⟩ := runPasses_product hone z.1 cn
    have hmem' : (popArray (setCore v cn { core v cn with shadow := [] }) cn x).mem = (runPasses x cn z.1).mem := by
      rw [hmem, ← hv]
      have hkeep : afterEmit (runPasses x cn z.1) cn x = runPasses x cn z.1 := if_neg (by rw [show (arrFields x.word).omode = 0 from hom]; decide)
      rw [hkeep]
      rfl
    have hz : z.1.mem = s.mem := by rw [haccess]
    have hcl : cn / 64 = n := coreNo_div n c
    have hco : cn % 64 = c := coreNo_mod n c
    rw [byteProduct, hcl, hco] at hproduct
    rw [hcl, hco] at hbytes
    refine ⟨?_, fun y hy => ?_⟩
    · rw [rdWord, rdN_congr hmem', ← rdWord, hproduct, rdWord, rdWord, rdN_congr hz, rdN_congr hz]
      rfl
    · rw [rb, hmem', ← rb, hbytes y hy, rb, hz, rb]
  · have harr' : (core (afterEmit s cn x) cn).arr = [x] := ((afterEmit_side s cn x).2 cn).trans harr
    obtain ⟨hgone, hmem, hclusters⟩ := arrayGone_of_pop (s := s) harr' (by rw [(afterEmit_side s cn x).1])
    refine ⟨popArray (afterEmit s cn x) cn x, ?_, hgone, fun hacc => ?_⟩
    · refine congrArg Host.Outcome.next ?_
      change settleDoomed (streamEnd n c stopped s) n = _
      rw [streamEnd_pops harr hstarted rfl hopc hend]
      refine settleDoomed_of_calm ?_
      rw [clu, hclusters, (afterEmit_side s cn x).1]
      exact hcalm
    · rw [hmem, afterEmit_stream hopc hacc]
end

section
/-!
Moves (R33, R34, R252-R256): where they may write, what a write to an endpoint leaves, and what putting one in its queue leaves.
-/
namespace Sys2Proof.Machine
open Reg Laws

variable {s t u : State} {n q a o : Nat} {d : Desc} {m : Move} {e src dst : Ep} {v : Byte}

/-! ### Endpoints -/

/-- An endpoint lies in host memory exactly in T4, where it reaches to the end of the address space. -/
theorem endpoint_host {p : Option Nat} {fn tier : Nat} (h : endpoint s n p fn tier a = some e) :
    (e.host = true ↔ tier = 4) ∧ (tier = 4 → e.base + e.room = 2 ^ 64) := by
  have hdevice {b r : Nat} (htier : tier ≠ 4) (he : some (⟨false, 0, b, r⟩ : Ep) = some e) :
      (e.host = true ↔ tier = 4) ∧ (tier = 4 → e.base + e.room = 2 ^ 64) := by
    obtain rfl := Option.some.inj he
    exact ⟨⟨fun hh => (nomatch hh), fun h4 => absurd h4 htier⟩, fun h4 => absurd h4 htier⟩
  unfold endpoint at h
  dsimp only at h
  split_ifs at h with h0 hrange h1 hrange h2 hrange h3 hready h4 hrange
  · split at h
    · contradiction
    · split_ifs at h
      exact hdevice (by omega) h
  · split at h
    · contradiction
    · split_ifs at h
      exact hdevice (by omega) h
  · exact hdevice (by omega) h
  · split at h
    · split_ifs at h
      exact hdevice (by omega) h
    · contradiction
  · obtain rfl := Option.some.inj h
    exact ⟨⟨fun _ => h4, fun _ => rfl⟩, fun _ => Nat.add_sub_cancel' (Nat.le_of_lt hrange)⟩

/-! ### Bytes written -/

theorem rekeyUnit_frame (s : State) (k i : Nat) : rekeyUnit s k i = { s with mem := (rekeyUnit s k i).mem, dram := (rekeyUnit s k i).dram } := by
  have hbytes (g : Nat → Byte) (l : List Nat) (b : Nat) : ∃ x, l.foldl (fun s i => wb s (b + i) (g i)) s = { s with mem := x } := by
    refine List.foldlRecOn (motive := fun t => ∃ x, t = ({ s with mem := x } : State)) l _ ⟨s.mem, rfl⟩ ?_
    rintro _ ⟨x, rfl⟩ i -
    exact ⟨_, rfl⟩
  unfold rekeyUnit
  split
  · rfl
  · dsimp only
    generalize (List.range 64).map _ = bytes
    obtain ⟨x, hx⟩ := hbytes (fun j => bytes.getD j 0) (List.range 64) (t2Base + 64 * i)
    rw [hx]

theorem devWb_frame (s : State) (a : Nat) (v : Byte) : devWb s a v = { s with mem := (devWb s a v).mem, dram := (devWb s a v).dram } := by
  unfold devWb t2Wb
  split
  · rw [rekeyUnit_frame]
    rfl
  · rfl

theorem devWb_low (h : a < t2Base) (s : State) (v : Byte) : devWb s a v = wb s a v := by
  unfold devWb isT2
  rw [if_neg (by simp; omega)]

theorem epWb_device (h : e.host = false) (s : State) (o : Nat) (v : Byte) : epWb s e o v = devWb s (e.base + o) v :=
  if_neg (by simp [h])

theorem epWb_host (h : e.host = true) (s : State) (o : Nat) (v : Byte) : epWb s e o v = hwb s e.fn (e.base + o) v := if_pos h

/-! ### A destination made undefined -/

/-- A free value at offset `o` of an endpoint. -/
def scrambleAt (e : Ep) (s : State) (o : Nat) : State := epWb (fresh s).2 e o (BitVec.ofNat 8 (fresh s).1)

/-- The offsets a move writes. -/
def dstOffs (s : State) (d : Desc) (src : Ep) : List Nat :=
  if isTo d then List.range (8 * operandWords d)
  else if isCompact d then List.range (needDst d)
  else if isNarrow d then List.range (rawBytes s src d)
  else (List.range (descBytes d)).map (dstOff d)

theorem scrambleDst_eq (s : State) (d : Desc) (src dst : Ep) :
    scrambleDst s d src dst = ((dstOffs s d src).filter fun o => decide (o < dst.room)).foldl (scrambleAt dst) s := rfl

theorem scrambleAt_device (h : dst.host = false) (s : State) (o : Nat) :
    ∃ x y, scrambleAt dst s o = { s with mem := x, dram := y, free := s.free + 1 } := by
  rw [scrambleAt, epWb_device h]
  exact ⟨_, _, devWb_frame (fresh s).2 _ _⟩

theorem scrambleAt_host (h : dst.host = true) (s : State) (o : Nat) :
    ∃ x, scrambleAt dst s o = { s with host := x, free := s.free + 1 } := by
  rw [scrambleAt, epWb_host h]
  exact ⟨_, rfl⟩

/-- Memories, or host memory, and free values alone differ. -/
theorem scrambled_device (h : dst.host = false) (l : List Nat) (s : State) :
    ∃ x y z, l.foldl (scrambleAt dst) s = { s with mem := x, dram := y, free := z } := by
  refine List.foldlRecOn (motive := fun t => ∃ x y z, t = ({ s with mem := x, dram := y, free := z } : State)) l _
    ⟨s.mem, s.dram, s.free, rfl⟩ ?_
  rintro _ ⟨x, y, z, rfl⟩ o -
  obtain ⟨x', y', h'⟩ := scrambleAt_device h { s with mem := x, dram := y, free := z } o
  exact ⟨x', y', z + 1, h'⟩

theorem scrambled_host (h : dst.host = true) (l : List Nat) (s : State) :
    ∃ x z, l.foldl (scrambleAt dst) s = { s with host := x, free := z } := by
  refine List.foldlRecOn (motive := fun t => ∃ x z, t = ({ s with host := x, free := z } : State)) l _ ⟨s.host, s.free, rfl⟩ ?_
  rintro _ ⟨x, z, rfl⟩ o -
  obtain ⟨x', h'⟩ := scrambleAt_host h { s with host := x, free := z } o
  exact ⟨x', z + 1, h'⟩

theorem dstOff_oneRow (h : oneRow d) {k : Nat} (hk : k < d.e0) : dstOff d k = k := by
  obtain ⟨h1, h2, h3⟩ := h
  have hrow : k / d.e0 = 0 := Nat.div_eq_of_lt hk
  simp [dstOff, descOff, h1, h2, Nat.mod_eq_of_lt hk, hrow]

theorem plainMove_kind (h : plainMove d = true) : isTo d = false ∧ isFrom d = false ∧ isNarrow d = false ∧ isCompact d = false ∧
    isExpand d = false := by
  simp only [plainMove, isCopy, isFill, Bool.and_eq_true, Bool.or_eq_true, beq_iff_eq] at h
  obtain ⟨hx, hc⟩ := h
  simp only [isTo, isFrom, isNarrow, isCompact, isExpand, beq_eq_false_iff_ne]
  omega

theorem descBytes_oneRow (h : oneRow d) : descBytes d = d.e0 := by
  obtain ⟨h1, h2, h3⟩ := h
  simp [descBytes, h1, h2, h3]

/-- A plain move of one row writes its row. -/
theorem dstOffs_plain (hp : plainMove d = true) (h : oneRow d) (ho : o ∈ dstOffs s d src) : o < d.e0 := by
  obtain ⟨hto, -, hnarrow, hcompact, -⟩ := plainMove_kind hp
  simp only [dstOffs, hto, hnarrow, hcompact, descBytes_oneRow h, Bool.false_eq_true, if_false, List.mem_map, List.mem_range] at ho
  obtain ⟨k, hk, rfl⟩ := ho
  rwa [dstOff_oneRow h hk]

theorem scrambled_bytes {len : Nat} (h : dst.host = false) {l : List Nat} (hl : ∀ o ∈ l, o < len) (hlow : dst.base + len ≤ t2Base) :
    sameMemBut s (l.foldl (scrambleAt dst) s) dst.base len := by
  intro x hx
  refine List.foldlRecOn (motive := fun t => rb t x = rb s x) l _ rfl fun t ht o ho => ?_
  have hlen := hl o ho
  rw [scrambleAt, epWb_device h, devWb_low (by omega), rb_wb_other (by omega)]
  exact ht

theorem scrambled_hostBytes {len : Nat} (h : dst.host = true) {l : List Nat} (hl : ∀ o ∈ l, o < len ∧ dst.base + o < 2 ^ 64) :
    sameHostBut s (l.foldl (scrambleAt dst) s) dst.fn dst.base len := by
  intro g x hg hx hout
  refine List.foldlRecOn (motive := fun t => hrb t g x = hrb s g x) l _ rfl fun t ht o ho => ?_
  obtain ⟨hlen, hroom⟩ := hl o ho
  rw [scrambleAt, epWb_host h, hrb_hwb_other]
  · exact ht
  · intro hat
    rw [Nat.mod_eq_of_lt hx, Nat.mod_eq_of_lt hroom] at hat
    have hfn : g = dst.fn := by omega
    refine hout ⟨hfn, ?_⟩
    have hx' : x = dst.base + o := by omega
    rw [Nat.mod_eq_of_lt (by omega : dst.base < 2 ^ 64), hx', show dst.base + o + (2 ^ 64 - dst.base) = o + 2 ^ 64 by omega,
      Nat.add_mod_right, Nat.mod_eq_of_lt (by omega)]
    exact hlen

/-! ### Queues -/

theorem moveQueue_setMoveQueue (s : State) (n q : Nat) (l : List Move) : moveQueue (setMoveQueue s n q l) n q = l := tget_tput_same ..

theorem setMoveQueue_frame (s : State) (n q : Nat) (l : List Move) :
    setMoveQueue s n q l = { s with moves := (setMoveQueue s n q l).moves, regs := (setMoveQueue s n q l).regs } := rfl

theorem moveQueue_congr (h : t.moves = s.moves) (n q : Nat) : moveQueue t n q = moveQueue s n q := by rw [moveQueue, h]; rfl

/-! ### Allowed moves -/

theorem moveAllowed_ends {e : Ep × Ep} (h : moveAllowed s n m = some e) :
    moveCheck s n (moveParty s n m).1 (moveParty s n m).2.1 m.desc (moveParty s n m).2.2 = none ∧ moveEnds s n m = some e ∧
      moveRefused s (moveRequester s n m) m.desc e.1 e.2 = none := by
  unfold moveAllowed at h
  dsimp only at h
  split at h
  · split_ifs at h with hr
    obtain rfl := Option.some.inj h
    exact ⟨by assumption, by assumption, Option.isNone_iff_eq_none.1 hr⟩
  · contradiction

theorem moveAllowed_dst {e : Ep × Ep} (h : moveAllowed s n m = some e) :
    endpoint s n (moveParty s n m).1 (moveParty s n m).2.1 m.desc.dstTier m.desc.dst = some e.2 := by
  obtain ⟨-, hends, -⟩ := moveAllowed_ends h
  unfold moveEnds at hends
  dsimp only at hends
  split at hends
  · obtain rfl := Option.some.inj hends
    assumption
  · contradiction

/-- Only a spill or a packet may write host memory (R255). -/
theorem moveAllowed_device {e : Ep × Ep} (h : moveAllowed s n m = some e) (hspill : (moveParty s n m).2.2 = false) : e.2.host = false := by
  obtain ⟨hcheck, -, -⟩ := moveAllowed_ends h
  have hbad : descBad m.desc false = false := by
    rw [hspill, moveCheck] at hcheck
    by_contra hb
    rw [if_pos (by simpa using hb)] at hcheck
    exact nomatch hcheck
  have htier : m.desc.dstTier ≠ 4 := by
    intro h4
    simp only [descBad, h4, Bool.or_eq_false_iff] at hbad
    obtain ⟨⟨-, hkind⟩, -⟩ := hbad
    split_ifs at hkind
    all_goals simp at hkind
  exact Bool.eq_false_iff.2 fun hh => htier ((endpoint_host (moveAllowed_dst h)).1.1 hh)

end Sys2Proof.Machine
end

section
/-!
O19: MOVE, TENSOR_MOVE and TENSOR_FILL put a move at the end of its queue (R31, R33, R34, R252, R412, R413).
-/
namespace Sys2Proof.Machine
open Reg Laws

variable {s t u : State} {n q : Nat} {m : Move} {e : Ep × Ep}

/-! ### What the checks of a move look at -/

/-- No check of a move looks at threads, cores, clusters' engines or free values. -/
theorem moveAllowed_unitState (s : State) (c : List (Nat × Cluster)) (k : List (Nat × Core)) (x : List (Nat × Thread)) (f n : Nat)
    (m : Move) : moveAllowed { s with clusters := c, cores := k, threads := x, free := f } n m = moveAllowed s n m := rfl

theorem undefineDst_none (h : moveAllowed s n m = none) : undefineDst s n m = s := by
  unfold undefineDst
  rw [h]

theorem undefineDst_some (h : moveAllowed s n m = some e) : undefineDst s n m =
    ((dstOffs s m.desc e.1).filter fun o => decide (o < e.2.room)).foldl (scrambleAt e.2) s := by
  unfold undefineDst
  rw [h]
  exact scrambleDst_eq ..

theorem undefineDst_frame (s : State) (n : Nat) (m : Move) :
    ∃ x y z f, undefineDst s n m = { s with mem := x, dram := y, host := z, free := f } := by
  cases h : moveAllowed s n m with
  | none => exact ⟨s.mem, s.dram, s.host, s.free, undefineDst_none h⟩
  | some e =>
    rw [undefineDst_some h]
    cases hh : e.2.host with
    | false =>
      obtain ⟨x, y, f, hx⟩ := scrambled_device hh _ s
      exact ⟨x, y, s.host, f, hx⟩
    | true =>
      obtain ⟨z, f, hx⟩ := scrambled_host hh _ s
      exact ⟨s.mem, s.dram, z, f, hx⟩

theorem undefineDst_device (h : moveAllowed s n m = some e) (hh : e.2.host = false) : (undefineDst s n m).host = s.host := by
  obtain ⟨x, y, f, hx⟩ := scrambled_device hh ((dstOffs s m.desc e.1).filter fun o => decide (o < e.2.room)) s
  rw [undefineDst_some h, hx]

theorem undefineDst_row (h : moveAllowed s n m = some e) (hh : e.2.host = false) (hp : plainMove m.desc = true) (h1 : oneRow m.desc)
    (hlow : e.2.base + m.desc.e0 ≤ t2Base) : sameMemBut s (undefineDst s n m) e.2.base m.desc.e0 := by
  rw [undefineDst_some h]
  exact scrambled_bytes hh (fun o ho => dstOffs_plain hp h1 (List.mem_of_mem_filter ho)) hlow

/-- A move to host memory leaves the device's memories, and of host memory a row changes its bytes alone. -/
theorem undefineDst_host (h : moveAllowed s n m = some e) (hh : e.2.host = true) : (undefineDst s n m).mem = s.mem ∧
    (plainMove m.desc = true → oneRow m.desc → sameHostBut s (undefineDst s n m) e.2.fn e.2.base m.desc.e0) := by
  obtain ⟨z, f, hx⟩ := scrambled_host hh ((dstOffs s m.desc e.1).filter fun o => decide (o < e.2.room)) s
  obtain ⟨htier, hroom⟩ := endpoint_host (moveAllowed_dst h)
  rw [undefineDst_some h]
  refine ⟨by rw [hx], fun hp h1 => scrambled_hostBytes hh fun o ho => ?_⟩
  have ho' : o < e.2.room := of_decide_eq_true (List.mem_filter.1 ho).2
  exact ⟨dstOffs_plain hp h1 (List.mem_of_mem_filter ho), by have := hroom (htier.1 hh); omega⟩

/-! ### A move in its queue -/

theorem queueMove_frame (s : State) (n q : Nat) (m : Move) : ∃ x y, queueMove s n q m = { undefineDst s n m with moves := x, regs := y } :=
  ⟨_, _, setMoveQueue_frame ..⟩

theorem queueMove_queued (s : State) (n q : Nat) (m : Move) : moveQueue (queueMove s n q m) n q = moveQueue s n q ++ [m] := by
  obtain ⟨x, y, z, f, hframe⟩ := undefineDst_frame s n m
  have hq : moveQueue (undefineDst s n m) n q = moveQueue s n q := moveQueue_congr (by rw [hframe]) n q
  rw [queueMove, moveQueue_setMoveQueue, hq]

theorem askFlash_frame (s : State) (n : Nat) (m : Move) : ∃ x, askFlash s n m = { s with flash := x } := by
  unfold askFlash
  split
  · split
    · refine List.foldlRecOn (motive := fun t => ∃ x, t = ({ s with flash := x } : State)) _ _ ⟨s.flash, rfl⟩ ?_
      rintro _ ⟨x, rfl⟩ i -
      exact ⟨_, rfl⟩
    · exact ⟨s.flash, rfl⟩
  · exact ⟨s.flash, rfl⟩

section
variable {t : ThreadId} (h : canIssue s (tno t) = true)
include h

theorem moveOp_queues (d : Desc) (tag : Fin 8) (hroom : (moveQueue s t.cluster t.core).length < 8) :
    let m : Move := { desc := d, owner := .thread (tno t) tag }
    completes (.moveOp t d tag) s fun u =>
      moveQueue u t.cluster t.core = moveQueue s t.cluster t.core ++ [m] ∧ tagOf u (tno t) tag = .pendMove ∧ u.host = s.host ∧
      (moveAllowed s t.cluster m = none → u.mem = s.mem) ∧
      (∀ a b, moveAllowed s t.cluster m = some (a, b) → plainMove d = true → oneRow d → b.base + d.e0 ≤ 0x62000000 →
        sameMemBut s u b.base d.e0) := by
  intro m
  obtain ⟨v, hv⟩ : ∃ v, setTag (advancePc s (tno t) false) (tno t) tag .pendMove = v := ⟨_, rfl⟩
  have hexec : exec (.moveOp t d tag) s = .next (askFlash (queueMove v t.cluster t.core m) t.cluster m) := by
    change execMoveOp t d tag s = _
    rw [execMoveOp, if_neg (by simp [h]), if_neg (by omega), hv]
  have htag : tagOf v (tno t) tag = .pendMove := by rw [← hv, tagOf_setTag_same]
  obtain ⟨c, x, f, hframe⟩ : ∃ c x f, v = { s with cores := c, threads := x, free := f } := ⟨_, _, _, hv.symm⟩
  have hallowed : moveAllowed v t.cluster m = moveAllowed s t.cluster m := by
    rw [hframe]
    exact moveAllowed_unitState ..
  obtain ⟨g, hask⟩ := askFlash_frame (queueMove v t.cluster t.core m) t.cluster m
  obtain ⟨y, r, hqueue⟩ := queueMove_frame v t.cluster t.core m
  obtain ⟨a, b, c', f', hdst⟩ := undefineDst_frame v t.cluster m
  have hmem : (askFlash (queueMove v t.cluster t.core m) t.cluster m).mem = (undefineDst v t.cluster m).mem := by rw [hask, hqueue]
  have hvmem : v.mem = s.mem := by rw [hframe]
  refine ⟨_, hexec, ?_, ?_, ?_, fun hnone => ?_, fun a b hab hp h1 hlow => ?_⟩
  · rw [moveQueue_congr (s := queueMove v t.cluster t.core m) (by rw [hask]), queueMove_queued, moveQueue_congr (s := s) (by rw [hframe])]
  · rw [tagOf_congr (s := v) (by rw [hask, hqueue, hdst]), htag]
  · have hhost : (undefineDst v t.cluster m).host = v.host := by
      cases he : moveAllowed v t.cluster m with
      | none => rw [undefineDst_none he]
      | some e => exact undefineDst_device he (moveAllowed_device he rfl)
    rw [hask, hqueue, hhost, hframe]
  · rw [hmem, undefineDst_none (hallowed.trans hnone), hvmem]
  · have hrow := undefineDst_row (hallowed.trans hab) (moveAllowed_device (hallowed.trans hab) rfl) hp h1 (hlow.trans (by decide))
    intro z hz
    rw [rb, hmem, ← rb, hrow z hz, rb, hvmem, rb]

theorem moveOp_waits (d : Desc) (tag : Fin 8) (hfull : 8 ≤ (moveQueue s t.cluster t.core).length) :
    completes (.moveOp t d tag) s fun u => thrState u (tno t) = 2 ∧ (thr u (tno t)).wait = .moveQueue ∧
      u = { s with threads := u.threads, regs := u.regs } ∧ sameRegsBut s u [thrField (tno t)] := by
  refine ⟨setThrState s (tno t) 2 .moveQueue, ?_, thrState_canIssue h .., setThrState_wait .., setThrState_frame ..,
    setThrState_regs _ _ _ _⟩
  change execMoveOp t d tag s = _
  rw [execMoveOp, if_neg (by simp [h]), if_pos hfull]

end

/-! ### Packets -/

theorem cluPart_of_consumed (h : consumed s t) (n : Nat) : cluPart t n = cluPart s n := by
  have hmap : rd t (CLU_MAP_PART n) = rd s (CLU_MAP_PART n) ∧ rd t (CLU_MAP_LOGICAL n) = rd s (CLU_MAP_LOGICAL n) ∧
      rd t (CLU_MAP_MAPPED n) = rd s (CLU_MAP_MAPPED n) := by
    refine ⟨rd_of_consumed h ?_, rd_of_consumed h ?_, rd_of_consumed h ?_⟩
    all_goals simp only [CLU_MAP_PART, CLU_MAP_LOGICAL, CLU_MAP_MAPPED]; omega
  obtain ⟨hpart, hlogical, hmapped⟩ := hmap
  rw [cluPart, cluPart, isSet, isSet, hpart, hlogical, hmapped, consumed_parts h]

/-- An accepted packet's move stands last in the first Plinth queue. -/
theorem tensorAct_queues {h : Pkt} {d : Desc} {op : Nat} (hok : hostDescOk d = true)
    (hfind : (List.range 34).find? (fun n => cluPart s n == h.part) = some n) (hroom : (moveQueue s n 64).length < 8)
    (hwait : tget [] s.moveWait n = []) (hcheck : moveCheck (taken s h op 0).2 n (some h.part) h.fn d true = none) :
    let p := taken s h op 0
    let m : Move := { desc := d, owner := .packet p.1 }
    tensorAct d true p.1 p.2 = queueMove p.2 n 64 m := by
  intro p m
  have hc : consumed s p.2 := taken_consumed s h op 0
  have hfind' : (List.range 34).find? (fun n => cluPart p.2 n == p.1.part) = some n := by
    simp only [cluPart_of_consumed hc]
    exact hfind
  have hplace : plinthQueue p.2 n = some 64 := by
    have hlen : (moveQueue p.2 n 64).length < 8 := by rwa [moveQueue_congr (s := s) (by rw [hc.1])]
    simp [plinthQueue, hlen]
  have hnowait : tget [] p.2.moveWait n = [] := by rw [hc.1]; exact hwait
  unfold tensorAct
  rw [if_neg (by simp [hok]), hfind']
  dsimp only
  rw [show moveCheck p.2 n (some p.1.part) p.1.fn d true = none from hcheck]
  dsimp only
  unfold queuePlinth
  dsimp only
  rw [hnowait, List.isEmpty_nil, if_pos rfl, hplace]

/-- What an accepted packet's move leaves. -/
theorem packetMove_queued (s : State) (h : Pkt) (d : Desc) (op n : Nat) :
    let p := taken s h op 0
    let m : Move := { desc := d, owner := .packet p.1 }
    let u := queueMove p.2 n 64 m
    moveQueue u n 64 = moveQueue s n 64 ++ [m] ∧ p.1 ∈ u.hif.cmds ∧
      (moveAllowed p.2 n m = none → u.mem = s.mem ∧ u.host = s.host) ∧
      (∀ a b, moveAllowed p.2 n m = some (a, b) → (b.host = false → u.host = s.host) ∧
        (b.host = true → u.mem = s.mem ∧ (plainMove d = true → oneRow d → sameHostBut s u b.fn b.base d.e0))) := by
  intro p m u
  have hc : consumed s p.2 := taken_consumed s h op 0
  obtain ⟨x', y', z', f', hdst⟩ := undefineDst_frame p.2 n m
  have hmem : u.mem = (undefineDst p.2 n m).mem := rfl
  have hhost : u.host = (undefineDst p.2 n m).host := rfl
  have hhif : u.hif = p.2.hif := by
    change (undefineDst p.2 n m).hif = _
    rw [hdst]
  refine ⟨?_, ?_, fun hnone => ?_, fun a b hab => ⟨fun hb => ?_, fun hb => ?_⟩⟩
  · rw [queueMove_queued, moveQueue_congr (s := s) (by rw [hc.1])]
  · rw [hhif]
    exact List.mem_append_right _ (List.mem_singleton.2 rfl)
  · rw [hmem, hhost, undefineDst_none hnone]
    exact ⟨consumed_mem hc, consumed_host hc⟩
  · rw [hhost, undefineDst_device hab hb, consumed_host hc]
  · obtain ⟨hmem', hrow⟩ := undefineDst_host hab hb
    refine ⟨by rw [hmem, hmem', consumed_mem hc], fun hp h1 g z hg hz hout => ?_⟩
    rw [hrb, hhost, ← hrb, hrow hp h1 g z hg hz hout, hrb, consumed_host hc, hrb]

end Sys2Proof.Machine

open Sys2Proof Sys2Proof.Machine Sys2Proof.Machine.Reg

/-- Settles O19: each command is one move put in a queue, which makes its destination undefined. -/
theorem movesAreQueued : Obligations.MovesAreQueued := by
  refine ⟨fun s t d tag h => ⟨moveOp_queues h d tag, moveOp_waits h d tag⟩, fun s h d n => ?_⟩
  intro queued hok hfind hroom hwait
  refine ⟨?_, ?_⟩
  · intro p hacc hcheck
    refine ⟨_, ?_, packetMove_queued s h d 0x40 n⟩
    change Host.Outcome.next (withPkt s h 0x40 0 .owned false (tensorAct d true)) = _
    rw [withPkt_accepted hacc, tensorAct_queues hok hfind hroom hwait hcheck]
  · intro p hacc hfill hcheck
    refine ⟨_, ?_, packetMove_queued s h d 0x41 n⟩
    change Host.Outcome.next (withPkt s h 0x41 0 .owned false (tensorAct d (isFill d))) = _
    rw [withPkt_accepted hacc, hfill, tensorAct_queues hok hfind hroom hwait hcheck]
end

section
/-!
What a thread fault leaves (R36, R65): the queues of moves, every tag, and every register field at bit 8, for the fields that a fault
writes, whatever the number of the cluster, lie at other bits.
-/
namespace Sys2Proof.Machine
open Reg Laws

variable {s t u : State} {a n m c w k cn : Nat} {fault : State → Nat → Nat → Bool → State}

/-- Queues of moves, tags and the fields at bit 8 are as they were. -/
structure FaultSide (s u : State) : Prop where
  moves : u.moves = s.moves
  tags : ∀ j, (thr u j).tags = (thr s j).tags
  fields : ∀ f : RegField, f.lo = 8 → rd u f = rd s f

theorem FaultSide.refl (s : State) : FaultSide s s := ⟨rfl, fun _ => rfl, fun _ _ => rfl⟩

theorem FaultSide.trans (h : FaultSide s t) (h' : FaultSide t u) : FaultSide s u :=
  ⟨h'.moves.trans h.moves, fun j => (h'.tags j).trans (h.tags j), fun f hf => (h'.fields f hf).trans (h.fields f hf)⟩

theorem FaultSide.ite {p : Prop} [Decidable p] (ht : FaultSide s t) (hu : FaultSide s u) : FaultSide s (if p then t else u) := by
  split
  exacts [ht, hu]

theorem faultSide_foldl {α : Type} {g : State → α → State} (hg : ∀ s x, FaultSide s (g s x)) (l : List α) (s : State) :
    FaultSide s (l.foldl g s) :=
  List.foldlRecOn (motive := FaultSide s) l g (FaultSide.refl s) fun t ht x _ => ht.trans (hg t x)

theorem FaultSide.of_same (hm : u.moves = s.moves) (ht : u.threads = s.threads) (hr : u.regs = s.regs) : FaultSide s u :=
  ⟨hm, fun j => by rw [thr, ht]; rfl, fun f _ => rd_congr hr f⟩

/-- A write of a field at another bit. -/
theorem FaultSide.wr {g : RegField} (h : FaultSide s t) (hg : g.lo < 32 ∧ g.lo ≠ 8) (v : Nat) : FaultSide s (wr t g v) := by
  refine h.trans ⟨rfl, fun _ => rfl, fun f hf => rd_wr_other (fun e => ?_) v⟩
  obtain ⟨hlt, hne⟩ := hg
  rw [RegField.key, RegField.key, hf] at e
  omega

theorem FaultSide.bump {g : RegField} (h : FaultSide s t) (hg : g.lo < 32 ∧ g.lo ≠ 8) (v : Nat) : FaultSide s (bump t g v) := h.wr hg _

theorem faultSide_setThr {x : Thread} (h : x.tags = (thr s k).tags) : FaultSide s (setThr s k x) := by
  refine ⟨rfl, fun j => ?_, fun _ _ => rfl⟩
  by_cases hj : j = k
  · rw [hj, thr_setThr_same, h]
  · rw [thr_setThr_other hj]

theorem FaultSide.of_passSide (h : passSide s u) : FaultSide s u := .of_same (by rw [h.1]) (by rw [h.1]) (by rw [h.1])

theorem FaultSide.of_scrubSide (h : scrubSide s u) : FaultSide s u := by
  obtain ⟨hframe, -, hregs⟩ := h
  refine ⟨by rw [hframe], fun j => by rw [hframe]; rfl, fun f hf => hregs f fun i => ?_⟩
  simp only [RegField.key, CLU_SCRUB_STAT_SWEEPS, CLU_SCRUB_STAT_MAX_SWEEP, hf]
  omega

theorem thrField_bit (k : Nat) : (thrField k).lo < 32 ∧ (thrField k).lo ≠ 8 := by
  simp only [thrField]
  omega

theorem Woken.faultSide {w : Wait} {p : Nat → Prop} (h : Woken w p s u) : FaultSide s u := by
  refine ⟨by rw [h.frame], h.tags, fun f hf => h.regs f fun j e => ?_⟩
  obtain ⟨hlt, hne⟩ := thrField_bit j
  rw [RegField.key, RegField.key, hf] at e
  omega

theorem setThrState_faultSide (s : State) (k st : Nat) (w : Wait) : FaultSide s (setThrState s k st w) := by
  have hwait (r : Nat) : FaultSide s (setThr s k { thr s k with wait := w, resume := r }) := faultSide_setThr rfl
  exact .ite (hwait _) ((hwait _).wr (thrField_bit k) _)

/-! ### Errors met -/

theorem trace_faultSide (s : State) (g p : Nat) : FaultSide s (trace s g p) := by
  refine ⟨by rw [trace_frame], fun j => by rw [trace_frame]; rfl, fun f hf => trace_regs s g p f fun hmem => ?_⟩
  simp only [RegField.key, List.map_cons, List.map_nil, List.mem_cons, List.not_mem_nil, or_false, FLT_LOG_TRACE_TR_DROP,
    FLT_EVT_STAT_TR_DROP, hf] at hmem
  omega

theorem report_faultSide (s : State) (dom cls status part sub detail : Nat) : FaultSide s (report s dom cls status part sub detail) := by
  have htrace := trace_faultSide s 6 part
  have hcount : FaultSide s (Machine.bump (trace s 6 part) (FLT_DOM_CNT_REPORTS dom) 1) := htrace.bump (by simp [FLT_DOM_CNT_REPORTS]) 1
  unfold report
  dsimp only
  split
  · exact htrace.bump (by simp [FLT_DOM_CNT_CORR]) 1
  · split
    · exact hcount.trans (.of_same rfl rfl rfl)
    · exact hcount.trans (.of_same rfl rfl rfl)

theorem eccCapture_faultSide (s : State) (n m c w : Nat) (ue : Bool) : FaultSide s (eccCapture s n m c w ue) := by
  refine .ite ?_ (.refl s)
  have h := ((FaultSide.refl s).wr (g := CLU_ECC_LAST_VALID n) (by simp [CLU_ECC_LAST_VALID]) 1).wr (g := CLU_ECC_LAST_UE n)
    (by simp [CLU_ECC_LAST_UE]) (b2n ue)
  exact ((((h.wr (by simp [CLU_ECC_LAST_MEM]) _).wr (by simp [CLU_ECC_LAST_CORE]) _).wr (by simp [CLU_ECC_LAST_BANK]) _).wr
    (by simp [CLU_ECC_LAST_WORD]) _).wr (by simp [CLU_ECC_TIME_TIME]) _

theorem eccHistory_faultSide (s : State) (n m c w : Nat) (ue : Bool) : FaultSide s (eccHistory s n m c w ue) := by
  obtain ⟨k, h, -⟩ := eccHistory_frame s n m c w ue
  rw [h]
  exact .of_same rfl rfl rfl

theorem eccDetect_faultSide (s : State) (n m c w : Nat) (ue : Bool) : FaultSide s (eccDetect s n m c w ue) := by
  have hcount : FaultSide s (bump s (if ue then CLU_ECC_CNT_UE n m else CLU_ECC_CNT_CE n m) 1) := by
    cases ue
    · exact (FaultSide.refl s).bump (by simp [CLU_ECC_CNT_CE]) 1
    · exact (FaultSide.refl s).bump (by simp [CLU_ECC_CNT_UE]) 1
  have hcapture := hcount.trans (eccCapture_faultSide _ n m c w ue)
  have hpend := FaultSide.ite (p := ue = true) (hcapture.wr (g := CLU_STAT_UE_PEND n) (by simp [CLU_STAT_UE_PEND]) 1) hcapture
  exact (hpend.trans (.ite (.refl _) (eccHistory_faultSide ..))).trans (report_faultSide ..)

theorem readWord_faultSide (s : State) (n m c w : Nat) : FaultSide s (readWord s n m c w).1 := by
  obtain ⟨-, -, h⟩ | ⟨-, -, h⟩ | ⟨-, h⟩ := readWord_cases s n m c w
  · rw [h]
    exact .refl s
  · rw [h]
    exact eccDetect_faultSide s n m c w false
  · rw [h]
    exact eccDetect_faultSide s n m c w true

theorem mergeWord_faultSide (s : State) (a : Nat) : FaultSide s (mergeWord s a) := by
  unfold mergeWord
  split
  · rw [setPoison_frame]
    exact (eccDetect_faultSide ..).trans (.of_same rfl rfl rfl)
  · exact (eccDetect_faultSide s _ _ _ _ false).trans (.of_same rfl rfl rfl)
  · exact .refl s

theorem runAccesses_faultSide (cn : Nat) (l : List Access) (s : State) : FaultSide s (runAccesses cn l s).1 := by
  induction l generalizing s with
  | nil => exact .refl s
  | cons a l ih =>
    cases a with
    | read m w =>
      have hread := readWord_faultSide s (cn / 64) m (cn % 64) w
      unfold runAccesses
      dsimp only
      split
      · exact hread
      · exact hread.trans (ih _)
    | merge m w =>
      unfold runAccesses
      exact ((mergeWord_faultSide ..).trans (.of_scrubSide (portWrote_side ..))).trans (ih _)
    | outside =>
      unfold runAccesses
      exact .refl s

theorem readWords_faultSide (n : Nat) (l : List (Nat × Nat × Nat)) (s : State) : FaultSide s (readWords n l s).1 := by
  induction l generalizing s with
  | nil => exact .refl s
  | cons x l ih =>
    have hread := readWord_faultSide s n x.1 x.2.1 x.2.2
    unfold readWords
    dsimp only
    split
    · exact hread
    · exact hread.trans (ih _)

/-! ### Stopped threads and abandoned instructions -/

theorem stopOthers_faultSide (s : State) (l : List Nat) : FaultSide s (stopOthers s l) := by
  refine faultSide_foldl (fun s k => ?_) l s
  dsimp only
  split
  · exact .refl s
  · split
    · exact (setThrState_faultSide ..).trans (faultSide_setThr rfl)
    · exact (setThrState_faultSide ..).trans (faultSide_setThr rfl)
    · exact setThrState_faultSide ..

theorem wakeCore_faultSide {v : Wait} (hv : v ≠ .none) (s : State) (cn : Nat) : FaultSide s (wakeCore s cn v) := (wakeCore_woken hv s cn).faultSide

theorem scrambleDest_faultSide (s : State) (cn : Nat) (x : ArrInstr) : FaultSide s (scrambleDest s cn x) :=
  .of_passSide (passSide_trans (scramblePlaces_side ..) (scramblePlaces_side ..))

theorem setCore_faultSide (s : State) (cn : Nat) (c : Core) : FaultSide s (setCore s cn c) := .of_same rfl rfl rfl

theorem abandonWhere_faultSide (s : State) (cn : Nat) (p : ArrInstr → Bool) : FaultSide s (abandonWhere s cn p) := by
  unfold abandonWhere
  have hcore (c : Core) (l : List ArrInstr) : FaultSide s (l.foldl (fun s x => scrambleDest s cn x) (setCore s cn c)) :=
    (setCore_faultSide ..).trans (faultSide_foldl (fun s x => scrambleDest_faultSide s cn x) ..)
  exact .ite ((hcore _ _).trans (wakeCore_faultSide (by decide) ..)) (.refl s)

theorem settleCoreBarrier_faultSide (s : State) (cn : Nat) : FaultSide s (settleCoreBarrier s cn) := by
  obtain ⟨p, h⟩ := settleCoreBarrier_cases s cn
  exact h.faultSide

theorem settleCluster_faultSide (s : State) (n : Nat) : FaultSide s (settleCluster s n) :=
  .ite ((FaultSide.refl s).wr (by simp [CLU_STAT_STATE]) _)
    (.ite (((FaultSide.refl s).wr (by simp [CLU_STAT_STATE]) _).wr (by simp [CLU_CTRL_QUIESCE]) _) (.refl s))

theorem hostSide_faultSide (h : hostSide s u) : FaultSide s u := .of_same (by rw [h]) (by rw [h]) (by rw [h])

theorem countFate_faultSide (s : State) (c fate : Nat) : FaultSide s (countFate s c fate) := by
  have hcount : FaultSide s (if fate = 0 then s
      else if fate = 1 ∨ fate = 3 then bump s (CAM_CTX_DROP_DAMAGED c) 1
      else if fate = 2 then bump s (CAM_CTX_DROP_LATE c) 1
      else if fate = 4 then bump s (CAM_CTX_MISC_SUPERSEDED c) 1
      else bump s (CAM_CTX_MISC_OTHER c) 1) :=
    .ite (.refl s) (.ite ((FaultSide.refl s).bump (by simp [CAM_CTX_DROP_DAMAGED]) 1)
      (.ite ((FaultSide.refl s).bump (by simp [CAM_CTX_DROP_LATE]) 1)
        (.ite ((FaultSide.refl s).bump (by simp [CAM_CTX_MISC_SUPERSEDED]) 1) ((FaultSide.refl s).bump (by simp [CAM_CTX_MISC_OTHER]) 1))))
  exact .ite (hcount.wr (by decide) 1) hcount

theorem dropFrame_faultSide (s : State) (c no fate : Nat) : FaultSide s (dropFrame s c no fate) := by
  unfold dropFrame
  split
  · next f _ =>
    have hctx (x : Ctx) : FaultSide s (setCtx s c x) := .of_same rfl rfl rfl
    unfold decideFrame
    exact ((hctx _).trans (countFate_faultSide ..)).trans (hostSide_faultSide (postRec_hostSide ..))
  · exact .refl s

theorem faultOnce_faultSide (s : State) (k status : Nat) (reported : Bool) : FaultSide s (faultOnce s k status reported) := by
  unfold faultOnce
  extract_lets n c t s1 s2 s3
  have hthr : FaultSide s (setThr s k { t with wait := .none }) := faultSide_setThr rfl
  have h1 : FaultSide s s1 := hthr.wr (thrField_bit k) 6
  have h2 : FaultSide s s2 := h1.wr (by simp [CLU_CORE_FAULT_FAULT]) _
  have h3 : FaultSide s s3 := .ite h2 (h2.trans (report_faultSide ..))
  clear_value s3
  split
  · exact ((h3.trans (abandonWhere_faultSide ..)).trans (settleCoreBarrier_faultSide ..)).trans (settleCluster_faultSide ..)
  · next id w _ =>
    extract_lets cores s4 s5 s6 s7 s8
    have h4 : FaultSide s s4 := h3.trans (.of_same rfl rfl rfl)
    have h5 : FaultSide s s5 := h4.trans (stopOthers_faultSide ..)
    have h6 : FaultSide s s6 := h5.trans (faultSide_foldl (fun s cn => abandonWhere_faultSide s cn _) ..)
    have h7 : FaultSide s s7 := h6.trans (faultSide_foldl settleCoreBarrier_faultSide ..)
    have h8 : FaultSide s s8 := h7.trans (faultSide_foldl settleCluster_faultSide ..)
    clear_value s8
    split
    · exact h8.trans (dropFrame_faultSide ..)
    · exact h8.trans (.of_same rfl rfl rfl)
    · exact h8

/-! ### The next instructions start -/

section
variable (hf : ∀ t k st r, FaultSide t (fault t k st r))
include hf

theorem startWith_faultSide (s : State) (cn : Nat) : FaultSide s (startWith fault s cn) := by
  have hbegin (s : State) (x : ArrInstr) : FaultSide s (beginInstr s cn x) := .of_same rfl rfl rfl
  unfold startWith
  dsimp only
  split
  · exact .refl s
  · next x _ _ =>
    refine .ite (.refl s) (.ite ?_ (.ite ?_ (hbegin ..)))
    · have hread := readWords_faultSide (cn / 64) (((List.range 4).map fun i => bits x.word 12 12 + i).map fun w => (1, cn % 64, w)) s
      generalize readWords (cn / 64) _ s = z at *
      have hwords : FaultSide z.1 (((List.range 4).map fun i => bits x.word 12 12 + i).foldl (fun (e : List Nat × State) w =>
          if x.before.contains w then (e.1 ++ [(fresh e.2).1 % 2 ^ 64], (fresh e.2).2)
          else (e.1 ++ [rdWord e.2 (cn / 64) 1 (cn % 64) w], e.2)) ([], z.1)).2 := by
        refine List.foldlRecOn (motive := fun e : List Nat × State => FaultSide z.1 e.2) _ _ (.refl z.1) fun e he w _ => ?_
        split
        · exact he.trans (.of_same rfl rfl rfl)
        · exact he
      generalize List.foldl _ _ _ = r at *
      exact .ite (hread.trans (hf ..)) (.ite ((hread.trans hwords).trans (hf ..)) ((hread.trans hwords).trans (hbegin ..)))
    · have hread := readWords_faultSide (cn / 64) (((passes x).flatMap fun p => passWords (arrFields x.word) p.at').map (fun w => (0, cn % 64, w)) ++
        (scaleWords x).map fun w => (1, cn % 64, w)) s
      generalize readWords (cn / 64) _ s = z at *
      exact .ite (hread.trans (hf ..)) ((hread.trans (hbegin ..)).trans (setCore_faultSide ..))

omit hf in
theorem streamRow_side (x : ArrInstr) (cn i : Nat) (s : State) : passSide s (streamRow x cn i s) := by
  refine passSide_foldl (fun s c => ?_) _ s
  extract_lets pl old z v s1
  have hv : passSide s v.2 := by
    by_cases hx : x.hazard
    · simpa only [v, if_pos hx] using passSide_fresh s
    · simpa only [v, if_neg hx] using passSide_refl s
  have h1 : passSide s s1 := passSide_trans hv (addCounts_side ..)
  exact passSide_ite (passSide_trans h1 (passSide_trans (emitConvert_side ..) (storeBits_side ..))) h1

theorem pumpStream_faultSide (cn n : Nat) (s : State) : FaultSide s (pumpStream fault cn n s) := by
  induction n generalizing s with
  | zero => exact .refl s
  | succ n ih =>
    unfold pumpStream
    dsimp only
    split
    · exact .refl s
    · next x l _ =>
      have hread := runAccesses_faultSide cn (streamAccesses x x.rows) s
      have hrow := hread.trans (.of_passSide (streamRow_side x cn x.rows _))
      exact .ite (.refl s) (.ite (.refl s) (.ite (hread.trans (hf ..)) ((hrow.trans (setCore_faultSide ..)).trans (ih _))))

theorem pumpWith_faultSide (s : State) (cn : Nat) : FaultSide s (pumpWith fault s cn) := by
  unfold pumpWith
  split
  · exact .refl s
  · exact pumpStream_faultSide hf ..

end

theorem faultN_faultSide (n : Nat) (s : State) (k status : Nat) (reported : Bool) : FaultSide s (faultN n s k status reported) := by
  induction n generalizing s k status reported with
  | zero => exact faultOnce_faultSide ..
  | succ n ih =>
    exact (faultOnce_faultSide ..).trans (faultSide_foldl (fun s cn => (startWith_faultSide ih s cn).trans (pumpWith_faultSide ih _ cn)) ..)

theorem threadFault_faultSide (s : State) (k status : Nat) (reported : Bool) : FaultSide s (threadFault s k status reported) :=
  faultN_faultSide ..

end Sys2Proof.Machine
end

section
/-!
Segments of a move, its end and its timeout (R48, R252, R254, R479), and MovesWriteTheirDestination.
-/
namespace Sys2Proof.Machine
open Reg Laws

variable {s t u : State} {d : Desc} {m : Move} {l : List Move} {a b : Ep} {n q k tag status : Nat} {got : List Byte}

/-! ### A segment's source -/

/-- A word of a cluster memory lies where its cell says. -/
theorem memBase_of_cellOf {w i c x : Nat} (h : cellOf (8 * w) = some (n, i, c, x)) : memBase n i c + 8 * x = 8 * w := by
  unfold cellOf at h
  dsimp only at h
  split_ifs at h
  all_goals
    simp only [Option.some.injEq, Prod.mk.injEq] at h
    obtain ⟨rfl, rfl, rfl, rfl⟩ := h
    simp only [memBase, reduceIte, Nat.reduceEqDiff]
    omega

/-- A read of words without an error delivers them and does no more. -/
theorem readBytes_clean_words {l : List Nat} (h : ∀ x ∈ l, cleanWord s x) : readBytes l s = (s, false) := by
  unfold readBytes
  refine List.foldlRecOn (motive := fun z => z = (s, false)) _ _ rfl fun z hz w hw => ?_
  obtain ⟨x, hx, rfl⟩ := List.mem_map.1 (dedupNext_subset _ hw)
  have hclean : cleanWord s (8 * (x / 8)) := (cleanWord_of_word (by omega)).2 (h x hx)
  rw [hz]
  split
  · contradiction
  · split
    · next hcell => exact readWord_of_clean (by rwa [memBase_of_cellOf hcell])
    · rw [hclean.1]

theorem srcOff_oneRow (h : oneRow d) (hk : k < d.e0) : srcOff d k = k := by
  obtain ⟨h1, h2, h3⟩ := h
  simp [srcOff, descOff, h1, h2, Nat.mod_eq_of_lt hk, Nat.div_eq_of_lt hk]

theorem rawBytes_oneRow (hp : plainMove d = true) (h : oneRow d) : rawBytes s a d = d.e0 := by
  obtain ⟨hto, hfrom, hnarrow, -, -⟩ := plainMove_kind hp
  simp [rawBytes, hto, hfrom, hnarrow, descBytes_oneRow h]

/-- The first segment of one row reads the row from its start. -/
theorem sourceAddrs_oneRow (hp : plainMove d = true) (h : oneRow d) {x : Nat} (hx : x ∈ sourceAddrs d a 0 d.e0) :
    isFill d = false ∧ a.host = false ∧ a.base ≤ x ∧ x < a.base + d.e0 := by
  obtain ⟨-, hfrom, hnarrow, -, hexpand⟩ := plainMove_kind hp
  unfold sourceAddrs at hx
  simp only [hfrom, hnarrow, hexpand, Bool.or_false, Bool.false_eq_true, if_false] at hx
  split at hx
  · contradiction
  · next hkind =>
    obtain ⟨hfill, hhost⟩ := Bool.or_eq_false_iff.1 (Bool.eq_false_iff.2 hkind)
    obtain ⟨i, hi, rfl⟩ := List.mem_map.1 hx
    have hlt := List.mem_range.1 hi
    rw [Nat.zero_add, srcOff_oneRow h hlt]
    exact ⟨hfill, hhost, Nat.le_add_right .., Nat.add_lt_add_left hlt _⟩

/-- What a move of one row reads: the 8-byte pattern repeated, or the source's bytes. -/
def rowBytes (s : State) (d : Desc) (a : Ep) : List Byte :=
  (List.range d.e0).map fun i => if isFill d then BitVec.ofNat 8 (bits d.arg (8 * (i % 8)) 8) else epRb s a i

theorem segmentBytes_oneRow (h : oneRow d) : segmentBytes s d a 0 d.e0 = rowBytes s d a :=
  List.map_congr_left fun i hi => by rw [Nat.zero_add, srcOff_oneRow h (List.mem_range.1 hi)]

/-! ### A segment is done -/

theorem noteSeg_front (hq : moveQueue s n q = m :: l) (got : List Byte) :
    noteSeg s n q got = setMoveQueue s n q ({ m with segs := m.segs + 1, got := m.got ++ got } :: l) := by
  rw [noteSeg, hq]

/-- A segment of an allowed move whose source has no error is counted and its bytes are held. -/
theorem segmentDone_ok (hq : moveQueue s n q = m :: l) (hok : moveAllowed s n m = some (a, b))
    (hclean : ∀ x ∈ sourceAddrs m.desc a (4096 * m.segs) (min 4096 (rawBytes s a m.desc - 4096 * m.segs)), cleanWord s x) :
    segmentDone s n q .ok = noteSeg s n q (if plainMove m.desc then
      segmentBytes s m.desc a (4096 * m.segs) (min 4096 (rawBytes s a m.desc - 4096 * m.segs)) else []) := by
  obtain ⟨hcheck, hends, hrefused⟩ := moveAllowed_ends hok
  unfold segmentDone
  rw [hq]
  dsimp only
  rw [hcheck, hends]
  dsimp only
  rw [hrefused]
  simp only [segEvent, Bool.false_eq_true, if_false, readBytes_clean_words hclean]

theorem segment_done (hq : moveQueue s n q = m :: l) (hsegs : m.segs = 0) (hp : plainMove m.desc = true) (h1 : oneRow m.desc)
    (hlen : m.desc.e0 ≤ 4096) (hok : moveAllowed s n m = some (a, b))
    (hclean : isFill m.desc = false → a.host = false → cleanBytes s a.base m.desc.e0) :
    segmentDone s n q .ok = setMoveQueue s n q ({ m with segs := 1, got := m.got ++ rowBytes s m.desc a } :: l) := by
  have hbytes : min 4096 (rawBytes s a m.desc - 4096 * m.segs) = m.desc.e0 := by
    rw [rawBytes_oneRow hp h1, hsegs]
    omega
  rw [segmentDone_ok hq hok, noteSeg_front hq, if_pos hp, hbytes, hsegs, Nat.mul_zero, segmentBytes_oneRow h1]
  rw [hbytes, hsegs]
  intro x hx
  obtain ⟨hfill, hhost, hlo, hhi⟩ := sourceAddrs_oneRow hp h1 hx
  exact hclean hfill hhost x hlo hhi

/-! ### A whole move's bytes -/

/-- Bytes written one after the other from an address. -/
def wbRow (s : State) (a : Nat) (l : List (Byte × Nat)) : State := l.foldl (fun s x => wb s (a + x.2) x.1) s

theorem wbRow_frame (s : State) (a : Nat) (l : List (Byte × Nat)) : wbRow s a l = { s with mem := (wbRow s a l).mem } :=
  List.foldlRecOn (motive := fun u : State => u = { s with mem := u.mem }) l _ rfl fun u hu x _ => by
    rw [hu]
    rfl

theorem rb_wbRow (s : State) (c i : Nat) (got : List Byte) (x : Nat) : rb (wbRow s c (got.zipIdx i)) x =
    if c + i ≤ x ∧ x < c + i + got.length then got.getD (x - (c + i)) 0 else rb s x := by
  induction got generalizing s i with
  | nil => rw [if_neg (by simp only [List.length_nil]; omega)]; rfl
  | cons v got ih =>
    rw [List.zipIdx_cons, wbRow, List.foldl_cons, ← wbRow, ih]
    simp only [List.length_cons]
    rcases Nat.lt_trichotomy x (c + i) with hx | rfl | hx
    · rw [if_neg (by omega), if_neg (by omega), rb_wb_other (by omega)]
    · rw [if_neg (by omega), if_pos (by omega), rb_wb_same, Nat.sub_self, List.getD_cons_zero]
    · rw [rb_wb_other (by omega), show x - (c + i) = (x - (c + (i + 1))) + 1 by omega, List.getD_cons_succ]
      exact if_congr (by omega) rfl rfl

/-- The held bytes of one row go to the destination's addresses in order, and the words they cover have no error. -/
theorem writePlain_row (h1 : oneRow d) (hh : b.host = false) (hlen : got.length = d.e0) (hlow : b.base + d.e0 ≤ t2Base)
    (hclean : cleanBytes s b.base d.e0) : scrubSide (wbRow s b.base got.zipIdx) (writePlain s d b got) := by
  have hoffs : got.zipIdx.map (fun x => (dstOff d x.2, x.1)) = got.zipIdx.map fun x => (x.2, x.1) :=
    List.map_congr_left fun x hx => by
      rw [dstOff_oneRow h1]
      have := List.snd_lt_of_mem_zipIdx hx
      omega
  have hlt (x : Byte × Nat) (hx : x ∈ got.zipIdx) : b.base + x.2 < b.base + d.e0 := by
    have := List.snd_lt_of_mem_zipIdx hx
    omega
  have hwrites : (got.zipIdx.map fun x => (x.2, x.1)).foldl (fun s x => epWb s b x.1 x.2) s = wbRow s b.base got.zipIdx := by
    rw [List.foldl_map, wbRow]
    refine List.foldl_ext _ _ _ fun t x hx => ?_
    rw [epWb_device hh, devWb_low (by have := hlt x hx; omega)]
  unfold writePlain
  dsimp only
  rw [hoffs, hwrites, if_neg (by simp [hh])]
  refine wroteBytes_side fun x hx => ?_
  obtain ⟨y, hy, rfl⟩ := List.mem_map.1 hx
  obtain ⟨z, hz, rfl⟩ := List.mem_map.1 hy
  have hframe := wbRow_frame s b.base got.zipIdx
  exact (cleanWord_congr (s := s) (by rw [hframe]) (by rw [hframe])).2 (hclean _ (Nat.le_add_right ..) (hlt z hz))

/-! ### A move leaves its queue -/

/-- The front move of a core's queue is gone; threads that waited for the place go on. -/
theorem popMove_core (hq : q < 64) (s : State) (n : Nat) : let u := popMove s n q
    u = { s with moves := u.moves, regs := u.regs, threads := u.threads } ∧ moveQueue u n q = (moveQueue s n q).tail ∧
      ∀ f : RegField, f.lo = 8 → rd u f = rd s f := by
  unfold popMove
  dsimp only
  rw [if_pos hq]
  have hwoken := wakeCore_woken (w := .moveQueue) (by decide) (setMoveQueue s n q (moveQueue s n q).tail) (coreNo n q)
  refine ⟨?_, ?_, fun f hf => ?_⟩
  · rw [hwoken.frame, setMoveQueue_frame]
  · rw [moveQueue_congr hwoken.faultSide.moves, moveQueue_setMoveQueue]
  · rw [hwoken.faultSide.fields f hf, setMoveQueue, refreshDma]
    have hrest : FaultSide { s with moves := tput [] s.moves (mq n q) (moveQueue s n q).tail } (refreshDma _ n) :=
      ((FaultSide.refl _).wr (by simp [CLU_DMA_STAT_ACTIVE_Q]) _).wr (by simp [CLU_DMA_STAT_BUSY]) _
    exact hrest.fields f hf

/-- A thread's move that ends well leaves its queue and sets its tag. -/
theorem finishMove_thread (hq : moveQueue s n q = m :: l) (hcore : q < 64) (hcredit : bit m.desc.flags 0 = false)
    (howner : m.owner = .thread k tag) : let u := finishMove s n q
    u = { s with moves := u.moves, regs := u.regs, threads := u.threads } ∧ moveQueue u n q = l ∧ tagOf u k tag = .done := by
  obtain ⟨hpop, hqueue, -⟩ := popMove_core hcore s n
  obtain ⟨hframe, htag, -⟩ := completeTag_done (popMove s n q) k tag
  have hfinish : finishMove s n q = completeTag (popMove s n q) k tag true 0 := by
    simp only [finishMove, hq, hcredit, tellOwner, howner, Bool.false_eq_true, if_false]
    rfl
  rw [hfinish]
  refine ⟨?_, ?_, htag⟩
  · rw [hframe, hpop]
  · rw [moveQueue_congr (s := popMove s n q) (by rw [hframe]), hqueue, hq, List.tail_cons]

/-- A tag gets its error; queues and the fields at bit 8 are as they were, also where the waiting thread faults. -/
theorem completeTag_error (s : State) (k tag status : Nat) : let u := completeTag s k tag false status
    u.moves = s.moves ∧ tagOf u k tag = .error status ∧ ∀ f : RegField, f.lo = 8 → rd u f = rd s f := by
  have hset : FaultSide (setTag s k tag (.error status)) (completeTag s k tag false status) := by
    unfold completeTag
    simp only [Bool.false_eq_true, if_false]
    exact .ite (threadFault_faultSide ..) (.refl _)
  refine ⟨hset.moves, ?_, fun f hf => hset.fields f hf⟩
  rw [tagOf, hset.tags, ← tagOf, tagOf_setTag_same]

theorem satAdd_one {max v : Nat} (h : v < max) : satAdd max v 1 = v + 1 := by
  unfold satAdd
  split <;> omega

/-- A thread's move that ends in error leaves its queue, puts the error on its tag and is counted. -/
theorem failMove_thread (hq : moveQueue s n q = m :: l) (hcore : q < 64) (howner : m.owner = .thread k tag) (hstatus : status ≠ 0)
    (hcount : rd s (CLU_DMA_STAT_ERR_CNT n) < 255) : let u := failMove s n q status
    moveQueue u n q = l ∧ tagOf u k tag = .error status ∧
      rd u (CLU_DMA_STAT_ERR_CNT n) = rd s (CLU_DMA_STAT_ERR_CNT n) + 1 := by
  obtain ⟨v, hv⟩ : ∃ v, bump (undefineDst s n m) (CLU_DMA_STAT_ERR_CNT n) 1 = v := ⟨_, rfl⟩
  obtain ⟨x, y, z, f, hdst⟩ := undefineDst_frame s n m
  have hmoves : v.moves = s.moves := by rw [← hv, hdst]; rfl
  have hbump : rd v (CLU_DMA_STAT_ERR_CNT n) = rd s (CLU_DMA_STAT_ERR_CNT n) + 1 := by
    have hsame : rd (undefineDst s n m) (CLU_DMA_STAT_ERR_CNT n) = rd s (CLU_DMA_STAT_ERR_CNT n) := by rw [hdst]; rfl
    have hwidth : (CLU_DMA_STAT_ERR_CNT n).width = 8 := rfl
    rw [← hv, bump, rd_wr_same, hsame, hwidth]
    rw [satAdd_one (by omega), Nat.mod_eq_of_lt (by omega)]
  obtain ⟨-, hqueue, hpop⟩ := popMove_core hcore v n
  obtain ⟨htail, htag, hfields⟩ := completeTag_error (popMove v n q) k tag status
  have hfail : failMove s n q status = completeTag (popMove v n q) k tag false status := by
    simp only [failMove, hq, hv, tellOwner, howner, beq_false_of_ne hstatus]
  rw [hfail]
  refine ⟨?_, htag, ?_⟩
  · rw [moveQueue_congr htail, hqueue, moveQueue_congr hmoves, hq, List.tail_cons]
  · rw [hfields _ rfl, hpop _ rfl, hbump]

/-! ### The three events of a move -/

section
variable {n : Fin 34} {q : Fin 68} (hq : moveQueue s n q = m :: l)
include hq

theorem dmaSegmentDone_counts (hcalm : ∀ i < 34, (clu s i).doomed = false) (hturn : nextQueue s n = some q.val) (hsegs : m.segs = 0)
    (hp : plainMove m.desc = true) (h1 : oneRow m.desc) (hlen : m.desc.e0 ≤ 4096) (hok : moveAllowed s n m = some (a, b))
    (hclean : isFill m.desc = false → a.host = false → cleanBytes s a.base m.desc.e0) :
    completes (.dmaSegmentDone n q .ok) s fun u =>
      moveQueue u n q = { m with segs := 1, got := m.got ++ rowBytes s m.desc a } :: l ∧ u.mem = s.mem ∧ u.host = s.host := by
  obtain ⟨v, hv⟩ : ∃ v, setClu s n { clu s n with lastQueue := q } = v := ⟨_, rfl⟩
  obtain ⟨c, hframe⟩ : ∃ c, v = { s with clusters := c } := ⟨_, hv.symm⟩
  have hallowed : moveAllowed v n m = some (a, b) := by rw [hframe, ← hok]; rfl
  have hbytes : rowBytes v m.desc a = rowBytes s m.desc a := by rw [hframe]; rfl
  have hseg := segment_done ((moveQueue_congr (by rw [hframe]) n q).trans hq) hsegs hp h1 hlen hallowed fun hf hh x hlo hhi =>
    (cleanWord_congr (by rw [hframe]) (by rw [hframe])).2 (hclean hf hh x hlo hhi)
  have hdoomed (i : Nat) : (clu v i).doomed = (clu s i).doomed := by
    by_cases hi : i = n
    · rw [← hv, hi, clu_setClu_same]
    · rw [← hv, clu_setClu_other hi]
  have hexec : exec (.dmaSegmentDone n q .ok) s = .next (segmentDone v n q .ok) := by
    change execDmaSegmentDone n q .ok s = _
    rw [execDmaSegmentDone, if_pos hturn, hv, settleAllDoomed_of_calm fun i hi => ?_]
    rw [hseg]
    exact (hdoomed i).trans (hcalm i hi)
  refine ⟨_, hexec, ?_⟩
  rw [hseg, hbytes]
  refine ⟨moveQueue_setMoveQueue .., ?_, ?_⟩
  · rw [setMoveQueue_frame, hframe]
  · rw [setMoveQueue_frame, hframe]

theorem moveComplete_writes (hcalm : ∀ i < 34, (clu s i).doomed = false) (hcore : q.val < 64) (herr : m.err = 0)
    (hp : plainMove m.desc = true) (h1 : oneRow m.desc) (hcredit : bit m.desc.flags 0 = false) (howner : m.owner = .thread k tag)
    (hok : moveAllowed s n m = some (a, b)) (hsegs : moveSegs s m.desc a ≤ m.segs) (hlen : m.got.length = m.desc.e0)
    (hlow : b.base + m.desc.e0 ≤ t2Base) (hclean : cleanBytes s b.base m.desc.e0) :
    completes (.moveComplete n q) s fun u => moveQueue u n q = l ∧ tagOf u k tag = .done ∧ u.host = s.host ∧
      (∀ i < m.desc.e0, rb u (b.base + i) = m.got.getD i 0) ∧ sameMemBut s u b.base m.desc.e0 := by
  have hdevice : b.host = false := moveAllowed_device hok (by rw [moveParty, howner])
  have hside := writePlain_row h1 hdevice hlen hlow hclean
  have hrow := wbRow_frame s b.base m.got.zipIdx
  obtain ⟨hframe, hclu, -⟩ := hside
  obtain ⟨v, hv⟩ : ∃ v, writePlain s m.desc b m.got = v := ⟨_, rfl⟩
  rw [hv] at hframe hclu
  have hvq : moveQueue v n q = m :: l := (moveQueue_congr (by rw [hframe, hrow]) n q).trans hq
  obtain ⟨hend, hqueue, htag⟩ := finishMove_thread hvq hcore hcredit howner
  have hdoomed (i : Nat) : (clu (finishMove v n q) i).doomed = (clu s i).doomed := by
    rw [hend]
    change (clu v i).doomed = _
    rw [hclu, hrow]
    rfl
  have hbyte (x : Nat) : rb (finishMove v n q) x =
      if b.base ≤ x ∧ x < b.base + m.desc.e0 then m.got.getD (x - b.base) 0 else rb s x := by
    rw [hend, hframe, ← hlen]
    exact rb_wbRow s b.base 0 m.got x
  have hexec : exec (.moveComplete n q) s = .next (finishMove v n q) := by
    change execMoveComplete n q s = _
    simp only [execMoveComplete, hq, herr, hok, if_neg (Nat.not_lt.2 hsegs), if_pos hp, hv, ne_eq, not_true_eq_false, if_false]
    rw [settleAllDoomed_of_calm fun i hi => (hdoomed i).trans (hcalm i hi)]
  refine ⟨_, hexec, hqueue, htag, ?_, fun i hi => ?_, fun x hx => ?_⟩
  · rw [hend, hframe, hrow]
  · rw [hbyte, if_pos (by omega), Nat.add_sub_cancel_left]
  · rw [hbyte, if_neg hx]

theorem moveTimeout_counts (hcore : q.val < 64) (howner : m.owner = .thread k tag) (hcount : rd s (CLU_DMA_STAT_ERR_CNT n) < 255) :
    completes (.moveTimeout n q) s fun u => moveQueue u n q = l ∧ tagOf u k tag = .error 0x7F ∧
      rd u (CLU_DMA_STAT_ERR_CNT n) = rd s (CLU_DMA_STAT_ERR_CNT n) + 1 := by
  obtain ⟨v, hv⟩ : ∃ v, report s (slowDomain n m.desc) clsContained 0x7F ((moveParty s n m).1.getD 0xFF) 0xFF 0 = v := ⟨_, rfl⟩
  have hreport : FaultSide s v := hv ▸ report_faultSide ..
  have hsame : rd v (CLU_DMA_STAT_ERR_CNT n) = rd s (CLU_DMA_STAT_ERR_CNT n) := hreport.fields _ rfl
  have hexec : exec (.moveTimeout n q) s = .next (failMove v n q 0x7F) := by
    change execMoveTimeout n q s = _
    simp only [execMoveTimeout, hq, hv]
  obtain ⟨hqueue, htag, hrd⟩ := failMove_thread (status := 0x7F) ((moveQueue_congr hreport.moves n q).trans hq) hcore howner
    (by decide) (hsame ▸ hcount)
  exact ⟨_, hexec, hqueue, htag, hrd.trans (by rw [hsame])⟩

end

end Sys2Proof.Machine

open Sys2Proof Sys2Proof.Machine Sys2Proof.Machine.Reg

/-- Settles O20: a segment's bytes are the row's, a whole move's bytes go to the destination in order, and a timed-out move's
fault touches neither the queue, the tag nor the count. -/
theorem movesWriteTheirDestination : Obligations.MovesWriteTheirDestination := by
  unfold Obligations.MovesWriteTheirDestination
  intro s n q m l hq d calm
  refine ⟨?_, ?_, ?_⟩
  · intro a b hcalm hturn _ hsegs hp h1 hlen hok hclean
    exact dmaSegmentDone_counts hq hcalm hturn hsegs hp h1 hlen hok hclean
  · intro a b k tag hcalm hcore herr hp h1 hcredit howner hok hsegs hlen _ hlow hclean
    exact moveComplete_writes hq hcalm hcore herr hp h1 hcredit howner hok hsegs hlen (hlow.trans (by decide)) hclean
  · intro k tag _ hcore _ howner hcount
    exact moveTimeout_counts hq hcore howner hcount

end

section
/-!
O15: credits, stalls and freezes of a core's array (R71, R73-R76, R80): one core's record changes and nothing else.
-/
namespace Sys2Proof.Machine
open Reg Laws

variable {s t u : State} {k cn n : Nat} {x : ArrInstr} {l : List ArrInstr}

/-! ### One core changes -/

/-- Of the state only core `cn` differs. -/
def coreOnly (s u : State) (cn : Nat) : Prop := u = { s with cores := u.cores } ∧ ∀ j, j ≠ cn → core u j = core s j

theorem coreOnly_refl (s : State) (cn : Nat) : coreOnly s s cn := ⟨rfl, fun _ _ => rfl⟩

theorem coreOnly_setCore (h : coreOnly s u cn) (c : Core) : coreOnly s (setCore u cn c) cn :=
  ⟨by rw [setCore, h.1], fun j hj => (core_setCore_other hj c).trans (h.2 j hj)⟩

theorem setCore_coreOnly (s : State) (cn : Nat) (c : Core) : coreOnly s (setCore s cn c) cn := coreOnly_setCore (coreOnly_refl s cn) c

/-- A command that leaves `c` in core `cn`, its array queue as before, and nothing else. -/
theorem completes_coreOnly {i : Instr} {c : Core} (hexec : exec i s = .next u) (h : coreOnly s u cn) (hcore : core u cn = c)
    (harr : c.arr = (core s cn).arr) : completes i s fun u =>
      (u = { s with cores := u.cores } ∧ (∀ j, j ≠ cn → core u j = core s j) ∧ (core u cn).arr = (core s cn).arr) ∧ core u cn = c :=
  ⟨u, hexec, ⟨h.1, h.2, by rw [hcore, harr]⟩, hcore⟩

/-- A command whose effect leaves the clusters of a device with cluster `n` calm retires nothing. -/
theorem checked_of_calm {f : State → State} (h : (clu s n).doomed = false) (hf : f s = u) (hu : u.clusters = s.clusters) :
    checked n [] f s = .next u := by
  have hcalm : (clu u n).doomed = false := by rw [clu, hu]; exact h
  rw [checked, show addErrs s n [] = s from rfl, hf, settleDoomed_of_calm hcalm]

/-! ### Slips -/

/-- A fold that gives each listed key one new value, of its old one. -/
theorem tget_foldl_each {g : List (Nat × Nat) → Nat → List (Nat × Nat)} {f : Nat → Nat → Nat}
    (hsame : ∀ t k, tget 0 (g t k) k = f k (tget 0 t k)) (hother : ∀ t k j, j ≠ k → tget 0 (g t k) j = tget 0 t j)
    {l : List Nat} (hl : l.Nodup) (t : List (Nat × Nat)) (j : Nat) :
    tget 0 (l.foldl g t) j = if j ∈ l then f j (tget 0 t j) else tget 0 t j := by
  induction l generalizing t with
  | nil => rfl
  | cons k l ih =>
    obtain ⟨hk, hl⟩ := List.nodup_cons.1 hl
    rw [List.foldl_cons, ih hl]
    by_cases hj : j = k
    · rw [if_neg (hj ▸ hk), if_pos (hj ▸ List.mem_cons_self), hj, hsame]
    · simp only [List.mem_cons, hj, false_or, hother t k j hj]

/-- The slips after a frozen cycle, or `d` of them: every link but those of `stays` recovers. -/
def recovered (stays : List Nat) (d : Nat) (slips : List (Nat × Nat)) : List (Nat × Nat) :=
  (List.range 16).foldl (fun t l => if stays.contains l then t else tput 0 t l (tget 0 t l - d)) slips

theorem tget_recovered (stays : List Nat) (d : Nat) (slips : List (Nat × Nat)) {j : Nat} (hj : j < 16) :
    tget 0 (recovered stays d slips) j = if j ∈ stays then tget 0 slips j else tget 0 slips j - d := by
  unfold recovered
  rw [tget_foldl_each (f := fun j v => if j ∈ stays then v else v - d) ?_ ?_ List.nodup_range, if_pos (List.mem_range.2 hj)]
  · intro t k
    simp only [List.contains_iff_mem]
    split
    · rfl
    · exact tget_tput_same ..
  · intro t k j hj
    split
    · rfl
    · exact tget_tput_other hj _

/-- The slips after a cycle in which the links of `l` stall an array that is not frozen. -/
def slipped (l : List Nat) (slips : List (Nat × Nat)) : List (Nat × Nat) :=
  l.foldl (fun t l => tput 0 t l (min 4 (tget 0 t l + 1))) slips

theorem tget_slipped {l : List Nat} (hl : l.Nodup) (slips : List (Nat × Nat)) (j : Nat) :
    tget 0 (slipped l slips) j = if j ∈ l then min 4 (tget 0 slips j + 1) else tget 0 slips j :=
  tget_foldl_each (f := fun _ v => min 4 (v + 1)) (fun _ _ => tget_tput_same ..) (fun _ _ _ hj => tget_tput_other hj _) hl slips j

theorem nodup_eraseDups (l : List Nat) : l.eraseDups.Nodup := by
  induction h : l.length using Nat.strong_induction_on generalizing l with
  | _ n ih =>
    cases l with
    | nil => rw [List.eraseDups_nil]; exact List.nodup_nil
    | cons a l =>
      have hlen : (l.filter fun b => !b == a).length < n := by
        rw [← h, List.length_cons]
        exact Nat.lt_succ_of_le (List.length_filter_le ..)
      rw [List.eraseDups_cons, List.nodup_cons]
      exact ⟨by simp [List.mem_eraseDups], ih _ hlen _ rfl⟩

/-- The links that stall a core in a cycle: the named ones and those its STREAM's credits stall. -/
def stalledLinks (c : Core) (links : List (Fin 16)) : List Nat := (links.map Fin.val ++ creditStalls c).eraseDups

theorem mem_stalledLinks {c : Core} {links : List (Fin 16)} {l : Fin 16} :
    l.val ∈ stalledLinks c links ↔ l ∈ links ∨ l.val ∈ creditStalls c := by
  simp [stalledLinks, List.mem_eraseDups, Fin.val_inj]

theorem tget_slipped_stalled (c : Core) (links : List (Fin 16)) (l : Fin 16) : tget 0 (slipped (stalledLinks c links) c.slips) l =
    if l ∈ links ∨ l.val ∈ creditStalls c then min 4 (tget 0 c.slips l + 1) else tget 0 c.slips l := by
  have h := tget_slipped (nodup_eraseDups (links.map Fin.val ++ creditStalls c)) c.slips l
  rw [← stalledLinks] at h
  simpa only [mem_stalledLinks] using h

theorem tget_recovered_stalled (c : Core) (links : List (Fin 16)) (l : Fin 16) : tget 0 (recovered (stalledLinks c links) 1 c.slips) l =
    if l ∈ links ∨ l.val ∈ creditStalls c then tget 0 c.slips l else tget 0 c.slips l - 1 := by
  simpa only [mem_stalledLinks] using tget_recovered (stalledLinks c links) 1 c.slips l.isLt

/-- A link with slip left still has some after a frozen cycle in which it stalls, or with two steps left. -/
theorem recovered_left {c : Core} {links : List (Fin 16)} {l : Fin 16}
    (h : ((l ∈ links ∨ l.val ∈ creditStalls c) ∧ tget 0 c.slips l ≠ 0) ∨ 2 ≤ tget 0 c.slips l) :
    tget 0 (recovered (stalledLinks c links) 1 c.slips) l ≠ 0 := by
  rw [tget_recovered_stalled]
  rcases h with ⟨hl, hne⟩ | htwo
  · rw [if_pos hl]
    exact hne
  · split
    all_goals omega

theorem frozen_of_mem {c : Core} {j : Nat} (h : j ∈ c.freezers) : frozen c = true := by
  unfold frozen
  cases hf : c.freezers with
  | nil => rw [hf] at h; contradiction
  | cons => rfl

/-- No less than any member and no more than one of them, it is the largest. -/
theorem foldl_max_eq {l : List Nat} {m : Nat} (hle : ∀ a ∈ l, a ≤ m) (hmem : m ∈ l) : l.foldl max 0 = m := by
  have hbound (l : List Nat) (b : Nat) (hl : ∀ a ∈ l, a ≤ m) (hb : b ≤ m) (hm : b = m ∨ m ∈ l) : l.foldl max b = m := by
    induction l generalizing b with
    | nil => exact hm.resolve_right (by simp)
    | cons a l ih =>
      have ha := hl a List.mem_cons_self
      refine ih _ (fun c hc => hl c (List.mem_cons_of_mem _ hc)) (Nat.max_le.2 ⟨hb, ha⟩) ?_
      rcases hm with rfl | hm
      · exact .inl (Nat.max_eq_left ha)
      · rcases List.mem_cons.1 hm with rfl | hm
        · exact .inl (Nat.max_eq_right hb)
        · exact .inr hm
  exact hbound l 0 hle (Nat.zero_le _) (.inr hmem)

/-! ### Credits -/

/-- A STREAM without space for its output streams nothing. -/
theorem pumpWith_full {fault : State → Nat → Nat → Bool → State} (harr : (core s cn).arr = x :: l) (h : (core s cn).outSpace = 0) :
    pumpWith fault s cn = s := by
  unfold pumpWith
  rw [harr]
  dsimp only
  cases streamRows x.word with
  | zero => rfl
  | succ n =>
    rw [pumpStream, harr]
    dsimp only
    split
    · rfl
    · exact if_pos (.inr h)

theorem pumpWith_empty {fault : State → Nat → Nat → Bool → State} (harr : (core s cn).arr = []) : pumpWith fault s cn = s := by
  unfold pumpWith
  rw [harr]

/-- The front of the queue, or none, that streams nothing whatever IN_CREDIT (`output` false) or OUT_SPACE (true) holds. -/
def holds (c : Core) (output : Bool) : Prop := c.arr = [] ∨ if output then c.inCredit = 0 else c.outSpace = 0

/-- A core with one counter raised towards `lim`. -/
def raised (c : Core) (output : Bool) (lim n : Nat) : Core :=
  if output then { c with outSpace := satAdd lim c.outSpace n } else { c with inCredit := satAdd lim c.inCredit n }

/-- The groups up to which a counter of a core can be raised (R71). -/
def creditLimit (c : Core) (output : Bool) : Nat :=
  match c.arr with
  | x :: _ => if (arrFields x.word).opc = 0x22 then (if output then oRing x.word else aRing x.word) else 64
  | [] => 64

theorem addCredit_held {output : Bool} (h : holds (core s cn) output) (n : Nat) :
    addCredit s cn output n = setCore s cn (raised (core s cn) output (creditLimit (core s cn) output) n) := by
  change pumpWith threadFault (setCore s cn (raised (core s cn) output (creditLimit (core s cn) output) n)) cn = _
  obtain ⟨v, hv⟩ : ∃ v, raised (core s cn) output (creditLimit (core s cn) output) n = v := ⟨_, rfl⟩
  have harr : v.arr = (core s cn).arr := by
    rw [← hv, raised]
    cases output
    all_goals rfl
  rw [hv]
  cases hfront : (core s cn).arr with
  | nil => exact pumpWith_empty (by rw [core_setCore_same, harr, hfront])
  | cons x l =>
    have hzero := h.resolve_left (by simp [hfront])
    have hfront' : (core (setCore s cn v) cn).arr = x :: l := by rw [core_setCore_same, harr, hfront]
    cases output with
    | false => exact pumpWith_full hfront' (by rw [core_setCore_same, ← hv]; exact hzero)
    | true => exact pumpWith_held hfront' (.inr (by rw [core_setCore_same, ← hv]; exact hzero))

theorem advancePc_core (s : State) (k : Nat) : core (advancePc s k false) (k / 8) = { core s (k / 8) with lastIssued := k % 8 } := by
  rw [advancePc_issued s k false (k / 8), if_pos rfl]

/-- ARR_CREDIT where the other counter, or an empty queue, lets nothing stream: the issue and the raised counter. -/
theorem arrCredit_held {t : ThreadId} {output : Bool} (hissue : canIssue s (tno t) = true) (hcalm : (clu s t.cluster).doomed = false)
    {lim : Nat} (h : holds (core s (tno t / 8)) output) (hlim : creditLimit (core s (tno t / 8)) output = lim) (n : Nat) : completes (.arrCredit t output n []) s fun u =>
      (u = { s with cores := u.cores, threads := u.threads, free := u.free } ∧ ∀ j, j ≠ tno t / 8 → core u j = core s j) ∧
        core u (tno t / 8) = raised { core s (tno t / 8) with lastIssued := tno t % 8 } output lim n := by
  have hcore := advancePc_core s (tno t)
  have heff : (if canIssue s (tno t) then addCredit (advancePc s (tno t) false) (tno t / 8) output n else s) =
      setCore (advancePc s (tno t) false) (tno t / 8)
        (raised { core s (tno t / 8) with lastIssued := tno t % 8 } output lim n) := by
    rw [if_pos hissue, addCredit_held (by rw [hcore]; exact h), hcore, ← hlim]
    rfl
  refine ⟨_, checked_of_calm hcalm heff rfl, ⟨?_, fun j hj => ?_⟩, core_setCore_same ..⟩
  · rw [setCore, advancePc_frame]
  · rw [core_setCore_other hj, advancePc_issued s (tno t) false j, if_neg hj]

/-! ### Stalls and freezes -/

section
variable {c : Fin 64} {cl : Fin 34} {links : List (Fin 16)}

theorem arrayStall_idle (h : executing (core s (coreNo cl c)) = false) : arrayStall cl c links s = s := if_pos (by rw [h]; rfl)

theorem freezeEnd_running (h : (core s (coreNo cl c)).freezers = []) : freezeEnd cl c s = s := if_pos (by simp [frozen, h])

theorem arrayStall_running (h : executing (core s (coreNo cl c)) = true) (hf : (core s (coreNo cl c)).freezers = []) :
    arrayStall cl c links s = setCore s (coreNo cl c) { core s (coreNo cl c) with
      slips := slipped (stalledLinks (core s (coreNo cl c)) links) (core s (coreNo cl c)).slips
      freezers := (stalledLinks (core s (coreNo cl c)) links).filter fun l => tget 0 (core s (coreNo cl c)).slips l == 4 } := by
  unfold arrayStall
  dsimp only
  rw [if_neg (by rw [h]; decide), if_neg (by rw [frozen, hf]; decide)]
  rfl

/-- While a link that caused the freeze has slip left, a frozen cycle only recovers slips. -/
theorem arrayStall_frozen (h : executing (core s (coreNo cl c)) = true) {l : Fin 16} (hl : l.val ∈ (core s (coreNo cl c)).freezers)
    (hleft : tget 0 (recovered (stalledLinks (core s (coreNo cl c)) links) 1 (core s (coreNo cl c)).slips) l ≠ 0) :
    arrayStall cl c links s = setCore s (coreNo cl c) { core s (coreNo cl c) with
      slips := recovered (stalledLinks (core s (coreNo cl c)) links) 1 (core s (coreNo cl c)).slips } := by
  unfold arrayStall
  dsimp only
  rw [if_neg (by rw [h]; decide), if_pos (frozen_of_mem hl)]
  unfold thaw
  dsimp only
  rw [core_setCore_same]
  exact if_neg fun hall => hleft (beq_iff_eq.1 (List.all_eq_true.1 hall l.val hl))

/-- The end of a freeze that no credit holds, with nothing that then starts or streams. -/
theorem freezeEnd_thaws {m : Nat} (harr : (core s (coreNo cl c)).arr = x :: l) (hstart : x.started = true)
    (hheld : (arrFields x.word).opc ≠ 0x22 ∨ (core s (coreNo cl c)).inCredit = 0 ∨ (core s (coreNo cl c)).outSpace = 0)
    (hfree : ∀ l ∈ (core s (coreNo cl c)).freezers,
      l < 16 ∧ l ∉ creditStalls (core s (coreNo cl c)) ∧ tget 0 (core s (coreNo cl c)).slips l ≤ m)
    (hmax : ∃ l ∈ (core s (coreNo cl c)).freezers, tget 0 (core s (coreNo cl c)).slips l = m) :
    coreOnly s (freezeEnd cl c s) (coreNo cl c) ∧ core (freezeEnd cl c s) (coreNo cl c) = { core s (coreNo cl c) with
      slips := recovered (creditStalls (core s (coreNo cl c))) m (core s (coreNo cl c)).slips, freezers := [], rampedDown := false } := by
  obtain ⟨v, hv⟩ : ∃ v, setCore s (coreNo cl c) { core s (coreNo cl c) with
      slips := recovered (creditStalls (core s (coreNo cl c))) m (core s (coreNo cl c)).slips } = v := ⟨_, rfl⟩
  obtain ⟨y, hy, hym⟩ := hmax
  have hleft : ((core s (coreNo cl c)).freezers.map fun l => tget 0 (core s (coreNo cl c)).slips l).foldl max 0 = m := by
    refine foldl_max_eq (fun a ha => ?_) (List.mem_map.2 ⟨y, hy, hym⟩)
    obtain ⟨j, hj, rfl⟩ := List.mem_map.1 ha
    exact (hfree j hj).2.2
  have hnone : (core s (coreNo cl c)).freezers.any (fun l => (creditStalls (core s (coreNo cl c))).contains l) = false := by
    simpa using fun j hj => (hfree j hj).2.1
  have hcore : core v (coreNo cl c) = { core s (coreNo cl c) with
      slips := recovered (creditStalls (core s (coreNo cl c))) m (core s (coreNo cl c)).slips } := by rw [← hv, core_setCore_same]
  have hzero : (core v (coreNo cl c)).freezers.all (fun l => tget 0 (core v (coreNo cl c)).slips l == 0) = true := by
    rw [hcore]
    refine List.all_eq_true.2 fun j hj => beq_iff_eq.2 ?_
    obtain ⟨hj16, hjfree, hjm⟩ := hfree j hj
    exact (tget_recovered _ _ _ hj16).trans ((if_neg hjfree).trans (Nat.sub_eq_zero_of_le hjm))
  have hthaw : freezeEnd cl c s = thaw v (coreNo cl c) := by
    unfold freezeEnd
    dsimp only
    rw [if_neg (by rw [frozen_of_mem hy, hnone]; decide), hleft, ← hv]
    rfl
  have hrestart (w : State) (hw : core w (coreNo cl c) = { core v (coreNo cl c) with freezers := [], rampedDown := false }) :
      restart w (coreNo cl c) = w := by
    rw [hcore] at hw
    have hfront : (core w (coreNo cl c)).arr = x :: l := by rw [hw]; exact harr
    refine restart_of (startWith_started hfront hstart) ?_
    rcases hheld with hopc | hin | hout
    · exact pumpWith_held hfront (.inl hopc)
    · exact pumpWith_held hfront (.inr (by rw [hw]; exact hin))
    · exact pumpWith_full hfront (by rw [hw]; exact hout)
  rw [hthaw, thaw, if_pos hzero, hrestart _ (core_setCore_same ..), core_setCore_same, hcore, ← hv]
  exact ⟨coreOnly_setCore (setCore_coreOnly ..) _, rfl⟩

end
end Sys2Proof.Machine

open Sys2Proof Sys2Proof.Machine Sys2Proof.Machine.Reg

/-- Settles O15: each command writes the record of one core, whose slips, freezers and counters are read off. -/
theorem streamCreditsAndStalls : Obligations.StreamCreditsAndStalls := by
  refine ⟨?_, ?_⟩
  · intro s t n hissue hcalm cn only
    refine ⟨fun x l harr hopc => ?_, fun harr => ?_⟩
    · have hlim (output : Bool) : creditLimit (core s cn) output = if output then oRing x.word else aRing x.word := by
        rw [creditLimit, harr]
        exact if_pos hopc
      refine ⟨fun hout => ?_, fun hin => ?_⟩
      · obtain ⟨u, hexec, honly, hcore⟩ := arrCredit_held (output := false) hissue hcalm (.inr hout) (hlim false) n
        exact ⟨u, hexec, honly, by rw [hcore]; rfl, by rw [hcore]; exact hout⟩
      · obtain ⟨u, hexec, honly, hcore⟩ := arrCredit_held (output := true) hissue hcalm (.inr hin) (hlim true) n
        exact ⟨u, hexec, honly, by rw [hcore]; rfl, by rw [hcore]; exact hin⟩
    · have hlim (output : Bool) : creditLimit (core s cn) output = 64 := by rw [creditLimit, harr]
      obtain ⟨u, hexec, honly, hcore⟩ := arrCredit_held hissue hcalm (.inl harr) (hlim false) n
      obtain ⟨v, hexec', honly', hcore'⟩ := arrCredit_held hissue hcalm (.inl harr) (hlim true) n
      exact ⟨⟨u, hexec, honly, by rw [hcore]; rfl⟩, v, hexec', honly', by rw [hcore']; rfl⟩
  · intro s n c hcalm cn k slip only
    refine ⟨?_, fun hf => checked_of_calm hcalm (freezeEnd_running hf) rfl, fun x l m harr hstart hheld _ hfree hmax => ?_,
      fun hgap => ?_, fun h hf hcredit => ?_⟩
    · intro links stalled
      refine ⟨fun h => checked_of_calm hcalm (arrayStall_idle h) rfl, fun h hf => ?_, fun h ⟨l, hl, hleft⟩ => ?_⟩
      · have heff := arrayStall_running (links := links) h hf
        obtain ⟨u, hexec, honly, hcore⟩ := completes_coreOnly (i := .arrayStall n c links) (checked_of_calm hcalm heff rfl)
          (setCore_coreOnly ..) (core_setCore_same ..) rfl
        have hslip (l : Fin 16) : slip u l = if stalled l then min 4 (slip s l + 1) else slip s l := by
          simp only [slip]
          rw [hcore]
          exact tget_slipped_stalled k links l
        refine ⟨u, hexec, honly, fun l hl => (hslip l).trans (if_pos hl), fun l hl => (hslip l).trans (if_neg hl), fun l => ?_⟩
        rw [hcore, List.mem_filter, mem_stalledLinks, beq_iff_eq]
      · have heff := arrayStall_frozen (links := links) h hl (recovered_left hleft)
        obtain ⟨u, hexec, honly, hcore⟩ := completes_coreOnly (i := .arrayStall n c links) (checked_of_calm hcalm heff rfl)
          (setCore_coreOnly ..) (core_setCore_same ..) rfl
        have hslip (l : Fin 16) : slip u l = if stalled l then slip s l else slip s l - 1 := by
          simp only [slip]
          rw [hcore]
          exact tget_recovered_stalled k links l
        exact ⟨u, hexec, honly, by rw [hcore], fun l hl => (hslip l).trans (if_pos hl), fun l hl => (hslip l).trans (if_neg hl)⟩
    · obtain ⟨hsame, hcore⟩ := freezeEnd_thaws harr hstart hheld hfree hmax
      obtain ⟨u, hexec, honly, hcore⟩ := completes_coreOnly (i := .freezeEnd n c) (checked_of_calm hcalm rfl (by rw [hsame.1])) hsame hcore rfl
      have hslip (j : Fin 16) : slip u j = if j.val ∈ creditStalls k then slip s j else slip s j - m := by
        simp only [slip]
        rw [hcore]
        exact tget_recovered (creditStalls k) m k.slips j.isLt
      refine ⟨u, hexec, honly, by rw [hcore], by rw [hcore], fun j hj => ?_, hslip⟩
      obtain ⟨-, hjfree, hjm⟩ := hfree j hj
      exact (hslip j).trans ((if_neg hjfree).trans (Nat.sub_eq_zero_of_le hjm))
    · have hgap' : ¬(executing k && !frozen k && (creditStalls k).isEmpty) = true := by
        rcases hgap with h | h | h
        all_goals simp [frozen, h]
      obtain ⟨u, hexec, honly, hcore⟩ := completes_coreOnly (i := .gapLimitReached n c) (if_neg hgap')
        (setCore_coreOnly ..) (core_setCore_same ..) rfl
      exact ⟨u, hexec, honly, by rw [hcore], by rw [hcore]⟩
    · have hruns : (executing k && !frozen k && (creditStalls k).isEmpty) = true := by simp [frozen, h, hf, hcredit]
      exact if_pos hruns

end

section
/-!
O39: the packets of the power policy (R417, R470): registers and the record of the command.
-/
namespace Sys2Proof.Machine
open Reg Laws

variable {s t u w : State} {h : Pkt} {op status : Nat} {sc : Scope} {pfOnly : Bool}

/-- An accepted command that has changed registers alone completes with a status. -/
theorem complete_accepted (hslot : slotPlain s h) (hacc : accepted s h op sc pfOnly = true)
    (hw : w = { (taken s h op 0).2 with regs := w.regs }) (hstatus : status < 256) (hop : op < 256) :
    let u := complete w (taken s h op 0).1 status {}
    recorded s u h op status ∧ u.regs = w.regs ∧ u.mem = s.mem := by
  have hring : ring w h.fn h.ring = ring (taken s h op 0).2 h.fn h.ring := by rw [hw]; rfl
  have htake : takesRecord w h.fn h.ring := by
    rw [takesRecord, nextSlot, hring]
    exact taken_takesRecord hslot hacc
  obtain ⟨hrec, -, -⟩ := complete_recorded (r := {}) htake hring hstatus hop
  have hside := complete_hostSide w (taken s h op 0).1 status {}
  have hmem : w.mem = s.mem := by
    have htaken := consumed_mem (taken_consumed s h op 0)
    rw [hw]
    exact htaken
  refine ⟨hrec, by rw [hside], ?_⟩
  rw [hside]
  exact hmem

/-- A command whose data is refused records the status and does no more. -/
theorem refused_accepted (hslot : slotPlain s h) (hacc : accepted s h op sc pfOnly = true) (hstatus : status < 256) (hop : op < 256) :
    let u := complete (taken s h op 0).2 (taken s h op 0).1 status {}
    recorded s u h op status ∧ sameRegsBut s u [FLT_LOG_TRACE_TR_DROP, FLT_EVT_STAT_TR_DROP] ∧ u.mem = s.mem := by
  obtain ⟨hrec, hregs, hmem⟩ := complete_accepted (w := (taken s h op 0).2) hslot hacc rfl hstatus hop
  exact ⟨hrec, sameRegsBut_congr (taken_consumed s h op 0).2 hregs, hmem⟩

/-! ### The policy of the device -/

/-- The data that POWER_POLICY refuses (R470). -/
def badPolicy (s : State) (limit maxOp : Nat) : Prop :=
  limit < 60 ∨ 300 < limit ∨ 6 < maxOp ∨ (maxOp < 2 ∧ isSet s DSP_STAT_LINE_LOCKED = true)

theorem badPolicy_consumed (hc : consumed s t) (limit maxOp : Nat) : badPolicy t limit maxOp ↔ badPolicy s limit maxOp := by
  rw [badPolicy, isSet, rd_of_consumed hc (by decide)]
  rfl

theorem powerPolicy_refused {limit : BitVec 16} {maxOp : Fin 256} (hslot : slotPlain s h) (hacc : accepted s h 0x60 .any true = true)
    (hbad : badPolicy s limit.toNat maxOp) : completes (.powerPolicy h limit maxOp) s fun u => recorded s u h 0x60 0x21 ∧
      sameRegsBut s u [FLT_LOG_TRACE_TR_DROP, FLT_EVT_STAT_TR_DROP] ∧ u.mem = s.mem :=
  ⟨_, congrArg Host.Outcome.next ((withPkt_accepted hacc).trans (if_pos ((badPolicy_consumed (taken_consumed ..) ..).2 hbad))),
    refused_accepted hslot hacc (by decide) (by decide)⟩

theorem powerPolicy_taken {limit : BitVec 16} {maxOp : Fin 256} (hslot : slotPlain s h) (hacc : accepted s h 0x60 .any true = true)
    (hok : ¬badPolicy s limit.toNat maxOp) : completes (.powerPolicy h limit maxOp) s fun u => recorded s u h 0x60 0 ∧
      rd u PWR_LIMIT_LIMIT = limit.toNat ∧ rd u PWR_LIMIT_MAX_OP = maxOp ∧
      sameRegsBut s u ([PWR_LIMIT_LIMIT, PWR_LIMIT_MAX_OP] ++ [FLT_LOG_TRACE_TR_DROP, FLT_EVT_STAT_TR_DROP]) ∧ u.mem = s.mem := by
  have hc := taken_consumed s h 0x60 0
  obtain ⟨hrec, hregs, hmem⟩ := complete_accepted (w := wr (wr (taken s h 0x60 0).2 PWR_LIMIT_LIMIT limit.toNat) PWR_LIMIT_MAX_OP maxOp)
    hslot hacc rfl (by decide : 0 < 256) (by decide)
  refine ⟨_, congrArg Host.Outcome.next ((withPkt_accepted hacc).trans (if_neg fun hbad => hok ((badPolicy_consumed hc ..).1 hbad))),
    hrec, ?_, ?_, sameRegsBut_congr ?_ hregs, hmem⟩
  · rw [rd_congr hregs, rd_wr_other (by decide), rd_wr_same]
    refine Nat.mod_eq_of_lt ?_
    simp only [badPolicy, not_or] at hok
    change limit.toNat < 512
    omega
  · rw [rd_congr hregs, rd_wr_same]
    refine Nat.mod_eq_of_lt ?_
    simp only [badPolicy, not_or] at hok
    change maxOp.val < 8
    omega
  · exact sameRegsBut_wr (sameRegsBut_wr (sameRegsBut_mono hc.2 (List.subset_append_right ..)) (by simp)) (by simp)

/-! ### The smoothing fields of a partition -/

/-- The smoothing fields of a partition (R83). -/
def smoothFields (p : Nat) : List RegField := [PWR_SMOOTH_FILL_EN p, PWR_SMOOTH_GAP_LIMIT p, PWR_SMOOTH_RAMP_DOWN p, PWR_SMOOTH_RAMP_UP p]

/-- The smoothing fields written. -/
def smoothed (t : State) (p fill gap down up : Nat) : State :=
  wr (wr (wr (wr t (PWR_SMOOTH_FILL_EN p) fill) (PWR_SMOOTH_GAP_LIMIT p) gap) (PWR_SMOOTH_RAMP_DOWN p) down) (PWR_SMOOTH_RAMP_UP p) up

theorem smoothed_frame (t : State) (p fill gap down up : Nat) :
    smoothed t p fill gap down up = { t with regs := (smoothed t p fill gap down up).regs } := rfl

theorem smoothed_read (t : State) (p : Nat) {fill gap down up : Nat} (hfill : fill ≤ 1) (hgap : gap ≤ 15) (hdown : down ≤ 4) (hup : up ≤ 3) :
    (smoothFields p).map (rd (smoothed t p fill gap down up)) = [fill, gap, down, up] := by
  have hread : rd (smoothed t p fill gap down up) (PWR_SMOOTH_FILL_EN p) = fill % 2 ^ 1 ∧
      rd (smoothed t p fill gap down up) (PWR_SMOOTH_GAP_LIMIT p) = gap % 2 ^ 4 ∧
      rd (smoothed t p fill gap down up) (PWR_SMOOTH_RAMP_DOWN p) = down % 2 ^ 3 ∧
      rd (smoothed t p fill gap down up) (PWR_SMOOTH_RAMP_UP p) = up % 2 ^ 2 := by
    unfold smoothed
    refine ⟨?_, ?_, ?_, rd_wr_same ..⟩
    · rw [rd_wr_other, rd_wr_other, rd_wr_other, rd_wr_same]
      · rfl
      all_goals simp [RegField.key, PWR_SMOOTH_FILL_EN, PWR_SMOOTH_GAP_LIMIT, PWR_SMOOTH_RAMP_DOWN, PWR_SMOOTH_RAMP_UP]
    · rw [rd_wr_other, rd_wr_other, rd_wr_same]
      · rfl
      all_goals simp [RegField.key, PWR_SMOOTH_GAP_LIMIT, PWR_SMOOTH_RAMP_DOWN, PWR_SMOOTH_RAMP_UP]
    · rw [rd_wr_other, rd_wr_same]
      · rfl
      · simp [RegField.key, PWR_SMOOTH_RAMP_DOWN, PWR_SMOOTH_RAMP_UP]
  obtain ⟨hf, hg, hd, hu⟩ := hread
  rw [smoothFields, List.map_cons, List.map_cons, List.map_cons, List.map_cons, List.map_nil, hf, hg, hd, hu,
    Nat.mod_eq_of_lt (by omega), Nat.mod_eq_of_lt (by omega), Nat.mod_eq_of_lt (by omega), Nat.mod_eq_of_lt (by omega)]

theorem smoothed_regs (hl : sameRegsBut s t [FLT_LOG_TRACE_TR_DROP, FLT_EVT_STAT_TR_DROP]) (p fill gap down up : Nat) :
    sameRegsBut s (smoothed t p fill gap down up) (smoothFields p ++ [FLT_LOG_TRACE_TR_DROP, FLT_EVT_STAT_TR_DROP]) := by
  refine sameRegsBut_wr (sameRegsBut_wr (sameRegsBut_wr (sameRegsBut_wr (sameRegsBut_mono hl (List.subset_append_right ..)) ?_) ?_) ?_) ?_
  all_goals simp [smoothFields]

theorem smoothAct_taken {fill gap down up : Nat} (hok : fill ≤ 1 ∧ gap ≤ 15 ∧ down ≤ 4 ∧ up ≤ 3) (c : Cmd) (t : State) :
    smoothAct fill gap down up c t = complete (smoothed t c.part fill gap down up) c 0 {} := if_neg (by omega)

theorem smoothAct_refused {fill gap down up : Nat} (hbad : ¬(fill ≤ 1 ∧ gap ≤ 15 ∧ down ≤ 4 ∧ up ≤ 3)) (c : Cmd) (t : State) :
    smoothAct fill gap down up c t = complete t c 0x21 {} := if_pos (by omega)

section
variable {fill gap down up : Fin 256} (hslot : slotPlain s h) (hacc : accepted s h 0x60 .control false = true)
include hslot hacc

theorem powerPolicyPartition_taken (hok : fill.val ≤ 1 ∧ gap.val ≤ 15 ∧ down.val ≤ 4 ∧ up.val ≤ 3) :
    completes (.powerPolicyPartition h fill gap down up) s fun u => recorded s u h 0x60 0 ∧
      (smoothFields h.part).map (rd u) = [fill.val, gap.val, down.val, up.val] ∧
      sameRegsBut s u (smoothFields h.part ++ [FLT_LOG_TRACE_TR_DROP, FLT_EVT_STAT_TR_DROP]) ∧ u.mem = s.mem := by
  have hact := smoothAct_taken hok (taken s h 0x60 0).1 (taken s h 0x60 0).2
  obtain ⟨hfill, hgap, hdown, hup⟩ := hok
  obtain ⟨hrec, hregs, hmem⟩ := complete_accepted (w := smoothed (taken s h 0x60 0).2 h.part fill gap down up) hslot hacc (smoothed_frame ..)
    (by decide : 0 < 256) (by decide)
  refine ⟨_, congrArg Host.Outcome.next ((withPkt_accepted hacc).trans hact), hrec, ?_,
    sameRegsBut_congr (smoothed_regs (taken_consumed s h 0x60 0).2 _ _ _ _ _) hregs, hmem⟩
  exact (List.map_congr_left fun f _ => rd_congr hregs f).trans (smoothed_read _ _ hfill hgap hdown hup)

theorem powerPolicyPartition_refused (hbad : ¬(fill.val ≤ 1 ∧ gap.val ≤ 15 ∧ down.val ≤ 4 ∧ up.val ≤ 3)) :
    completes (.powerPolicyPartition h fill gap down up) s fun u => recorded s u h 0x60 0x21 ∧
      sameRegsBut s u [FLT_LOG_TRACE_TR_DROP, FLT_EVT_STAT_TR_DROP] ∧ u.mem = s.mem :=
  ⟨_, congrArg Host.Outcome.next ((withPkt_accepted hacc).trans (smoothAct_refused hbad ..)), refused_accepted hslot hacc (by decide) (by decide)⟩

end

/-! ### POWER_QUERY -/

/-- A reply that has room stands in its buffer beside the record (R395, R402). -/
theorem replyTo_whole {bytes : List Nat} {r : Result} (htake : takesRecord t h.fn h.ring)
    (hring : ring t h.fn h.ring = ring (taken s h op 0).2 h.fn h.ring) (hop : op < 256) (hroom : bytes.length ≤ replyRoom h)
    (hfit : h.replyAddr.toNat + bytes.length ≤ 2 ^ 64)
    (hapart : h.replyAddr.toNat + bytes.length ≤ recordSlot s h ∨ recordSlot s h + 32 ≤ h.replyAddr.toNat) :
    let u := replyTo t h (taken s h op 0).1 bytes r
    recorded s u h op 0 ∧ hostSide t u ∧ hrdN u h.fn (recordSlot s h) 8 = bytes.length % 2 ^ 64 ∧
      standsAt u h.fn h.replyAddr.toNat bytes := by
  obtain ⟨t', ht'⟩ : ∃ t', hwrBytes t h.fn h.replyAddr.toNat bytes = t' := ⟨_, rfl⟩
  have hside : hostSide t t' := ht' ▸ hwrBytes_hostSide ..
  have hring' : ring t' h.fn h.ring = ring t h.fn h.ring := by rw [← ht', ring, ring, hwrBytes_hif]
  have htake' : takesRecord t' h.fn h.ring := by rwa [takesRecord, nextSlot, hring']
  have hreply : replyTo t h (taken s h op 0).1 bytes r = complete t' (taken s h op 0).1 0
      { r with r0 := bytes.length, flags := if replyRoom h < bytes.length then 1 else 0 } := by
    rw [← ht']
    unfold replyTo
    dsimp only
    rw [← replyRoom, List.take_of_length_le hroom]
  obtain ⟨hrec, ⟨hlen, -, -⟩, hrest⟩ := complete_recorded (status := 0)
    (r := { r with r0 := bytes.length, flags := if replyRoom h < bytes.length then 1 else 0 }) htake' (hring'.trans hring) (by decide) hop
  dsimp only
  rw [hreply]
  refine ⟨hrec, hostSide_trans hside (complete_hostSide ..), hlen, fun i v hv => ?_⟩
  obtain ⟨hi, -⟩ := List.getElem?_eq_some_iff.1 hv
  rw [recordSlot] at hapart
  rw [hrest _ (by omega) (by omega), ← ht']
  exact hrb_hwrBytes hfit hv

/-- The bytes of POWER_QUERY's reply, `tenths` being the temperature (R417). -/
def powerReply (s : State) (tenths : Nat) : List Nat :=
  [rd s PWR_OP_STAT_OP] ++ leBytes 2 (rd s PWR_LIMIT_LIMIT) ++ leBytes 4 (rd s PWR_PKG_AVG) ++ leBytes 2 tenths ++ List.replicate 7 0 ++
    (List.range 16).map (fun p => rd s (PWR_RATE_HW_RATE p)) ++ List.replicate 32 0

theorem length_powerReply (s : State) (tenths : Nat) : (powerReply s tenths).length = 64 := by
  simp only [powerReply, List.length_append, List.length_cons, List.length_nil, length_leBytes, List.length_replicate, List.length_map,
    List.length_range]

theorem powerReply_fields {fn a n : Nat} (hu : standsAt u fn a (powerReply s n)) : hrdN u fn a 1 = rd s PWR_OP_STAT_OP % 256 ∧
    hrdN u fn (a + 1) 2 = rd s PWR_LIMIT_LIMIT % 65536 ∧ hrdN u fn (a + 3) 4 = rd s PWR_PKG_AVG % 2 ^ 32 := by
  simp only [powerReply, standsAt_append, standsAt_cons, List.length_append, List.length_cons, List.length_nil, length_leBytes,
    Nat.add_assoc, Nat.reduceAdd, and_assoc] at hu
  obtain ⟨hpoint, -, hlimit, havg, -⟩ := hu
  exact ⟨hrdN_byte hpoint, hrdN_standsAt hlimit, hrdN_standsAt havg⟩

/-- Reading the temperature takes at most a free value. -/
theorem tjTenths_state (t : State) : (tjTenths t).2 = t ∨ (tjTenths t).2 = (fresh t).2 := by
  unfold tjTenths
  dsimp only
  split
  · exact .inl rfl
  · exact .inr rfl

theorem powerQuery_replies (hslot : slotPlain s h) (hacc : accepted s h 0x61 .any false = true) (hroom : 64 ≤ replyRoom h)
    (hfit : h.replyAddr.toNat + 64 ≤ 2 ^ 64)
    (hapart : h.replyAddr.toNat + 64 ≤ recordSlot s h ∨ recordSlot s h + 32 ≤ h.replyAddr.toNat) :
    completes (.powerQuery h) s fun u => recorded s u h 0x61 0 ∧ hrdN u h.fn (recordSlot s h) 8 = 64 ∧
      hrdN u h.fn h.replyAddr.toNat 1 = rd s PWR_OP_STAT_OP % 256 ∧ hrdN u h.fn (h.replyAddr.toNat + 1) 2 = rd s PWR_LIMIT_LIMIT % 65536 ∧
      hrdN u h.fn (h.replyAddr.toNat + 3) 4 = rd s PWR_PKG_AVG % 2 ^ 32 ∧ u.mem = s.mem ∧
      sameRegsBut s u [FLT_LOG_TRACE_TR_DROP, FLT_EVT_STAT_TR_DROP] := by
  have hc := taken_consumed s h 0x61 0
  have htake := taken_takesRecord (key := 0) hslot hacc
  obtain ⟨w, hw, hcw, htakew, hringw⟩ : ∃ w, (tjTenths (taken s h 0x61 0).2).2 = w ∧ consumed s w ∧ takesRecord w h.fn h.ring ∧
      ring w h.fn h.ring = ring (taken s h 0x61 0).2 h.fn h.ring := by
    rcases tjTenths_state (taken s h 0x61 0).2 with hs | hs
    · exact ⟨_, hs, hc, htake, rfl⟩
    · exact ⟨_, hs, consumed_fresh hc, takesRecord_fresh htake, ring_fresh ..⟩
  have hlength := length_powerReply w (tjTenths (taken s h 0x61 0).2).1
  obtain ⟨hrec, hside, hlen, hstands⟩ := replyTo_whole (bytes := powerReply w (tjTenths (taken s h 0x61 0).2).1) (r := {}) htakew hringw
    (by decide) (by rw [hlength]; exact hroom) (by rw [hlength]; exact hfit) (by rw [hlength]; exact hapart)
  obtain ⟨hpoint, hlimit, havg⟩ := powerReply_fields hstands
  rw [rd_of_consumed hcw (by decide)] at hpoint hlimit havg
  refine ⟨_, congrArg Host.Outcome.next ((withPkt_accepted hacc).trans ?_), hrec, hlen.trans (by rw [hlength]; rfl), hpoint, hlimit, havg, ?_,
    sameRegsBut_congr hcw.2 (by rw [hside])⟩
  · rw [queryPower, ← hw]
    rfl
  · have hmem := consumed_mem hcw
    rw [hside]
    exact hmem

end Sys2Proof.Machine
end

section
/-!
O39: operating points, the floor's return, Patina, droops and rail faults (R445, R451, R454, R456, R461-R463, R470).
-/
namespace Sys2Proof.Machine
open Reg Laws

variable {s t u : State} {f : RegField} {k v : Nat}

/-! ### Operating points -/

theorem rd_setPwr (s : State) (g : Pwr → Pwr) (f : RegField) : rd (setPwr s g) f = rd s f := rfl

/-- The state in which the target of a transition is the point in force. -/
def opReached (s : State) : State := wr (wr s PWR_OP_STAT_OP (opTarget s)) PWR_OP_STAT_BUSY 0

theorem opReached_read (s : State) : rd (opReached s) PWR_OP_STAT_OP = rd s PWR_OP_STAT_TARGET % 8 ∧ rd (opReached s) PWR_OP_STAT_BUSY = 0 := by
  refine ⟨?_, rd_wr_same ..⟩
  rw [opReached, rd_wr_other (by decide), rd_wr_same]
  rfl

theorem opReached_regs (s : State) : sameRegsBut s (opReached s) [PWR_OP_STAT_OP, PWR_OP_STAT_BUSY] :=
  sameRegsBut_wr (sameRegsBut_wr (sameRegsBut_of_regs rfl) (by simp)) (by simp)

/-- A decision with no transition in progress: it starts one unless its point is in force. -/
theorem goOp_idle (hbusy : isSet s PWR_OP_STAT_BUSY = false) (hk : k < 8) : rd (goOp s k) PWR_OP_STAT_TARGET = k ∧
    rd (goOp s k) PWR_OP_STAT_BUSY = (if rd s PWR_OP_STAT_OP = k then rd s PWR_OP_STAT_BUSY else 1) ∧ rd (goOp s k) PWR_OP_STAT_OP = rd s PWR_OP_STAT_OP ∧
    (goOp s k).pwr = s.pwr ∧ sameRegsBut s (goOp s k) [PWR_OP_STAT_TARGET, PWR_OP_STAT_BUSY] := by
  have htarget (t : State) : rd (wr t PWR_OP_STAT_TARGET k) PWR_OP_STAT_TARGET = k := (rd_wr_same ..).trans (Nat.mod_eq_of_lt hk)
  unfold goOp
  rw [if_neg (by rw [hbusy]; decide)]
  split
  · exact ⟨htarget s, rd_wr_other (by decide) _, rd_wr_other (by decide) _, rfl,
      sameRegsBut_wr (sameRegsBut_of_regs rfl) (by simp)⟩
  · refine ⟨?_, rd_wr_same .., ?_, rfl, sameRegsBut_wr (sameRegsBut_wr (sameRegsBut_of_regs rfl) (by simp)) (by simp)⟩
    · rw [rd_wr_other (by decide), htarget]
    · rw [rd_wr_other (by decide), rd_wr_other (by decide)]

theorem opTransitionDone_plain (hbusy : isSet s PWR_OP_STAT_BUSY = true) (hwait : s.pwr.waitOp = none) (hreturn : s.pwr.returning = false) :
    exec .opTransitionDone s = .next (opReached s) := by
  change execOpTransitionDone s = _
  unfold execOpTransitionDone
  simp only [hbusy, if_true, wr_pwr, hwait, hreturn, Bool.false_and, Bool.false_eq_true, if_false]
  rfl

theorem opTransitionDone_waiting (hbusy : isSet s PWR_OP_STAT_BUSY = true) (hwait : s.pwr.waitOp = some k) :
    exec .opTransitionDone s = .next (goOp (setPwr (opReached s) fun x => { x with waitOp := none }) k) := by
  change execOpTransitionDone s = _
  unfold execOpTransitionDone
  simp only [hbusy, if_true, wr_pwr, hwait]
  rfl

/-! ### The floor's return -/

theorem bit_clearBit_same (x i : Nat) : bit (clearBit x i) i = false := by
  unfold clearBit
  split
  · next h =>
    simp only [bit, beq_iff_eq, beq_eq_false_iff_ne] at h ⊢
    have hle : 2 ^ i ≤ x := by
      refine Nat.le_of_not_lt fun hlt => ?_
      rw [Nat.div_eq_of_lt hlt] at h
      contradiction
    have hsub : (x - 2 ^ i) / 2 ^ i = x / 2 ^ i - 1 := by
      have h1 := Nat.sub_mul_div x (2 ^ i) 1
      rwa [Nat.mul_one] at h1
    omega
  · next h => exact Bool.eq_false_iff.2 h

theorem reportFloor_read (s : State) : hasCause (reportFloor s) 4 = false ∧ rd (reportFloor s) PWR_EVT_STAT_POWER_FLOOR = 1 ∧
    (reportFloor s).pwr.hold2 = true ∧ sameRegsBut s (reportFloor s) [DSP_STAT_CAUSE_SET, PWR_EVT_STAT_POWER_FLOOR] := by
  unfold reportFloor dropCause
  dsimp only
  refine ⟨?_, ?_, rfl, sameRegsBut_wr (sameRegsBut_wr (sameRegsBut_of_regs rfl) (by simp)) (by simp)⟩
  · rw [hasCause, rd_wr_same]
    exact (bit_mod (by decide)).trans (bit_clearBit_same ..)
  · rw [rd_wr_other (by decide), rd_wr_same]
    rfl

section
variable (hcause : hasCause s 4 = true) (hgood : 16 ≤ s.pwr.okQuanta) (hbusy : isSet s PWR_OP_STAT_BUSY = false)
include hcause hgood hbusy

theorem powerFloorReturn_held (hop : 2 ≤ rd s PWR_OP_STAT_OP) : exec .powerFloorReturn s = .next (reportFloor s) :=
  (if_pos ⟨hcause, hgood⟩).trans (if_pos ⟨hop, by rw [hbusy]; rfl⟩)

theorem powerFloorReturn_raises (hop : rd s PWR_OP_STAT_OP < 2) (hwait : s.pwr.waitOp = none) :
    exec .powerFloorReturn s = .next (goOp (setPwr s fun x => { x with returning := true }) 2) := by
  have hdecided : max 2 (opDecided s) = 2 := by
    rw [opDecided, hwait, Option.getD_none, if_neg (by rw [hbusy]; decide)]
    omega
  refine (if_pos ⟨hcause, hgood⟩).trans ((if_neg fun hheld => absurd hheld.1 (by omega)).trans ?_)
  rw [hdecided]

end

/-! ### Patina -/

theorem trimField_width (k : Nat) : (trimField k).width = 8 := by
  match k with
  | 0 | 1 | 2 | 3 | 4 | 5 | 6 => rfl
  | _ + 7 => rfl

/-- A trim inside its range is read back. -/
theorem trimOf_setTrim {z : Int} (hlow : -8 ≤ z) (hhigh : z ≤ 8) : trimOf (setTrim s k z) k = z := by
  have hsign : signExt 8 (rd (setTrim s k z) (trimField k)) = z := by
    rw [setTrim, rd_wr_same, trimField_width, signExt]
    split
    all_goals omega
  rw [trimOf, hsign, if_neg (by omega), if_neg (by omega)]

theorem trimOf_le (s : State) (k : Nat) : trimOf s k ≤ 8 := by
  unfold trimOf
  dsimp only
  split_ifs
  all_goals omega

theorem patinaLower_lowers {k : Fin 7} (hen : isSet s PWR_CTRL_PATINA_EN = true) (hfirst : tfind k.val s.pwr.lowerAt = none)
    (hlow : -8 < trimOf s k) : exec (.patinaLower k) s = .next (setPwr (setTrim s k (trimOf s k - 1)) fun x =>
      { x with lowerAt := tset k.val (hoursNow s % 256) x.lowerAt }) := by
  change execPatinaLower k s = _
  unfold execPatinaLower
  simp only [hen, hfirst, hlow, Bool.not_false, Bool.and_true, decide_true, if_true]

/-! ### Droops and rail faults -/

theorem satAdd_le (max v n : Nat) : satAdd max v n ≤ max := by
  unfold satAdd
  split
  all_goals omega

theorem rd_bump_same (s : State) (f : RegField) (n : Nat) : rd (bump s f n) f = satAdd (2 ^ f.width - 1) (rd s f) n := by
  have hpos := Nat.two_pow_pos f.width
  have hle := satAdd_le (2 ^ f.width - 1) (rd s f) n
  exact (rd_wr_same ..).trans (Nat.mod_eq_of_lt (by omega))

theorem rd_bump_other {g : RegField} (h : g.key ≠ f.key) (n : Nat) : rd (bump s f n) g = rd s g := rd_wr_other h _

/-- A report of a class other than CORRECTED counts in its domain's register (R473, R474). -/
theorem report_counts {dom cls status part sub detail : Nat} (hcls : cls ≠ 0) :
    (report s dom cls status part sub detail).regs = (bump (trace s 6 part) (FLT_DOM_CNT_REPORTS dom) 1).regs := by
  unfold report
  dsimp only
  rw [if_neg hcls]
  split
  all_goals rfl

theorem report_read {dom cls status part sub detail : Nat} (hcls : cls ≠ 0) : let u := report s dom cls status part sub detail
    rd u (FLT_DOM_CNT_REPORTS dom) = satAdd (2 ^ (FLT_DOM_CNT_REPORTS dom).width - 1) (rd s (FLT_DOM_CNT_REPORTS dom)) 1 ∧
      ∀ f : RegField, 0x23000000 ≤ f.addr → f.key ≠ (FLT_DOM_CNT_REPORTS dom).key → rd u f = rd s f := by
  have htrace := trace_regs s 6 part
  refine ⟨?_, fun f hf hkey => ?_⟩
  · rw [rd_congr (report_counts hcls), rd_bump_same, htrace]
    simp only [RegField.key, FLT_DOM_CNT_REPORTS, FLT_LOG_TRACE_TR_DROP, FLT_EVT_STAT_TR_DROP, List.map_cons, List.map_nil, List.mem_cons,
      List.not_mem_nil, or_false]
    omega
  · rw [rd_congr (report_counts hcls), rd_bump_other hkey]
    refine htrace f fun hl => ?_
    simp only [RegField.key, FLT_LOG_TRACE_TR_DROP, FLT_EVT_STAT_TR_DROP, List.map_cons, List.map_nil, List.mem_cons,
      List.not_mem_nil, or_false] at hl
    omega

/-- A read that clears a counter shows the word and leaves every other register (R470). -/
theorem readClears (s : State) (f : RegField) (m : OutMsg) : let u := wr (emit s m) f 0
    u = { s with regs := u.regs, out := s.out ++ [m] } ∧ rd u f = 0 ∧ sameRegsBut s u [f] :=
  ⟨rfl, (rd_wr_same ..).trans (Nat.zero_mod _), sameRegsBut_wr (sameRegsBut_of_regs rfl) (by simp)⟩

end Sys2Proof.Machine

open Sys2Proof Sys2Proof.Machine Sys2Proof.Machine.Reg

/-- Settles O39: a policy is register writes and a record, each event its own register writes. -/
theorem powerPoliciesAndPoints : Obligations.PowerPoliciesAndPoints := by
  intro s loss
  refine ⟨?_, ?_, fun hbusy => ⟨s, if_neg (by rw [hbusy]; decide), rfl⟩, ?_, ?_, fun habove => ⟨_, if_pos habove, rfl⟩,
    fun habove => ⟨s, if_neg (by omega), rfl⟩, ?_, ⟨_, rfl, _, rfl, rfl, rfl⟩, ?_, ?_, ⟨_, rfl, readClears ..⟩, ⟨_, rfl, readClears ..⟩⟩
  · intro h hslot
    refine ⟨fun l m hacc => ⟨powerPolicy_taken hslot hacc, powerPolicy_refused hslot hacc⟩,
      fun fl g d r hacc _ => ⟨powerPolicyPartition_taken hslot hacc, powerPolicyPartition_refused hslot hacc⟩, ?_⟩
    intro b a hacc haddr hlen hfit hapart
    refine powerQuery_replies hslot hacc ?_ hfit hapart
    rw [replyRoom, if_neg fun h0 : h.replyAddr = 0 => haddr (congrArg BitVec.toNat h0)]
    exact hlen
  · intro hbusy
    refine ⟨fun hwait hreturn => ?_, fun k hk hwait => ?_⟩
    · exact ⟨_, opTransitionDone_plain hbusy hwait hreturn, (opReached_read s).1, (opReached_read s).2, rfl, opReached_regs s⟩
    · obtain ⟨hpoint, hidle⟩ := opReached_read s
      obtain ⟨htarget, hbusy', hop, hpwr, -⟩ := goOp_idle (s := setPwr (opReached s) fun x => { x with waitOp := none })
        (beq_eq_false_iff_ne.2 (by rw [rd_setPwr, hidle]; decide)) (by omega : k < 8)
      rw [rd_setPwr, hpoint] at hbusy' hop
      rw [rd_setPwr, hidle] at hbusy'
      exact ⟨_, opTransitionDone_waiting hbusy hwait, hop, htarget, hbusy', by rw [hpwr]; rfl⟩
  · intro hcause hgood hbusy
    refine ⟨fun hop => ⟨_, powerFloorReturn_held hcause hgood hbusy hop, reportFloor_read s⟩, fun hop hwait => ?_⟩
    obtain ⟨htarget, hbusy', -, hpwr, hregs⟩ := goOp_idle (s := setPwr s fun x => { x with returning := true }) hbusy (by omega : 2 < 8)
    rw [if_neg (by rw [rd_setPwr]; omega)] at hbusy'
    exact ⟨_, powerFloorReturn_raises hcause hgood hbusy hop hwait, htarget, hbusy', by rw [hpwr]; rfl, hregs⟩
  · intro hno
    refine ⟨s, if_neg fun h => ?_, rfl⟩
    rcases hno with hno | hno
    · rw [hno] at h
      exact absurd h.1 (by decide)
    · exact absurd h.2 (by omega)
  · intro k
    refine ⟨fun hen hfirst hlow => ?_, fun hoff => ⟨s, if_neg (by rw [hoff]; simp), rfl⟩⟩
    have hle := trimOf_le s k
    refine ⟨_, patinaLower_lowers hen hfirst hlow, trimOf_setTrim (by omega) (by omega), ?_, ?_⟩
    · exact sameRegsBut_wr (sameRegsBut_of_regs rfl) (by simp)
    · exact Option.isSome_of_eq_some (Laws.tfind_tset_same ..)
  · intro b
    refine ⟨_, rfl, rd_wr_same .., ?_, rfl, sameRegsBut_wr (sameRegsBut_wr (sameRegsBut_of_regs rfl) (by simp)) (by simp)⟩
    exact (rd_wr_other (by decide) _).trans (rd_bump_same ..)
  · intro r
    refine ⟨fun h => ⟨s, if_pos h, rfl⟩, fun h0 h2 => ?_⟩
    obtain ⟨hcount, hother⟩ := report_read (s := wr s PWR_EVT_STAT_RAIL_OC 1) (dom := 36) (cls := clsDevice) (status := 0) (part := 0xFF)
      (sub := 0xFF) (detail := 0) (by decide)
    refine ⟨_, if_neg (by omega), ?_, by rw [report_frame]; rfl, by rw [report_frame]; rfl, ?_⟩
    · rw [hother _ (by decide) (by decide), rd_wr_same]
      rfl
    · rw [hcount, rd_wr_other (by decide)]

end

section
/-!
O52, DISPATCH: the entry at the front of a tick program is taken, and a unit of the Armature starts on one thread (R166).
-/
namespace Sys2Proof.Machine
open Reg Laws

variable {s t u : State} {v k n cn im : Nat} {x w : WorkUnit} {p : BitVec 32}

/-! ### The entry at the front -/

/-- With no entry at the front an entry command does nothing. -/
theorem entries_idle (h : s.dsp.prog = []) (feed : Option Feed) (w : Bool) :
    ∀ i ∈ [Instr.dispatch, .moveEntry feed, .creditEntry, .segment w, .frame], completes i s (· = s) := by
  have hnext : execDispatch s = .next s ∧ execMoveEntry feed s = .next s ∧ execCreditEntry s = .next s ∧ execSegment w s = .next s ∧
      execFrame s = .next s := by
    simp only [execDispatch, execMoveEntry, execCreditEntry, execSegment, execFrame, h, and_self]
  obtain ⟨h1, h2, h3, h4, h5⟩ := hnext
  simp only [List.forall_mem_cons]
  exact ⟨⟨s, h1, rfl⟩, ⟨s, h2, rfl⟩, ⟨s, h3, rfl⟩, ⟨s, h4, rfl⟩, ⟨s, h5, rfl⟩, by simp⟩

/-- A FRAME entry at the front is for FRAME only. -/
theorem entries_idle_of_frame {off : Nat} (h : s.dsp.prog.head? = some (.frame off)) (feed : Option Feed) (w : Bool) :
    ∀ i ∈ [Instr.dispatch, .moveEntry feed, .creditEntry, .segment w], completes i s (· = s) := by
  obtain ⟨l, h⟩ := List.head?_eq_some_iff.1 h
  have hnext : execDispatch s = .next s ∧ execMoveEntry feed s = .next s ∧ execCreditEntry s = .next s ∧ execSegment w s = .next s := by
    simp only [execDispatch, execMoveEntry, execCreditEntry, execSegment, h, and_self]
  obtain ⟨h1, h2, h3, h4⟩ := hnext
  simp only [List.forall_mem_cons]
  exact ⟨⟨s, h1, rfl⟩, ⟨s, h2, rfl⟩, ⟨s, h3, rfl⟩, ⟨s, h4, rfl⟩, by simp⟩

/-! ### Overruns (R166, R182) -/

/-- The registers of an overrun. -/
def overrunRegs : List RegField := [DSP_OVERRUN_CNT_COUNT, DSP_EVT_STAT_OVERRUN]

/-- One overrun is counted and reported. -/
def overran (s u : State) : Prop :=
  rd u DSP_OVERRUN_CNT_COUNT = satAdd 65535 (rd s DSP_OVERRUN_CNT_COUNT) 1 ∧ rd u DSP_EVT_STAT_OVERRUN = 1

theorem overrun_overran (s : State) : overran s (overrun s) :=
  ⟨(rd_wr_other (by decide) _).trans (rd_bump_same ..), rd_wr_same ..⟩

theorem overrun_side (s : State) : regsSide s (overrun s) := rfl

theorem overrun_regs (s : State) : sameRegsBut s (overrun s) overrunRegs :=
  sameRegsBut_wr (sameRegsBut_wr (sameRegsBut_of_regs rfl) (by simp [overrunRegs])) (by simp [overrunRegs])

theorem overran_congr (h : overran s t) (hregs : ∀ f ∈ overrunRegs, rd u f = rd t f) : overran s u :=
  ⟨(hregs _ (by simp [overrunRegs])).trans h.1, (hregs _ (by simp [overrunRegs])).trans h.2⟩

/-! ### The start of a unit of the Armature on one thread -/

/-- Unit `x` of one thread has been started on thread `k` at an IM address, with its g1. -/
def dispatched (s u : State) (x : WorkUnit) (k im : Nat) (p : BitVec 32) : Prop :=
  thrState u k = 1 ∧ (thr u k).unit = some s.nextUnit ∧ (thr u k).pc = im % 16384 ∧ tget 0 (thr u k).g 1 = p ∧ (thr u k).tags = [] ∧
    u.nextUnit = s.nextUnit + 1 ∧ rd u (CLU_STAT_STATE (k / 512)) = 3 ∧ tfind s.nextUnit u.units = some x

theorem startUnit_armature (hmask : bit s.flt.traceMask 2 = false) (hthread : x.threads = [k]) (hkind : x.kind = .armature)
    (hk : k / 512 < 34) : startUnit s x 0 [im] (some p) =
      clusterActive (startThread (unitSeeded s x 0 k) s.nextUnit k im (some p)) (k / 512) := by
  have hclusters := unitClusters_single hthread hk
  have hcores : [k / 8].eraseDups = [k / 8] := rfl
  rw [startUnit]
  simp only [trace_off hmask, hclusters, hthread, hkind, List.map_cons, List.map_nil, hcores, List.foldl_cons, List.foldl_nil,
    List.zip_cons_cons, List.zip_nil_left, if_true]
  rfl

theorem startThread_params (s : State) (unit k im : Nat) (p : BitVec 32) :
    tget 0 (thr (startThread s unit k im (some p)) k).g 1 = p ∧ (thr (startThread s unit k im (some p)) k).tags = [] := by
  have hthr {y : Thread} {v : Nat} : thr (wr (setThr s k y) (thrField k) v) k = y := thr_setThr_same ..
  unfold startThread
  dsimp only
  rw [hthr]
  exact ⟨tget_tput_same .., rfl⟩

theorem startUnit_dispatched (hmask : bit s.flt.traceMask 2 = false) (hthread : x.threads = [k]) (hkind : x.kind = .armature)
    (hk : k / 512 < 34) (hstate : rd s (CLU_STAT_STATE (k / 512)) = 2 ∨ rd s (CLU_STAT_STATE (k / 512)) = 3) :
    let u := startUnit s x 0 [im] (some p)
    dispatched s u x k im p ∧ u.dsp = s.dsp ∧ u.mem = s.mem ∧ u.units = tset s.nextUnit x s.units ∧
      sameRegsBut s u [thrField k, CLU_STAT_STATE (k / 512)] := by
  obtain ⟨cs, cl, hseeded⟩ := unitSeeded_frame s x 0 k
  rw [startUnit_armature hmask hthread hkind hk, hseeded]
  generalize hv : ({ s with units := _, nextUnit := _, cores := cs, clusters := cl } : State) = v
  have hregs : v.regs = s.regs := by rw [← hv]
  let y := startThread v s.nextUnit k im (some p)
  have hy : sameRegsBut v y [thrField k] := startThread_regs v s.nextUnit k im (some p)
  have hactive := clusterActive_regs y (k / 512)
  have hside := clusterActive_side y (k / 512)
  have hstate' : rd y (CLU_STAT_STATE (k / 512)) = rd s (CLU_STAT_STATE (k / 512)) :=
    (hy _ (by simpa using thrField_ne_state k (k / 512))).trans (rd_congr hregs _)
  have hthr : thr (clusterActive y (k / 512)) k = thr y k := by rw [hside]; rfl
  have hunits : (clusterActive y (k / 512)).units = tset s.nextUnit x s.units := by
    rw [hside]
    change v.units = _
    rw [← hv]
  obtain ⟨hunit, hpc⟩ := startThread_thr v s.nextUnit k im (some p)
  obtain ⟨hparam, htags⟩ := startThread_params v s.nextUnit k im p
  refine ⟨⟨?_, (congrArg Thread.unit hthr).trans hunit, (congrArg Thread.pc hthr).trans hpc,
    (congrArg (fun t : Thread => tget 0 t.g 1) hthr).trans hparam, (congrArg Thread.tags hthr).trans htags, ?_, ?_, ?_⟩, ?_, ?_, hunits, ?_⟩
  · exact (hactive _ (by simpa using (thrField_ne_state k (k / 512)).symm)).trans (startThread_state ..)
  · refine (congrArg State.nextUnit hside).trans ?_
    change v.nextUnit = _
    rw [← hv]
  · exact clusterActive_state (by rwa [hstate'])
  · rw [hunits]
    exact tfind_tset_same ..
  · refine (congrArg State.dsp hside).trans ?_
    change v.dsp = _
    rw [← hv]
  · refine (congrArg State.mem hside).trans ?_
    change v.mem = _
    rw [← hv]
  · refine sameRegsBut_trans (sameRegsBut_trans (sameRegsBut_of_regs hregs) (sameRegsBut_mono hy ?_)) (sameRegsBut_mono hactive ?_)
    all_goals simp

/-! ### The stop of a unit of one thread (R21, R166) -/

/-- A cluster that runs work, or may. -/
def clusterUp (s : State) (n : Nat) : Prop := rd s (CLU_STAT_STATE n) = 2 ∨ rd s (CLU_STAT_STATE n) = 3

/-- Only threads and registers differ, no overrun among them, and cluster `n` is up if it was. -/
def stopSide (n : Nat) (s u : State) : Prop :=
  u = { s with threads := u.threads, regs := u.regs } ∧ (∀ f ∈ overrunRegs, rd u f = rd s f) ∧ (clusterUp s n → clusterUp u n)

theorem stopSide_trans (h : stopSide n s t) (h' : stopSide n t u) : stopSide n s u := by
  obtain ⟨hframe, hregs, hup⟩ := h
  obtain ⟨hframe', hregs', hup'⟩ := h'
  exact ⟨by rw [hframe', hframe], fun f hf => (hregs' f hf).trans (hregs f hf), fun hu => hup' (hup hu)⟩

theorem stopSide_of_regs (hframe : u = { s with threads := u.threads, regs := u.regs }) (h : u.regs = s.regs) : stopSide n s u :=
  ⟨hframe, fun f _ => rd_congr h f, fun hu => by rwa [clusterUp, rd_congr h]⟩

theorem overrunRegs_ne : ∀ f ∈ overrunRegs, ∀ g : RegField, 0x40000000 ≤ g.addr → f.key ≠ g.key := by
  have hlow : ∀ f ∈ overrunRegs, f.addr < 0x40000000 ∧ f.lo < 32 := by decide
  intro f hf g hg e
  obtain ⟨haddr, hlo⟩ := hlow f hf
  simp only [RegField.key] at e
  omega

/-- Registers of the clusters may change, the state of cluster `n` not. -/
theorem stopSide_of_but {l : List RegField} (hframe : u = { s with threads := u.threads, regs := u.regs }) (h : sameRegsBut s u l)
    (hl : ∀ g ∈ l, 0x40000000 ≤ g.addr ∧ (CLU_STAT_STATE n).key ≠ g.key) : stopSide n s u := by
  refine ⟨hframe, fun f hf => h f fun hmem => ?_, fun hu => ?_⟩
  · obtain ⟨g, hg, e⟩ := List.mem_map.1 hmem
    exact overrunRegs_ne f hf g (hl g hg).1 e.symm
  · rwa [clusterUp, h _ fun hmem => ?_]
    obtain ⟨g, hg, e⟩ := List.mem_map.1 hmem
    exact (hl g hg).2 e.symm

theorem stopSide_wake (s : State) (cn : Nat) : stopSide n s (settleCoreBarrier s cn) := by
  obtain ⟨p, hwoken⟩ := settleCoreBarrier_cases s cn
  refine ⟨hwoken.frame, fun f hf => hwoken.regs f fun j => ?_, fun hu => ?_⟩
  · refine overrunRegs_ne f hf _ ?_
    simp only [thrField]
    omega
  · rwa [clusterUp, hwoken.regs _ fun j => thrField_ne_state j n]

theorem stopSide_clearFaults (s : State) (n : Nat) : stopSide n s (clearFaults s n) := by
  refine stopSide_of_but (by rw [clearFaults_side]) (clearFaults_regs s n) fun g hg => ?_
  simp only [faultRegs, List.mem_cons, List.not_mem_nil, or_false] at hg
  obtain rfl | rfl := hg
  · exact ⟨by simp only [CLU_CORE_FAULT_FAULT]; omega, state_ne_fault n n 0 (by decide)⟩
  · exact ⟨by simp only [CLU_CORE_FAULT_FAULT]; omega, state_ne_fault n n 1 (by decide)⟩

/-- A cluster that is up stays up: ACTIVE it may go IDLE. -/
theorem stopSide_settleCluster (h : clusterUp s n) : stopSide n s (settleCluster s n) := by
  have h4 : rd s (CLU_STAT_STATE n) ≠ 4 := by
    rcases h with h | h
    all_goals omega
  rw [settleCluster]
  simp only [h4, false_and, if_false]
  split
  · refine ⟨rfl, fun f hf => rd_wr_other (overrunRegs_ne f hf _ ?_) _, fun _ => .inl (rd_wr_same ..)⟩
    simp only [CLU_STAT_STATE]
    omega
  · exact stopSide_of_regs rfl rfl

/-- The stop of one thread of a unit. -/
def stopThread (id : Nat) (s : State) (k : Nat) : State :=
  if (thr s k).unit = some id ∧ thrState s k ≠ 6 then wr (setThr s k { thr s k with wait := .none }) (thrField k) 0 else s

theorem stopThread_side (s : State) (id k n : Nat) : stopSide n s (stopThread id s k) := by
  unfold stopThread
  split
  · refine stopSide_of_but (l := [thrField k]) rfl (sameRegsBut_wr (sameRegsBut_of_regs rfl) (by simp)) fun g hg => ?_
    obtain rfl := List.mem_singleton.1 hg
    exact ⟨by simp only [thrField]; omega, thrField_ne_state k n⟩
  · exact stopSide_of_regs rfl rfl

theorem abandonArray_empty (h : (core s cn).arr = []) (id : Nat) : abandonArray s cn id = s := by
  rw [abandonArray, abandonWhere]
  exact if_neg (by simp [h])

/-- The unit is no longer listed; besides, only threads and registers of the clusters differ. -/
theorem stopUnit_single (hw : tfind v s.units = some w) (hthread : w.threads = [k]) (hk : k / 512 < 34) (harr : (core s (k / 8)).arr = [])
    (hup : clusterUp s (k / 512)) : stopSide (k / 512) { s with units := tdel v s.units } (stopUnit s v) := by
  have hclusters := unitClusters_single hthread hk
  have hcores : [k / 8].eraseDups = [k / 8] := rfl
  let a := stopThread v s k
  let b := forgetUnit a v w
  let c := settleCoreBarrier b (k / 8)
  have ha : stopSide (k / 512) s a := stopThread_side ..
  have hb : b = { a with threads := b.threads, units := tdel v a.units } := forgetUnit_frame ..
  have hbside : stopSide (k / 512) { s with units := tdel v s.units } b := by
    have hunits : a.units = s.units := by rw [ha.1]
    refine ⟨by rw [hb, ha.1], fun f hf => ?_, fun hu => ?_⟩
    · exact (rd_congr (by rw [hb]) f).trans (ha.2.1 f hf)
    · rw [clusterUp, rd_congr (t := b) (s := a) (by rw [hb])]
      exact ha.2.2 hu
  have hcside : stopSide (k / 512) { s with units := tdel v s.units } c := stopSide_trans hbside (stopSide_wake ..)
  have hrestart : restart c (k / 8) = c := restart_of_empty (by rw [hcside.1]; exact harr)
  have hstop : stopUnit s v = clearFaults (settleCluster c (k / 512)) (k / 512) := by
    rw [stopUnit, hw]
    simp only [hthread, hclusters, List.map_cons, List.map_nil, hcores, List.foldl_cons, List.foldl_nil, abandonArray_empty harr]
    exact congrArg (fun y => clearFaults (settleCluster y (k / 512)) (k / 512)) hrestart
  rw [hstop]
  exact stopSide_trans hcside (stopSide_trans (stopSide_settleCluster (hcside.2.2 hup)) (stopSide_clearFaults ..))

/-! ### DISPATCH (R166) -/

variable {cl c thread : Nat}

/-- The unit that a DISPATCH starts. -/
def lineUnit (k : Nat) : WorkUnit := { part := 0, kind := .armature, threads := [k], priv := true }

theorem armPhys_lt (h : armPhys s cl = some n) : n < 34 := by
  obtain ⟨l, -, hl⟩ := Option.bind_eq_some_iff.1 h
  exact List.mem_range.1 (List.mem_of_find?_eq_some hl)

theorem exec_dispatch (h : s.dsp.prog.head? = some (.dispatch cl c thread im p)) :
    exec .dispatch s = .next (dispatchEntry (popEntry s) cl c thread im p) := by
  obtain ⟨l, hl⟩ := List.head?_eq_some_iff.1 h
  change execDispatch s = _
  rw [execDispatch, hl]

theorem dispatchEntry_halted (hn : armPhys s cl = some n) (h : thrState s (coreNo n c * 8 + thread) = 7) :
    dispatchEntry s cl c thread im p = overrun s := by
  rw [dispatchEntry, hn]
  exact if_pos h

/-- The state in which the new unit starts: the thread's unit, if it still runs, stopped. -/
theorem dispatchEntry_starts (hn : armPhys s cl = some n) (hup : clusterUp s n) (h7 : thrState s (coreNo n c * 8 + thread) ≠ 7) :
    dispatchEntry s cl c thread im p = startUnit (
      if thrState s (coreNo n c * 8 + thread) = 0 ∨ thrState s (coreNo n c * 8 + thread) = 6 then s
      else
        match (thr s (coreNo n c * 8 + thread)).unit with
        | some v => setDsp (stopUnit (overrun s) v) (fun d => { d with stale := (coreNo n c * 8 + thread) / 8 :: d.stale })
        | none => overrun s) (lineUnit (coreNo n c * 8 + thread)) 0 [im] (some p) := by
  have hst : ¬(rd s (CLU_STAT_STATE n) ≠ 2 ∧ rd s (CLU_STAT_STATE n) ≠ 3) := fun h => hup.elim h.1 h.2
  rw [dispatchEntry, hn]
  dsimp only
  rw [if_neg h7, if_neg hst]
  rfl

theorem dispatchEntry_stopped (hn : armPhys s cl = some n) (hup : clusterUp s n)
    (h : thrState s (coreNo n c * 8 + thread) = 0 ∨ thrState s (coreNo n c * 8 + thread) = 6) :
    dispatchEntry s cl c thread im p = startUnit s (lineUnit (coreNo n c * 8 + thread)) 0 [im] (some p) := by
  rw [dispatchEntry_starts hn hup (by omega), if_pos h]

theorem dispatchEntry_running (hn : armPhys s cl = some n) (hup : clusterUp s n)
    (h : thrState s (coreNo n c * 8 + thread) = 1 ∨ thrState s (coreNo n c * 8 + thread) = 2)
    (hunit : (thr s (coreNo n c * 8 + thread)).unit = some v) : dispatchEntry s cl c thread im p =
      startUnit (setDsp (stopUnit (overrun s) v) (fun d => { d with stale := (coreNo n c * 8 + thread) / 8 :: d.stale }))
        (lineUnit (coreNo n c * 8 + thread)) 0 [im] (some p) := by
  rw [dispatchEntry_starts hn hup (by omega), if_neg (by omega), hunit]

theorem tno_split (n : Nat) (hc : c < 64) (ht : thread < 8) :
    (coreNo n c * 8 + thread) / 512 = n ∧ (coreNo n c * 8 + thread) / 8 = coreNo n c := by
  simp only [coreNo]
  omega

/-- DISPATCH onto a thread that has not ended: its unit is abandoned, its core's results are stale, one overrun counts. -/
theorem dispatchEntry_overruns (hn : armPhys s cl = some n) (hc : c < 64) (ht : thread < 8) (hup : clusterUp s n)
    (hmask : bit s.flt.traceMask 2 = false)
    (h : thrState s (coreNo n c * 8 + thread) = 1 ∨ thrState s (coreNo n c * 8 + thread) = 2)
    (hunit : (thr s (coreNo n c * 8 + thread)).unit = some v) (hw : tfind v s.units = some w)
    (hthread : w.threads = [coreNo n c * 8 + thread]) (hv : v ≠ s.nextUnit) (harr : (core s (coreNo n c)).arr = []) :
    let u := dispatchEntry s cl c thread im p
    dispatched s u (lineUnit (coreNo n c * 8 + thread)) (coreNo n c * 8 + thread) im p ∧ overran s u ∧ tfind v u.units = none ∧
      u.mem = s.mem ∧ u.dsp = { s.dsp with stale := coreNo n c :: s.dsp.stale } := by
  obtain ⟨hcluster, hcore⟩ := tno_split n hc ht
  rw [dispatchEntry_running hn hup h hunit]
  generalize coreNo n c * 8 + thread = k at *
  have hk : k / 512 < 34 := hcluster ▸ armPhys_lt hn
  have hupo : clusterUp (overrun s) (k / 512) := by
    have hne : rd (overrun s) (CLU_STAT_STATE n) = rd s (CLU_STAT_STATE n) := overrun_regs s _ fun hmem => by
      obtain ⟨f, hf, e⟩ := List.mem_map.1 hmem
      exact overrunRegs_ne f hf _ (by simp only [CLU_STAT_STATE]; omega) e
    rwa [hcluster, clusterUp, hne]
  obtain ⟨hframe, hregs, hkeeps⟩ := stopUnit_single (s := overrun s) hw hthread hk (hcore ▸ harr) hupo
  generalize hy : stopUnit (overrun s) v = y at *
  obtain ⟨hstart, hdsp, hmem, hunits, hbut⟩ := startUnit_dispatched (s := setDsp y (fun d => { d with stale := k / 8 :: d.stale }))
    (x := lineUnit k) (im := im) (p := p) (by rw [hframe]; exact hmask) rfl rfl hk (hkeeps hupo)
  have hnext : y.nextUnit = s.nextUnit := by rw [hframe]; rfl
  refine ⟨?_, ?_, ?_, ?_, ?_⟩
  · rw [dispatched, ← hnext]
    exact hstart
  · refine overran_congr (overrun_overran s) fun f hf => ?_
    refine (hbut f ?_).trans (hregs f hf)
    simp only [List.map_cons, List.map_nil, List.mem_cons, List.not_mem_nil, or_false, not_or]
    exact ⟨overrunRegs_ne f hf _ (by simp only [thrField]; omega), overrunRegs_ne f hf _ (by simp only [CLU_STAT_STATE]; omega)⟩
  · rw [hunits]
    refine (tfind_tset_other (by rw [setDsp, hnext]; exact hv) ..).trans ?_
    rw [setDsp, hframe]
    exact tfind_tdel_same ..
  · rw [hmem, setDsp, hframe]
    rfl
  · rw [hdsp, setDsp, hframe, ← hcore]
    rfl

end Sys2Proof.Machine
end
section
/-!
O52, MOVE: an entry's move is kept for its SEGMENT, queued for the cluster's engine, or taken from the input (R164, R166).
-/
namespace Sys2Proof.Machine
open Reg Laws

variable {s t u : State} {n i : Nat} {d : Desc} {e : Ep} {a : Armature} {c : DisplayCfg} {f : Feed} {feed : Option Feed}

/-! ### Which move -/

/-- The entry at the front is the Armature's move `d`. -/
def entryMove (s : State) (i : Nat) (a : Armature) (c : DisplayCfg) (d : Desc) : Prop :=
  s.dsp.prog.head? = some (.move i) ∧ activeArm s = some a ∧ s.dsp.cfg = some c ∧ a.descs[i]? = some d

/-- The entry after it is a SEGMENT. -/
def beforeSegment (s : State) : Prop := ∃ y k two, s.dsp.prog.tail.head? = some (.segment y k two)

theorem exec_moveEntry_segment (h : entryMove s i a c d) (hnext : beforeSegment s) :
    exec (.moveEntry feed) s = .next (setDsp (popEntry s) (fun x => { x with lineMove := some d })) := by
  obtain ⟨hhead, harm, hcfg, hdesc⟩ := h
  obtain ⟨y, k, two, hnext⟩ := hnext
  obtain ⟨l, hl⟩ := List.head?_eq_some_iff.1 hhead
  rw [hl] at hnext
  obtain ⟨m, hm⟩ := List.head?_eq_some_iff.1 hnext
  have harm' : activeArm (popEntry s) = some a := harm
  have hcfg' : (popEntry s).dsp.cfg = some c := hcfg
  change execMoveEntry feed s = _
  rw [List.tail_cons] at hm
  rw [execMoveEntry, hl, hm]
  dsimp only
  rw [harm', hcfg']
  dsimp only
  rw [hdesc]

theorem exec_moveEntry_cluster (h : entryMove s i a c d) (hnext : ¬beforeSegment s) (hn : entryCluster s d = some n) :
    exec (.moveEntry feed) s = .next (match feed with
      | some f => feedMove (popEntry s) n a c d f
      | none => queuePlinth (popEntry s) n { desc := d, owner := .entry }) := by
  obtain ⟨hhead, harm, hcfg, hdesc⟩ := h
  obtain ⟨l, hl⟩ := List.head?_eq_some_iff.1 hhead
  have harm' : activeArm (popEntry s) = some a := harm
  have hcfg' : (popEntry s).dsp.cfg = some c := hcfg
  have hn' : entryCluster (popEntry s) d = some n := hn
  have hseg : ∀ y k two m, l ≠ .segment y k two :: m := fun y k two m hm => hnext ⟨y, k, two, by rw [hl, hm]; rfl⟩
  change execMoveEntry feed s = _
  rw [execMoveEntry, hl]
  dsimp only
  rw [harm', hcfg']
  dsimp only
  rw [hdesc]
  dsimp only
  rw [hn']
  split
  · exact absurd rfl (hseg _ _ _ _)
  · next h' => cases h'
  · next h' =>
    cases h'
    cases feed
    all_goals rfl

/-! ### A move queued -/

theorem queuePlinth_first (hwait : tget [] s.moveWait n = []) (hroom : (moveQueue s n 64).length < 8) (m : Move) :
    queuePlinth s n m = queueMove s n 64 m := by
  have hplace : plinthQueue s n = some 64 := by simp [plinthQueue, hroom]
  unfold queuePlinth
  dsimp only
  rw [hwait, List.isEmpty_nil, if_pos rfl, hplace]

theorem queueMove_other {q j r : Nat} (hr : r < 68) (hq : q < 68) (h : ¬(j = n ∧ r = q)) (m : Move) :
    moveQueue (queueMove s n q m) j r = moveQueue s j r := by
  have hne : mq j r ≠ mq n q := by
    simp only [mq]
    omega
  obtain ⟨x, y, z, g, hframe⟩ := undefineDst_frame s n m
  rw [queueMove, moveQueue, setMoveQueue_frame]
  exact (tget_tput_other hne _).trans (moveQueue_congr (by rw [hframe]) j r)

/-! ### A move from the input (R164, R172) -/

theorem toLe_lt (v n : Nat) : ∀ b ∈ toLe v n, b < 256 := by
  induction n generalizing v with
  | zero => simp [toLe]
  | succ n ih =>
    rw [toLe]
    exact List.forall_mem_cons.2 ⟨Nat.mod_lt _ (by decide), ih _⟩

theorem inBytes_lt (inFmt c : Nat) : ∀ b ∈ inBytes inFmt c, b < 256 := by
  unfold inBytes
  split
  · exact toLe_lt _ _
  · simp only [List.mem_singleton, forall_eq]
    omega

/-- The bytes of a pixel row as the network takes them. -/
def pixelBytes (inFmt : Nat) (l : List Pixel) : List Nat :=
  l.flatMap fun p : Pixel => inBytes inFmt p.a ++ inBytes inFmt p.b ++ inBytes inFmt p.c

theorem pixelBytes_lt (inFmt : Nat) (l : List Pixel) : ∀ b ∈ pixelBytes inFmt l, b < 256 := by
  intro b hb
  obtain ⟨p, -, hp⟩ := List.mem_flatMap.1 hb
  simp only [List.mem_append] at hp
  obtain (hp | hp) | hp := hp
  all_goals exact inBytes_lt _ _ b hp

/-- A cluster memory lies below T2. -/
theorem endpoint_low {tier addr : Nat} {p : Option Nat} {fn : Nat} (h : endpoint s n p fn tier addr = some e) (htier : tier ≤ 1) :
    e.base + e.room ≤ t2Base := by
  have hphys {l m : Nat} (hm : physOf s l = some m) : m < 34 := List.mem_range.1 (List.mem_of_find?_eq_some hm)
  have hbits (x lo w : Nat) : bits x lo w < 2 ^ w := Nat.mod_lt _ (Nat.two_pow_pos w)
  unfold endpoint at h
  dsimp only at h
  split_ifs at h with h0 hrange h1 hrange'
  · split at h
    · contradiction
    · next m hm =>
      split_ifs at h with hin
      obtain rfl := Option.some.inj h
      have hcore := hbits addr 14 6
      have hn := hphys hm
      have hsize : memSize (bits addr 12 2) ≤ 0x100000 := by
        unfold memSize
        split_ifs
        all_goals decide
      have hbase : memBase m (bits addr 12 2) (bits addr 14 6) ≤ 0x40000000 + m * 0x1000000 + bits addr 14 6 * 0x20000 + 0x418000 := by
        unfold memBase
        split_ifs
        all_goals omega
      simp only [t2Base]
      omega
  · split at h
    · contradiction
    · next m hm =>
      split_ifs at h
      obtain rfl := Option.some.inj h
      have hoff := hbits addr 0 20
      have hn := hphys hm
      simp only [memBase, if_pos, t2Base]
      omega
  all_goals omega

theorem needDst_oneRow (hcopy : isCopy d = true) (hcomp : d.comp = 0) (h : oneRow d) : needDst d = d.e0 := by
  obtain ⟨hto, -, hnarrow, hcompact, -⟩ := plainMove_kind (d := d) (by simp [plainMove, hcopy, hcomp])
  obtain ⟨h1, h2, h3⟩ := h
  simp [needDst, hto, hnarrow, hcompact, span, h1, h2, h3]

/-- A row of the input long enough goes to the destination. -/
theorem feedMove_row {l : List Pixel} (hbad : descBad d false = false) (htier : d.dstTier ≤ 1) (hcopy : isCopy d = true) (hcomp : d.comp = 0)
    (h1 : oneRow d) (hcredit : bit d.flags 0 = false) (he : endpoint s n (some 0) 0 d.dstTier d.dst = some e) (hroom : d.e0 ≤ e.room)
    (hrow : feedRow s c f = some l) (hlen : d.e0 ≤ (pixelBytes a.inFmt l).length) :
    feedMove s n a c d f = writePlain s d e (((pixelBytes a.inFmt l).take d.e0).map (BitVec.ofNat 8)) := by
  unfold feedMove
  rw [hbad, if_neg Bool.false_ne_true, he, hrow]
  dsimp only [Option.getD_some]
  rw [if_pos ⟨htier, hcopy, hcomp, by rwa [needDst_oneRow hcopy hcomp h1]⟩, descBytes_oneRow h1, hcredit, ← pixelBytes, Nat.sub_eq_zero_of_le hlen]
  rfl

theorem feedMove_bytes {l : List Pixel} (hbad : descBad d false = false) (htier : d.dstTier ≤ 1) (hcopy : isCopy d = true)
    (hcomp : d.comp = 0) (h1 : oneRow d) (hcredit : bit d.flags 0 = false) (he : endpoint s n (some 0) 0 d.dstTier d.dst = some e)
    (hroom : d.e0 ≤ e.room) (hclean : cleanBytes s e.base d.e0) (hrow : feedRow s c f = some l) (hlen : d.e0 ≤ (pixelBytes a.inFmt l).length) :
    let u := feedMove s n a c d f
    (∀ j < d.e0, (rb u (e.base + j)).toNat = (pixelBytes a.inFmt l).getD j 0) ∧ sameMemBut s u e.base d.e0 ∧ u.host = s.host ∧ u.dsp = s.dsp := by
  rw [feedMove_row hbad htier hcopy hcomp h1 hcredit he hroom hrow hlen]
  generalize hgot : ((pixelBytes a.inFmt l).take d.e0).map (BitVec.ofNat 8) = got
  have hgotlen : got.length = d.e0 := by rw [← hgot, List.length_map, List.length_take, Nat.min_eq_left hlen]
  have hhost : e.host = false := Bool.eq_false_iff.2 fun h => absurd ((endpoint_host he).1.1 h) (by omega)
  have hlow := endpoint_low he htier
  have hside := writePlain_row h1 hhost hgotlen (by omega) hclean
  have hframe : ∃ x y, writePlain s d e got = { s with mem := (wbRow s e.base got.zipIdx).mem, clusters := x, regs := y } :=
    ⟨_, _, hside.1.trans (by rw [wbRow_frame])⟩
  obtain ⟨x, y, hframe⟩ := hframe
  have hread (x : Nat) : rb (writePlain s d e got) x = if e.base ≤ x ∧ x < e.base + d.e0 then got.getD (x - e.base) 0 else rb s x := by
    have hmem : (writePlain s d e got).mem = (wbRow s e.base got.zipIdx).mem := by rw [hframe]
    rw [rb, hmem, ← rb, rb_wbRow, hgotlen]
    rfl
  refine ⟨fun j hj => ?_, fun x hx => (hread x).trans (if_neg hx), by rw [hframe], by rw [hframe]⟩
  have hj' : j < (pixelBytes a.inFmt l).length := by omega
  have hval := pixelBytes_lt a.inFmt l _ (List.getElem_mem hj')
  have hgot' : got.getD j 0 = BitVec.ofNat 8 (pixelBytes a.inFmt l)[j] := by
    rw [← hgot, List.getD_eq_getElem _ _ (by rw [List.length_map, List.length_take]; omega), List.getElem_map, List.getElem_take]
  rw [hread, if_pos (by omega), Nat.add_sub_cancel_left, hgot', List.getD_eq_getElem _ _ hj', BitVec.toNat_ofNat, Nat.mod_eq_of_lt hval]

end Sys2Proof.Machine
end

section
/-!
O52, CREDIT, SEGMENT and FRAME: a core's counter is raised, a line's segment is stored, the frame's words are written (R71, R164, R165,
R182).
-/
namespace Sys2Proof.Machine
open Reg Laws

variable {s t u : State} {y k j z n a off : Nat} {two : Bool} {d : Desc} {arm : Armature}

/-! ### CREDIT (R71) -/

theorem exec_creditEntry {cl c p : Nat} {out : Bool} (h : s.dsp.prog.head? = some (.credit cl c out n)) (hp : armPhys s cl = some p)
    (harr : (core s (coreNo p c)).arr = []) :
    exec .creditEntry s = .next (setCore (popEntry s) (coreNo p c) (raised (core s (coreNo p c)) out 64 n)) := by
  obtain ⟨l, hl⟩ := List.head?_eq_some_iff.1 h
  have hp' : armPhys (popEntry s) cl = some p := hp
  have harr' : (core (popEntry s) (coreNo p c)).arr = [] := harr
  have hlim : creditLimit (core (popEntry s) (coreNo p c)) out = 64 := by rw [creditLimit, harr']
  have hadd := addCredit_held (s := popEntry s) (output := out) (.inl harr') n
  rw [hlim] at hadd
  change execCreditEntry s = _
  rw [execCreditEntry, hl]
  dsimp only
  rw [hp']
  exact congrArg Host.Outcome.next hadd

/-! ### SEGMENT (R164, R173, R182) -/

/-- The segments of the lines. -/
abbrev Segments := List (Nat × List (Nat × List Pixel))

/-- Segment `k` of line `y`. -/
def segmentOf (segs : Segments) (y k : Nat) : Option (List Pixel) := tfind k ((tfind y segs).getD [])

/-- Segment `k` of line `y` stored. -/
def storeSegment (segs : Segments) (y k : Nat) (l : List Pixel) : Segments := tset y (tset k l ((tfind y segs).getD [])) segs

theorem tfind_storeSegment (segs : Segments) (y k : Nat) (l : List Pixel) :
    tfind y (storeSegment segs y k l) = some (tset k l ((tfind y segs).getD [])) := tfind_tset_same ..

theorem segmentOf_storeSegment (segs : Segments) (y k : Nat) (l : List Pixel) : segmentOf (storeSegment segs y k l) y k = some l := by
  rw [segmentOf, tfind_storeSegment]
  exact tfind_tset_same ..

theorem segmentOf_storeSegment_other (segs : Segments) (y : Nat) (l : List Pixel) (h : j ≠ k) :
    segmentOf (storeSegment segs y k l) y j = segmentOf segs y j := by
  rw [segmentOf, tfind_storeSegment]
  exact tfind_tset_other h ..

/-- The segments of another line are as they were. -/
theorem tfind_storeSegment_other (segs : Segments) (k : Nat) (l : List Pixel) (h : z ≠ y) :
    tfind z (storeSegment segs y k l) = tfind z segs := tfind_tset_other h ..

theorem segmentOf_line {segs segs' : Segments} (h : tfind z segs = tfind z segs') (j : Nat) : segmentOf segs z j = segmentOf segs' z j := by
  rw [segmentOf, h, ← segmentOf]

/-- The segment's entry and its move are gone. -/
def segmentTaken (s : State) : State := setDsp (popEntry s) (fun x => { x with lineMove := none })

/-- A segment is stored for a line not yet checked and at most 31 ahead. -/
theorem acceptSegment_stored (h : s.dsp.checked ≤ y) (h' : y < s.dsp.checked + 32) (k : Nat) (l : List Pixel) :
    acceptSegment s y k l = setDsp s (fun d => { d with segs := storeSegment d.segs y k l }) := if_pos ⟨h, h'⟩

theorem acceptSegment_late (h : y < s.dsp.checked ∨ s.dsp.checked + 32 ≤ y) (k : Nat) (l : List Pixel) : acceptSegment s y k l = overrun s :=
  if_neg (by omega)

/-- With no move that wrote, nothing is stored. -/
theorem exec_segment_unwritten {w : Bool} (h : s.dsp.prog.head? = some (.segment y k two)) (hw : w = false ∨ s.dsp.lineMove = none) :
    exec (.segment w) s = .next (segmentTaken s) := by
  obtain ⟨l, hl⟩ := List.head?_eq_some_iff.1 h
  have hmove : (if w then s.dsp.lineMove else none) = none := by
    rcases hw with hw | hw
    · rw [hw]
      rfl
    · rw [hw, ite_self]
  change execSegment w s = _
  rw [execSegment, hl]
  dsimp only
  rw [hmove]
  split
  · contradiction
  · rfl

/-- A SEGMENT whose move wrote offers the pixels to the line buffer. -/
theorem exec_segment_written {bytes : List Nat} (h : s.dsp.prog.head? = some (.segment y k two)) (hmove : s.dsp.lineMove = some d)
    (harm : activeArm s = some arm) (hdata : segmentData (segmentTaken s) d = (some bytes, segmentTaken s)) :
    exec (.segment true) s = .next (
      let l := codePixels arm.direct bytes
      if two then acceptSegment (acceptSegment (segmentTaken s) y k (l.take (l.length / 2))) (y + 1) k (l.drop (l.length / 2))
      else acceptSegment (segmentTaken s) y k l) := by
  obtain ⟨l, hl⟩ := List.head?_eq_some_iff.1 h
  have harm' : activeArm (segmentTaken s) = some arm := harm
  change execSegment true s = _
  rw [execSegment, hl]
  dsimp only
  rw [hmove, if_pos rfl, ← segmentTaken, harm']
  dsimp only
  rw [hdata]
  cases two
  all_goals rfl

/-- The lines a SEGMENT fills. -/
def segmentsAfter (segs : Segments) (y k : Nat) (two : Bool) (l : List Pixel) : Segments :=
  if two then storeSegment (storeSegment segs y k (l.take (l.length / 2))) (y + 1) k (l.drop (l.length / 2)) else storeSegment segs y k l

theorem exec_segment_stored {bytes : List Nat} (h : s.dsp.prog.head? = some (.segment y k two)) (hmove : s.dsp.lineMove = some d)
    (harm : activeArm s = some arm) (hdata : segmentData (segmentTaken s) d = (some bytes, segmentTaken s))
    (hlow : s.dsp.checked ≤ y) (hhigh : (if two then y + 1 else y) < s.dsp.checked + 32) :
    exec (.segment true) s = .next (setDsp (segmentTaken s)
      (fun x => { x with segs := segmentsAfter x.segs y k two (codePixels arm.direct bytes) })) := by
  rw [exec_segment_written h hmove harm hdata]
  refine congrArg Host.Outcome.next ?_
  cases two with
  | false => exact acceptSegment_stored (s := segmentTaken s) hlow hhigh k _
  | true =>
    have hhigh' : y + 1 < s.dsp.checked + 32 := hhigh
    dsimp only
    rw [if_pos rfl, acceptSegment_stored (s := segmentTaken s) hlow (Nat.lt_of_succ_lt hhigh')]
    rw [acceptSegment_stored (by exact Nat.le_succ_of_le hlow) (by exact hhigh')]
    rfl

theorem segmentsAfter_reads (segs : Segments) (y k : Nat) (two : Bool) (l : List Pixel) :
    let segs' := segmentsAfter segs y k two l
    segmentOf segs' y k = some (if two then l.take (l.length / 2) else l) ∧
      (two = true → segmentOf segs' (y + 1) k = some (l.drop (l.length / 2))) ∧
      (∀ j, j ≠ k → segmentOf segs' y j = segmentOf segs y j) ∧
      ∀ z, z ≠ y → (two = true → z ≠ y + 1) → tfind z segs' = tfind z segs := by
  cases two with
  | false =>
    exact ⟨segmentOf_storeSegment .., (nomatch ·), fun j hj => segmentOf_storeSegment_other _ _ _ hj,
      fun z hz _ => tfind_storeSegment_other _ _ _ hz⟩
  | true =>
    let first := storeSegment segs y k (l.take (l.length / 2))
    have hline (j : Nat) : segmentOf (storeSegment first (y + 1) k (l.drop (l.length / 2))) y j = segmentOf first y j :=
      segmentOf_line (tfind_storeSegment_other _ _ _ (Nat.ne_of_lt (Nat.lt_succ_self y))) j
    refine ⟨(hline k).trans (segmentOf_storeSegment ..), fun _ => segmentOf_storeSegment .., fun j hj => ?_, fun z hz hz' => ?_⟩
    · exact (hline j).trans (segmentOf_storeSegment_other _ _ _ hj)
    · exact (tfind_storeSegment_other _ _ _ (hz' rfl)).trans (tfind_storeSegment_other _ _ _ hz)

/-! ### Values read in parts -/

theorem rdN_lt (s : State) (a n : Nat) : rdN s a n < 256 ^ n := by
  induction n generalizing a with
  | zero => exact Nat.one_pos
  | succ n ih =>
    have hb := (rb s a).isLt
    have hn := ih (a + 1)
    rw [rdN, Nat.pow_succ]
    omega

theorem rdN_add (s : State) (a m n : Nat) : rdN s a (m + n) = rdN s a m + 256 ^ m * rdN s (a + m) n := by
  induction m generalizing a with
  | zero => simp [rdN]
  | succ m ih =>
    rw [Nat.succ_add, rdN, rdN, ih, Nat.add_assoc a 1 m, Nat.add_comm 1 m, Nat.pow_succ]
    ring

theorem rdN_low (s : State) (a m n : Nat) : rdN s a m = rdN s a (m + n) % 256 ^ m := by
  rw [rdN_add, Nat.add_mul_mod_self_left, Nat.mod_eq_of_lt (rdN_lt s a m)]

theorem rdN_high (s : State) (a m n : Nat) : rdN s (a + m) n = rdN s a (m + n) / 256 ^ m := by
  rw [rdN_add, Nat.add_mul_div_left _ _ (Nat.pow_pos (by decide)), Nat.div_eq_of_lt (rdN_lt s a m), Nat.zero_add]

/-! ### Whole words written (R18, R42, R45) -/

/-- Only the error records of words differ, and what the scrubbers hold does not. -/
def wordSide (s t : State) : Prop :=
  (∃ p e k, t = { s with poison := p, upsets := e, clusters := k }) ∧ ∀ n, (clu t n).scrub = (clu s n).scrub

theorem wordSide_refl (s : State) : wordSide s s := ⟨⟨_, _, _, rfl⟩, fun _ => rfl⟩

theorem wordSide_trans (h : wordSide s t) (h' : wordSide t u) : wordSide s u := by
  obtain ⟨⟨p, e, k, rfl⟩, hscrub⟩ := h
  obtain ⟨⟨p', e', k', rfl⟩, hscrub'⟩ := h'
  exact ⟨⟨p', e', k', rfl⟩, fun n => (hscrub' n).trans (hscrub n)⟩

theorem wroteWord_full {l : List Nat} {w : Nat} (hall : ∀ i < 8, 8 * w + i ∈ l) (hidle : ¬awaitsWriteBack s (8 * w)) :
    wordSide s (wroteWord l s w) := by
  have hcover : (List.range 8).all (fun i => l.contains (8 * w + i)) = true := by
    simp only [List.all_eq_true, List.mem_range, List.contains_iff_mem]
    exact hall
  have hfull : wordSide s (fullWrite s (8 * w)) := by
    obtain ⟨p, e, k, hframe, hscrub⟩ := fullWrite_frame s (8 * w)
    exact ⟨⟨p, e, k, hframe⟩, fun n => by rw [hframe]; exact hscrub n⟩
  have hchecked (known : Bool) : wordSide s (portWrote (if !known then s else fullWrite s (8 * w)) (8 * w)) := by
    cases known with
    | false => exact (portWrote_of_idle hidle).symm ▸ wordSide_refl s
    | true => exact (portWrote_of_idle ((awaitsWriteBack_congr hfull.2).not.2 hidle)).symm ▸ hfull
  rw [wroteWord, hcover, if_pos rfl]
  exact hchecked _

/-- A write of whole words that no scrubber is about to write back. -/
theorem wroteBytes_full {l : List Nat} (hfull : ∀ x ∈ l, ∀ i < 8, 8 * (x / 8) + i ∈ l) (hidle : ∀ x ∈ l, ¬awaitsWriteBack s (8 * (x / 8))) :
    wordSide s (wroteBytes s l) := by
  refine List.foldlRecOn (motive := wordSide s) _ _ (wordSide_refl s) fun t ht w hw => ?_
  obtain ⟨x, hx, rfl⟩ := List.mem_map.1 (dedupNext_subset _ hw)
  exact wordSide_trans ht (wroteWord_full (hfull x hx) ((awaitsWriteBack_congr ht.2).not.2 (hidle x hx)))

/-! ### FRAME (R165) -/

theorem exec_frame {l : Nat} (h : s.dsp.prog.head? = some (.frame off)) (hclusters : s.dsp.clusters = [l]) (hn : physOf s l = some n) :
    let a := memBase n 4 0 + off
    exec .frame s = .next (wroteBytes (wrN (wrN (popEntry s) a 8 (frameWords s).1) (a + 8) 8 (frameWords s).2)
      ((List.range 16).map (fun i => a + i))) := by
  obtain ⟨m, hm⟩ := List.head?_eq_some_iff.1 h
  have hclusters' : (popEntry s).dsp.clusters = [l] := hclusters
  have hn' : physOf (popEntry s) l = some n := hn
  change execFrame s = _
  rw [execFrame, hm]
  dsimp only
  rw [frameEntry]
  dsimp only
  rw [hclusters', List.foldl_cons, List.foldl_nil, hn']
  rfl

/-- Two words written at an aligned address. -/
theorem twoWords_written (ha : a % 8 = 0) (hidle : ∀ x, x = a ∨ x = a + 8 → ¬awaitsWriteBack s x) (v w : Nat) :
    let u := wroteBytes (wrN (wrN s a 8 v) (a + 8) 8 w) ((List.range 16).map (fun i => a + i))
    rdN u a 8 = v % 256 ^ 8 ∧ rdN u (a + 8) 8 = w % 256 ^ 8 ∧ sameMemBut s u a 16 ∧ u.regs = s.regs ∧ u.host = s.host ∧ u.dsp = s.dsp := by
  generalize ht : wrN (wrN s a 8 v) (a + 8) 8 w = t
  have hframe : t = { s with mem := t.mem } := by rw [← ht, wrN_frame 8 (wrN s a 8 v), wrN_frame 8 s a v]
  have hmem (x : Nat) : x ∈ (List.range 16).map (fun i => a + i) ↔ a ≤ x ∧ x < a + 16 := by
    simp only [List.mem_map, List.mem_range]
    exact ⟨fun ⟨i, hi, h⟩ => by omega, fun h => ⟨x - a, by omega, by omega⟩⟩
  have hidle' : ∀ x ∈ (List.range 16).map (fun i => a + i), ¬awaitsWriteBack t (8 * (x / 8)) := fun x hx => by
    have hx' := (hmem x).1 hx
    refine (awaitsWriteBack_congr fun n => by rw [hframe]; rfl).not.2 (hidle _ ?_)
    omega
  have hside : wordSide t (wroteBytes t ((List.range 16).map (fun i => a + i))) := by
    refine wroteBytes_full (fun x hx i hi => ?_) hidle'
    have hx' := (hmem x).1 hx
    exact (hmem _).2 (by omega)
  obtain ⟨⟨p, e, k, hu⟩, -⟩ := hside
  have humem : (wroteBytes t ((List.range 16).map (fun i => a + i))).mem = t.mem := by rw [hu]
  refine ⟨?_, ?_, fun x hx => ?_, by rw [hu, hframe], by rw [hu, hframe], by rw [hu, hframe]⟩
  · rw [rdN_congr humem, ← ht, ← rdN_wrN_same 8 s a v]
    exact rdN_of_bytes 8 fun i hi => rb_wrN_other 8 (by omega)
  · rw [rdN_congr humem, ← ht, rdN_wrN_same]
  · rw [rb, humem, ← rb, ← ht, rb_wrN_other 8 (by omega), rb_wrN_other 8 (by omega)]

/-- The words of a FRAME entry, as its readers take them. -/
theorem frameWords_halves (s : State) : (frameWords s).1 % 256 ^ 8 % 256 ^ 4 = contentFrame s % 2 ^ 32 ∧
    (frameWords s).1 % 256 ^ 8 / 256 ^ 4 = rd s DSP_FRAME_CNT_FRAMES % 2 ^ 32 := by
  simp only [frameWords]
  omega

theorem frame_written {l : Nat} (h : s.dsp.prog.head? = some (.frame off)) (hclusters : s.dsp.clusters = [l]) (hn : physOf s l = some n)
    (hoff : off % 16 = 0) (hidle : ∀ x, x = memBase n 4 0 + off ∨ x = memBase n 4 0 + off + 8 → ¬awaitsWriteBack s x) :
    let a := memBase n 4 0 + off
    completes .frame s fun u => rdN u a 4 = contentFrame s % 2 ^ 32 ∧ rdN u (a + 4) 4 = rd s DSP_FRAME_CNT_FRAMES % 2 ^ 32 ∧
      rdN u (a + 8) 8 = (rd s DSP_PHASE_PHASE + b2n (contentPhase s == 0) * 2 ^ 16) % 2 ^ 64 ∧ sameMemBut s u a 16 ∧ u.regs = s.regs ∧
      u.host = s.host ∧ u.dsp = (popEntry s).dsp := by
  intro a
  have ha : a % 8 = 0 := by
    have hbase := memBase_aligned n 4 0
    omega
  obtain ⟨hfirst, hsecond, hbytes, hregs, hhost, hdsp⟩ := twoWords_written (s := popEntry s) ha hidle (frameWords s).1 (frameWords s).2
  obtain ⟨hinput, houtput⟩ := frameWords_halves s
  refine ⟨_, exec_frame h hclusters hn, ?_, ?_, hsecond, hbytes, hregs, hhost, hdsp⟩
  · rw [rdN_low _ a 4 4, hfirst]
    exact hinput
  · rw [rdN_high _ a 4 4, hfirst]
    exact houtput

end Sys2Proof.Machine

open Sys2Proof Sys2Proof.Machine Sys2Proof.Machine.Reg

/-- Settles O52: each entry command takes its entry off the program and does what that entry says. -/
theorem tickProgramEntriesAct : Obligations.TickProgramEntriesAct := by
  intro s feed w popped overran
  refine ⟨fun h => entries_idle h feed w, fun off h => entries_idle_of_frame h feed w, ?_, ?_, ?_, ?_, ?_⟩
  · intro cl c t im p n hhead hn hc ht k started
    obtain ⟨hcluster, -⟩ := tno_split n hc ht
    have hk : k / 512 < 34 := hcluster ▸ armPhys_lt hn
    have hn' : armPhys popped cl = some n := hn
    have hexec := exec_dispatch hhead
    refine ⟨fun h7 => ?_, fun h0 hup hmask => ?_, fun v x h12 hunit hx hthread hv harr hup hmask => ?_⟩
    · exact ⟨_, hexec.trans (congrArg _ (dispatchEntry_halted hn' h7)), overrun_overran popped, overrun_side popped, overrun_regs popped⟩
    · have hup' : clusterUp popped (k / 512) := by rw [hcluster]; exact hup
      obtain ⟨hstart, hdsp, hmem, -, hregs⟩ := startUnit_dispatched (s := popped) (x := lineUnit k) (im := im) (p := p) hmask rfl rfl hk hup'
      rw [dispatched, hcluster] at hstart
      rw [hcluster] at hregs
      exact ⟨_, hexec.trans (congrArg _ (dispatchEntry_stopped hn' hup h0)), hstart, hdsp, hmem, hregs⟩
    · obtain ⟨hstart, hover, hgone, hmem, hdsp⟩ := dispatchEntry_overruns (s := popped) (im := im) (p := p) hn' hc ht hup hmask h12 hunit hx
        hthread hv harr
      rw [dispatched, hcluster] at hstart
      exact ⟨_, hexec, hstart, hover, hgone, hmem, hdsp⟩
  · intro i a c d hhead harm hcfg hdesc
    have hmove : entryMove s i a c d := ⟨hhead, harm, hcfg, hdesc⟩
    refine ⟨fun y k two hnext => ⟨_, exec_moveEntry_segment hmove ⟨y, k, two, hnext⟩, rfl⟩, ?_⟩
    intro n hnext hn m
    have hlast : ¬beforeSegment s := fun ⟨y, k, two, h⟩ => hnext y k two h
    refine ⟨fun hwait hroom => ?_, fun f e l hbad htier hcopy hcomp hrow hcredit he hroom hclean hbytes hlen => ?_⟩
    · have hqueue : queuePlinth popped n m = queueMove popped n 64 m := queuePlinth_first (s := popped) hwait hroom m
      obtain ⟨x, y, hframe⟩ := queueMove_frame popped n 64 m
      obtain ⟨x', y', z', f', hdst⟩ := undefineDst_frame popped n m
      refine ⟨_, (exec_moveEntry_cluster hmove hlast hn).trans (congrArg _ hqueue), queueMove_queued popped n 64 m, by rw [hframe, hdst],
        fun hnone => ?_, fun j q hq hother => queueMove_other hq (by decide) hother m⟩
      rw [hframe, undefineDst_none hnone]
      exact ⟨rfl, rfl⟩
    · obtain ⟨row, hfeed, rfl⟩ := Option.map_eq_some_iff.1 hbytes
      exact ⟨_, exec_moveEntry_cluster hmove hlast hn,
        feedMove_bytes (s := popped) (a := a) hbad htier hcopy hcomp hrow hcredit he hroom hclean hfeed hlen⟩
  · intro cl c out n p hhead hp harr k
    refine ⟨_, exec_creditEntry hhead hp harr, rfl, fun j hj => core_setCore_other hj _, core_setCore_same ..⟩
  · intro y k two hhead gone
    refine ⟨fun hw => ⟨_, exec_segment_unwritten hhead hw, rfl⟩, ?_⟩
    intro a d bytes hmove harm hdata px l
    refine ⟨fun hlow hhigh => ?_, fun htwo hlate => ?_⟩
    · obtain ⟨hfirst, hsecond, hothers, hlines⟩ := segmentsAfter_reads s.dsp.segs y k two px
      exact ⟨_, exec_segment_stored hhead hmove harm hdata hlow hhigh, hfirst, hsecond, hothers, hlines, rfl⟩
    · obtain rfl := htwo
      exact ⟨_, (exec_segment_written hhead hmove harm hdata).trans (congrArg _ (acceptSegment_late (s := gone) hlate k px)),
        overrun_overran gone, overrun_side gone, overrun_regs gone⟩
  · intro off l n hhead hclusters hn _ hoff a hidle
    exact frame_written hhead hclusters hn hoff fun x hx ⟨c, m, k, v, hcell, hheld⟩ => hheld (hidle x hx c m k v hcell)

end

section
/-!
Writes of a port into one cluster (R45, R54): of the registers they touch the counts of that cluster's sweeps alone.
-/
namespace Sys2Proof.Machine
open Reg Laws

variable {s t u : State} {a n m c w cn : Nat} {l : List Nat}

/-- The registers that count a cluster's sweeps (R54). -/
def sweepRegs (n : Nat) : List RegField := [CLU_SCRUB_STAT_SWEEPS n, CLU_SCRUB_STAT_MAX_SWEEP n]

theorem settleSweep_regs (s : State) (n : Nat) : sameRegsBut s (settleSweep s n) (sweepRegs n) := by
  unfold settleSweep
  refine sameRegsBut_ite (sameRegsBut_congr (sameRegsBut_wr (sameRegsBut_wr (sameRegsBut_of_regs rfl) ?_) ?_) rfl) (sameRegsBut_of_regs rfl)
  all_goals simp [sweepRegs]

theorem portWrote_regs (h : ∀ x, cellOf a = some x → x.1 = n) : sameRegsBut s (portWrote s a) (sweepRegs n) := by
  unfold portWrote
  split
  · exact sameRegsBut_of_regs rfl
  · next i m c w hcell =>
    obtain rfl : i = n := h _ hcell
    exact sameRegsBut_ite (sameRegsBut_trans (t := setClu s i _) (sameRegsBut_of_regs rfl) (settleSweep_regs _ i)) (sameRegsBut_of_regs rfl)

theorem wroteWord_regs (hclean : cleanWord s (8 * w)) (h : ∀ x, cellOf (8 * w) = some x → x.1 = n) :
    sameRegsBut s (wroteWord l s w) (sweepRegs n) := by
  have hfull : (fullWrite s (8 * w)).regs = s.regs := by
    obtain ⟨p, e, k, hframe, -⟩ := fullWrite_frame s (8 * w)
    rw [hframe]
  unfold wroteWord
  rw [mergeWord_of_clean hclean]
  refine sameRegsBut_trans (sameRegsBut_of_regs ?_) (portWrote_regs h)
  split_ifs
  exacts [rfl, hfull, rfl]

/-- Bytes written into words without an error of one cluster. -/
theorem wroteBytes_regs (hclean : ∀ a ∈ l, cleanWord s a) (h : ∀ a ∈ l, ∀ x, cellOf a = some x → x.1 = n) :
    sameRegsBut s (wroteBytes s l) (sweepRegs n) := by
  refine (List.foldlRecOn (motive := fun t => scrubSide s t ∧ sameRegsBut s t (sweepRegs n)) _ _
    ⟨scrubSide_refl s, sameRegsBut_of_regs rfl⟩ fun t ⟨hside, hregs⟩ w hw => ?_).2
  obtain ⟨a, ha, rfl⟩ := List.mem_map.1 (dedupNext_subset _ hw)
  have hword : cleanWord t (8 * (a / 8)) := (cleanWord_of_scrubSide hside).2 ((cleanWord_of_word (by omega)).2 (hclean a ha))
  exact ⟨scrubSide_trans hside (wroteWord_side hword),
    sameRegsBut_trans hregs (wroteWord_regs hword fun x hx => h a ha x ((cellOf_word a).symm.trans hx))⟩

/-- An address inside CM names its word (R602). -/
theorem cellOf_cm (hn : n < 34) (ha : a < 1048576) : cellOf (memBase n 4 c + a) = some (n, 4, 0, a / 8) := by
  have hbase : memBase n 4 c + a = 0x40000000 + n * 0x1000000 + (0x100000 + a) := by rw [memBase, if_pos rfl]; omega
  have hcluster : (0x40000000 + n * 0x1000000 + (0x100000 + a) - 0x40000000) / 0x1000000 = n := by omega
  have hoff : (0x40000000 + n * 0x1000000 + (0x100000 + a) - 0x40000000) % 0x1000000 = 0x100000 + a := by omega
  rw [hbase]
  simp only [cellOf, hcluster, hoff]
  rw [if_neg (by omega), if_neg (by omega), if_pos (by omega), Nat.add_sub_cancel_left]

/-- A region that lies in its memory lies in its core's cluster. -/
theorem cellOf_region {r : Sys2Proof.Region} {i len : Nat} (hcn : cn < 2176) (hok : regionOk r len = true) (hi : i < len) {x : Nat × Nat × Nat × Nat}
    (h : cellOf (regionAddr cn r + i) = some x) : x.1 = cn / 64 := by
  rw [regionOk, decide_eq_true_eq] at hok
  unfold regionAddr at h
  split_ifs at h hok
  · rw [Nat.add_assoc, cellOf_cm (by omega) (by omega)] at h
    cases h
    rfl
  · rw [Nat.add_assoc, cellOf_memBase (by omega) (Nat.mod_lt _ (by decide)) (by decide) (by change _ < 32768; omega)] at h
    cases h
    rfl

end Sys2Proof.Machine
end

section
/-!
O18: the max-abs collectors (R115-R117).
-/
namespace Sys2Proof.Machine
open Reg Laws

variable {s u : State} {t : ThreadId} {n i j k a : Nat}

/-! ### One collector replaced -/

theorem coll_congr (h : u.clusters = s.clusters) (n i : Nat) : coll u n i = coll s n i := by
  rw [coll, clu, h]
  rfl

theorem coll_setColl_same (s : State) (n i : Nat) (x : Collector) : coll (setColl s n i x) n i = x := by
  rw [coll, setColl, clu_setClu_same, tget_tput_same]

theorem coll_setColl_other (h : j ≠ i) (x : Collector) : coll (setColl s n i x) n j = coll s n j := by
  rw [coll, setColl, clu_setClu_same, tget_tput_other h]
  rfl

theorem coll_of_scrubSide (h : scrubSide s u) (n i : Nat) : coll u n i = coll s n i := by
  obtain ⟨-, hclu, -⟩ := h
  rw [coll, hclu n]
  rfl

theorem coll_advancePc (s : State) (k : Nat) (arr : Bool) (n i : Nat) : coll (advancePc s k arr) n i = coll s n i :=
  coll_congr (by rw [advancePc_frame]) n i

/-! ### STAT_ACQ (R115) -/

/-- The collector found, if any, is taken as `x`; else the thread waits. -/
def acquired (s : State) (t : ThreadId) (x : Collector) : Option Nat → State
  | some i => advancePc (setColl s t.cluster i x) (tno t) false
  | none => setThrState s (tno t) 4 .collector

section
variable (h : canIssue s (tno t) = true) {pc : Bool} {channels : Nat}
include h

theorem statAcq_exec (hchannels : pc = true → 1 ≤ channels ∧ channels ≤ 1024) (decay : BitVec 8) {o : Option Nat}
    (hfind : (List.range 8).find? (fun i => (coll s t.cluster i).owner.isNone) = o) :
    exec (.statAcq t pc channels decay) s = .next (acquired s t
      { owner := some (cluPart s t.cluster), perChannel := pc, channels := if pc then channels else 1, decay := decay.toNat } o) := by
  change execStatAcq t pc channels decay s = _
  rw [execStatAcq, if_pos h, if_neg fun hbad => by have := hchannels hbad.1; omega]
  simp only [tno_div_cluster, hfind]
  cases o
  all_goals rfl

theorem statAcq_takes (hchannels : pc = true → 1 ≤ channels ∧ channels ≤ 1024) (decay : BitVec 8) {i : Fin 8}
    (hfree : (coll s t.cluster i).owner = none) (hlower : ∀ j < i.val, (coll s t.cluster j).owner ≠ none) :
    completes (.statAcq t pc channels decay) s fun u =>
      coll u t.cluster i =
        { owner := some (cluPart s t.cluster), perChannel := pc, channels := if pc then channels else 1, decay := decay.toNat } ∧
      (∀ j : Nat, j ≠ i → coll u t.cluster j = coll s t.cluster j) ∧ issuedBy s u (tno t) ∧
      u = { s with clusters := u.clusters, threads := u.threads, cores := u.cores, free := u.free } := by
  have hfind : (List.range 8).find? (fun i => (coll s t.cluster i).owner.isNone) = some i.val := by
    refine List.find?_range_eq_some.2 ⟨by rw [hfree]; rfl, List.mem_range.2 i.isLt, fun j hj => ?_⟩
    simpa [Option.isSome_iff_ne_none] using hlower j hj
  refine ⟨_, statAcq_exec h hchannels decay hfind, ?_, fun j hj => ?_,
    issuedBy_of_cores (advancePc_issued _ _ _) rfl, by rw [acquired, advancePc_frame]; rfl⟩
  · rw [acquired, coll_advancePc, coll_setColl_same]
  · rw [acquired, coll_advancePc, coll_setColl_other hj]

theorem statAcq_waits (hchannels : pc = true → 1 ≤ channels ∧ channels ≤ 1024) (decay : BitVec 8)
    (hheld : ∀ j < 8, (coll s t.cluster j).owner ≠ none) :
    completes (.statAcq t pc channels decay) s fun u =>
      thrState u (tno t) = 4 ∧ (thr u (tno t)).wait = .collector ∧ u.clusters = s.clusters := by
  have hfind : (List.range 8).find? (fun i => (coll s t.cluster i).owner.isNone) = none := by
    refine List.find?_eq_none.2 fun j hj => ?_
    simpa using hheld j (List.mem_range.1 hj)
  exact ⟨_, statAcq_exec h hchannels decay hfind, thrState_canIssue h .., setThrState_wait .., by rw [acquired, setThrState_frame]⟩

end

/-! ### STAT_FEED (R115) -/

theorem statFeed_queues (h : canIssue s (tno t) = true) {i : Fin 8} {fmt : Fin 16} {src : Sys2Proof.Region} {count : Nat} (tag : Fin 8)
    (hfmt : fmt.val ∈ [0, 1, 4, 5, 6, 8, 9]) (hheld : (coll s t.cluster i).owner ≠ none)
    (hok : regionOk src (ceilDiv (fmtBits fmt * count) 8) = true) (hroom : (vecQueue s (tno t / 8)).length < 2) :
    completes (.statFeed t i fmt src count tag) s fun u =>
      vecQueue u (tno t / 8) = vecQueue s (tno t / 8) ++ [.feed (tno t) i fmt src count tag] ∧ tagOf u (tno t) tag = .pendVector := by
  have hexec : exec (.statFeed t i fmt src count tag) s = .next (issueVec s (tno t) tag (.feed (tno t) i fmt src count tag)) := by
    have hfmt' : (fmt.val == 0 || fmt.val == 1 || fmt.val == 4 || fmt.val == 5 || fmt.val == 6 || fmt.val == 8 || fmt.val == 9) = true := by
      simpa [or_assoc] using hfmt
    have howner : (coll s t.cluster i).owner.isNone = false := Option.isNone_eq_false_iff.2 (Option.isSome_iff_ne_none.2 hheld)
    change execStatFeed t i fmt src count tag s = _
    rw [execStatFeed, if_pos h, if_neg]
    simp only [hfmt', tno_div_cluster, howner, hok, Bool.not_true, Bool.or_false, Bool.false_eq_true, not_false_eq_true]
  obtain ⟨hqueue, htag, -⟩ := issueVec_queued (k := tno t) (tag := tag) (e := .feed (tno t) i fmt src count tag) hroom
  exact ⟨_, hexec, hqueue, htag⟩

/-! ### A collector that is held, or that nobody holds -/

section
variable {i : Fin 8} {f : State → Collector → State} (h : canIssue s (tno t) = true)
include h

theorem onCollector_held (hheld : (coll s t.cluster i).owner ≠ none) :
    onCollector t i s f = .next (advancePc (f s (coll s t.cluster i)) (tno t) false) := by
  rw [onCollector, if_pos h]
  simp only [tno_div_cluster]
  rw [if_neg (by rwa [Option.isNone_iff_eq_none])]

theorem onCollector_free (hfree : (coll s t.cluster i).owner = none) : onCollector t i s f = .next (issueFault s (tno t) 0x7F) := by
  rw [onCollector, if_pos h]
  simp only [tno_div_cluster]
  rw [if_pos (by rw [hfree]; rfl)]

end

/-! ### STAT_COMMIT (R116) -/

/-- A table filled for the first keys. -/
theorem tget_foldl_tput (f : Nat → Nat) (l : List (Nat × Nat)) (h : i < n) :
    tget 0 ((List.range n).foldl (fun l i => tput 0 l i (f i)) l) i = f i := by
  induction n with
  | zero => omega
  | succ n ih =>
    rw [List.range_succ, List.foldl_append, List.foldl_cons, List.foldl_nil]
    by_cases hi : i = n
    · rw [hi, tget_tput_same]
    · rw [tget_tput_other hi, ih (by omega)]

/-- A collector with every channel's value committed. -/
def committed (c : Collector) : Collector :=
  { c with kept := (List.range c.channels).foldl (fun l ch => tput 0 l ch (commitValue c.decay (tget 0 c.fed ch) (tget 0 c.kept ch))) c.kept,
           fed := [] }

theorem statCommit_commits (h : canIssue s (tno t) = true) {i : Fin 8} (hheld : (coll s t.cluster i).owner ≠ none) :
    completes (.statCommit t i) s fun u => (coll u t.cluster i).fed = [] ∧ (coll u t.cluster i).owner = (coll s t.cluster i).owner ∧
      (∀ ch < (coll s t.cluster i).channels, tget 0 (coll u t.cluster i).kept ch =
        commitValue (coll s t.cluster i).decay (tget 0 (coll s t.cluster i).fed ch) (tget 0 (coll s t.cluster i).kept ch)) ∧
      u = { s with clusters := u.clusters, threads := u.threads, cores := u.cores, free := u.free } := by
  have hexec : exec (.statCommit t i) s =
      .next (advancePc (setColl s t.cluster i (committed (coll s t.cluster i))) (tno t) false) := by
    change execStatCommit t i s = _
    rw [execStatCommit, onCollector_held h hheld]
    rfl
  have hcoll : coll (advancePc (setColl s t.cluster i (committed (coll s t.cluster i))) (tno t) false) t.cluster i =
      committed (coll s t.cluster i) := by rw [coll_advancePc, coll_setColl_same]
  refine ⟨_, hexec, congrArg Collector.fed hcoll, congrArg (·.owner) hcoll, fun ch hch => ?_, by rw [advancePc_frame]; rfl⟩
  rw [hcoll]
  exact tget_foldl_tput _ _ hch

/-! ### STAT_READ (R116) -/

/-- The values written as 32-bit words one after the other. -/
def words32 (s : State) (a n : Nat) (f : Nat → Nat) : State := (List.range n).foldl (fun s ch => wrElem s a 32 ch (f ch)) s

theorem words32_succ (s : State) (a n : Nat) (f : Nat → Nat) : words32 s a (n + 1) f = wrN (words32 s a n f) (a + n * 4) 4 (f n) := by
  rw [words32, List.range_succ, List.foldl_append]
  rfl

theorem words32_frame (s : State) (a n : Nat) (f : Nat → Nat) : words32 s a n f = { s with mem := (words32 s a n f).mem } := by
  induction n with
  | zero => rfl
  | succ n ih =>
    rw [words32_succ, wrN_frame, ih]

theorem words32_bytes (s : State) (a n : Nat) (f : Nat → Nat) : sameMemBut s (words32 s a n f) a (4 * n) := by
  intro x hx
  induction n with
  | zero => rfl
  | succ n ih => rw [words32_succ, rb_wrN_other 4 (by omega), ih (by omega)]

theorem words32_read (s : State) (a : Nat) (f : Nat → Nat) (h : i < n) : rdN (words32 s a n f) (a + i * 4) 4 = f i % 2 ^ 32 := by
  induction n with
  | zero => omega
  | succ n ih =>
    rw [words32_succ]
    by_cases hi : i = n
    · rw [hi, rdN_wrN_same, show 256 ^ 4 = 2 ^ 32 by decide]
    · rw [← ih (by omega)]
      exact rdN_of_bytes 4 fun b hb => rb_wrN_other 4 (by omega)

theorem statRead_writes (h : canIssue s (tno t) = true) {i : Fin 8} (hheld : (coll s t.cluster i).owner ≠ none) {dst : Sys2Proof.Region}
    (hok : regionOk dst (4 * (coll s t.cluster i).channels) = true)
    (hclean : cleanBytes s (regionAddr (tno t / 8) dst) (4 * (coll s t.cluster i).channels)) :
    let b := regionAddr (tno t / 8) dst
    completes (.statRead t i dst) s fun u =>
      (∀ ch < (coll s t.cluster i).channels, rdN u (b + ch * 4) 4 = tget 0 (coll s t.cluster i).kept ch % 2 ^ 32) ∧
      sameMemBut s u b (4 * (coll s t.cluster i).channels) ∧ (∀ j, coll u t.cluster j = coll s t.cluster j) ∧
      sameRegsBut s u (sweepRegs t.cluster) := by
  intro b
  generalize hx : coll s t.cluster i = x at *
  let v := words32 s b x.channels fun ch => tget 0 x.kept ch
  let w := wroteRange v b (4 * x.channels)
  have hexec : exec (.statRead t i dst) s = .next (advancePc w (tno t) false) := by
    change execStatRead t i dst s = _
    rw [execStatRead, if_neg (by simp [hx, hok]), onCollector_held h (by rwa [hx]), hx]
    rfl
  have hframe : v = { s with mem := v.mem } := words32_frame ..
  have hcleanV (y : Nat) (hy : y ∈ (List.range (4 * x.channels)).map fun i => b + i) : cleanWord v y := by
    obtain ⟨p, hp, rfl⟩ := List.mem_map.1 hy
    exact (cleanWord_congr (by rw [hframe]) (by rw [hframe])).2 (hclean _ (by omega) (by have := List.mem_range.1 hp; omega))
  have hside : scrubSide v w := wroteBytes_side hcleanV
  have hregs : sameRegsBut v w (sweepRegs t.cluster) := by
    refine wroteBytes_regs hcleanV fun y hy cell hcell => ?_
    obtain ⟨p, hp, rfl⟩ := List.mem_map.1 hy
    have hcore : tno t / 8 = coreNo t.cluster t.core := tno_div_core t
    have hlt : tno t / 8 < 2176 := by rw [hcore, coreNo]; omega
    rw [cellOf_region hlt hok (List.mem_range.1 hp) hcell, hcore, coreNo_div]
  have hmem : (advancePc w (tno t) false).mem = v.mem := by rw [advancePc_frame, hside.1]
  refine ⟨_, hexec, fun ch hch => ?_, fun y hy => ?_, fun j => ?_, ?_⟩
  · rw [rdN_congr hmem, words32_read s b _ hch]
  · rw [rb, hmem]
    exact words32_bytes s b _ _ y hy
  · rw [coll_advancePc, coll_of_scrubSide hside, coll_congr (s := s) (by rw [hframe])]
  · exact sameRegsBut_congr (sameRegsBut_trans (sameRegsBut_of_regs (by rw [hframe])) hregs) (advancePc_regs ..)

/-! ### STAT_FREE (R117) -/

section
variable {i : Fin 8} (h : canIssue s (tno t) = true) (hheld : (coll s t.cluster i).owner ≠ none)
include h hheld

theorem statFree_releases (hidle : feedInFlight s t.cluster i = false) :
    completes (.statFree t i) s fun u => coll u t.cluster i = {} ∧ u.mem = s.mem := by
  have hexec : exec (.statFree t i) s = .next (advancePc (releaseColl s t.cluster i) (tno t) false) := by
    change execStatFree t i s = _
    rw [execStatFree, onCollector_held h hheld, if_neg (by simp [hidle])]
  have hwoken := wakeCluster_woken (w := .collector) (by decide) (setColl s t.cluster i {}) t.cluster
  have hrelease : releaseColl s t.cluster i =
      (List.range 64).foldl (fun s c => wakeCore s (coreNo t.cluster c) .collector) (setColl s t.cluster i {}) := rfl
  refine ⟨_, hexec, ?_, ?_⟩
  · rw [coll_advancePc, hrelease, coll_congr (s := setColl s t.cluster i {}) (by rw [hwoken.frame]), coll_setColl_same]
  · rw [advancePc_frame, hrelease, hwoken.frame]
    rfl

theorem statFree_marks (hflight : feedInFlight s t.cluster i = true) :
    completes (.statFree t i) s fun u => coll u t.cluster i = { coll s t.cluster i with freeing := true } ∧ u.regs = s.regs := by
  have hexec : exec (.statFree t i) s =
      .next (advancePc (setColl s t.cluster i { coll s t.cluster i with freeing := true }) (tno t) false) := by
    change execStatFree t i s = _
    rw [execStatFree, onCollector_held h hheld, if_pos hflight]
  exact ⟨_, hexec, by rw [coll_advancePc, coll_setColl_same], advancePc_regs ..⟩

end
end Sys2Proof.Machine

open Sys2Proof Sys2Proof.Machine Sys2Proof.Machine.Reg

/-- Settles O18: each command replaces one collector, and the values it reads out are written into words of the thread's cluster. -/
theorem collectorsCollect : Obligations.CollectorsCollect := by
  intro s t h k n
  refine ⟨fun pc channels decay i hfree hlower hchannels => statAcq_takes h hchannels decay hfree hlower,
    fun pc channels decay hheld hchannels => statAcq_waits h hchannels decay hheld,
    fun i fmt src count tag hfmt hheld hok hroom => statFeed_queues h tag hfmt hheld hok hroom, fun i hheld => ⟨statCommit_commits h hheld,
      fun dst hok hclean => statRead_writes h hheld hok hclean, statFree_releases h hheld, statFree_marks h hheld⟩,
    fun i hfree => ⟨?_, ?_⟩⟩
  · change execStatCommit t i s = _
    rw [execStatCommit, onCollector_free h hfree]
  · change execStatFree t i s = _
    rw [execStatFree, onCollector_free h hfree]
end

section
/-!
Requests and batches as entries of their tables (R359, R362-R364): what replacing an entry, ending a request and ending a batch leave.
-/
namespace Sys2Proof.Machine
open Reg Laws

variable {s t u : State} {e m b p n status tier : Nat}

/-! ### Entries -/

theorem req_congr (h : u.srv.reqs = s.srv.reqs) (m : Nat) : req u m = req s m := by rw [req, req, h]

theorem batch?_congr (h : u.srv.batches = s.srv.batches) (b : Nat) : batch? u b = batch? s b := by rw [batch?, batch?, h]

theorem req_setReq_same (s : State) (e : Nat) (r : Req) : req (setReq s e r) e = r := tget_tput_same ..

theorem req_setReq_other (h : m ≠ e) (r : Req) : req (setReq s e r) m = req s m := tget_tput_other h r

theorem batch?_setBatch_same (s : State) (b : Nat) (x : Batch) : batch? (setBatch s b x) b = some x := tfind_tset_same ..

/-- No request but that of entry `e` differs. -/
def onlyRequest (s u : State) (e : Nat) : Prop := ∀ m, m ≠ e → req u m = req s m

theorem onlyRequest_setReq (h : u.srv.reqs = (setReq s e r).srv.reqs) : onlyRequest s u e := fun _ hm =>
  (req_congr h _).trans (req_setReq_other hm _)

/-- What a handle names depends on the requests alone. -/
theorem reqOf_congr (h : u.srv = s.srv) (p n : Nat) (late : Bool) : reqOf u p n late = reqOf s p n late := by
  unfold reqOf findReq expiredHandle req
  rw [h]

theorem reqOf_found (h : findReq s n = some e) (hp : (req s e).part = p) (late : Bool) : reqOf s p n late = .inr e := by
  rw [reqOf, h]
  exact if_pos hp

theorem reqOf_missing (h : findReq s n = none) (p : Nat) (late : Bool) :
    reqOf s p n late = .inl (if late && expiredHandle s n then 0x13 else 0x21) := by
  rw [reqOf, h]

theorem inStep_congr (h : u.srv.batches = s.srv.batches) (hbatch : (req u e).batch = (req s e).batch)
    (hstate : (req u e).state = (req s e).state) : inStep u e = inStep s e := by
  rw [inStep, inStep, batch?_congr h, hbatch, hstate]

theorem inStep_active (h : inStep s e = true) : (req s e).state = .active := by
  unfold inStep at h
  split at h
  · simp only [Bool.and_eq_true, beq_iff_eq] at h
    exact h.1
  · cases h

theorem inStep_of_ready (h : (req s e).state ≠ .active) : inStep s e = false :=
  Bool.eq_false_iff.2 fun hstep => h (inStep_active hstep)

/-! ### Commands that wait on a request -/

theorem finish_hostSide (s : State) (c : Cmd) (status : Nat) (x : Result) : hostSide s (finish s c status x) :=
  hostSide_ite (complete_hostSide ..) (hostSide_refl s)

theorem finishOpt_hostSide (s : State) (c : Option Cmd) (status : Nat) (x : Result) : hostSide s (finishOpt s c status x) := by
  cases c with
  | none => exact hostSide_refl s
  | some c => exact finish_hostSide ..

theorem hostSide_srv (h : hostSide s u) : u.srv = s.srv := by rw [h]
theorem hostSide_mem (h : hostSide s u) : u.mem = s.mem := by rw [h]
theorem hostSide_parts (h : hostSide s u) : u.parts = s.parts := by rw [h]

/-! ### The end of a request (R361, R364) -/

theorem credits_frame (s : State) (p n m : Nat) :
    credit4 (credit2 s p n) p m = { s with parts := (credit4 (credit2 s p n) p m).parts } := by
  rw [credit4, setPart_frame, credit2, setPart_frame]

/-- What is left of an ended request's entry. -/
def endedReq (r : Req) (status : Nat) : Req := { gen := r.gen, used := true, part := r.part, expired := status == 0x13 }

/-- An ended request's entry is free; no other request and no byte of device memory changes. -/
theorem endReq_ended (h : (req s e).state ≠ .free) (status : Nat) : let u := endReq s e status
    req u e = endedReq (req s e) status ∧ onlyRequest s u e ∧ u.mem = s.mem := by
  intro u
  let r := req s e
  let v := if r.train then s else postRec s r.fn r.ring (reqRec s (handleOf e r) r.written r.row status 0 r.tag r.batch)
  let w := credit4 (credit2 v r.part r.charge) r.part r.charge4
  let x := setReq (clearRow w e) e (endedReq r status)
  have hv : hostSide s v := hostSide_ite (hostSide_refl s) (postRec_hostSide ..)
  obtain ⟨y, hy⟩ : ∃ y, w = { v with parts := y } := ⟨w.parts, credits_frame ..⟩
  have hvsrv : v.srv = s.srv := hostSide_srv hv
  have hvmem : v.mem = s.mem := hostSide_mem hv
  have hwsrv : w.srv = s.srv := (congrArg State.srv hy).trans hvsrv
  have hwmem : w.mem = s.mem := (congrArg State.mem hy).trans hvmem
  have hu : hostSide x u := by
    rw [show u = endReq s e status from rfl, endReq, if_neg h]
    exact hostSide_trans (hostSide_trans (hostSide_trans (finishOpt_hostSide ..) (finishOpt_hostSide ..)) (finishOpt_hostSide ..))
      (finishOpt_hostSide ..)
  have hreqs : u.srv.reqs = (setReq s e (endedReq r status)).srv.reqs := by
    rw [hostSide_srv hu]
    exact congrArg (fun y : Serving => tput {} y.reqs e (endedReq r status)) hwsrv
  exact ⟨(req_congr hreqs e).trans (req_setReq_same ..), onlyRequest_setReq hreqs, (hostSide_mem hu).trans hwmem⟩

/-! ### The end of a batch (R359) -/

theorem settleBatch_none (h : batch? s b = none) : settleBatch s b = s := by rw [settleBatch, h]

theorem settleBatch_live {x : Batch} (h : batch? s b = some x) (hlive : x.rows.any (fun r => r.req.isSome) = true) : settleBatch s b = s := by
  rw [settleBatch, h]
  exact if_pos hlive

/-- The end of a batch changes no request and no byte of device memory. -/
theorem settleBatch_side (s : State) (b : Nat) : (settleBatch s b).srv.reqs = s.srv.reqs ∧ (settleBatch s b).mem = s.mem := by
  unfold settleBatch
  split
  · exact ⟨rfl, rfl⟩
  · next x hx =>
    split
    · exact ⟨rfl, rfl⟩
    · have hside := finishOpt_hostSide s x.cmd 0 { r2 := b, detail := x.admitted }
      have hreqs := congrArg Serving.reqs (hostSide_srv hside)
      have hmem := hostSide_mem hside
      rw [endBatch, hx]
      exact ⟨hreqs, hmem⟩

/-- A request ends, and with it its batch. -/
theorem endReq_settled (h : (req s e).state ≠ .free) (status b : Nat) : let u := settleBatch (endReq s e status) b
    req u e = endedReq (req s e) status ∧ onlyRequest s u e ∧ u.mem = s.mem := by
  obtain ⟨hended, honly, hmem⟩ := endReq_ended h status
  obtain ⟨hreqs, hmem'⟩ := settleBatch_side (endReq s e status) b
  exact ⟨(req_congr hreqs e).trans hended, fun m hm => (req_congr hreqs m).trans (honly m hm), hmem'.trans hmem⟩

theorem tfind_mapValues {α β : Type} (f : α → β) (k : Nat) (l : List (Nat × α)) :
    tfind k (l.map fun x => (x.1, f x.2)) = (tfind k l).map f := by
  induction l with
  | nil => rfl
  | cons x l ih =>
    rw [List.map_cons, tfind, tfind, ih]
    split
    all_goals rfl

/-- A batch whose row of request `e`, if any, is without a request. -/
def withoutReq (e : Nat) (x : Batch) : Batch := { x with rows := x.rows.map fun r => if r.req = some e then { r with req := none } else r }

theorem batch?_clearRow (s : State) (e b : Nat) : batch? (clearRow s e) b = (batch? s b).map (withoutReq e) :=
  tfind_mapValues (withoutReq e) b s.srv.batches

/-! ### A request enters PAUSED (R367) -/

/-- A request PAUSED in a tier. -/
def pausedReq (s : State) (e tier : Nat) : Req :=
  { req s e with state := .paused, tier, due := s.time + (req s e).ttl * secTicks, pauseCmd := none, pauseFirst := false }

/-- With neither a cancellation nor a release waiting the request is PAUSED and REQ_PAUSE completes. -/
theorem enterPaused_calm (hcancel : (req s e).cancelCmd = none) (hrelease : (req s e).releaseCmd = none) (tier : Nat) :
    enterPaused s e tier = finishOpt (setReq s e (pausedReq s e tier)) (req s e).pauseCmd 0 { r2 := tier } := by
  unfold enterPaused
  exact (if_neg (by simp [hcancel])).trans (if_neg (by simp [hrelease]))

end Sys2Proof.Machine
end

section
/-!
Packets that act on one request (R362, R365-R369).
-/
namespace Sys2Proof.Machine
open Reg Laws

variable {s t u w : State} {h : Pkt} {r : Req} {op status e m n : Nat} {sc : Scope} {pfOnly : Bool} {c : Cmd}

/-! ### The command that acts -/

theorem taken_outstanding (s : State) (h : Pkt) (op key : Nat) : (taken s h op key).1 ∈ (taken s h op key).2.hif.cmds :=
  List.mem_append_right _ (List.mem_singleton.2 rfl)

/-- A command that has left the host interface alone completes with its record. -/
theorem complete_taken (hslot : slotPlain s h) (hacc : accepted s h op sc pfOnly = true) (hw : w.hif = (taken s h op 0).2.hif)
    (hstatus : status < 256) (hop : op < 256) (r : Result) : recorded s (complete w (taken s h op 0).1 status r) h op status := by
  have hring : ring w h.fn h.ring = ring (taken s h op 0).2 h.fn h.ring := by rw [ring, ring, hw]
  have htake : takesRecord w h.fn h.ring := by
    rw [takesRecord, nextSlot, hring]
    exact taken_takesRecord hslot hacc
  exact (complete_recorded htake hring hstatus hop).1

theorem finish_taken (hw : w.hif = (taken s h op 0).2.hif) (status : Nat) (r : Result) :
    finish w (taken s h op 0).1 status r = complete w (taken s h op 0).1 status r := by
  have hmem : w.hif.cmds.contains (taken s h op 0).1 = true := by
    rw [hw]
    exact List.contains_iff_mem.2 (taken_outstanding s h op 0)
  rw [finish, if_pos hmem]

/-- A refused command records its status; requests, batches, partitions and device memory are as they were. -/
theorem refused_serving (hslot : slotPlain s h) (hacc : accepted s h op sc pfOnly = true) (hstatus : status < 256) (hop : op < 256) :
    let u := complete (taken s h op 0).2 (taken s h op 0).1 status {}
    recorded s u h op status ∧ u.srv = s.srv ∧ u.parts = s.parts ∧ u.mem = s.mem := by
  have hc := taken_consumed s h op 0
  have hside := complete_hostSide (taken s h op 0).2 (taken s h op 0).1 status {}
  exact ⟨complete_taken hslot hacc rfl hstatus hop {}, (hostSide_srv hside).trans (consumed_srv hc),
    (hostSide_parts hside).trans (consumed_parts hc), (hostSide_mem hside).trans (consumed_mem hc)⟩

theorem req_consumed (hc : consumed s t) (m : Nat) : req t m = req s m := req_congr (by rw [consumed_srv hc]) m

theorem batch?_consumed (hc : consumed s t) (b : Nat) : batch? t b = batch? s b := batch?_congr (by rw [consumed_srv hc]) b

theorem inStep_consumed (hc : consumed s t) (e : Nat) : inStep t e = inStep s e :=
  inStep_congr (by rw [consumed_srv hc]) (by rw [req_consumed hc]) (by rw [req_consumed hc])

theorem barrierUp_congr (h : u.parts = s.parts) (p : Nat) : barrierUp u p = barrierUp s p := by
  unfold barrierUp castRuns
  rw [h]

theorem barrierUp_consumed (hc : consumed s t) (p : Nat) : barrierUp t p = barrierUp s p := barrierUp_congr (consumed_parts hc) p

/-- No packet waits on the request. -/
def reqIdle (r : Req) : Prop := r.pauseCmd = none ∧ r.cancelCmd = none ∧ r.releaseCmd = none ∧ r.resumeCmd = none

/-- A live request of the partition is the one its handle names for the command. -/
theorem reqOf_taken (hfind : findReq s n = some e) (hpart : (req s e).part = h.part) (op : Nat) (late : Bool) :
    reqOf (taken s h op 0).2 (taken s h op 0).1.part n late = .inr e :=
  (reqOf_congr (consumed_srv (taken_consumed s h op 0)) ..).trans (reqOf_found hfind hpart late)

/-! ### A packet that waits on a request -/

/-- The packet consumed, and the record of request `e` replaced. -/
def waitsOn (s : State) (h : Pkt) (op e : Nat) (r : Req) : State := setReq (taken s h op 0).2 e r

theorem req_waitsOn (s : State) (h : Pkt) (op e : Nat) (r : Req) : req (waitsOn s h op e r) e = r := req_setReq_same ..

theorem onlyRequest_waitsOn (s : State) (h : Pkt) (op e : Nat) (r : Req) : onlyRequest s (waitsOn s h op e r) e := fun _ hm =>
  (req_setReq_other hm r).trans (req_consumed (taken_consumed ..) _)

theorem batch?_waitsOn (s : State) (h : Pkt) (op e : Nat) (r : Req) (b : Nat) : batch? (waitsOn s h op e r) b = batch? s b :=
  (batch?_congr rfl b).trans (batch?_consumed (taken_consumed s h op 0) b)

theorem waitsOn_time (s : State) (h : Pkt) (op e : Nat) (r : Req) : (waitsOn s h op e r).time = s.time :=
  have htime := consumed_time (taken_consumed s h op 0)
  htime

theorem waitsOn_mem (s : State) (h : Pkt) (op e : Nat) (r : Req) : (waitsOn s h op e r).mem = s.mem :=
  have hmem := consumed_mem (taken_consumed s h op 0)
  hmem

theorem waitsOn_outstanding (s : State) (h : Pkt) (op e : Nat) (r : Req) : (taken s h op 0).1 ∈ (waitsOn s h op e r).hif.cmds :=
  taken_outstanding s h op 0

theorem inStep_waitsOn (hbatch : r.batch = (req s e).batch) (hstate : r.state = (req s e).state) :
    inStep (waitsOn s h op e r) e = inStep s e := by
  rw [inStep, inStep, batch?_waitsOn, req_waitsOn, hbatch, hstate]

/-- A command that has replaced the record of its request alone completes. -/
theorem complete_onlyRequest {r r' : Req} (hslot : slotPlain s h) (hacc : accepted s h op sc pfOnly = true)
    (hhif : w.hif = (taken s h op 0).2.hif) (hreqs : w.srv.reqs = (setReq (waitsOn s h op e r) e r').srv.reqs) (hstatus : status < 256)
    (hop : op < 256) (x : Result) : let u := complete w (taken s h op 0).1 status x
    recorded s u h op status ∧ onlyRequest s u e ∧ req u e = r' := by
  have hside := complete_hostSide w (taken s h op 0).1 status x
  have hreq := req_congr ((congrArg Serving.reqs (hostSide_srv hside)).trans hreqs)
  refine ⟨complete_taken hslot hacc hhif hstatus hop x, fun m hm => ?_, (hreq e).trans (req_setReq_same ..)⟩
  exact (hreq m).trans ((req_setReq_other hm r').trans (onlyRequest_waitsOn s h op e r m hm))

/-! ### REQ_PAUSE (R367) -/

/-- A request with REQ_PAUSE waiting on it. -/
def askedPause (r : Req) (c : Cmd) (ttl place : Nat) : Req :=
  { r with pauseCmd := some c, pauseFirst := true, ttl := if ttl = 0 then 600 else ttl, place }

/-- The record of a request that REQ_PAUSE paused in T2. -/
def restedReq (s : State) (r : Req) (ttl : Nat) : Req :=
  { r with state := .paused, tier := 2, place := 1, pauseFirst := false, ttl := if ttl = 0 then 600 else ttl,
           due := s.time + (if ttl = 0 then 600 else ttl) * 100000000 }

/-- A request whose batch is gone is PAUSED at once when it is to stay in T2. -/
theorem enterPausing_t2 (hplace : (req t e).place = 1) (hcancel : (req t e).cancelCmd = none) (hrelease : (req t e).releaseCmd = none) :
    enterPausing t e = finishOpt (setReq (clearRow t e) e (pausedReq t e 2)) (req t e).pauseCmd 0 { r2 := 2 } := by
  have hcalm : enterPaused (clearRow t e) e 2 = finishOpt (setReq (clearRow t e) e (pausedReq t e 2)) (req t e).pauseCmd 0 { r2 := 2 } :=
    enterPaused_calm (s := clearRow t e) hcancel hrelease 2
  rw [← hcalm, enterPausing]
  exact if_neg fun h => h.1 hplace

theorem pausedReq_asked {v : State} {r : Req} {ttl : Nat} (hreq : req v e = askedPause r c ttl 1) (htime : v.time = s.time)
    (hpause : r.pauseCmd = none) : pausedReq v e 2 = restedReq s r ttl := by
  have hr : { r with pauseCmd := none } = r := by rw [← hpause]
  rw [pausedReq, hreq, htime, ← hr]
  rfl

section
variable {k ttl : BitVec 32} {pl : Fin 256} (hslot : slotPlain s h) (hacc : accepted s h 0x32 .owned false = true)

include hacc in
theorem reqPause_exec : exec (.reqPause h k ttl pl) s =
    .next (pauseReq k.toNat ttl.toNat pl (taken s h 0x32 0).1 (taken s h 0x32 0).2) := congrArg Host.Outcome.next (withPkt_accepted hacc)

variable (hfind : findReq s k.toNat = some e) (hpart : (req s e).part = h.part)
include hacc hfind hpart

/-- REQ_PAUSE of a request that may be paused waits on it while it is in a step, and takes it out of its batch else. -/
theorem reqPause_asks (hidle : reqIdle (req s e)) (htrain : (req s e).train = false)
    (hstate : (req s e).state = .active ∨ (req s e).state = .ready) (httl : ttl.toNat ≤ 86400) (hplace : pl.val = 1) :
    exec (.reqPause h k ttl pl) s = .next (if inStep s e then waitsOn s h 0x32 e (askedPause (req s e) (taken s h 0x32 0).1 ttl.toNat 1)
      else settleBatch (enterPausing (waitsOn s h 0x32 e (askedPause (req s e) (taken s h 0x32 0).1 ttl.toNat 1)) e) (req s e).batch) := by
  obtain ⟨hpause, hcancel, hrelease, -⟩ := hidle
  have hstep := inStep_waitsOn (s := s) (h := h) (op := 0x32) (e := e)
    (r := askedPause (req s e) (taken s h 0x32 0).1 ttl.toNat 1) rfl rfl
  rw [reqPause_exec hacc, hplace, pauseReq, reqOf_taken hfind hpart]
  dsimp only
  rw [req_consumed (taken_consumed ..), if_neg, ← hstep]
  · rfl
  · simp only [hpause, hcancel, hrelease, htrain, Option.isSome_none, Bool.false_eq_true, or_false, false_or]
    rintro (⟨hactive, hready⟩ | hlong | hfar)
    · exact hstate.elim hactive hready
    all_goals omega

include hslot in
theorem reqPause_ready (hidle : reqIdle (req s e)) (htrain : (req s e).train = false) (hready : (req s e).state = .ready)
    (hgone : batch? s (req s e).batch = none) (httl : ttl.toNat ≤ 86400) (hplace : pl.val = 1) :
    completes (.reqPause h k ttl pl) s fun u => recorded s u h 0x32 0 ∧ onlyRequest s u e ∧ req u e = restedReq s (req s e) ttl.toNat := by
  have hexec := reqPause_asks hacc hfind hpart hidle htrain (.inr hready) httl hplace
  obtain ⟨hpause, hcancel, hrelease, -⟩ := hidle
  let c := (taken s h 0x32 0).1
  let v := waitsOn s h 0x32 e (askedPause (req s e) c ttl.toNat 1)
  let w := setReq (clearRow v e) e (pausedReq v e 2)
  have hreq : req v e = askedPause (req s e) c ttl.toNat 1 := req_waitsOn ..
  have hpaused : pausedReq v e 2 = restedReq s (req s e) ttl.toNat := pausedReq_asked hreq (waitsOn_time ..) hpause
  have hhif : w.hif = (taken s h 0x32 0).2.hif := rfl
  have hpausing : enterPausing v e = complete w c 0 { r2 := 2 } := by
    rw [enterPausing_t2 (by rw [hreq]; rfl) (by rw [hreq]; exact hcancel) (by rw [hreq]; exact hrelease), hreq]
    exact finish_taken hhif 0 _
  have hsettled : settleBatch (enterPausing v e) (req s e).batch = complete w c 0 { r2 := 2 } := by
    have hside := complete_hostSide w c 0 { r2 := 2 }
    have hbatch : batch? w (req s e).batch = none := by
      rw [show batch? w (req s e).batch = batch? (clearRow v e) (req s e).batch from rfl, batch?_clearRow, batch?_waitsOn, hgone]
      rfl
    rw [hpausing]
    exact settleBatch_none ((batch?_congr (congrArg Serving.batches (hostSide_srv hside)) _).trans hbatch)
  have hnot : inStep s e = false := inStep_of_ready (by rw [hready]; decide)
  rw [hnot, if_neg (by decide), hsettled] at hexec
  have hreqs : w.srv.reqs = (setReq v e (restedReq s (req s e) ttl.toNat)).srv.reqs := by
    rw [← hpaused]
    rfl
  exact ⟨_, hexec, complete_onlyRequest hslot hacc hhif hreqs (by decide) (by decide) _⟩

theorem reqPause_waits (hidle : reqIdle (req s e)) (htrain : (req s e).train = false) (hstep : inStep s e = true)
    (httl : ttl.toNat ≤ 86400) (hplace : pl.val = 1) :
    completes (.reqPause h k ttl pl) s fun u => (req u e).state = (req s e).state ∧ (req u e).pauseCmd.isSome = true ∧
      onlyRequest s u e ∧ (taken s h 0x32 0).1 ∈ u.hif.cmds := by
  have hexec := reqPause_asks hacc hfind hpart hidle htrain (.inl (inStep_active hstep)) httl hplace
  rw [hstep, if_pos rfl] at hexec
  refine ⟨_, hexec, ?_, ?_, onlyRequest_waitsOn _ _ _ _ _, waitsOn_outstanding ..⟩
  all_goals
    rw [req_waitsOn]
    rfl

include hslot in
theorem reqPause_paused (hpaused : (req s e).state = .paused) :
    completes (.reqPause h k ttl pl) s fun u => recorded s u h 0x32 0x21 ∧ u.srv = s.srv := by
  have hact : pauseReq k.toNat ttl.toNat pl (taken s h 0x32 0).1 (taken s h 0x32 0).2 =
      complete (taken s h 0x32 0).2 (taken s h 0x32 0).1 0x21 {} := by
    rw [pauseReq, reqOf_taken hfind hpart]
    exact if_pos (.inl (by rw [req_consumed (taken_consumed ..), hpaused]; decide))
  obtain ⟨hrec, hsrv, -, -⟩ := refused_serving (status := 0x21) hslot hacc (by decide) (by decide)
  exact ⟨_, by rw [reqPause_exec hacc, hact], hrec, hsrv⟩

end

/-! ### REQ_RESUME (R339, R369) -/

/-- A request with REQ_RESUME waiting on it. -/
def askedResume (r : Req) (c : Cmd) : Req := { r with resumeCmd := some c }

/-- The record of a request that is READY again in T2. -/
def readyReq (s : State) (r : Req) : Req := { r with state := .ready, due := s.time + r.ttl * 100000000 }

theorem resumeNow_t2 {v : State} (hreq : req v e = askedResume r c) (htime : v.time = s.time) (hresume : r.resumeCmd = none)
    (htier : r.tier = 2) : resumeNow v e = finishOpt (setReq v e (readyReq s r)) (some c) 0 {} := by
  have hr : { r with resumeCmd := none } = r := by rw [← hresume]
  rw [resumeNow, hreq, readyReq, ← htime, ← hr]
  exact if_pos htier

section
variable {k : BitVec 32} (hslot : slotPlain s h) (hacc : accepted s h 0x33 .owned false = true)

include hacc in
theorem reqResume_exec : exec (.reqResume h k) s = .next (resumeReq k.toNat (taken s h 0x33 0).1 (taken s h 0x33 0).2) :=
  congrArg Host.Outcome.next (withPkt_accepted hacc)

variable (hfind : findReq s k.toNat = some e) (hpart : (req s e).part = h.part)
include hacc hfind hpart

/-- A request on which no REQ_RESUME waits: a PAUSED one resumes unless a barrier holds it, another is refused. -/
theorem reqResume_cases (hresume : (req s e).resumeCmd = none) :
    exec (.reqResume h k) s = .next (if (req s e).state = .paused then
      (if barrierUp s h.part then waitsOn s h 0x33 e (askedResume (req s e) (taken s h 0x33 0).1)
        else resumeNow (waitsOn s h 0x33 e (askedResume (req s e) (taken s h 0x33 0).1)) e)
      else complete (taken s h 0x33 0).2 (taken s h 0x33 0).1 0x21 {}) := by
  have hc := taken_consumed s h 0x33 0
  have hbarrier := barrierUp_consumed hc h.part
  rw [reqResume_exec hacc, resumeReq, reqOf_taken hfind hpart]
  dsimp only
  rw [req_consumed hc]
  by_cases hpaused : (req s e).state = .paused
  · rw [if_pos hpaused, if_neg (by simp [hpaused, hresume]), ← hbarrier]
    rfl
  · rw [if_neg hpaused, if_pos (.inl hpaused)]

include hslot in
theorem reqResume_t2 (hresume : (req s e).resumeCmd = none) (hpaused : (req s e).state = .paused) (htier : (req s e).tier = 2)
    (hbarrier : barrierUp s h.part = false) :
    completes (.reqResume h k) s fun u => recorded s u h 0x33 0 ∧ onlyRequest s u e ∧ req u e = readyReq s (req s e) := by
  have hexec := reqResume_cases hacc hfind hpart hresume
  rw [if_pos hpaused, hbarrier, if_neg (by decide)] at hexec
  let c := (taken s h 0x33 0).1
  let v := waitsOn s h 0x33 e (askedResume (req s e) c)
  have hreq : req v e = askedResume (req s e) c := req_waitsOn ..
  have htime : v.time = s.time := waitsOn_time ..
  have hhif : (setReq v e (readyReq s (req s e))).hif = (taken s h 0x33 0).2.hif := rfl
  have hreqs : (setReq v e (readyReq s (req s e))).srv.reqs = (setReq v e (readyReq s (req s e))).srv.reqs := rfl
  have hready : resumeNow v e = complete (setReq v e (readyReq s (req s e))) c 0 {} :=
    (resumeNow_t2 hreq htime hresume htier).trans (finish_taken hhif 0 {})
  rw [hready] at hexec
  exact ⟨_, hexec, complete_onlyRequest hslot hacc hhif hreqs (by decide) (by decide) _⟩

theorem reqResume_held (hresume : (req s e).resumeCmd = none) (hpaused : (req s e).state = .paused) (hbarrier : barrierUp s h.part = true) :
    completes (.reqResume h k) s fun u => onlyRequest s u e ∧ req u e = askedResume (req s e) (taken s h 0x33 0).1 ∧
      (taken s h 0x33 0).1 ∈ u.hif.cmds := by
  have hexec := reqResume_cases hacc hfind hpart hresume
  rw [if_pos hpaused, hbarrier, if_pos rfl] at hexec
  exact ⟨_, hexec, onlyRequest_waitsOn _ _ _ _ _, req_waitsOn .., waitsOn_outstanding ..⟩

include hslot in
theorem reqResume_refused (hresume : (req s e).resumeCmd = none) (hother : (req s e).state ≠ .paused) :
    completes (.reqResume h k) s fun u => recorded s u h 0x33 0x21 ∧ u.srv = s.srv := by
  have hexec := reqResume_cases hacc hfind hpart hresume
  obtain ⟨hrec, hsrv, -, -⟩ := refused_serving (status := 0x21) hslot hacc (by decide) (by decide)
  rw [if_neg hother] at hexec
  exact ⟨_, hexec, hrec, hsrv⟩

end

/-! ### REQ_CANCEL and REQ_RELEASE (R365, R366) -/

/-- The opcodes of the two. -/
def dropOp (cancel : Bool) : Nat := if cancel then 0x31 else 0x34

/-- The command of the two. -/
def dropInstr (cancel : Bool) (h : Pkt) (k : BitVec 32) : Instr := if cancel then .reqCancel h k else .reqRelease h k

/-- A request with the packet waiting on it. -/
def askedDrop (cancel : Bool) (r : Req) (c : Cmd) : Req := if cancel then { r with cancelCmd := some c } else { r with releaseCmd := some c }

theorem askedDrop_same (cancel : Bool) (r : Req) (c : Cmd) :
    (askedDrop cancel r c).batch = r.batch ∧ (askedDrop cancel r c).state = r.state := by
  cases cancel
  all_goals exact ⟨rfl, rfl⟩

theorem askedDrop_waits (cancel : Bool) (r : Req) (c : Cmd) :
    ((askedDrop cancel r c).cancelCmd.isSome || (askedDrop cancel r c).releaseCmd.isSome) = true := by
  cases cancel
  · exact Bool.or_true _
  · rfl

section
variable {k : BitVec 32} {cancel : Bool} (hacc : accepted s h (dropOp cancel) .owned false = true)

include hacc in
theorem drop_exec : exec (dropInstr cancel h k) s =
    .next (dropReq cancel k.toNat (taken s h (dropOp cancel) 0).1 (taken s h (dropOp cancel) 0).2) := by
  cases cancel
  all_goals exact congrArg Host.Outcome.next (withPkt_accepted hacc)

variable (hfind : findReq s k.toNat = some e) (hpart : (req s e).part = h.part) (hidle : reqIdle (req s e))
  (htrain : (req s e).train = false)
include hacc hfind hpart hidle htrain

/-- The packet waits on a request in a step or on the way, and ends another at once. -/
theorem drop_cases : ∃ status, exec (dropInstr cancel h k) s = .next
    (if inStep s e = true ∨ (req s e).state = .pausing ∨ (req s e).state = .resuming then
      waitsOn s h (dropOp cancel) e (askedDrop cancel (req s e) (taken s h (dropOp cancel) 0).1)
    else settleBatch (endReq (waitsOn s h (dropOp cancel) e (askedDrop cancel (req s e) (taken s h (dropOp cancel) 0).1)) e status)
      (req s e).batch) := by
  obtain ⟨-, hcancel, hrelease, -⟩ := hidle
  have hc := taken_consumed s h (dropOp cancel) 0
  refine ⟨if cancel then 0x12 else reqDone (taken s h (dropOp cancel) 0).2 e, ?_⟩
  rw [drop_exec hacc, dropReq, reqOf_taken hfind hpart]
  dsimp only
  rw [req_consumed hc, inStep_consumed hc, if_neg (by simp [hcancel, hrelease, htrain])]
  exact congrArg Host.Outcome.next (if_congr (by simp [htrain]) rfl rfl)

theorem drop_ends (hstep : inStep s e = false) (hstate : (req s e).state = .ready ∨ (req s e).state = .paused) :
    completes (dropInstr cancel h k) s fun u => (req u e).state = .free ∧ onlyRequest s u e ∧ u.mem = s.mem := by
  obtain ⟨status, hexec⟩ := drop_cases hacc hfind hpart hidle htrain
  let r := askedDrop cancel (req s e) (taken s h (dropOp cancel) 0).1
  have hlive : (req (waitsOn s h (dropOp cancel) e r) e).state ≠ .free := by
    rw [req_waitsOn, (askedDrop_same ..).2]
    rcases hstate with hstate | hstate
    all_goals
      rw [hstate]
      decide
  rw [if_neg (by rcases hstate with hstate | hstate <;> simp [hstep, hstate])] at hexec
  obtain ⟨hended, honly, hmem⟩ := endReq_settled hlive status (req s e).batch
  refine ⟨_, hexec, by rw [hended]; rfl, fun m hm => ?_, hmem.trans (waitsOn_mem ..)⟩
  exact (honly m hm).trans (onlyRequest_waitsOn s h (dropOp cancel) e r m hm)

theorem drop_waits (hstep : inStep s e = true) :
    completes (dropInstr cancel h k) s fun u => (req u e).state = (req s e).state ∧ onlyRequest s u e ∧
      (taken s h (dropOp cancel) 0).1 ∈ u.hif.cmds ∧ ((req u e).cancelCmd.isSome || (req u e).releaseCmd.isSome) = true := by
  obtain ⟨status, hexec⟩ := drop_cases hacc hfind hpart hidle htrain
  rw [if_pos (.inl hstep)] at hexec
  refine ⟨_, hexec, ?_, onlyRequest_waitsOn _ _ _ _ _, waitsOn_outstanding .., ?_⟩
  · rw [req_waitsOn, (askedDrop_same ..).2]
  · rw [req_waitsOn]
    exact askedDrop_waits ..

end

/-! ### A handle that names no live request (R368) -/

section
variable {k ttl : BitVec 32} {pl : Fin 256} (hslot : slotPlain s h) (hfind : findReq s k.toNat = none)
include hslot hfind

theorem missing_refused {i : Instr} {late : Bool} {act : Cmd → State → State} (hacc : accepted s h op .owned false = true) (hop : op < 256)
    (hexec : exec i s = .next (act (taken s h op 0).1 (taken s h op 0).2))
    (hact : ∀ c t st, reqOf t c.part k.toNat late = .inl st → act c t = complete t c st {}) :
    completes i s fun u => recorded s u h op (if late && expiredHandle s k.toNat then 0x13 else 0x21) ∧ u.srv = s.srv := by
  have hsrv := consumed_srv (taken_consumed s h op 0)
  have hof : reqOf (taken s h op 0).2 (taken s h op 0).1.part k.toNat late = .inl (if late && expiredHandle s k.toNat then 0x13 else 0x21) :=
    (reqOf_congr hsrv ..).trans (reqOf_missing hfind _ late)
  rw [hact _ _ _ hof] at hexec
  obtain ⟨hrec, hsrv, -, -⟩ := refused_serving (status := if late && expiredHandle s k.toNat then 0x13 else 0x21) hslot hacc
    (by split <;> decide) hop
  exact ⟨_, hexec, hrec, hsrv⟩

theorem reqPause_missing (hacc : accepted s h 0x32 .owned false = true) : completes (.reqPause h k ttl pl) s fun u =>
    recorded s u h 0x32 (if expiredHandle s k.toNat then 0x13 else 0x21) ∧ u.srv = s.srv :=
  missing_refused (late := true) (act := pauseReq k.toNat ttl.toNat pl) hslot hfind hacc (by decide) (reqPause_exec hacc)
    fun c t st hof => by rw [pauseReq, hof]

theorem reqResume_missing (hacc : accepted s h 0x33 .owned false = true) : completes (.reqResume h k) s fun u =>
    recorded s u h 0x33 (if expiredHandle s k.toNat then 0x13 else 0x21) ∧ u.srv = s.srv :=
  missing_refused (late := true) (act := resumeReq k.toNat) hslot hfind hacc (by decide) (reqResume_exec hacc)
    fun c t st hof => by rw [resumeReq, hof]

theorem drop_missing {cancel : Bool} (hacc : accepted s h (dropOp cancel) .owned false = true) : completes (dropInstr cancel h k) s fun u =>
    recorded s u h (dropOp cancel) 0x21 ∧ u.srv = s.srv :=
  missing_refused (late := false) (act := dropReq cancel k.toNat) hslot hfind hacc (by cases cancel <;> decide) (drop_exec hacc)
    fun c t st hof => by rw [dropReq, hof]

end

end Sys2Proof.Machine
end

section
/-!
Requests that expire, have been spilled or have been copied back (R232, R247, R367-R369).
-/
namespace Sys2Proof.Machine
open Reg Laws

variable {s t u v : State} {e n p k m : Nat}

/-! ### Key-value pages moved (R232, R247) -/

/-- Only pages and tier of request `e` differ, of all requests. -/
def repaged (s u : State) (e : Nat) : Prop := (∃ k l, req u e = { req s e with tier := k, pages := l }) ∧ onlyRequest s u e

theorem repaged_refl (s : State) (e : Nat) : repaged s s e := ⟨⟨_, _, rfl⟩, fun _ _ => rfl⟩

theorem repaged_trans (h : repaged s t e) (h' : repaged t u e) : repaged s u e := by
  obtain ⟨⟨k, l, hreq⟩, honly⟩ := h
  obtain ⟨⟨k', l', hreq'⟩, honly'⟩ := h'
  exact ⟨⟨k', l', by rw [hreq', hreq]⟩, fun m hm => (honly' m hm).trans (honly m hm)⟩

theorem repaged_of_srv (h : u.srv = s.srv) (e : Nat) : repaged s u e := by
  have hreqs := congrArg Serving.reqs h
  exact ⟨⟨_, _, req_congr hreqs e⟩, fun m _ => req_congr hreqs m⟩

theorem repaged_setReq (s : State) (e k : Nat) (l : List KvPage) : repaged s (setReq s e { req s e with tier := k, pages := l }) e :=
  ⟨⟨k, l, req_setReq_same ..⟩, onlyRequest_setReq rfl⟩

theorem movePages_repaged {f : State → KvPage → KvPage × State} (hf : ∀ t g, (f t g).2.srv = t.srv) : repaged s (movePages s e f) e := by
  unfold movePages
  refine List.foldlRecOn (motive := fun t => repaged s t e) _ _ (repaged_refl s e) fun t ht g _ => ?_
  exact repaged_trans ht (repaged_trans (repaged_of_srv (hf t g) e) (repaged_setReq ..))

/-- What a move keeps of the state when each page's move and each new record do. -/
theorem movePages_keeps {α : Type} {f : State → KvPage → KvPage × State} (part : State → α) (hf : ∀ t g, part (f t g).2 = part t)
    (hset : ∀ t r, part (setReq t e r) = part t) : part (movePages s e f) = part s := by
  unfold movePages
  exact foldl_keeps (fun t g => (hset _ _).trans (hf t g)) _ s

/-- A spilled page leaves its bytes in the host's memory alone. -/
theorem spillPage_side (m : Manifest) (e : Nat) (s : State) (g : KvPage) : ∃ k, hostSide { s with free := k } (spillPage m e s g).2 := by
  have hplace (p n : Nat) : ∃ k, (placeT4 s p n).2 = { s with free := k } := by
    unfold placeT4
    split
    · exact ⟨s.free, rfl⟩
    · exact ⟨s.free + 1, rfl⟩
  obtain ⟨k, hk⟩ := hplace (req s e).part (pageBytes (req s e) m g.layer)
  refine ⟨k, ?_⟩
  unfold spillPage
  dsimp only
  rw [hk]
  split
  · exact hostSide_refl _
  · exact List.foldlRecOn (motive := hostSide { s with free := k }) _ _ (hostSide_refl _)
      fun t ht u _ => hostSide_trans ht (hwrBytes_hostSide ..)

theorem wroteWord_srv (l : List Nat) (s : State) (w : Nat) : (wroteWord l s w).srv = s.srv := by
  have hport (t : State) : (portWrote t (8 * w)).srv = t.srv := by rw [(portWrote_side t (8 * w)).1]
  have hmerge : (mergeWord s (8 * w)).srv = s.srv := by rw [mergeWord_side s (8 * w)]
  have hfull : (fullWrite s (8 * w)).srv = s.srv := by
    obtain ⟨_, _, _, hframe, -⟩ := fullWrite_frame s (8 * w)
    rw [hframe]
  unfold wroteWord
  rw [hport]
  split_ifs
  exacts [rfl, hfull, hmerge]

theorem pageWrite_srv (s : State) (p : Nat) (g : KvPage) (off : Nat) (l : List Byte) : (pageWrite s p g off l).srv = s.srv := by
  unfold pageWrite
  split
  · rfl
  · exact (foldl_keeps (p := State.srv) (fun t w => wroteWord_srv _ t w) _ _).trans
      (foldl_keeps (p := State.srv) (fun t x => by rw [devWb_frame]) _ _)

theorem placeT2_frame (s : State) (gs : List Nat) (n : Nat) : ∃ k, (placeT2 s gs n).2 = { s with free := k } := by
  unfold placeT2
  dsimp only
  split
  · exact ⟨s.free + 1, rfl⟩
  · exact ⟨s.free + 1 + 1, rfl⟩

theorem restorePage_srv (m : Manifest) (e : Nat) (s : State) (g : KvPage) : (restorePage m e s g).2.srv = s.srv := by
  obtain ⟨k, hk⟩ := placeT2_frame s (partGrans s (req s e).part) (pageBytes (req s e) m g.layer)
  unfold restorePage
  dsimp only
  rw [pageWrite_srv, hk]

/-! ### TTL_EXPIRY (R368) -/

theorem ttlExpiry_ends {i : Fin 4096} (h : (req s i).state = .paused ∨ (req s i).state = .ready) :
    completes (.ttlExpiry i) s fun u => (req u i).state = .free ∧ (req u i).expired = true ∧ (req u i).gen = (req s i).gen ∧
      onlyRequest s u i ∧ u.mem = s.mem := by
  have hlive : (req s i).state ≠ .free := by
    rcases h with h | h
    all_goals
      rw [h]
      decide
  obtain ⟨hended, honly, hmem⟩ := endReq_settled hlive 0x13 (req s i).batch
  refine ⟨_, if_pos (h.imp_right .inl), ?_, ?_, ?_, honly, hmem⟩
  all_goals
    rw [hended]
    rfl

theorem ttlExpiry_passes {i : Fin 4096} (h : (req s i).state ∈ [ReqState.free, .active, .pausing, .resuming]) :
    completes (.ttlExpiry i) s (· = s) := by
  refine ⟨s, if_neg ?_, rfl⟩
  rintro (hstate | hstate | hstate)
  · rw [hstate] at h
    exact absurd h (by decide)
  · rw [hstate] at h
    exact absurd h (by decide)
  · rw [hstate.1] at h
    exact absurd h (by decide)

/-! ### PAUSE_SPILL_DONE (R367) -/

/-- The request's pages in T4. -/
def spilled (s : State) (e : Nat) : State :=
  match reqMan s e with
  | some m => movePages (setReq s e { req s e with tier := 4 }) e (spillPage m e)
  | none => s

theorem spilled_repaged (s : State) (e : Nat) : repaged s (spilled s e) e := by
  unfold spilled
  split
  · refine repaged_trans (repaged_setReq s e 4 (req s e).pages) (movePages_repaged fun t g => ?_)
    obtain ⟨k, hk⟩ := spillPage_side ‹_› e t g
    rw [hk]
  · exact repaged_refl s e

theorem spilled_side (s : State) (e : Nat) : (spilled s e).mem = s.mem ∧ (spilled s e).parts = s.parts ∧ (spilled s e).time = s.time := by
  have hkeeps {α : Type} (part : State → α) (hpage : ∀ m t g, part (spillPage m e t g).2 = part t)
      (hset : ∀ t r, part (setReq t e r) = part t) : part (spilled s e) = part s := by
    unfold spilled
    split
    · exact (movePages_keeps part (hpage _) hset).trans (hset s _)
    · rfl
  refine ⟨hkeeps State.mem (fun m t g => ?_) fun _ _ => rfl, hkeeps State.parts (fun m t g => ?_) fun _ _ => rfl,
    hkeeps State.time (fun m t g => ?_) fun _ _ => rfl⟩
  all_goals
    obtain ⟨k, hk⟩ := spillPage_side m e t g
    rw [hk]

theorem destroying_congr (h : u.parts = s.parts) (p : Nat) : destroying u p = destroying s p := by rw [destroying, destroying, h]

theorem destroying_credit2 (s : State) (p n q : Nat) : destroying (credit2 s p n) q = destroying s q := by
  cases h : tfind p s.parts with
  | none => rw [credit2, setPart_of_none h]
  | some x =>
    by_cases hq : q = p
    · subst hq
      rw [destroying, credit2, tfind_setPart h, destroying, h]
    · rw [destroying, credit2, setPart, h, destroying, tfind_tset_other hq]

/-- The bytes a spilled request still has charged in T2: its page table's. -/
def spillKeeps (s : State) (e : Nat) : Nat :=
  match reqMan s e with
  | some m => min (req s e).charge (tableBytes m (req s e).e (req s e).p (req s e).globals)
  | none => 0

/-- The request's reservation in T2 released but for its page table. -/
def spillCredited (s : State) (e : Nat) : State :=
  let r := req (spilled s e) e
  credit2 (setReq (spilled s e) e { r with charge := spillKeeps s e }) r.part (r.charge - spillKeeps s e)

theorem spillCredited_request (s : State) (e : Nat) :
    (∃ k l, req (spillCredited s e) e = { req s e with tier := k, pages := l, charge := spillKeeps s e }) ∧
    onlyRequest s (spillCredited s e) e := by
  obtain ⟨⟨k, l, hreq⟩, honly⟩ := spilled_repaged s e
  have hreqs : (spillCredited s e).srv.reqs =
      (setReq (spilled s e) e { req (spilled s e) e with charge := spillKeeps s e }).srv.reqs := by
    rw [spillCredited, credit2, setPart_frame]
  refine ⟨⟨k, l, ?_⟩, fun m hm => (req_congr hreqs m).trans ((req_setReq_other hm _).trans (honly m hm))⟩
  rw [req_congr hreqs, req_setReq_same, hreq]

theorem spillCredited_side (s : State) (e : Nat) : (spillCredited s e).mem = s.mem ∧ (spillCredited s e).time = s.time ∧
    ∀ p, destroying (spillCredited s e) p = destroying s p := by
  obtain ⟨hmem, hparts, htime⟩ := spilled_side s e
  refine ⟨?_, ?_, fun p => (destroying_credit2 ..).trans (destroying_congr hparts p)⟩
  all_goals rw [spillCredited, credit2, setPart_frame]
  · exact hmem
  · exact htime

theorem pauseSpillDone_ends {i : Fin 4096} (h : (req s i).state = .pausing) (hcancel : (req s i).cancelCmd = none)
    (hrelease : (req s i).releaseCmd = none) (hlive : destroying s (req s i).part = false) :
    completes (.pauseSpillDone i) s fun u => (req u i).state = .paused ∧ (req u i).tier = 4 ∧
      (req u i).due = s.time + (req s i).ttl * 100000000 ∧ (req u i).pauseCmd = none ∧ onlyRequest s u i ∧ u.mem = s.mem := by
  obtain ⟨⟨k, l, hreq⟩, honly⟩ := spillCredited_request s i
  obtain ⟨hmem, htime, hdestroying⟩ := spillCredited_side s i
  obtain ⟨⟨_, _, hspilled⟩, -⟩ := spilled_repaged s i
  let v := spillCredited s i
  have hpaused : enterPaused v i 4 = finishOpt (setReq v i (pausedReq v i 4)) (req v i).pauseCmd 0 { r2 := 4 } :=
    enterPaused_calm (by rw [hreq]; exact hcancel) (by rw [hreq]; exact hrelease) 4
  have hside : hostSide (setReq v i (pausedReq v i 4)) (enterPaused v i 4) := hpaused ▸ finishOpt_hostSide ..
  have hnot : ¬(destroying (enterPaused v i 4) (req (spilled s i) i).part && (req (enterPaused v i 4) i).state == .paused) = true := by
    have hpart : destroying (enterPaused v i 4) (req (spilled s i) i).part = false := by
      have hparts : (enterPaused v i 4).parts = (setReq v i (pausedReq v i 4)).parts := hostSide_parts hside
      rw [hspilled, destroying_congr hparts]
      exact (hdestroying _).trans hlive
    rw [hpart, Bool.false_and]
    decide
  have hreqs := req_congr (congrArg Serving.reqs (hostSide_srv hside))
  have hexec : exec (.pauseSpillDone i) s = .next (enterPaused v i 4) :=
    (if_neg (not_not.2 h)).trans (congrArg Host.Outcome.next (if_neg hnot))
  refine ⟨_, hexec, ?_, ?_, ?_, ?_, fun m hm => ?_, (hostSide_mem hside).trans hmem⟩
  · rw [hreqs, req_setReq_same]
    rfl
  · rw [hreqs, req_setReq_same]
    rfl
  · rw [hreqs, req_setReq_same, pausedReq, hreq]
    exact congrArg (· + (req s i).ttl * 100000000) htime
  · rw [hreqs, req_setReq_same]
    rfl
  · rw [hreqs, req_setReq_other hm]
    exact honly m hm

theorem pauseSpillDone_passes {i : Fin 4096} (h : (req s i).state ≠ .pausing) : completes (.pauseSpillDone i) s (· = s) :=
  ⟨s, if_pos h, rfl⟩

/-! ### RESUME_COPY_DONE (R369) -/

/-- The request's pages in T2 again. -/
def copiedBack (s : State) (e : Nat) : State :=
  match reqMan s e with
  | some m => movePages (setReq s e { req s e with tier := 2 }) e (restorePage m e)
  | none => s

theorem copiedBack_repaged (s : State) (e : Nat) : repaged s (copiedBack s e) e := by
  unfold copiedBack
  split
  · exact repaged_trans (repaged_setReq s e 2 (req s e).pages) (movePages_repaged fun t g => restorePage_srv ..)
  · exact repaged_refl s e

/-- The record of a request that is READY again in T2, with nothing waiting on it and no charge in T4. -/
def resumedReq (s : State) (e : Nat) : Req :=
  { req s e with state := .ready, tier := 2, charge4 := 0, extra := 0, due := s.time + (req s e).ttl * secTicks, resumeCmd := none }

theorem resumeCopyDone_ends {i : Fin 4096} (h : (req s i).state = .resuming) (hcancel : (req s i).cancelCmd = none)
    (hrelease : (req s i).releaseCmd = none) :
    completes (.resumeCopyDone i) s fun u => (req u i).state = .ready ∧ (req u i).tier = 2 ∧ (req u i).charge4 = 0 ∧
      (req u i).resumeCmd = none ∧ onlyRequest s u i := by
  obtain ⟨⟨k, l, hreq⟩, honly⟩ := copiedBack_repaged s i
  let v := copiedBack s i
  let w := credit4 (setReq v i (resumedReq v i)) (req v i).part (req v i).charge4
  have hw : w.srv = (setReq v i (resumedReq v i)).srv := by
    rw [show w = credit4 _ _ _ from rfl, credit4, setPart_frame]
  have hside := finishOpt_hostSide w (req v i).resumeCmd 0 {}
  have hc : ¬(req v i).cancelCmd.isSome = true := by rw [hreq, hcancel]; decide
  have hr : ¬(req v i).releaseCmd.isSome = true := by rw [hreq, hrelease]; decide
  have hreqs := req_congr (congrArg Serving.reqs ((hostSide_srv hside).trans hw))
  have hexec : exec (.resumeCopyDone i) s = .next (finishOpt w (req v i).resumeCmd 0 {}) :=
    (if_neg (not_not.2 h)).trans (congrArg Host.Outcome.next ((if_neg hc).trans (if_neg hr)))
  refine ⟨_, hexec, ?_, ?_, ?_, ?_, fun m hm => ?_⟩
  on_goal 5 => exact (hreqs m).trans ((req_setReq_other hm _).trans (honly m hm))
  all_goals
    rw [hreqs, req_setReq_same]
    rfl

theorem resumeCopyDone_passes {i : Fin 4096} (h : (req s i).state ≠ .resuming) : completes (.resumeCopyDone i) s (· = s) :=
  ⟨s, if_pos h, rfl⟩

end Sys2Proof.Machine
end

section
/-!
Batches submitted and continued (R227, R228, R243, R358-R362).
-/
namespace Sys2Proof.Machine
open Reg Laws

variable {s t u v : State} {h : Pkt} {b : BatchHead} {r : RowParams} {c : Cmd} {e n p id : Nat}

/-! ### What the checks of a command see once its packet is consumed -/

theorem usable_consumed (hc : consumed s t) (p n role entry : Nat) : usable t p n role entry = usable s p n role entry := by
  rw [usable, usable, handleIn, handleIn, consumed_handles hc]

theorem roomFor_congr (h : u.srv = s.srv) (p n : Nat) : roomFor u p n = roomFor s p n := by
  rw [roomFor, roomFor, usedEntries, usedEntries, partEntries, partEntries, h]

theorem roomFor_consumed (hc : consumed s t) (p n : Nat) : roomFor t p n = roomFor s p n := roomFor_congr (consumed_srv hc) p n

theorem fitsT2_consumed (hc : consumed s t) (p n : Nat) : fitsT2 t p n = fitsT2 s p n := by
  rw [fitsT2, fitsT2, consumed_parts hc]

theorem noClusters_nil {q : Part} (hq : tfind p s.parts = some q) (hnil : q.logical = []) : noClusters s p = true := by
  rw [noClusters, hq]
  simpa using hnil

theorem noClusters_cons {q : Part} (hq : tfind p s.parts = some q) (hsome : q.logical ≠ []) : noClusters s p = false := by
  rw [noClusters, hq]
  simpa using hsome

theorem noClusters_consumed (hc : consumed s t) (p : Nat) : noClusters t p = noClusters s p := by
  rw [noClusters, noClusters, consumed_parts hc]

/-! ### Free entries (R362) -/

theorem mem_of_tfind {α : Type} {k : Nat} {x : α} {l : List (Nat × α)} (h : tfind k l = some x) : (k, x) ∈ l := by
  induction l with
  | nil => cases h
  | cons y l ih =>
    obtain ⟨j, z⟩ := y
    rw [tfind] at h
    split at h
    · next hj =>
      cases h
      exact hj ▸ List.mem_cons_self
    · exact List.mem_cons_of_mem _ (ih h)

/-- With all 4,096 entries in use there is no room for another. -/
theorem freeEntry_of_room (hroom : roomFor s p 1 = true) : ∃ e, freeEntry s = some e := by
  rw [← Option.isSome_iff_exists, ← Option.not_isNone, Bool.not_eq_true', Bool.eq_false_iff, Ne, Option.isNone_iff_eq_none]
  intro hnone
  have hused : List.range 4096 ⊆ (s.srv.reqs.filter fun x => x.2.state != .free).map Prod.fst := fun e he => by
    have hstate : (req s e).state ≠ .free := by simpa using List.find?_eq_none.1 hnone e he
    cases hfind : tfind e s.srv.reqs with
    | none => exact absurd (by rw [req, tget, hfind]; rfl) hstate
    | some x =>
      have hx : req s e = x := by rw [req, tget, hfind]; rfl
      exact List.mem_map.2 ⟨(e, x), List.mem_filter.2 ⟨mem_of_tfind hfind, by simpa [hx] using hstate⟩, rfl⟩
  have hlen := (List.subperm_of_subset List.nodup_range hused).length_le
  rw [List.length_range, List.length_map] at hlen
  rw [roomFor, Bool.and_eq_true, decide_eq_true_eq, usedEntries] at hroom
  omega

/-- A request as it stands in entry `e`: each reuse of an entry raises its generation (R362). -/
def enteredReq (s : State) (e : Nat) (r : Req) : Req :=
  { r with gen := if (req s e).used then ((req s e).gen + 1) % 2 ^ 20 else 0, used := true }

theorem newReq_room (hroom : roomFor s p 1 = true) :
    ∃ e, (req s e).state = .free ∧ ∀ r, newReq s r = some (e, setReq s e (enteredReq s e r)) := by
  obtain ⟨e, he⟩ := freeEntry_of_room hroom
  refine ⟨e, ?_, fun r => ?_⟩
  · rw [freeEntry] at he
    simpa using List.find?_some he
  · unfold newReq
    rw [he]
    rfl

/-! ### A NEW row (R227, R228) -/

/-- T2 bytes that a NEW row reserves. -/
def rowReserve (m : Manifest) (r : RowParams) : Nat :=
  reserveBytes m (r.promptLen + r.maxNew) (pageSize m (r.promptLen + r.maxNew) r.pageLog2) r.globals

/-- The request of the NEW row of a batch of one row. -/
def rowReq (c : Cmd) (m : Manifest) (handle id : Nat) (r : RowParams) : Req :=
  { part := c.part, state := .active, handle, tag := r.tag, fn := c.fn, ring := c.ring, batch := id, row := 0, e := r.promptLen + r.maxNew,
    p := pageSize m (r.promptLen + r.maxNew) r.pageLog2, charge := rowReserve m r, k := r.k, bias := r.bias, globals := r.globals,
    stops := r.stops }

/-- The row of a live request. -/
def liveRowOf (e k : Nat) : Row := { req := some e, k, pos := 0, stopped := false }

theorem admitRows_new {m : Manifest} {handle : Nat} (hkind : r.kind = 0) (hok : rowOk m r (r.promptLen + r.maxNew) = true)
    (hfits : fitsT2 s c.part (rowReserve m r) = true) (hnew : ∀ r, newReq s r = some (e, setReq s e (enteredReq s e r))) :
    admitRows c m handle id false 0 [r] s =
      ([liveRowOf e r.k], charge2 (setReq s e (enteredReq s e (rowReq c m handle id r))) c.part (rowReserve m r)) := by
  have hadmit : admitNew s c m handle id 0 false r =
      (liveRowOf e r.k, charge2 (setReq s e (enteredReq s e (rowReq c m handle id r))) c.part (rowReserve m r)) := by
    rw [admitNew]
    dsimp only
    rw [hok, if_neg (by decide), if_neg (by rw [← rowReserve, hfits]; decide), hnew]
    rfl
  rw [admitRows, if_neg (by omega), if_pos hkind, hadmit]
  rfl

/-! ### Pages for the first step (R229) -/

/-- Of the state only free values and request `e`'s pages and tier differ. -/
def pageSide (s u : State) (e : Nat) : Prop := (∃ k l, u = { s with free := k, srv := { s.srv with reqs := l } }) ∧ repaged s u e

theorem pageSide_refl (s : State) (e : Nat) : pageSide s s e := ⟨⟨_, _, rfl⟩, repaged_refl s e⟩

theorem pageSide_trans (h : pageSide s t e) (h' : pageSide t u e) : pageSide s u e := by
  obtain ⟨⟨k, l, ht⟩, hpages⟩ := h
  obtain ⟨⟨k', l', hu⟩, hpages'⟩ := h'
  exact ⟨⟨k', l', by rw [hu, ht]⟩, repaged_trans hpages hpages'⟩

theorem pageSide_setReq (s : State) (e : Nat) (l : List KvPage) : pageSide s (setReq s e { req s e with pages := l }) e :=
  ⟨⟨s.free, _, rfl⟩, repaged_setReq s e _ l⟩

theorem allocPage_side (m : Manifest) (s : State) (e l i : Nat) : pageSide s (allocPage m s e l i) e := by
  unfold allocPage
  dsimp only
  split
  · exact pageSide_refl s e
  · obtain ⟨k, hk⟩ := placeT2_frame s (partGrans s (req s e).part) (pageBytes (req s e) m l)
    rw [hk]
    exact pageSide_trans ⟨⟨k, s.srv.reqs, rfl⟩, repaged_of_srv rfl e⟩ (pageSide_setReq ..)

theorem settlePages_side (s : State) (e n : Nat) : pageSide s (settlePages s e n) e := by
  unfold settlePages
  split
  · exact pageSide_refl s e
  · refine List.foldlRecOn (motive := fun t => pageSide s t e) _ _ (pageSide_setReq ..) fun t ht l _ => ?_
    exact List.foldlRecOn (motive := fun t => pageSide s t e) _ _ ht fun t ht i _ => pageSide_trans ht (allocPage_side ..)

theorem pagesForStep_one {x : Batch} {row : Row} (hx : batch? s id = some x) (hrows : x.rows = [row]) (hreq : row.req = some e)
    (htier : (req s e).tier ≠ 4) : pageSide s (pagesForStep s id) e := by
  rw [pagesForStep, hx]
  dsimp only
  rw [hrows]
  simp only [List.zipIdx_cons, List.zipIdx_nil, List.foldl_cons, List.foldl_nil, hreq, if_neg htier]
  exact settlePages_side ..

/-! ### BATCH_SUBMIT of one NEW row (R358, R360, R411) -/

/-- Its batch. -/
def oneRowBatch (c : Cmd) (b : BatchHead) (k e order : Nat) : Batch :=
  { part := c.part, handle := b.handle, entry := b.entry, cmd := some c, fn := c.fn, ring := c.ring, rows := [liveRowOf e k],
    greedy := true, steps := b.steps, prio := b.prio, out := b.out, kmax := k, prefill := b.tokLen, tokens := 0, mask := b.mask,
    tokLen := b.tokLen, done := 0, held := false, running := false, waiting := false, replay := false, order, admitted := 1 }

/-- Its request in entry `e`, with its charge. -/
def rowAdmitted (t : State) (c : Cmd) (m : Manifest) (b : BatchHead) (r : RowParams) (id e : Nat) : State :=
  charge2 (setReq (fresh t).2 e (enteredReq t e (rowReq c m b.handle id r))) c.part (rowReserve m r)

/-- Its batch with the number `id`, before the pages of the first step. -/
def submitted (t : State) (c : Cmd) (m : Manifest) (b : BatchHead) (r : RowParams) (id e : Nat) : State :=
  let w := rowAdmitted t c m b r id e
  setBatch { w with srv := { w.srv with order := w.srv.order + 1 } } id (oneRowBatch c b r.k e w.srv.order)

theorem pick_mem {l : List Nat} (h : l ≠ []) (s : State) : ∃ i ∈ l, pick s l = (some i, (fresh s).2) := by
  have hpos : 0 < l.length := List.length_pos_iff.2 h
  have hlt : (fresh s).1 % l.length < l.length := Nat.mod_lt _ hpos
  refine ⟨l[(fresh s).1 % l.length], List.getElem_mem hlt, ?_⟩
  rw [pick, if_neg (by simpa using h), List.getD_eq_getElem _ _ hlt]

/-- The fields of the head of a batch of one NEW row of `k` candidates keep R358 and R411. -/
def headOk (b : BatchHead) (k : Nat) : Prop :=
  b.mode = 1 ∧ 1 ≤ b.steps ∧ b.steps ≤ 4096 ∧ b.prio ≤ 3 ∧ b.tokLen ≠ 0 ∧ b.out % 8 = 0 ∧ b.steps * slotBytes k ≤ b.outLen

theorem submitBatch_admits {x : Handle} (husable : usable t c.part b.handle 0 b.entry = some x) (hhead : headOk b r.k)
    (hkind : r.kind = 0) (hroom : roomFor t c.part 1 = true) (hclusters : noClusters t c.part = false)
    (hbarrier : barrierUp t c.part = false) (hid : ∃ i < 4097, batch? t i = none) (hok : rowOk x.man r (r.promptLen + r.maxNew) = true)
    (hfits : fitsT2 t c.part (rowReserve x.man r) = true) :
    ∃ id e, batch? t id = none ∧ (req t e).state = .free ∧
      submitBatch b [r] true c t = pagesForStep (submitted t c x.man b r id e) id := by
  obtain ⟨hmode, hsteps, hsteps', hprio, htok, hout, hlen⟩ := hhead
  obtain ⟨e, hfree, hnew⟩ := newReq_room (s := (fresh t).2) hroom
  have hids : ((List.range 4097).filter fun i => (batch? t i).isNone) ≠ [] := by
    obtain ⟨i, hi, hnone⟩ := hid
    exact List.ne_nil_of_mem (List.mem_filter.2 ⟨List.mem_range.2 hi, by rw [hnone]; rfl⟩)
  obtain ⟨id, hmem, hpick⟩ := pick_mem hids t
  have hnone : batch? t id = none := by simpa using (List.mem_filter.1 hmem).2
  have hkmax : kMax [r] = r.k := Nat.zero_max r.k
  refine ⟨id, e, hnone, hfree, ?_⟩
  rw [submitBatch, husable]
  dsimp only
  rw [if_neg, if_neg (by rw [hclusters]; decide), hpick]
  · dsimp only
    rw [show barrierUp (fresh t).2 c.part = false from hbarrier, admitRows_new (s := (fresh t).2) hkind hok hfits hnew]
    dsimp only
    rw [hmode, hkmax]
    have hlive : settleBatch (submitted t c x.man b r id e) id = submitted t c x.man b r id e :=
      settleBatch_live (batch?_setBatch_same ..) rfl
    conv_rhs => rw [← hlive]
    rfl
  · simp only [hmode, hkmax, List.length_singleton, if_pos, Nat.mul_one, Bool.true_eq_false, false_or]
    omega

theorem submitted_side (t : State) (c : Cmd) (m : Manifest) (b : BatchHead) (r : RowParams) (id e : Nat) :
    let w := submitted t c m b r id e
    w.hif = t.hif ∧ w.host = t.host ∧ w.mem = t.mem ∧ w.parts = (charge2 t c.part (rowReserve m r)).parts ∧
      w.srv.reqs = (setReq t e (enteredReq t e (rowReq c m b.handle id r))).srv.reqs := by
  have hcharge (u : State) : charge2 u c.part (rowReserve m r) = { u with parts := (charge2 u c.part (rowReserve m r)).parts } :=
    setPart_frame ..
  have hparts : (rowAdmitted t c m b r id e).parts = (charge2 t c.part (rowReserve m r)).parts := by
    rw [rowAdmitted, charge2, setPart, charge2, setPart]
    cases h : tfind c.part t.parts with
    | none => rw [show tfind c.part (setReq (fresh t).2 e _).parts = none from h]; rfl
    | some y => rw [show tfind c.part (setReq (fresh t).2 e _).parts = some y from h]; rfl
  refine ⟨?_, ?_, ?_, hparts, ?_⟩
  all_goals
    rw [submitted, setBatch, rowAdmitted, hcharge]
    rfl

theorem batch?_submitted (t : State) (c : Cmd) (m : Manifest) (b : BatchHead) (r : RowParams) (id e : Nat) :
    batch? (submitted t c m b r id e) id = some (oneRowBatch c b r.k e (rowAdmitted t c m b r id e).srv.order) := batch?_setBatch_same ..

section
variable (hacc : accepted s h 0x30 .owned false = true)
include hacc

/-- BATCH_SUBMIT stays in its ring while entries for its NEW rows are missing (R360). -/
theorem batchSubmit_exec (b : BatchHead) (rows : List RowParams) (l : Bool) : exec (.batchSubmit h b rows l) s =
    .next (if roomFor s h.part ((rows.filter fun r => r.kind == 0).length) then
      submitBatch b rows l (taken s h 0x30 0).1 (taken s h 0x30 0).2 else s) := by
  obtain ⟨⟨hcan, hfence⟩, hfail⟩ : (canConsume s h = true ∧ ringFenced s h.fn h.ring = false) ∧
      pktFailure s h 0x30 .owned false = none := by
    simpa [accepted] using hacc
  have hexec : exec (.batchSubmit h b rows l) s =
      if !ringFenced s h.fn h.ring && (pktFailure s h 0x30 .owned false).isNone &&
          !roomFor s h.part ((rows.filter fun r => r.kind == 0).length) then .next s
      else .next (withPkt s h 0x30 0 .owned false (submitBatch b rows l)) := rfl
  rw [hexec, withPkt_accepted hacc, hfence, hfail]
  cases roomFor s h.part ((rows.filter fun r => r.kind == 0).length)
  all_goals rfl

theorem batchSubmit_noEntries {rows : List RowParams} (hroom : roomFor s h.part ((rows.filter fun r => r.kind == 0).length) = false)
    (b : BatchHead) (l : Bool) : completes (.batchSubmit h b rows l) s (· = s) :=
  ⟨s, by rw [batchSubmit_exec hacc, hroom, if_neg (by decide)], rfl⟩

theorem batchSubmit_unusable (hslot : slotPlain s h) {rows : List RowParams}
    (hroom : roomFor s h.part ((rows.filter fun r => r.kind == 0).length) = true) (husable : usable s h.part b.handle 0 b.entry = none)
    (l : Bool) : completes (.batchSubmit h b rows l) s fun u => recorded s u h 0x30 0x21 ∧ u.srv = s.srv ∧ u.mem = s.mem := by
  obtain ⟨hrec, hsrv, -, hmem⟩ := refused_serving (status := 0x21) hslot hacc (by decide) (by decide)
  have hact : submitBatch b rows l (taken s h 0x30 0).1 (taken s h 0x30 0).2 = complete (taken s h 0x30 0).2 (taken s h 0x30 0).1 0x21 {} := by
    rw [submitBatch, usable_consumed (taken_consumed ..), show (taken s h 0x30 0).1.part = h.part from rfl, husable]
  exact ⟨_, by rw [batchSubmit_exec hacc, hroom, if_pos rfl, hact], hrec, hsrv, hmem⟩

theorem batchSubmit_admits {x : Handle} {q : Part} (hpart : tfind h.part s.parts = some q)
    (husable : usable s h.part b.handle 0 b.entry = some x) (hhead : headOk b r.k)
    (hkind : r.kind = 0) (hroom : roomFor s h.part 1 = true) (hclusters : q.logical ≠ []) (hbarrier : barrierUp s h.part = false)
    (hid : ∃ i < 4097, batch? s i = none) (hok : rowOk x.man r (r.promptLen + r.maxNew) = true)
    (hfits : fitsT2 s h.part (rowReserve x.man r) = true) :
    completes (.batchSubmit h b [r] true) s fun u => ∃ id order e, batch? s id = none ∧
      batch? u id = some (oneRowBatch (taken s h 0x30 0).1 b r.k e order) ∧ (req s e).state = .free ∧
      u.hif = (taken s h 0x30 0).2.hif ∧ u.host = s.host ∧ u.mem = s.mem ∧
      (∃ k l g, req u e = { rowReq (taken s h 0x30 0).1 x.man b.handle id r with tier := k, pages := l, gen := g, used := true }) ∧
      onlyRequest s u e ∧ (part? u h.part).map (·.c2) = some (q.c2 + rowReserve x.man r) := by
  have hc := taken_consumed s h 0x30 0
  let c := (taken s h 0x30 0).1
  generalize ht : (taken s h 0x30 0).2 = t at hc
  have hnew : (([r].filter fun r => r.kind == 0).length) = 1 := by rw [List.filter_singleton, hkind]; rfl
  have hsome := noClusters_cons hpart hclusters
  obtain ⟨id, e, hnone, hfree, hact⟩ := submitBatch_admits (t := t) (c := c) ((usable_consumed hc ..).trans husable) hhead hkind
    ((roomFor_consumed hc ..).trans hroom) ((noClusters_consumed hc _).trans hsome) ((barrierUp_consumed hc _).trans hbarrier)
    (by simpa only [batch?_consumed hc] using hid) hok ((fitsT2_consumed hc ..).trans hfits)
  have hexec : exec (.batchSubmit h b [r] true) s = .next (pagesForStep (submitted t c x.man b r id e) id) := by
    rw [batchSubmit_exec hacc, hnew, hroom, if_pos rfl, ht, hact]
  obtain ⟨hhif, hhost, hmem, hparts, hreqs⟩ := submitted_side t c x.man b r id e
  have hreq : req (submitted t c x.man b r id e) e = enteredReq t e (rowReq c x.man b.handle id r) :=
    (req_congr hreqs e).trans (req_setReq_same ..)
  obtain ⟨⟨f, l, hu⟩, ⟨k, l', hreq'⟩, honly⟩ := pagesForStep_one (batch?_submitted t c x.man b r id e) rfl rfl
    (by rw [hreq]; exact (by decide : 2 ≠ 4))
  refine ⟨_, hexec, id, _, e, (batch?_consumed hc id).symm.trans hnone, (batch?_congr (by rw [hu]) id).trans (batch?_submitted ..),
    by rw [← req_consumed hc]; exact hfree, ?_, ?_, ?_, ⟨k, l', _, by rw [hreq', hreq]; rfl⟩, fun m hm => ?_, ?_⟩
  · rw [hu, ← hhif]
  · rw [hu, ← consumed_host hc, ← hhost]
  · rw [hu, ← consumed_mem hc, ← hmem]
  · rw [honly m hm, req_congr hreqs, req_setReq_other hm, req_consumed hc]
  · have hcharged : tfind h.part (charge2 t h.part (rowReserve x.man r)).parts = some { q with c2 := q.c2 + rowReserve x.man r } :=
      tfind_setPart (by rw [consumed_parts hc]; exact hpart) _
    rw [part?, hu]
    show (tfind h.part (submitted t c x.man b r id e).parts).map _ = _
    rw [hparts]
    show (tfind h.part (charge2 t h.part (rowReserve x.man r)).parts).map _ = _
    rw [hcharged]
    rfl

/-! ### BATCH_SUBMIT_CONTINUE (R243) -/

/-- A batch that waits for the packet, and the packet's buffer for its next records. -/
def continuable (h : Pkt) (out n : Nat) (y : Batch) : Prop :=
  y.part = h.part ∧ y.greedy = false ∧ y.waiting = true ∧ out % 8 = 0 ∧ y.rows.length * slotBytes y.kmax ≤ n

/-- The batch with the packet outstanding. -/
def continuedBatch (y : Batch) (c : Cmd) (out : Nat) : Batch :=
  { y with cmd := some c, fn := c.fn, ring := c.ring, out := out, waiting := false, done := 0 }

/-- The requests of a continued batch, whose records go to the packet's ring. -/
def continuedRows (t : State) (c : Cmd) (y : Batch) : State :=
  (y.rows.filterMap (·.req)).foldl (fun s e => setReq s e { req s e with fn := c.fn, ring := c.ring }) t

omit hacc in
theorem continuedRows_side (t : State) (c : Cmd) (y : Batch) : (continuedRows t c y).hif = t.hif ∧ (continuedRows t c y).host = t.host := by
  refine ⟨foldl_keeps (p := State.hif) ?_ _ t, foldl_keeps (p := State.host) ?_ _ t⟩
  all_goals exact fun _ _ => rfl

theorem batchSubmitContinue_exec {i : BitVec 32} {y : Batch} (hy : batch? s i.toNat = some y) (out n : Nat) :
    exec (.batchSubmitContinue h i out n) s = .next
      (if y.part ≠ h.part ∨ y.greedy = true ∨ y.waiting = false ∨ out % 8 ≠ 0 ∨ n < y.rows.length * slotBytes y.kmax then
        complete (taken s h 0x30 0).2 (taken s h 0x30 0).1 0x21 {}
      else if noClusters s h.part then complete (taken s h 0x30 0).2 (taken s h 0x30 0).1 0x31 {}
      else setBatch (continuedRows (taken s h 0x30 0).2 (taken s h 0x30 0).1 y) i.toNat (continuedBatch y (taken s h 0x30 0).1 out)) := by
  have hc := taken_consumed s h 0x30 0
  have hexec : exec (.batchSubmitContinue h i out n) s =
      .next (continueBatch i.toNat out n (taken s h 0x30 0).1 (taken s h 0x30 0).2) := congrArg Host.Outcome.next (withPkt_accepted hacc)
  rw [hexec, continueBatch, batch?_consumed hc, hy, ← noClusters_consumed hc h.part]
  rfl

theorem batchSubmitContinue_refused (hslot : slotPlain s h) {i : BitVec 32} {y : Batch} {out n : Nat} (hy : batch? s i.toNat = some y)
    (hnot : ¬continuable h out n y) :
    completes (.batchSubmitContinue h i out n) s fun u => recorded s u h 0x30 0x21 ∧ u.srv = s.srv := by
  obtain ⟨hrec, hsrv, -, -⟩ := refused_serving (status := 0x21) hslot hacc (by decide) (by decide)
  refine ⟨_, (batchSubmitContinue_exec hacc hy out n).trans (congrArg Host.Outcome.next (if_pos ?_)), hrec, hsrv⟩
  by_contra hall
  simp only [not_or, not_not, Bool.not_eq_true, Bool.not_eq_false, Nat.not_lt] at hall
  exact hnot hall

theorem batchSubmitContinue_noClusters (hslot : slotPlain s h) {i : BitVec 32} {y : Batch} {out n : Nat} (hy : batch? s i.toNat = some y)
    (hok : continuable h out n y) (hclusters : noClusters s h.part = true) :
    completes (.batchSubmitContinue h i out n) s fun u => recorded s u h 0x30 0x31 ∧ u.srv = s.srv := by
  obtain ⟨hrec, hsrv, -, -⟩ := refused_serving (status := 0x31) hslot hacc (by decide) (by decide)
  obtain ⟨hpart, hgreedy, hwait, hout, hlen⟩ := hok
  refine ⟨_, (batchSubmitContinue_exec hacc hy out n).trans (congrArg Host.Outcome.next ((if_neg ?_).trans (if_pos hclusters))), hrec, hsrv⟩
  simp [hpart, hgreedy, hwait, hout, Nat.not_lt.2 hlen]

theorem batchSubmitContinue_resumes {i : BitVec 32} {y : Batch} {out n : Nat} (hy : batch? s i.toNat = some y)
    (hok : continuable h out n y) (hclusters : noClusters s h.part = false) :
    completes (.batchSubmitContinue h i out n) s fun u => batch? u i.toNat = some (continuedBatch y (taken s h 0x30 0).1 out) ∧
      (taken s h 0x30 0).1 ∈ u.hif.cmds ∧ u.host = s.host := by
  obtain ⟨hpart, hgreedy, hwait, hout, hlen⟩ := hok
  obtain ⟨hhif, hhost⟩ := continuedRows_side (taken s h 0x30 0).2 (taken s h 0x30 0).1 y
  refine ⟨_, (batchSubmitContinue_exec hacc hy out n).trans (congrArg Host.Outcome.next
    ((if_neg ?_).trans (if_neg (by rw [hclusters]; decide)))), batch?_setBatch_same .., ?_, hhost.trans (consumed_host (taken_consumed ..))⟩
  · simp [hpart, hgreedy, hwait, hout, Nat.not_lt.2 hlen]
  · show (taken s h 0x30 0).1 ∈ (continuedRows (taken s h 0x30 0).2 (taken s h 0x30 0).1 y).hif.cmds
    rw [hhif]
    exact taken_outstanding ..

end

end Sys2Proof.Machine
end

section
/-!
Training steps admitted (R118, R119, R362).
-/
namespace Sys2Proof.Machine
open Reg Laws

variable {s v w : State} {h : Pkt} {t : TrainParams} {c : Cmd} {e n p : Nat}

/-! ### What INIT reads (R119) -/

theorem devRb_consumed (hc : consumed s w) (a : Nat) : devRb w a = devRb s a := by
  rw [hc.1]
  rfl

theorem accessKind_consumed (hc : consumed s w) (r : Requester) (g : Nat) (write : Bool) : accessKind w r g write = accessKind s r g write := by
  have hcount : granCount w = granCount s := by rw [granCount, granCount, rd_of_consumed hc (by decide)]
  have hdram : w.dram = s.dram := by rw [hc.1]
  have hentry : gEntry w g = gEntry s g := by rw [gEntry, gEntry, hdram]
  unfold accessKind
  rw [hcount, hentry, hdram]

theorem t2Readable_consumed (hc : consumed s w) (p addr n : Nat) : t2Readable w p addr n = t2Readable s p addr n := by
  unfold t2Readable
  simp only [accessKind_consumed hc]

theorem newAdapter_consumed (hc : consumed s w) (digest rank charge n addr : Nat) :
    newAdapter w digest rank charge n addr = newAdapter s digest rank charge n addr := by
  unfold newAdapter
  simp only [devRb_consumed hc]

/-! ### A step with its request -/

/-- The request of a training step. -/
def trainReq (c : Cmd) (t : TrainParams) : Req :=
  { part := c.part, state := .active, handle := t.handle, tag := c.tag, fn := c.fn, ring := c.ring, train := true }

/-- A training step that waits for its cores. -/
def stepOf (c : Cmd) (t : TrainParams) (digest e order : Nat) : Train :=
  { cmd := c, part := c.part, entry := e, digest, params := t, running := false, prio := 0, order }

/-- The step with its request in entry `e`. -/
def trained (v : State) (c : Cmd) (t : TrainParams) (digest e : Nat) : State :=
  let w := setReq v e (enteredReq v e (trainReq c t))
  { w with srv := { w.srv with trains := w.srv.trains ++ [stepOf c t digest e v.srv.order], order := v.srv.order + 1 } }

theorem req_trained (v : State) (c : Cmd) (t : TrainParams) (digest e : Nat) :
    req (trained v c t digest e) e = enteredReq v e (trainReq c t) := tget_tput_same ..

/-- The adapter's weights from INIT_ADDR in place of the old one, with their charge. -/
def adapterBound (w : State) (c : Cmd) (t : TrainParams) (digest n old : Nat) : State :=
  setPart (charge2 (credit2 w c.part old) c.part (adapterBytes n)) c.part
    fun p => { p with adapters := tset t.adapter (newAdapter w digest t.rank (adapterBytes n) n t.initAddr) p.adapters }

theorem adapterBound_frame (w : State) (c : Cmd) (t : TrainParams) (digest n old : Nat) :
    adapterBound w c t digest n old = { w with parts := (adapterBound w c t digest n old).parts } := by
  rw [adapterBound, setPart_frame, charge2, setPart_frame, credit2, setPart_frame]

theorem tfind_adapterBound {q : Part} (hq : tfind c.part w.parts = some q) (t : TrainParams) (digest n old : Nat) :
    tfind c.part (adapterBound w c t digest n old).parts = some { q with
      c2 := q.c2 - old + adapterBytes n
      adapters := tset t.adapter (newAdapter w digest t.rank (adapterBytes n) n t.initAddr) q.adapters } :=
  tfind_setPart (tfind_setPart (tfind_setPart hq _) _) _

/-- The charge that a new adapter takes the place of. -/
def oldCharge : Option Adapter → Nat
  | some a => a.charge
  | none => 0

/-- The operands of TRAIN_STEP that R118 names are in range for the maquette. -/
def trainOk (t : TrainParams) (x : Handle) : Prop :=
  x.man.train = true ∧ t.adapter ≤ 7 ∧ [4, 8, 16, 32, 64].contains t.rank = true

section
variable {x : Handle} {q : Part} (husable : usable w c.part t.handle 2 t.entry = some x) (hpart : tfind c.part w.parts = some q)
include husable hpart

theorem trainAct_refused (h : x.man.train = false ∨ (t.init = false ∧ tfind t.adapter q.adapters = none)) :
    trainAct t c w = complete w c 0x21 {} := by
  rw [trainAct, husable, hpart]
  refine if_pos ?_
  rcases h with h | ⟨hinit, hnone⟩
  · exact .inr (.inl h)
  · exact .inr (.inr (.inr (.inr (.inl ⟨hinit, by rw [hnone]⟩))))

variable (hp : c.part ≠ 0) (hok : trainOk t x) (hroom : roomFor w c.part 1 = true) (hclusters : q.logical ≠ [])
include hp hok hroom hclusters

/-- A step of an adapter that is bound to the maquette starts with it as it is. -/
theorem trainAct_bound {a : Adapter} (hinit : t.init = false) (ha : tfind t.adapter q.adapters = some a)
    (hdigest : a.digest = x.man.maqDigest) (hrank : a.rank = t.rank) :
    ∃ e, (req w e).state = .free ∧ trainAct t c w = trained w c t x.man.maqDigest e := by
  obtain ⟨e, hfree, hnew⟩ := newReq_room hroom
  have hsome := noClusters_cons hpart hclusters
  obtain ⟨htrain, hadapter, hrank'⟩ := hok
  refine ⟨e, hfree, ?_⟩
  rw [trainAct, husable, hpart]
  dsimp only
  rw [ha, if_neg, if_neg (by simp [hinit]), if_neg (by simp [hsome, hroom]), hinit, if_neg (by decide), hnew]
  · rfl
  · simp only [hp, htrain, Nat.not_lt.2 hadapter, hrank', hinit, hdigest, hrank, beq_self_eq_true, Bool.and_self, Bool.not_true,
      Bool.true_eq_false, Bool.false_eq_true, false_and, and_false, or_self, not_false_eq_true]

/-- A step with INIT = 1 first binds and charges a new adapter. -/
theorem trainAct_init (hinit : t.init = true) (hread : t2Readable w c.part t.initAddr (2 * (t.rank * x.man.adaptDims)) = true)
    (hfits : q.c2 - oldCharge (tfind t.adapter q.adapters) + adapterBytes (t.rank * x.man.adaptDims) ≤ q.quota.q2) :
    ∃ e, (req w e).state = .free ∧ trainAct t c w = trained (adapterBound w c t x.man.maqDigest (t.rank * x.man.adaptDims)
      (oldCharge (tfind t.adapter q.adapters))) c t x.man.maqDigest e := by
  have hsrv : (adapterBound w c t x.man.maqDigest (t.rank * x.man.adaptDims) (oldCharge (tfind t.adapter q.adapters))).srv = w.srv := by
    rw [adapterBound_frame]
  have hroom' := (roomFor_congr hsrv c.part 1).trans hroom
  obtain ⟨e, hfree, hnew⟩ := newReq_room hroom'
  have hsome := noClusters_cons hpart hclusters
  have hroomy : fitsT2 (credit2 w c.part (oldCharge (tfind t.adapter q.adapters))) c.part (adapterBytes (t.rank * x.man.adaptDims)) = true := by
    rw [fitsT2, credit2, tfind_setPart hpart]
    exact decide_eq_true hfits
  obtain ⟨htrain, hadapter, hrank'⟩ := hok
  refine ⟨e, ?_, ?_⟩
  · rw [← hfree, req_congr (congrArg Serving.reqs hsrv)]
  · rw [trainAct, husable, hpart]
    dsimp only
    cases ho : tfind t.adapter q.adapters
    all_goals
      rw [ho] at hroomy hnew
      unfold adapterBound oldCharge at hnew
      dsimp only at hnew ⊢
      rw [if_neg, if_neg fun hno => Bool.false_ne_true (hno.2.symm.trans hroomy), if_neg (by simp [hsome, hroom]), if_pos hinit, hnew]
      · rfl
      · simp only [hp, htrain, Nat.not_lt.2 hadapter, hrank', hinit, hread, Bool.not_true, Bool.true_eq_false, Bool.false_eq_true,
          false_and, and_false, or_self, not_false_eq_true]

end

/-! ### TRAIN_STEP (R118, R119, R419) -/

/-- A training step that waits with its own request, its packet outstanding. -/
def trainMade (s : State) (h : Pkt) (t : TrainParams) (x : Handle) (u : State) (k : Train) (n : Nat) : Prop :=
  (req s n).state = .free ∧ u.srv.trains = s.srv.trains ++ [k] ∧ k.entry = n ∧ k.cmd = (taken s h 0x90 0).1 ∧ k.cmd ∈ u.hif.cmds ∧
  k.params = t ∧ k.digest = x.man.maqDigest ∧ k.phase = .forward ∧ k.running = false ∧ (req u n).state = .active ∧
  (req u n).train = true ∧ u.host = s.host

theorem trained_made {x : Handle} (hfree : (req s e).state = .free) (hhif : v.hif = (taken s h 0x90 0).2.hif) (hhost : v.host = s.host)
    (hsrv : v.srv = s.srv) : let c := (taken s h 0x90 0).1
    trainMade s h t x (trained v c t x.man.maqDigest e) (stepOf c t x.man.maqDigest e v.srv.order) e := by
  refine ⟨hfree, ?_, rfl, rfl, ?_, rfl, rfl, rfl, rfl, ?_, ?_, hhost⟩
  · rw [← hsrv]
    rfl
  · rw [show (trained v (taken s h 0x90 0).1 t x.man.maqDigest e).hif = v.hif from rfl, hhif]
    exact taken_outstanding ..
  all_goals
    rw [req_trained]
    rfl

section
variable {x : Handle} {q : Part} (hacc : accepted s h 0x90 .owned false = true) (husable : usable s h.part t.handle 2 t.entry = some x)
  (hpart : tfind h.part s.parts = some q)
include hacc

theorem trainStep_exec (t : TrainParams) : exec (.trainStep h t) s = .next (trainAct t (taken s h 0x90 0).1 (taken s h 0x90 0).2) :=
  congrArg Host.Outcome.next (withPkt_accepted hacc)

include husable hpart

theorem trainStep_refused (hslot : slotPlain s h) (hbad : x.man.train = false ∨ (t.init = false ∧ tfind t.adapter q.adapters = none)) :
    completes (.trainStep h t) s fun u => recorded s u h 0x90 0x21 ∧ u.srv = s.srv ∧ u.parts = s.parts := by
  have hc := taken_consumed s h 0x90 0
  obtain ⟨hrec, hsrv, hparts, -⟩ := refused_serving (status := 0x21) hslot hacc (by decide) (by decide)
  have hact := trainAct_refused (c := (taken s h 0x90 0).1) ((usable_consumed hc ..).trans husable)
    ((congrArg (tfind h.part) (consumed_parts hc)).trans hpart) hbad
  exact ⟨_, (trainStep_exec hacc t).trans (congrArg Host.Outcome.next hact), hrec, hsrv, hparts⟩

variable (hp : h.part ≠ 0) (hok : trainOk t x) (hroom : roomFor s h.part 1 = true) (hclusters : q.logical ≠ [])
include hp hok hroom hclusters

theorem trainStep_bound {a : Adapter} (hinit : t.init = false) (ha : tfind t.adapter q.adapters = some a)
    (hdigest : a.digest = x.man.maqDigest) (hrank : a.rank = t.rank) :
    completes (.trainStep h t) s fun u => ∃ k n, trainMade s h t x u k n ∧ u.parts = s.parts := by
  have hc := taken_consumed s h 0x90 0
  obtain ⟨e, hfree, hact⟩ := trainAct_bound (c := (taken s h 0x90 0).1) ((usable_consumed hc ..).trans husable)
    ((congrArg (tfind h.part) (consumed_parts hc)).trans hpart) hp hok ((roomFor_consumed hc ..).trans hroom) hclusters hinit ha hdigest hrank
  have hparts := consumed_parts hc
  rw [req_consumed hc] at hfree
  have hmade := trained_made (t := t) (x := x) hfree rfl (consumed_host hc) (consumed_srv hc)
  exact ⟨_, (trainStep_exec hacc t).trans (congrArg Host.Outcome.next hact), _, e, hmade, hparts⟩

theorem trainStep_init (hinit : t.init = true) (hread : t2Readable s h.part t.initAddr (2 * (t.rank * x.man.adaptDims)) = true)
    (hfits : q.c2 - oldCharge (tfind t.adapter q.adapters) + adapterBytes (t.rank * x.man.adaptDims) ≤ q.quota.q2) :
    completes (.trainStep h t) s fun u => ∃ k e y, trainMade s h t x u k e ∧ tfind h.part u.parts = some y ∧
      y.c2 = q.c2 - oldCharge (tfind t.adapter q.adapters) + adapterBytes (t.rank * x.man.adaptDims) ∧ tfind t.adapter y.adapters =
        some (newAdapter s x.man.maqDigest t.rank (adapterBytes (t.rank * x.man.adaptDims)) (t.rank * x.man.adaptDims) t.initAddr) := by
  have hc := taken_consumed s h 0x90 0
  have hpart' : tfind h.part (taken s h 0x90 0).2.parts = some q := (congrArg (tfind h.part) (consumed_parts hc)).trans hpart
  obtain ⟨e, hfree, hact⟩ := trainAct_init (c := (taken s h 0x90 0).1) ((usable_consumed hc ..).trans husable) hpart' hp hok
    ((roomFor_consumed hc ..).trans hroom) hclusters hinit ((t2Readable_consumed hc ..).trans hread) hfits
  generalize hv : adapterBound (taken s h 0x90 0).2 (taken s h 0x90 0).1 t x.man.maqDigest (t.rank * x.man.adaptDims)
    (oldCharge (tfind t.adapter q.adapters)) = v at hact
  have hframe : v = { (taken s h 0x90 0).2 with parts := v.parts } := by
    rw [← hv]
    exact adapterBound_frame ..
  have hfind := tfind_adapterBound (c := (taken s h 0x90 0).1) hpart' t x.man.maqDigest (t.rank * x.man.adaptDims)
    (oldCharge (tfind t.adapter q.adapters))
  rw [hv] at hfind
  have hhost := consumed_host hc
  have hsrv := consumed_srv hc
  rw [req_consumed hc] at hfree
  have hmade := trained_made (v := v) (t := t) (x := x) hfree (by rw [hframe]) (by rw [hframe]; exact hhost) (by rw [hframe]; exact hsrv)
  refine ⟨_, (trainStep_exec hacc t).trans (congrArg Host.Outcome.next hact), _, e, _, hmade, hfind, rfl, ?_⟩
  rw [← newAdapter_consumed hc]
  exact tfind_tset_same ..

end

/-- A new adapter's weights are the BF16 values at its address. -/
theorem newAdapter_weight {i : Nat} (hi : i < n) (s : State) (digest rank charge addr : Nat) :
    (newAdapter s digest rank charge n addr).cur.w[i]? = some ((devRb s (addr + 2 * i)).toNat + 256 * (devRb s (addr + 2 * i + 1)).toNat) := by
  show ((List.range n).map _)[i]? = _
  rw [List.getElem?_map, List.getElem?_range hi]
  rfl

theorem newAdapter_weights (s : State) (digest rank charge addr : Nat) : (newAdapter s digest rank charge n addr).cur.w.length = n := by
  show ((List.range n).map _).length = n
  rw [List.length_map, List.length_range]

end Sys2Proof.Machine
end

section
/-!
Requests and batches are admitted, changed and ended by their states (R118, R243, R358-R370).
-/
open Sys2Proof Sys2Proof.Machine Sys2Proof.Machine.Reg

/-- Settles O28: each command is its packet consumed and one of few changes of its request, batch or adapter; what that change keeps
follows from the rules of the request and batch tables. -/
theorem requestsAndBatchesAreAdmitted : Obligations.RequestsAndBatchesAreAdmitted := by
  unfold Obligations.RequestsAndBatchesAreAdmitted
  refine ⟨?_, ?_, ?_, ?_, ?_⟩
  · intro s h b r x q e hacc hpart hslot
    refine ⟨?_, ?_, ?_, ?_⟩
    · intro husable hkind hroom hmode hsteps hsteps' hprio htok hout hlen hclusters hbarrier hid hok hfits
      obtain ⟨u, hexec, id, order, n, hnone, hy, hfree, hhif, hhost, hmem, ⟨k, l, g, hreq⟩, honly, hc2⟩ :=
        batchSubmit_admits hacc hpart husable ⟨hmode, hsteps, hsteps', hprio, htok, hout, hlen⟩ hkind hroom hclusters hbarrier hid hok hfits
      refine ⟨u, hexec, id, _, n, hnone, hy, hfree, rfl, rfl, rfl, rfl, rfl, rfl, rfl, rfl, rfl, ?_, hhost, hmem, ?_, ?_, ?_, ?_, ?_,
        honly, hc2⟩
      · rw [hhif]
        exact taken_outstanding ..
      all_goals
        rw [hreq]
        rfl
    · exact fun rows l husable hroom => batchSubmit_unusable hacc hslot hroom husable l
    · exact fun rows l hroom => batchSubmit_noEntries hacc hroom b l
    · intro id out n y hy ok
      refine ⟨fun hok hnone => ?_, fun hok hsome => ?_, fun hnot => batchSubmitContinue_refused hacc hslot hy hnot⟩
      · exact batchSubmitContinue_noClusters hacc hslot hy hok (noClusters_nil hpart hnone)
      · exact batchSubmitContinue_resumes hacc hy hok (noClusters_cons hpart hsome)
  · intro s h t x q a hacc hslot husable hpart hp made
    refine ⟨?_, ?_, ?_⟩
    · intro hinit ha hdigest hrank htrain hadapter hranks hroom hclusters
      exact trainStep_bound hacc husable hpart hp ⟨htrain, hadapter, List.contains_iff_mem.2 hranks⟩ hroom hclusters hinit ha hdigest hrank
    · intro n free hinit htrain hadapter hranks hread hfits hroom hclusters
      have hfree : free = oldCharge (tfind t.adapter q.adapters) := rfl
      rw [hfree] at hfits ⊢
      obtain ⟨u, hexec, k, e, y, hmade, hy, hc2, hb⟩ := trainStep_init hacc husable hpart hp
        ⟨htrain, hadapter, List.contains_iff_mem.2 hranks⟩ hroom hclusters hinit hread hfits
      exact ⟨u, hexec, k, e, y, _, hmade, hy, hc2, hb, rfl, rfl, rfl, rfl, newAdapter_weights .., fun i hi => newAdapter_weight hi .., rfl⟩
    · exact trainStep_refused hacc husable hpart hslot
  · intro s h n ttl pl e hslot hfind hpart r idle others htrain hidle _
    refine ⟨?_, ?_, ?_⟩
    · refine fun hacc httl hplace => ⟨fun hready hgone => ?_, fun hstep => ?_, fun hpaused => ?_⟩
      · exact reqPause_ready hslot hacc hfind hpart hidle htrain hready hgone httl hplace
      · exact reqPause_waits hacc hfind hpart hidle htrain hstep httl hplace
      · exact reqPause_paused hslot hacc hfind hpart hpaused
    · obtain ⟨-, -, -, hresume⟩ := hidle
      refine fun hacc => ⟨fun hpaused htier hbarrier => ?_, fun hpaused hbarrier => ?_, fun hother => ?_⟩
      · exact reqResume_t2 hslot hacc hfind hpart hresume hpaused htier hbarrier
      · exact reqResume_held hacc hfind hpart hresume hpaused hbarrier
      · exact reqResume_refused hslot hacc hfind hpart hresume hother
    · have hdrop (cancel : Bool) (hacc : accepted s h (dropOp cancel) .owned false = true) :=
        And.intro (drop_ends hacc hfind hpart hidle htrain) (drop_waits hacc hfind hpart hidle htrain)
      exact List.forall_mem_cons.2 ⟨hdrop true, List.forall_mem_singleton.2 (hdrop false)⟩
  · intro s h n ttl pl hslot hfind st
    refine List.forall_mem_cons.2 ⟨reqPause_missing hslot hfind, List.forall_mem_cons.2 ⟨reqResume_missing hslot hfind, ?_⟩⟩
    exact List.forall_mem_cons.2 ⟨drop_missing (cancel := true) hslot hfind,
      List.forall_mem_singleton.2 (drop_missing (cancel := false) hslot hfind)⟩
  · intro s e r others
    exact ⟨ttlExpiry_ends, ttlExpiry_passes, pauseSpillDone_ends, pauseSpillDone_passes,
      fun hstate hcancel hrelease _ => resumeCopyDone_ends hstate hcancel hrelease, resumeCopyDone_passes⟩

end
